-- ==== Sys2Proof/Word.lean ====
section
/-!
DEFINITION. The word types of the register pages (R448) and of the module's buffers (R10).
-/
namespace Sys2Proof

/-- A register word: every register is 32 bits wide (R448). -/
abbrev Word := BitVec 32

/-- One byte of a buffer, an image, a record or a message (R10). -/
abbrev Byte := BitVec 8

end Sys2Proof
end

