-- ==== Sys2Proof/Machine/Data.lean ====
section
/-!
DEFINITION. The records the module exchanges and keeps: detector reports and fault records (Table 10-2), log records
(Table 11-4), link frames and messages (Tables 09-4 and 09-7), the operands that inputs of the module carry.
-/
namespace Sys2Proof.Machine

/-- A report is an event, or the START or the CLR of a condition (R302, R307). -/
inductive Ind where
  | event | start | clr
  deriving DecidableEq, Repr

/-- A detector report (R302): SRC as block and instance number, KIND, ADDR, CLASS (0 corrected, 1 uncorrected, 2 fatal). -/
structure Rep where
  blk : Nat
  inst : Nat
  kind : Nat
  addr : Nat
  cls : Nat
  ind : Ind := .event
  forced : Bool := false
  persist : Bool := false
  frame : Option Nat := none
  deriving DecidableEq, Repr

/-- A condition that has had START without CLR (R308); `forced` tells a condition held by BLK_FORCE (R332). -/
structure Cond where
  blk : Nat
  inst : Nat
  kind : Nat
  addr : Nat
  cls : Nat
  forced : Bool
  deriving DecidableEq, Repr

/-- A fault record (Table 10-2). -/
structure FRec where
  seq : Nat
  blk : Nat
  inst : Nat
  cls : Nat
  tvalid : Bool
  kind : Nat
  clr : Bool := false
  forced : Bool := false
  shadow : Bool := false
  persist : Bool := false
  restart : Bool := false
  self : Bool := false
  joined : Bool := false
  rept : Bool := false
  addr : Nat
  frame : Nat
  time : Nat
  action : Nat := 0
  disp : Nat := 0
  deriving DecidableEq, Repr

/-- A pending record of the collector: its slack window ends at local tick `deadline` (R313 to R316). -/
structure Pend where
  seq : Nat
  blk : Nat
  inst : Nat
  kind : Nat
  addr : Nat
  cls : Nat
  cond : Bool
  deadline : Nat
  extended : Bool
  noCancel : Bool
  forced : Bool
  deriving DecidableEq, Repr

/-- A level-1 reset: held until RESET_DONE, its shadow until SHADOW_END (R320, R324); conditions it shadowed; ports whose retry stores it
lost, as a mask (R287); SEQ of the record that led to it. -/
structure Reset where
  blk : Nat
  inst : Nat
  held : Bool
  shadowed : List Cond
  lost : Nat := 0
  seq : Nat := 0
  relTick : Nat := 0
  deriving DecidableEq, Repr

/-- A log record (Table 11-4) with its body as 28 bytes. -/
structure LogRec where
  typ : Nat
  code : Nat
  rept : Nat := 0
  pcyc : Nat
  hours : Nat
  usec : Nat
  lastDt : Nat := 0
  fleetT : Nat
  body : List Nat
  deriving DecidableEq, Repr

/-- A record on its way to the log queue: `free` records take no token (R355). -/
structure LogArr where
  entry : LogRec
  free : Bool
  deriving DecidableEq, Repr

/-- Scope of a message destination (Table 09-7): unicast, ring broadcast, fleet broadcast, host at a module's address. -/
inductive Scope where
  | unicast | ring | fleet | host
  deriving DecidableEq, Repr

/-- A message (Table 09-7) with its payload bytes. DESIGN CHOICE (log 62): `relay` marks a message on the way over the ring between the lead and the
module that carries its fleet links (R295): 1 to 4 out of that module's FP0 to FP3, 5 to 8 come in by them, 0 none. `tick` is the local instant at which this module received it (R281). -/
structure Msg where
  chan : Nat
  west : Bool := false
  resp : Bool := false
  scope : Scope
  dst : Nat
  srcHost : Bool := false
  src : Nat
  mseq : Nat
  hops : Nat := 40
  tag : Nat := 0
  body : List Nat
  relay : Nat := 0
  tick : Nat := 0
  deriving DecidableEq, Repr

/-- Frame types of a link frame (Table 09-4). -/
inductive FType where
  | msg | beacon | idle | hello | diag | stopmap | other
  deriving DecidableEq, Repr

/-- A link frame as it stands on a port (Table 09-4): header words, body bytes and CRC. -/
structure Frame where
  lh0 : Nat
  lh1 : Nat
  body : List Nat
  crc : Nat
  deriving DecidableEq, Repr

/-- A monitor block as a chain port receives it (Table 07-4), with the slot it belongs to and the port that read it. -/
structure Block where
  slot : Nat
  fromB : Bool
  bytes : List Nat
  deriving DecidableEq, Repr

/-- What a bring-up of a ring finds (R217): monitors reached from port A and from port B, whether a PING from port A arrives at port
B, the loop times from port A (and, unless closed, from port B) in 6.25 ns. -/
structure RingScan where
  cntA : Nat
  cntB : Nat
  closed : Bool
  loop : Nat
  loopB : Nat
  deriving DecidableEq, Repr

/-- What the PINGs before a sweep find on a ring (R218, R238): whether the one from port A arrives at port B, and the loop times from port A and from
port B in 6.25 ns. -/
structure RingPing where
  reach : Bool
  loopA : Nat
  loopB : Nat
  deriving DecidableEq, Repr

/-- The input snapshot of a frame (R118, R192): the 50 rows of the frame that ends (raw codes of channels 0 to 95), the boundary sample of
those channels, the latest samples of channels 96 to 159; the engine reads of the ending frame that failed in both copies of their twin
array (core, whether in the weave, offset; R130); the words of the frame's reads that failed in one copy (store, copy, byte address; R339). -/
structure Snap where
  rows : List (List Int)
  inst : List Int
  ls : List Int
  ue : List (Nat × Bool × Nat)
  corr : List (Nat × Nat × Nat)
  deriving DecidableEq, Repr

end Sys2Proof.Machine
end

