-- ==== Sys2Proof/Syntax.lean ====
section
/-!
DEFINITION. The commands of the block: one constructor for each row of spec/opcode_table.json, in the table's order, with the operands
the model gives it (the table gives none; log 1).
-/
namespace Sys2Proof

open Sys2Proof.Machine in
/-- The commands (spec/opcode_table.json). -/
inductive Instr where
  | powerOnReset (strap : Fin 16) (rootCap : Bool)
  | level3Reset
  | bootRomStage (errA errB : Bool)
  | bootLoaderStage
  | bootFirmwareStage
  | bootStage3
  | bootSetStage
  | heartbeatSend
  | heartbeatReceive (west : Bool) (bytes : List Byte)
  | leadHeartbeatTimeout
  | electionComplete
  | peerLost (pos : Fin 10)
  | mirrorSend
  | mirrorReceive (bytes : List Byte)
  | shareReplan
  | hostRequestRedirect (tag : Fin 65536)
  | hostSilenceTimeout
  | shareSilenceTimeout
  | frameBoundary (snap : Snap)
  | overflowClear
  | busShore (p : Fin 2)
  | envStaleTimeout (p : Fin 2)
  | stoOffTimeout (p : Fin 2)
  | planBoundary
  | telemSend
  | telemReceive (bytes : List Byte)
  | rackDrawReport
  | shareSend
  | shareReceive (bytes : List Byte)
  | bwkCapHostWrite (v : Word)
  | bwkClrDev (dev : Bool)
  | missedEdge
  | lullTimeout
  | stepUpdateDone
  | markerReceive (bytes : List Byte) (fromRing : Bool)
  | markerStepHoldEnd
  | ttbCmdDropLock
  | ttbCmdClearSlot (n : Fin 4)
  | ttbTabWrite (hi : Word)
  | ttbTabRead
  | ttbLossDataAccess (w : Option Word)
  | cenCtlStart
  | coresStart
  | cenCtlStop
  | cenWinWrite (hi : Word)
  | cenWinRead
  | cenSwapWrite (v : Word)
  | bankSwap
  | cmdLate (core : Fin 4)
  | overrun (core : Fin 4)
  | dmaMiss (core : Fin 4) (ch : Fin 8) (cycle : Nat)
  | cenLawSelWrite (v : Word)
  | hoDefer
  | cenSpTgtWrite (v : Word)
  | spLag
  | cenStageSeal
  | stageCheckDone
  | phaseShedStart (conv : Fin 4)
  | phaseRotation
  | phsCmdRotNow
  | phsCmdPkClr
  | phsRearmWrite (hi : Bool) (v : Word)
  | brakeEnd (n : Fin 24) (sample : Int)
  | softStartShort (p : Fin 2)
  | phOcShore (n : Fin 40) (samples : List Int)
  | phImb (n : Fin 40)
  | phSense (p : Fin 2)
  | statusFrameReceive (link : Fin 8) (bytes : List Byte)
  | phaseLinkDown (link : Fin 8)
  | phaseLinkTrained (link : Fin 8) (trips : List Nat) (completed : Bool)
  | afeOpenDetect (c : Fin 160)
  | afeOpenEnd (c : Fin 160)
  | afeClrOpen
  | afeMonSelWrite (ch : Byte)
  | recorderFrozen
  | capCmdFreeze
  | capCmdRearm
  | capWinRead (err : Fin 3)
  | cliffTrip (cmp : Fin 11) (phase : Fin 40) (value : Int)
  | comparatorRelease (cmp : Fin 11) (phase : Fin 40) (value : Int)
  | comparatorSelfTest (ok : Bool)
  | trpClrLatch
  | chainBringup (ring : Fin 2) (scan : RingScan)
  | chainBringupRetry (ring : Fin 2) (scan : RingScan)
  | wchCmdEnum (scan0 : RingScan) (scan1 : RingScan)
  | sweepStart (ping0 : RingPing) (ping1 : RingPing)
  | sweepDataComposed (blocks : List Block)
  | alarmReceive (ring : Fin 2) (arg : Byte)
  | owtCycleStart
  | wchCmdOwtNow
  | wchCmdRearm (mon : Fin 64)
  | wchBalDataWrite (v : Word)
  | wchCellDataRead
  | pllLock
  | pllLockLoss
  | pllRelockRetry (locked : Bool)
  | refLost (src : Fin 3)
  | refRestore (src : Fin 3)
  | beaconSend (fleet : Bool)
  | beaconReceive (link : Fin 11) (ofs : Int) (valid holdover : Bool) (gen : Fin 65536) (root : Fin 16384) (depth : Fin 16) (upHere : Bool)
  | timeSourceLost
  | ppsEdge (dev : Int) (falling : Bool)
  | ppsLost
  | ppsOutPulse
  | timTodWrite (hi : Word)
  | timNowRead
  | rootTimeout
  | rootHoldoverTimeout
  | stakeCommit (data7 : Word)
  | stakeFire (bad : Bool)
  | stakeExpire (n : Fin 8192)
  | stkCmdArrive (n : Fin 8192)
  | arriveReceive (bytes : List Byte)
  | releaseReceive (bytes : List Byte)
  | barrierDeadline (n : Fin 8192)
  | portLight (p : Fin 7)
  | portTrained (p : Fin 7) (oneLane : Bool) (peerAddr : Fin 16384) (peerPort : Fin 8) (host : Bool) (rxLseq : Fin 4096) (dly : Fin 16777216) (win : Fin 256)
  | portDown (p : Fin 7)
  | laneLoss (p : Fin 7)
  | portRetrain (p : Fin 7)
  | portFailEnd (p : Fin 7)
  | lnkCmdRetrain (p : Fin 7)
  | idleSend (p : Fin 7)
  | linkFrameReceive (p : Fin 7) (bytes : List Byte) (bad : Bool)
  | retryTimeout (p : Fin 7) (bad : Bool)
  | stopmapSend
  | chStall (c : Fin 256)
  | messageAged (p : Fin 7) (c : Fin 256)
  | routeSend
  | routeReceive (link : Fin 8) (bytes : List Byte)
  | routeAgeOut (a : Fin 16384)
  | pathHoldEnd (d : Fin 16385)
  | regReadRequest (host : Bool) (src : Fin 16384) (tag : Fin 65536) (bytes : List Byte)
  | regWriteRequest (host : Bool) (src : Fin 16384) (tag : Fin 65536) (bytes : List Byte)
  | planReceive (bytes : List Byte)
  | planEnd
  | hostCmdReceive (bytes : List Byte)
  | faultMessageSend
  | faultMessageReceive (bytes : List Byte)
  | opticalDiag (p : Fin 7) (tx0 tx1 rx0 rx1 : Int) (rl : Fin 256)
  | lnkCmdBase (p : Fin 7)
  | lnkCmdPoolMinClr
  | reportIntake (bad : Bool)
  | slackExpiry
  | level1ResetDone (blk : Fin 21) (inst : Fin 64)
  | shadowEnd (blk : Fin 21) (inst : Fin 64)
  | dispHandled
  | dispEscalate
  | dispExtend
  | dispHold
  | fltClrLatch
  | fltClrFatal
  | fltClrFirst
  | fltClrStat
  | fltRecSeqWrite (v : Word)
  | forceInject (p : Fin 21) (kind : Fin 256) (inst : Fin 64) (cond : Bool)
  | forceClear (p : Fin 21) (kind : Fin 256) (inst : Fin 64)
  | queueOvf
  | scrubRead (st : Fin 18) (fail : List (Nat × Bool × Bool))
  | dramScrubRead (tile : Fin 20) (err : Fin 3)
  | memCmdScrubNow
  | fetchTrap (addr : Fin 2097152)
  | fetchTrapDone
  | mgtDmaHalt (ch : Fin 8) (st : Fin 52) (addr : Fin 2147483648)
  | memCmdDmaResume (ch : Fin 8)
  | logEnqueue
  | logRecordWrite (ok bad : Bool)
  | foldFlush
  | tokenRefill
  | operatingTimeSave
  | logPowerupCheck
  | logCmdErase
  | logEraseDone
  | logRdIdxWrite (v : Word)
  | logRdStreamRead
  | logNoteWrite (v : Word)
  | lockstep (addr : Word)
  | wdogExpiry
  | mgtWdogKick
  | sensorSample (v : List Int)
  | mgtCmdSensClr
  | secCmdDataWrite (v : Word)
  | provision (fuseOk entropyOk : Bool)
  | certStore
  | enterField (fuseOk : Bool)
  | debug
  | eraseGrant
  | svnAdvance (fuseOk : Bool)
  | returnCmd (fuseOk : Bool)
  | secDbgCmdWrite (v : Word)
  | debugGrantExpiry
  | attestationRequest (v : Word)
  | attestationReady
  | secMrExtend (v : Word)
  | secMrSelWrite (v : Word)
  | secAttDataRead
  | secCertDataAccess (wr : Bool) (v : Word)
  | mgtFwDataWrite (v : Word)
  | mgtFwErase
  | fwEraseDone
  | mgtFwVerify
  | fwVerifyDone (readErr : Bool)
  | mgtFwActivate
  | mgtFwConfirm (fuseOk : Bool)
  | mgtFwCancel
  | confirmTmo
  | mgtDbgHalt (target : Fin 8)
  | mgtDbgStep (target : Fin 8)
  | mgtDbgResume (target : Fin 8)
  | mgtDbgDataAccess (wr : Bool) (v : Word)
  | requestRun
  | requestStandby
  | requestService
  | runEntry
  | runExitDone
  | holdupEntry
  | holdupFlushDone (fails : List Nat)
  | holdupDomainsOff (links : Bool)
  | auxReturn
  | holdupExhausted
  | checkOccurrence
  | pwrOnWrite (v : Word)
  | domainPowerGood (d : Fin 20)
  | onFail (d : Fin 20)
  | pgLost (d : Fin 20)
  | auxOv
  | huCharge
  | huCapMeasure (cap : Fin 4096)
  | registerWrite (a : Word) (v : Word)
  | blkLockWrite (p : Fin 21) (v : Word)
  | blkCtlCntClr (p : Fin 21)
  | pmbTransaction (addr : Fin 128) (rd : Bool) (cmd : Byte) (data : List Byte) (pec : Option Bool)
  | pmbSclTimeout
  | pmStuck
  | smbusAlertResponse
  | page (w : Option Byte) (pec : Option Bool)
  | clearFaults (pec : Option Bool)
  | pmbClrFaults
  | capability
  | voutMode
  | statusByte
  | statusWord
  | statusVout
  | statusIout
  | statusInput
  | statusTemperature
  | statusCml
  | readVin
  | readIin
  | readVout
  | readIout
  | readTemperature1
  | readTemperature2
  | readTemperature3
  | readPout
  | readPin
  | pmbusRevision
  | mfrId
  | mfrModel
  | mfrRevision
  | mfrReadSoc
  | mfrReadPsto
  | mfrReadPlan
  | mfrState
  | mfrFltSeq
  | timeLost
  | sclReleased
  | auxOvClear
  deriving DecidableEq, Repr

end Sys2Proof
end

