-- ==== Sys2Proof/Machine/Bits.lean ====
section
/-!
DEFINITION. Byte, bit-field, sign and rounding helpers used by every family: little-endian bytes (R10), two's complement
fields, the roundings RNA, RNE and RDN (R109), saturation, and the CRCs the spec names.
-/
namespace Sys2Proof.Machine

/-- `w` bits of `v` from bit `lo`. -/
def bits (v lo w : Nat) : Nat := v / 2 ^ lo % 2 ^ w

/-- Bit `i` of `v`. -/
def bit (v i : Nat) : Bool := v / 2 ^ i % 2 = 1

/-- 1 for true, 0 for false. -/
def b2n (b : Bool) : Nat := if b then 1 else 0

/-- Set or clear bit `i` of `v`. -/
def setBit (v i : Nat) (b : Bool) : Nat := v - v / 2 ^ i % 2 * 2 ^ i + b2n b * 2 ^ i

/-- The word whose bit i (below n) is `f i`. -/
def ofBits (n : Nat) (f : Nat → Bool) : Nat :=
  (List.range n).foldl (fun a i => a + b2n (f i) * 2 ^ i) 0

/-- Value of a w-bit two's complement field. -/
def sext (w v : Nat) : Int := if v % 2 ^ w < 2 ^ (w - 1) then (v % 2 ^ w : Nat) else ((v % 2 ^ w : Nat) : Int) - 2 ^ w

/-- The w-bit two's complement pattern of an integer. -/
def enc (w : Nat) (i : Int) : Nat := (i % (2 ^ w : Nat)).toNat

/-- Hold an integer between two bounds. -/
def clampI (lo hi v : Int) : Int := if v < lo then lo else if hi < v then hi else v

/-- Hold a natural number between two bounds. -/
def clampN (lo hi v : Nat) : Nat := if v < lo then lo else if hi < v then hi else v

/-- Hold a rational between two bounds. -/
def clampQ (lo hi v : Rat) : Rat := if v < lo then lo else if hi < v then hi else v

/-- Round to nearest, ties away from zero (RNA, R109). -/
def rna (q : Rat) : Int := if q < 0 then -(-q + 1 / 2).floor else (q + 1 / 2).floor

/-- Round to nearest, ties to even (RNE, R109). -/
def rne (q : Rat) : Int :=
  let f := q.floor
  let d := q - f
  if d < 1 / 2 then f else if 1 / 2 < d then f + 1 else if f % 2 = 0 then f else f + 1

/-- Round down (RDN, R109). -/
def rdn (q : Rat) : Int := q.floor

/-- Absolute value of a rational. -/
def absQ (q : Rat) : Rat := if q < 0 then -q else q

/-- A rational in a w-bit signed field: rounded RNA, held at the ends of the field. -/
def encQ (w : Nat) (q : Rat) : Nat := enc w (clampI (-(2 ^ (w - 1) : Nat)) ((2 ^ (w - 1) : Nat) - 1) (rna q))

/-- A rational in a w-bit unsigned field: rounded RNA, held at the ends of the field. -/
def encU (w : Nat) (q : Rat) : Nat := (clampI 0 ((2 ^ w : Nat) - 1) (rna q)).toNat

/-- Little-endian value of `n` bytes of `b` from offset `o` (R10); bytes beyond the end read 0. -/
def le (b : List Nat) (o : Nat) : Nat → Nat
  | 0 => 0
  | n + 1 => b.getD o 0 % 256 + 256 * le b (o + 1) n

/-- The `n` little-endian bytes of `v` (R10). -/
def leBytes : Nat → Nat → List Nat
  | 0, _ => []
  | n + 1, v => v % 256 :: leBytes n (v / 256)

/-- `n` zero bytes. -/
def zeros (n : Nat) : List Nat := List.replicate n 0

/-- A list cut or filled with zeros to `n` bytes. -/
def pad (n : Nat) (b : List Nat) : List Nat := (b ++ zeros n).take n

/-- `a` is newer than `b` as w-bit serial numbers. -/
def serialNewer (w a b : Nat) : Bool :=
  decide (0 < (a + 2 ^ w - b % 2 ^ w) % 2 ^ w ∧ (a + 2 ^ w - b % 2 ^ w) % 2 ^ w < 2 ^ (w - 1))

/-- One bit of a reflected CRC with polynomial `p`. -/
def crcRefStep (p c : Nat) : Nat := if c % 2 = 1 then (c / 2) ^^^ p else c / 2

/-- One byte of a reflected CRC. -/
def crcRefByte (p c b : Nat) : Nat := Nat.repeat (crcRefStep p) 8 (c ^^^ (b % 256))

/-- CRC-32 of IEEE 802.3 over a byte list (Table 09-4). -/
def crc32 (b : List Nat) : Nat := (b.foldl (crcRefByte 0xEDB88320) 0xFFFFFFFF) ^^^ 0xFFFFFFFF

/-- One bit of a w-bit MSB-first CRC with polynomial `p`. -/
def crcMsbStep (w p c : Nat) : Nat :=
  if c / 2 ^ (w - 1) % 2 = 1 then (c * 2 % 2 ^ w) ^^^ p else c * 2 % 2 ^ w

/-- One byte of a w-bit MSB-first CRC. -/
def crcMsbByte (w p c b : Nat) : Nat := Nat.repeat (crcMsbStep w p) 8 (c ^^^ (b % 256 * 2 ^ (w - 8)))

/-- An MSB-first CRC of width w, polynomial p, initial value i. -/
def crcMsb (w p i : Nat) (b : List Nat) : Nat := b.foldl (crcMsbByte w p) i

/-- Sum of a list of naturals. -/
def sumN (l : List Nat) : Nat := l.foldl (· + ·) 0

/-- Sum of a list of rationals. -/
def sumQ (l : List Rat) : Rat := l.foldl (· + ·) 0

/-- Mean of a list of rationals; 0 for the empty list. -/
def meanQ (l : List Rat) : Rat := if l.length = 0 then 0 else sumQ l / (l.length : Nat)

/-- A bank of `n` like things, `d` where the list gives none. -/
def bank {α : Type} (n : Nat) (l : List α) (d : α) : List α := l.take n ++ List.replicate (n - l.length) d

end Sys2Proof.Machine
end

