-- ==== Sys2Proof/Machine/RegMap.lean ====
section
/-!
DEFINITION. The register map: every register of every page with its fields, their places, access types and reset
values, as the register tables of the chapters give them (R447 to R451, Tables 15-2 to 15-7 and the tables each row names).
`R.<REGISTER>_<FIELD>` names the place of one field. A reset entry that is no number stands as 0 here; `specialReset`
in Machine/Ops.lean gives what the model takes for it.
-/
namespace Sys2Proof.Machine

/-- Access types (Table 15-3). -/
inductive Acc where
  | ro | rw | rw1c | rw1s | rs | wo | rl
  deriving DecidableEq, Repr

/-- The place of a field: register address (page × 4,096 + offset, R447), lowest bit, width. -/
structure Fld where
  addr : Nat
  lo : Nat
  w : Nat
  deriving DecidableEq, Repr

/-- One field of a register table: place in the word, access type, reset value. -/
structure FieldRow where
  lo : Nat
  w : Nat
  acc : Acc
  rst : Nat
  deriving DecidableEq, Repr

/-- One row of a register table: `count` registers from offset `off`, `stride` bytes apart. `cnt`: the register's
word is a counter under R456 whose reset entry is 0 (R457). -/
structure RegRow where
  off : Nat
  count : Nat
  stride : Nat
  cnt : Bool
  fields : List FieldRow
  deriving DecidableEq, Repr

/-- The common header of every page (Table 10-14, Table 15-2). -/
def headerRows : List RegRow :=
  [
    ⟨0x000, 21, 4096, false, [⟨0, 8, .ro, 0⟩, ⟨8, 24, .ro, 0⟩]⟩,
    ⟨0x004, 21, 4096, false, [⟨0, 8, .ro, 0⟩, ⟨8, 8, .ro, 1⟩, ⟨16, 16, .ro, 176⟩]⟩,
    ⟨0x008, 21, 4096, false, [⟨0, 8, .ro, 0⟩, ⟨8, 1, .ro, 0⟩, ⟨9, 1, .ro, 1⟩]⟩,
    ⟨0x00C, 21, 4096, false, [⟨0, 1, .wo, 0⟩]⟩,
    ⟨0x010, 21, 4096, false, [⟨0, 1, .ro, 1⟩, ⟨1, 1, .ro, 0⟩, ⟨2, 1, .rs, 0⟩, ⟨3, 1, .ro, 0⟩, ⟨16, 12, .rs, 0⟩]⟩,
    ⟨0x014, 21, 4096, false, [⟨0, 1, .ro, 0⟩, ⟨1, 1, .rs, 0⟩, ⟨2, 2, .rs, 0⟩, ⟨4, 1, .ro, 0⟩, ⟨8, 8, .ro, 0⟩, ⟨16, 16, .ro, 0⟩]⟩,
    ⟨0x018, 21, 4096, false, [⟨0, 8, .rw, 0⟩, ⟨8, 6, .rw, 0⟩, ⟨14, 1, .rw, 0⟩, ⟨15, 1, .wo, 0⟩, ⟨16, 1, .wo, 0⟩, ⟨17, 1, .rw1c, 0⟩]⟩,
    ⟨0x01C, 21, 4096, false, [⟨0, 1, .rw1s, 0⟩, ⟨1, 1, .rw1c, 0⟩]⟩]

/-- Page 0 (Table 15-6). -/
def rowsDir : List RegRow :=
  [
    ⟨0x040, 1, 4, false, [⟨0, 8, .ro, 21⟩]⟩,
    ⟨0x080, 1, 4, false, [⟨0, 21, .ro, 2089471⟩]⟩,
    ⟨0x084, 1, 4, false, [⟨0, 21, .ro, 0⟩]⟩,
    ⟨0x100, 256, 4, false, [⟨0, 8, .ro, 0⟩, ⟨8, 5, .ro, 0⟩, ⟨13, 1, .ro, 0⟩, ⟨14, 1, .ro, 0⟩, ⟨15, 1, .ro, 0⟩, ⟨16, 8, .ro, 0⟩, ⟨24, 1, .ro, 0⟩]⟩]

/-- Page 1 (Table 01-5, Table 01-6, Table 01-7, Table 01-8, Table 15-6). -/
def rowsMod : List RegRow :=
  [
    ⟨0x040, 1, 4, false, [⟨0, 16, .ro, 3928⟩, ⟨16, 8, .ro, 1⟩, ⟨24, 8, .ro, 176⟩]⟩,
    ⟨0x044, 1, 4, false, [⟨0, 32, .ro, 0⟩]⟩,
    ⟨0x048, 1, 4, false, [⟨0, 32, .ro, 0⟩]⟩,
    ⟨0x04C, 1, 4, false, [⟨0, 16, .ro, 0⟩, ⟨16, 8, .ro, 0⟩]⟩,
    ⟨0x100, 1, 4, false, [⟨0, 4, .ro, 0⟩, ⟨4, 1, .ro, 0⟩, ⟨7, 1, .ro, 0⟩]⟩,
    ⟨0x104, 1, 4, false, [⟨0, 2, .rl, 0⟩, ⟨2, 1, .rl, 1⟩, ⟨4, 2, .rl, 0⟩, ⟨8, 2, .rl, 1⟩, ⟨12, 4, .rl, 1⟩, ⟨16, 16, .rl, 100⟩]⟩,
    ⟨0x108, 1, 4, false, [⟨0, 2, .ro, 0⟩, ⟨2, 1, .ro, 0⟩, ⟨3, 1, .ro, 0⟩, ⟨4, 4, .ro, 15⟩, ⟨8, 4, .ro, 15⟩, ⟨12, 10, .ro, 0⟩, ⟨22, 2, .ro, 3⟩, ⟨24, 1, .rs, 0⟩, ⟨25, 1, .ro, 0⟩, ⟨26, 1, .ro, 0⟩, ⟨27, 1, .ro, 0⟩, ⟨28, 1, .ro, 0⟩, ⟨29, 1, .ro, 0⟩]⟩,
    ⟨0x10C, 1, 4, true, [⟨0, 32, .ro, 0⟩]⟩]

/-- Page 2 (Table 14-12). -/
def rowsPwr : List RegRow :=
  [
    ⟨0x040, 1, 4, false, [⟨0, 4, .rl, 12⟩]⟩,
    ⟨0x044, 1, 4, false, [⟨0, 20, .rw, 655375⟩]⟩,
    ⟨0x080, 1, 4, false, [⟨0, 20, .ro, 655375⟩, ⟨20, 1, .ro, 0⟩, ⟨21, 1, .ro, 1⟩, ⟨22, 1, .ro, 0⟩]⟩,
    ⟨0x084, 1, 4, false, [⟨0, 20, .rw1c, 0⟩]⟩,
    ⟨0x088, 1, 4, false, [⟨0, 16, .ro, 0⟩, ⟨16, 12, .ro, 0⟩]⟩,
    ⟨0x08C, 1, 4, false, [⟨0, 16, .ro, 0⟩, ⟨16, 16, .ro, 0⟩]⟩,
    ⟨0x090, 1, 4, false, [⟨0, 32, .ro, 0⟩]⟩,
    ⟨0x094, 1, 4, true, [⟨0, 32, .ro, 0⟩]⟩,
    ⟨0x098, 1, 4, true, [⟨0, 32, .ro, 0⟩]⟩,
    ⟨0x0C0, 1, 4, false, [⟨0, 1, .rw1c, 0⟩, ⟨1, 1, .rw1c, 0⟩, ⟨2, 1, .rw1c, 0⟩, ⟨3, 1, .rw1c, 0⟩, ⟨4, 1, .rw1c, 0⟩, ⟨5, 1, .rw1c, 0⟩]⟩]

/-- Page 3 (Table 08-11). -/
def rowsClk : List RegRow :=
  [
    ⟨0x040, 1, 4, false, [⟨0, 2, .rl, 0⟩]⟩,
    ⟨0x080, 1, 4, false, [⟨0, 1, .ro, 0⟩, ⟨1, 2, .ro, 0⟩, ⟨3, 1, .ro, 0⟩, ⟨4, 1, .ro, 0⟩, ⟨5, 1, .ro, 0⟩]⟩,
    ⟨0x084, 1, 4, false, [⟨0, 32, .ro, 0⟩]⟩,
    ⟨0x088, 1, 4, true, [⟨0, 32, .ro, 0⟩]⟩,
    ⟨0x0C0, 1, 4, false, [⟨0, 1, .rw1c, 0⟩, ⟨1, 1, .rw1c, 0⟩]⟩]

/-- Page 4 (Table 08-12). -/
def rowsTim : List RegRow :=
  [
    ⟨0x040, 1, 4, false, [⟨0, 8, .rl, 100⟩, ⟨8, 8, .rl, 100⟩, ⟨16, 16, .rl, 1000⟩]⟩,
    ⟨0x044, 1, 4, false, [⟨0, 8, .rl, 20⟩, ⟨8, 16, .rl, 1000⟩]⟩,
    ⟨0x048, 1, 4, false, [⟨0, 1, .rw, 0⟩, ⟨1, 1, .rl, 0⟩, ⟨16, 16, .rl, 0⟩]⟩,
    ⟨0x04C, 1, 4, false, [⟨0, 16, .rl, 0⟩]⟩,
    ⟨0x050, 1, 4, false, [⟨0, 16, .rl, 0⟩]⟩,
    ⟨0x054, 1, 4, false, [⟨0, 16, .rl, 0⟩]⟩,
    ⟨0x058, 1, 4, false, [⟨0, 32, .rw, 0⟩]⟩,
    ⟨0x05C, 1, 4, false, [⟨0, 32, .rw, 0⟩]⟩,
    ⟨0x080, 1, 4, false, [⟨0, 2, .ro, 0⟩, ⟨2, 1, .ro, 0⟩, ⟨3, 3, .ro, 0⟩, ⟨6, 1, .ro, 0⟩, ⟨7, 1, .ro, 0⟩]⟩,
    ⟨0x084, 1, 4, false, [⟨0, 32, .ro, 0⟩]⟩,
    ⟨0x088, 1, 4, false, [⟨0, 32, .ro, 0⟩]⟩,
    ⟨0x08C, 1, 4, false, [⟨0, 32, .ro, 0⟩]⟩] ++
  [
    ⟨0x090, 1, 4, false, [⟨0, 16, .ro, 0⟩, ⟨16, 16, .ro, 0⟩]⟩,
    ⟨0x094, 1, 4, false, [⟨0, 16, .ro, 0⟩, ⟨16, 14, .ro, 0⟩]⟩,
    ⟨0x0A0, 1, 4, true, [⟨0, 32, .ro, 0⟩]⟩,
    ⟨0x0A4, 1, 4, true, [⟨0, 32, .ro, 0⟩]⟩,
    ⟨0x0C0, 1, 4, false, [⟨0, 1, .rw1c, 0⟩, ⟨1, 1, .rw1c, 0⟩, ⟨2, 1, .rw1c, 0⟩, ⟨3, 1, .rw1c, 0⟩, ⟨4, 1, .rw1c, 0⟩, ⟨5, 1, .rw1c, 0⟩]⟩]

/-- Page 5 (Table 08-13). -/
def rowsStk : List RegRow :=
  [
    ⟨0x080, 1, 4, false, [⟨0, 14, .ro, 0⟩]⟩,
    ⟨0x084, 1, 4, false, [⟨0, 13, .ro, 0⟩]⟩,
    ⟨0x088, 1, 4, false, [⟨0, 32, .ro, 0⟩]⟩,
    ⟨0x090, 1, 4, true, [⟨0, 32, .ro, 0⟩]⟩,
    ⟨0x094, 1, 4, true, [⟨0, 32, .ro, 0⟩]⟩,
    ⟨0x098, 1, 4, true, [⟨0, 32, .ro, 0⟩]⟩,
    ⟨0x09C, 1, 4, true, [⟨0, 32, .ro, 0⟩]⟩,
    ⟨0x0A0, 1, 4, false, [⟨0, 32, .rw1c, 0⟩]⟩,
    ⟨0x0A4, 1, 4, false, [⟨0, 1, .wo, 0⟩, ⟨1, 13, .wo, 0⟩]⟩,
    ⟨0x0C0, 1, 4, false, [⟨0, 13, .rw, 0⟩, ⟨13, 1, .rw1c, 0⟩]⟩,
    ⟨0x0C4, 8, 4, false, [⟨0, 32, .rw, 0⟩]⟩,
    ⟨0x0F0, 1, 4, false, [⟨0, 1, .rw1c, 0⟩, ⟨1, 1, .rw1c, 0⟩, ⟨2, 1, .rw1c, 0⟩, ⟨3, 1, .rw1c, 0⟩]⟩]

/-- Page 6 (Table 02-10, Table 02-11, Table 02-12, Table 02-13, Table 02-14, Table 02-15, Table 02-16, Table 02-17, Table 02-18, Table 02-19, Table 02-20, Table 02-21, Table 02-22, Table 02-23, Table 02-24, Table 02-25, Table 02-26, Table 02-27, Table 02-28, Table 02-29, Table 02-30, Table 02-31). -/
def rowsBwk : List RegRow :=
  [
    ⟨0x040, 1, 4, false, [⟨0, 2, .rl, 0⟩, ⟨2, 4, .rl, 2⟩, ⟨6, 1, .rl, 1⟩, ⟨8, 8, .rl, 80⟩, ⟨16, 8, .rl, 10⟩]⟩,
    ⟨0x044, 1, 4, false, [⟨0, 16, .rl, 40000⟩, ⟨16, 12, .rl, 240⟩]⟩,
    ⟨0x048, 1, 4, false, [⟨0, 8, .rl, 12⟩]⟩,
    ⟨0x04C, 1, 4, false, [⟨0, 10, .rl, 100⟩, ⟨16, 12, .rl, 50⟩]⟩,
    ⟨0x050, 1, 4, false, [⟨0, 10, .rw, 50⟩, ⟨16, 8, .rw, 50⟩]⟩,
    ⟨0x054, 1, 4, false, [⟨0, 8, .rl, 40⟩, ⟨8, 8, .rl, 100⟩, ⟨16, 8, .rl, 160⟩, ⟨24, 8, .rl, 25⟩]⟩,
    ⟨0x058, 1, 4, false, [⟨0, 8, .rw, 20⟩, ⟨8, 8, .rw, 100⟩]⟩,
    ⟨0x05C, 1, 4, false, [⟨0, 8, .rl, 50⟩, ⟨8, 8, .rl, 3⟩, ⟨16, 16, .rl, 100⟩]⟩,
    ⟨0x060, 1, 4, false, [⟨0, 16, .rw, 41200⟩, ⟨16, 16, .rw, 38800⟩]⟩,
    ⟨0x064, 1, 4, false, [⟨0, 16, .rw, 65535⟩]⟩,
    ⟨0x068, 1, 4, false, [⟨0, 16, .ro, 65535⟩]⟩,
    ⟨0x06C, 1, 4, false, [⟨0, 16, .rl, 2000⟩]⟩] ++
  [
    ⟨0x080, 1, 4, false, [⟨0, 3, .ro, 0⟩, ⟨3, 1, .ro, 0⟩, ⟨4, 1, .ro, 0⟩, ⟨5, 1, .ro, 0⟩, ⟨6, 1, .ro, 0⟩, ⟨7, 1, .ro, 0⟩, ⟨8, 1, .ro, 0⟩, ⟨9, 1, .ro, 0⟩, ⟨10, 1, .ro, 0⟩, ⟨11, 1, .ro, 0⟩, ⟨12, 1, .ro, 0⟩, ⟨13, 1, .ro, 0⟩, ⟨14, 1, .ro, 0⟩, ⟨15, 1, .ro, 0⟩, ⟨16, 1, .ro, 0⟩]⟩,
    ⟨0x084, 1, 4, false, [⟨0, 16, .ro, 0⟩, ⟨16, 16, .ro, 0⟩]⟩,
    ⟨0x088, 1, 4, false, [⟨0, 16, .ro, 0⟩, ⟨16, 16, .ro, 65535⟩]⟩,
    ⟨0x08C, 1, 4, false, [⟨0, 16, .ro, 0⟩, ⟨16, 16, .ro, 0⟩]⟩,
    ⟨0x090, 1, 4, false, [⟨0, 16, .ro, 0⟩, ⟨16, 8, .ro, 0⟩]⟩,
    ⟨0x094, 1, 4, false, [⟨0, 16, .ro, 0⟩, ⟨16, 16, .ro, 0⟩]⟩,
    ⟨0x098, 1, 4, false, [⟨0, 16, .ro, 0⟩, ⟨16, 16, .ro, 0⟩]⟩,
    ⟨0x09C, 1, 4, false, [⟨0, 10, .ro, 0⟩, ⟨16, 10, .ro, 0⟩]⟩,
    ⟨0x0A0, 1, 4, false, [⟨0, 16, .ro, 65535⟩, ⟨16, 5, .ro, 3⟩, ⟨21, 10, .ro, 100⟩]⟩,
    ⟨0x0A4, 1, 4, false, [⟨0, 16, .ro, 0⟩, ⟨16, 16, .ro, 0⟩]⟩,
    ⟨0x0A8, 1, 4, false, [⟨0, 16, .ro, 0⟩, ⟨16, 16, .ro, 0⟩]⟩,
    ⟨0x0AC, 1, 4, false, [⟨0, 16, .ro, 0⟩, ⟨16, 16, .ro, 0⟩]⟩] ++
  [
    ⟨0x0B0, 1, 4, true, [⟨0, 32, .ro, 0⟩]⟩,
    ⟨0x0B4, 1, 4, true, [⟨0, 32, .ro, 0⟩]⟩,
    ⟨0x0B8, 1, 4, true, [⟨0, 32, .ro, 0⟩]⟩,
    ⟨0x0BC, 1, 4, false, [⟨0, 16, .ro, 65535⟩, ⟨16, 16, .ro, 0⟩]⟩,
    ⟨0x0C0, 1, 4, false, [⟨0, 1, .rw1c, 0⟩, ⟨1, 1, .rw1c, 0⟩, ⟨2, 1, .rw1c, 0⟩, ⟨3, 1, .rw1c, 0⟩, ⟨4, 1, .rw1c, 0⟩, ⟨5, 1, .rw1c, 0⟩, ⟨6, 1, .rw1c, 0⟩]⟩,
    ⟨0x0C4, 1, 4, false, [⟨0, 1, .wo, 0⟩]⟩]

/-- Page 7 (Table 03-10, Table 03-11, Table 03-12, Table 03-13, Table 03-14, Table 03-15, Table 03-16, Table 03-17, Table 03-18, Table 03-19, Table 03-20, Table 03-21, Table 03-9). -/
def rowsTtb : List RegRow :=
  [
    ⟨0x040, 1, 4, false, [⟨0, 1, .rl, 1⟩, ⟨1, 1, .rw, 1⟩, ⟨2, 1, .rl, 1⟩, ⟨4, 4, .rl, 4⟩, ⟨8, 4, .rl, 4⟩, ⟨12, 4, .rl, 4⟩, ⟨16, 8, .rl, 25⟩, ⟨24, 4, .rl, 3⟩]⟩,
    ⟨0x044, 1, 4, false, [⟨0, 8, .rl, 50⟩, ⟨8, 4, .rl, 2⟩, ⟨12, 4, .rl, 4⟩, ⟨16, 8, .rl, 75⟩, ⟨24, 8, .rl, 40⟩]⟩,
    ⟨0x048, 1, 4, false, [⟨0, 8, .rl, 40⟩, ⟨8, 16, .rl, 400⟩]⟩,
    ⟨0x04C, 1, 4, false, [⟨0, 16, .rl, 600⟩, ⟨16, 16, .rl, 5000⟩]⟩,
    ⟨0x080, 1, 4, false, [⟨0, 3, .ro, 0⟩, ⟨3, 1, .ro, 0⟩, ⟨4, 1, .ro, 0⟩, ⟨5, 1, .ro, 0⟩, ⟨6, 1, .ro, 0⟩, ⟨7, 1, .ro, 0⟩, ⟨8, 2, .ro, 0⟩, ⟨10, 3, .ro, 1⟩, ⟨13, 4, .ro, 0⟩, ⟨17, 5, .ro, 0⟩]⟩,
    ⟨0x084, 1, 4, false, [⟨0, 32, .ro, 0⟩]⟩,
    ⟨0x088, 1, 4, false, [⟨0, 32, .ro, 0⟩]⟩,
    ⟨0x08C, 1, 4, false, [⟨0, 32, .ro, 0⟩]⟩,
    ⟨0x090, 1, 4, false, [⟨0, 32, .ro, 0⟩]⟩,
    ⟨0x094, 1, 4, false, [⟨0, 32, .ro, 0⟩]⟩,
    ⟨0x098, 1, 4, false, [⟨0, 16, .ro, 0⟩]⟩,
    ⟨0x09C, 1, 4, false, [⟨0, 16, .ro, 0⟩, ⟨16, 16, .ro, 0⟩]⟩] ++
  [
    ⟨0x0A0, 4, 4, false, [⟨0, 16, .ro, 0⟩, ⟨16, 8, .ro, 0⟩, ⟨24, 1, .ro, 0⟩, ⟨25, 1, .ro, 0⟩]⟩,
    ⟨0x0B0, 4, 4, false, [⟨0, 32, .ro, 0⟩]⟩,
    ⟨0x0C0, 1, 4, true, [⟨0, 32, .ro, 0⟩]⟩,
    ⟨0x0C4, 1, 4, true, [⟨0, 32, .ro, 0⟩]⟩,
    ⟨0x0C8, 1, 4, true, [⟨0, 32, .ro, 0⟩]⟩,
    ⟨0x0CC, 1, 4, true, [⟨0, 32, .ro, 0⟩]⟩,
    ⟨0x0D0, 1, 4, true, [⟨0, 32, .ro, 0⟩]⟩,
    ⟨0x0D4, 1, 4, true, [⟨0, 32, .ro, 0⟩]⟩,
    ⟨0x0D8, 1, 4, true, [⟨0, 32, .ro, 0⟩]⟩,
    ⟨0x0E0, 1, 4, false, [⟨0, 32, .ro, 0⟩]⟩,
    ⟨0x0E4, 1, 4, false, [⟨0, 3, .ro, 0⟩, ⟨8, 8, .ro, 0⟩, ⟨16, 16, .ro, 0⟩]⟩,
    ⟨0x0F0, 1, 4, false, [⟨0, 1, .rw1c, 0⟩, ⟨1, 1, .rw1c, 0⟩, ⟨2, 1, .rw1c, 0⟩, ⟨3, 1, .rw1c, 0⟩, ⟨4, 1, .rw1c, 0⟩, ⟨5, 1, .rw1c, 0⟩, ⟨6, 1, .rw1c, 0⟩]⟩] ++
  [
    ⟨0x0F4, 1, 4, false, [⟨0, 1, .wo, 0⟩, ⟨1, 1, .wo, 0⟩, ⟨2, 2, .wo, 0⟩]⟩,
    ⟨0x100, 1, 4, false, [⟨0, 14, .rw, 0⟩, ⟨14, 1, .rw1c, 0⟩]⟩,
    ⟨0x104, 1, 4, false, [⟨0, 32, .rw, 0⟩]⟩,
    ⟨0x108, 1, 4, false, [⟨0, 32, .rw, 0⟩]⟩,
    ⟨0x10C, 1, 4, false, [⟨0, 10, .rw, 0⟩]⟩,
    ⟨0x110, 1, 4, false, [⟨0, 32, .rw, 0⟩]⟩,
    ⟨0x120, 4, 4, false, [⟨0, 12, .ro, 0⟩, ⟨12, 1, .ro, 0⟩]⟩]

/-- Page 8 (Table 04-13, Table 04-14, Table 04-15, Table 04-16, Table 04-17, Table 04-18, Table 04-19, Table 04-20, Table 04-21, Table 04-22, Table 05-13, Table 05-15, Table 05-16, Table 05-17, Table 05-18, Table 05-19, Table 05-20). -/
def rowsCen : List RegRow :=
  [
    ⟨0x040, 1, 4, false, [⟨0, 4, .rl, 15⟩, ⟨4, 1, .rl, 1⟩]⟩,
    ⟨0x044, 1, 4, false, [⟨0, 1, .wo, 0⟩, ⟨1, 1, .wo, 0⟩]⟩,
    ⟨0x080, 1, 4, false, [⟨0, 2, .ro, 0⟩, ⟨2, 2, .ro, 0⟩, ⟨4, 2, .ro, 0⟩, ⟨6, 2, .ro, 0⟩, ⟨8, 1, .ro, 0⟩, ⟨9, 1, .ro, 0⟩, ⟨10, 1, .ro, 0⟩, ⟨11, 1, .ro, 0⟩, ⟨12, 1, .ro, 1⟩, ⟨16, 3, .ro, 0⟩]⟩,
    ⟨0x084, 1, 4, false, [⟨0, 32, .ro, 0⟩]⟩,
    ⟨0x088, 1, 4, false, [⟨0, 8, .ro, 0⟩, ⟨16, 11, .ro, 0⟩]⟩,
    ⟨0x090, 4, 4, false, [⟨0, 13, .ro, 0⟩, ⟨16, 13, .ro, 8191⟩]⟩,
    ⟨0x0A0, 4, 4, false, [⟨0, 13, .ro, 0⟩, ⟨16, 13, .ro, 8191⟩]⟩,
    ⟨0x0B0, 1, 4, false, [⟨0, 32, .ro, 0⟩]⟩,
    ⟨0x0B4, 1, 4, false, [⟨0, 32, .ro, 0⟩]⟩,
    ⟨0x0B8, 1, 4, false, [⟨0, 32, .ro, 0⟩]⟩,
    ⟨0x0C0, 1, 4, false, [⟨0, 32, .ro, 0⟩]⟩,
    ⟨0x0C4, 1, 4, false, [⟨0, 32, .ro, 0⟩]⟩] ++
  [
    ⟨0x0D0, 1, 4, true, [⟨0, 32, .ro, 0⟩]⟩,
    ⟨0x0D4, 1, 4, true, [⟨0, 32, .ro, 0⟩]⟩,
    ⟨0x0D8, 1, 4, true, [⟨0, 32, .ro, 0⟩]⟩,
    ⟨0x0DC, 1, 4, true, [⟨0, 32, .ro, 0⟩]⟩,
    ⟨0x0E0, 4, 4, true, [⟨0, 32, .ro, 0⟩]⟩,
    ⟨0x0F0, 1, 4, false, [⟨0, 1, .rw1c, 0⟩, ⟨1, 1, .rw1c, 0⟩, ⟨2, 1, .rw1c, 0⟩, ⟨3, 1, .rw1c, 0⟩, ⟨4, 1, .rw1c, 0⟩, ⟨5, 1, .rw1c, 0⟩, ⟨6, 1, .rw1c, 0⟩, ⟨7, 1, .rw1c, 0⟩]⟩,
    ⟨0x100, 1, 4, false, [⟨0, 32, .rw, 0⟩]⟩,
    ⟨0x104, 1, 4, false, [⟨0, 32, .ro, 0⟩]⟩,
    ⟨0x180, 1, 4, false, [⟨0, 22, .rw, 0⟩, ⟨22, 2, .rw, 0⟩, ⟨24, 1, .rw, 0⟩, ⟨25, 1, .rw1c, 0⟩]⟩,
    ⟨0x184, 1, 4, false, [⟨0, 32, .rw, 0⟩]⟩,
    ⟨0x188, 1, 4, false, [⟨0, 32, .rw, 0⟩]⟩,
    ⟨0x200, 1, 4, false, [⟨0, 4, .ro, 0⟩, ⟨4, 1, .ro, 0⟩, ⟨5, 1, .ro, 0⟩, ⟨6, 1, .ro, 0⟩, ⟨7, 1, .ro, 0⟩, ⟨8, 1, .ro, 0⟩, ⟨9, 1, .ro, 0⟩, ⟨10, 1, .ro, 0⟩, ⟨11, 1, .ro, 0⟩, ⟨12, 1, .ro, 0⟩, ⟨13, 2, .ro, 0⟩]⟩] ++
  [
    ⟨0x204, 1, 4, false, [⟨0, 1, .rw, 0⟩, ⟨1, 1, .rw, 0⟩, ⟨2, 1, .rw, 0⟩]⟩,
    ⟨0x208, 1, 4, false, [⟨0, 16, .rl, 200⟩, ⟨16, 8, .rl, 10⟩, ⟨24, 8, .rl, 25⟩]⟩,
    ⟨0x20C, 1, 4, false, [⟨0, 16, .ro, 0⟩, ⟨16, 16, .ro, 0⟩]⟩,
    ⟨0x210, 1, 4, true, [⟨0, 32, .ro, 0⟩]⟩,
    ⟨0x214, 1, 4, false, [⟨0, 8, .rl, 80⟩, ⟨8, 8, .rl, 25⟩, ⟨16, 8, .rl, 20⟩, ⟨24, 8, .rl, 20⟩]⟩,
    ⟨0x218, 1, 4, false, [⟨0, 16, .rw, 40000⟩]⟩,
    ⟨0x21C, 1, 4, false, [⟨0, 16, .ro, 0⟩, ⟨16, 16, .ro, 0⟩]⟩,
    ⟨0x220, 1, 4, false, [⟨0, 16, .rl, 10⟩, ⟨16, 16, .rl, 10⟩]⟩,
    ⟨0x224, 1, 4, false, [⟨0, 1, .rw1c, 0⟩, ⟨1, 1, .rw1c, 0⟩, ⟨2, 1, .rw1c, 0⟩, ⟨3, 1, .rw1c, 0⟩, ⟨4, 1, .rw1c, 0⟩, ⟨5, 1, .rw1c, 0⟩]⟩,
    ⟨0x228, 1, 4, false, [⟨0, 1, .wo, 0⟩, ⟨1, 1, .ro, 0⟩, ⟨2, 1, .ro, 0⟩]⟩]

/-- Page 9 (Table 06-15, Table 06-16, Table 06-17). -/
def rowsPhs : List RegRow :=
  [
    ⟨0x040, 1, 4, false, [⟨0, 10, .rl, 521⟩, ⟨16, 4, .rl, 2⟩, ⟨20, 4, .rl, 2⟩]⟩,
    ⟨0x044, 1, 4, false, [⟨0, 8, .rl, 8⟩, ⟨8, 8, .rl, 16⟩, ⟨16, 8, .rl, 64⟩, ⟨24, 8, .rl, 64⟩]⟩,
    ⟨0x048, 1, 4, false, [⟨0, 10, .rl, 256⟩, ⟨16, 10, .rl, 256⟩]⟩,
    ⟨0x04C, 1, 4, false, [⟨0, 8, .rl, 50⟩, ⟨8, 8, .rl, 80⟩, ⟨16, 8, .rl, 125⟩, ⟨24, 8, .rl, 4⟩]⟩,
    ⟨0x050, 1, 4, false, [⟨0, 16, .rl, 200⟩, ⟨16, 16, .rl, 2000⟩]⟩,
    ⟨0x054, 1, 4, false, [⟨0, 16, .rl, 60⟩, ⟨16, 16, .rl, 4000⟩]⟩,
    ⟨0x058, 1, 4, false, [⟨0, 8, .rl, 8⟩, ⟨8, 8, .rl, 8⟩, ⟨16, 8, .rl, 20⟩, ⟨24, 8, .rl, 16⟩]⟩,
    ⟨0x05C, 1, 4, false, [⟨0, 8, .rl, 150⟩, ⟨8, 4, .rl, 3⟩, ⟨16, 8, .rl, 95⟩, ⟨24, 8, .rl, 110⟩]⟩,
    ⟨0x060, 1, 4, false, [⟨0, 8, .rl, 10⟩, ⟨8, 8, .rl, 10⟩]⟩,
    ⟨0x064, 1, 4, false, [⟨0, 8, .rl, 20⟩, ⟨8, 8, .rl, 10⟩]⟩,
    ⟨0x080, 1, 4, false, [⟨0, 4, .ro, 0⟩, ⟨4, 4, .ro, 0⟩, ⟨8, 4, .ro, 0⟩, ⟨12, 4, .ro, 0⟩, ⟨16, 4, .ro, 0⟩, ⟨20, 4, .ro, 0⟩, ⟨24, 4, .ro, 0⟩, ⟨28, 4, .ro, 0⟩]⟩,
    ⟨0x084, 1, 4, false, [⟨0, 8, .ro, 0⟩, ⟨8, 8, .ro, 0⟩, ⟨16, 8, .ro, 0⟩]⟩] ++
  [
    ⟨0x088, 1, 4, false, [⟨0, 1, .rw1c, 0⟩, ⟨1, 1, .rw1c, 0⟩, ⟨2, 1, .rw1c, 0⟩, ⟨3, 1, .rw1c, 0⟩, ⟨4, 1, .rw1c, 0⟩, ⟨5, 1, .rw1c, 0⟩, ⟨6, 1, .rw1c, 0⟩, ⟨7, 1, .rw1c, 0⟩, ⟨8, 1, .rw1c, 0⟩, ⟨9, 1, .rw1c, 0⟩]⟩,
    ⟨0x08C, 1, 4, false, [⟨0, 1, .wo, 0⟩, ⟨1, 1, .wo, 0⟩]⟩,
    ⟨0x090, 1, 4, false, [⟨0, 32, .wo, 0⟩]⟩,
    ⟨0x094, 1, 4, false, [⟨0, 8, .wo, 0⟩]⟩,
    ⟨0x098, 1, 4, false, [⟨0, 32, .ro, 0⟩]⟩,
    ⟨0x09C, 1, 4, false, [⟨0, 8, .ro, 0⟩]⟩,
    ⟨0x0A0, 1, 4, true, [⟨0, 32, .ro, 0⟩]⟩,
    ⟨0x0A4, 1, 4, true, [⟨0, 32, .ro, 0⟩]⟩,
    ⟨0x0A8, 1, 4, true, [⟨0, 32, .ro, 0⟩]⟩,
    ⟨0x0AC, 1, 4, true, [⟨0, 32, .ro, 0⟩]⟩,
    ⟨0x0B0, 1, 4, true, [⟨0, 32, .ro, 0⟩]⟩,
    ⟨0x0C0, 8, 4, true, [⟨0, 32, .ro, 0⟩]⟩] ++
  [
    ⟨0x0E0, 8, 4, false, [⟨0, 11, .ro, 0⟩]⟩,
    ⟨0x100, 40, 4, false, [⟨0, 1, .rl, 1⟩, ⟨1, 4, .rl, 0⟩]⟩,
    ⟨0x200, 40, 4, false, [⟨0, 3, .ro, 0⟩, ⟨3, 4, .ro, 0⟩, ⟨8, 5, .rs, 0⟩, ⟨15, 17, .ro, 0⟩]⟩,
    ⟨0x300, 40, 4, false, [⟨0, 16, .ro, 0⟩, ⟨16, 16, .ro, 0⟩]⟩,
    ⟨0x400, 40, 4, false, [⟨0, 16, .ro, 32768⟩, ⟨16, 16, .ro, 32767⟩]⟩]

/-- Page 10 (Table 06-18). -/
def rowsAfe : List RegRow :=
  [
    ⟨0x040, 1, 4, false, [⟨0, 1, .rl, 1⟩, ⟨4, 4, .rl, 3⟩]⟩,
    ⟨0x080, 5, 4, false, [⟨0, 32, .rs, 0⟩]⟩,
    ⟨0x0A0, 5, 4, false, [⟨0, 32, .rw1c, 0⟩]⟩,
    ⟨0x0C0, 1, 4, false, [⟨0, 8, .rw, 0⟩]⟩,
    ⟨0x0C4, 1, 4, false, [⟨0, 16, .ro, 0⟩, ⟨16, 16, .ro, 0⟩]⟩,
    ⟨0x0C8, 1, 4, false, [⟨0, 16, .ro, 32768⟩, ⟨16, 16, .ro, 32767⟩]⟩,
    ⟨0x0D0, 1, 4, false, [⟨0, 1, .wo, 0⟩]⟩,
    ⟨0x100, 160, 4, false, [⟨0, 16, .rl, 32768⟩, ⟨16, 16, .rl, 0⟩]⟩]

/-- Page 11 (Table 06-19). -/
def rowsCap : List RegRow :=
  [
    ⟨0x040, 1, 4, false, [⟨0, 1, .rl, 1⟩, ⟨1, 3, .rw, 6⟩, ⟨8, 8, .rw, 20⟩]⟩,
    ⟨0x080, 1, 4, false, [⟨0, 1, .ro, 0⟩, ⟨1, 1, .ro, 0⟩, ⟨16, 16, .ro, 0⟩]⟩,
    ⟨0x084, 1, 4, false, [⟨0, 32, .ro, 0⟩]⟩,
    ⟨0x088, 1, 4, false, [⟨0, 32, .ro, 0⟩]⟩,
    ⟨0x08C, 1, 4, false, [⟨0, 1, .wo, 0⟩, ⟨1, 1, .wo, 0⟩]⟩,
    ⟨0x0C0, 1, 4, false, [⟨0, 30, .rw, 0⟩]⟩,
    ⟨0x0C4, 1, 4, false, [⟨0, 32, .ro, 0⟩]⟩]

/-- Page 12 (Table 07-13, Table 07-14, Table 07-15). -/
def rowsWch : List RegRow :=
  [
    ⟨0x040, 1, 4, false, [⟨0, 1, .rl, 1⟩, ⟨1, 3, .rl, 0⟩, ⟨4, 4, .rl, 2⟩, ⟨8, 8, .rl, 25⟩, ⟨16, 8, .rl, 50⟩, ⟨24, 2, .rl, 3⟩]⟩,
    ⟨0x044, 1, 4, false, [⟨0, 6, .rl, 0⟩]⟩,
    ⟨0x048, 1, 4, false, [⟨0, 6, .rl, 0⟩]⟩,
    ⟨0x04C, 1, 4, false, [⟨0, 16, .rl, 10⟩, ⟨16, 1, .rl, 1⟩]⟩,
    ⟨0x050, 1, 4, false, [⟨0, 2, .rw, 0⟩, ⟨4, 4, .rl, 8⟩, ⟨8, 8, .rl, 85⟩, ⟨16, 8, .rl, 100⟩, ⟨24, 8, .rl, 20⟩]⟩,
    ⟨0x054, 1, 4, false, [⟨0, 8, .rl, 10⟩, ⟨8, 8, .rl, 10⟩, ⟨16, 8, .rl, 40⟩, ⟨24, 8, .rl, 10⟩]⟩,
    ⟨0x080, 1, 4, false, [⟨0, 2, .ro, 0⟩, ⟨2, 2, .ro, 0⟩, ⟨4, 1, .ro, 0⟩, ⟨5, 1, .ro, 0⟩, ⟨6, 1, .ro, 0⟩, ⟨7, 1, .ro, 0⟩]⟩,
    ⟨0x084, 1, 4, false, [⟨0, 6, .ro, 0⟩, ⟨6, 6, .ro, 63⟩, ⟨12, 6, .ro, 63⟩]⟩,
    ⟨0x088, 1, 4, false, [⟨0, 6, .ro, 0⟩, ⟨6, 6, .ro, 63⟩, ⟨12, 6, .ro, 63⟩]⟩,
    ⟨0x08C, 1, 4, false, [⟨0, 16, .ro, 0⟩, ⟨16, 16, .ro, 0⟩]⟩,
    ⟨0x090, 1, 4, false, [⟨0, 16, .ro, 0⟩, ⟨16, 16, .ro, 0⟩]⟩,
    ⟨0x094, 1, 4, true, [⟨0, 32, .ro, 0⟩]⟩] ++
  [
    ⟨0x098, 1, 4, false, [⟨0, 32, .ro, 0⟩]⟩,
    ⟨0x0A0, 1, 4, true, [⟨0, 32, .ro, 0⟩]⟩,
    ⟨0x0A4, 1, 4, true, [⟨0, 32, .ro, 0⟩]⟩,
    ⟨0x0A8, 1, 4, true, [⟨0, 32, .ro, 0⟩]⟩,
    ⟨0x0AC, 1, 4, true, [⟨0, 32, .ro, 0⟩]⟩,
    ⟨0x0C0, 1, 4, false, [⟨0, 1, .rw1c, 0⟩, ⟨1, 1, .rw1c, 0⟩, ⟨2, 1, .rw1c, 0⟩, ⟨3, 1, .rw1c, 0⟩, ⟨4, 1, .rw1c, 0⟩, ⟨5, 1, .rw1c, 0⟩, ⟨6, 1, .rw1c, 0⟩, ⟨7, 1, .rw1c, 0⟩, ⟨8, 1, .rw1c, 0⟩, ⟨9, 1, .rw1c, 0⟩, ⟨10, 1, .rw1c, 0⟩, ⟨11, 1, .rw1c, 0⟩]⟩,
    ⟨0x0C4, 1, 4, false, [⟨0, 1, .wo, 0⟩, ⟨1, 1, .wo, 0⟩, ⟨2, 1, .wo, 0⟩, ⟨3, 6, .wo, 0⟩]⟩,
    ⟨0x0D0, 1, 4, false, [⟨0, 10, .rw, 0⟩]⟩,
    ⟨0x0D4, 1, 4, false, [⟨0, 16, .ro, 0⟩, ⟨16, 10, .ro, 0⟩, ⟨26, 2, .ro, 3⟩, ⟨28, 1, .ro, 0⟩]⟩,
    ⟨0x0D8, 1, 4, false, [⟨0, 6, .rw, 0⟩]⟩,
    ⟨0x0DC, 1, 4, false, [⟨0, 16, .rw, 0⟩, ⟨16, 16, .rw, 0⟩]⟩,
    ⟨0x100, 64, 4, false, [⟨0, 17, .rs, 0⟩, ⟨17, 1, .ro, 0⟩, ⟨18, 1, .rs, 0⟩, ⟨19, 1, .ro, 0⟩, ⟨24, 8, .ro, 0⟩]⟩]

/-- Page 13 (Table 09-15, Table 09-16, Table 09-17). -/
def rowsLnk : List RegRow :=
  [
    ⟨0x040, 1, 4, false, [⟨0, 7, .rl, 127⟩, ⟨7, 1, .rl, 1⟩, ⟨8, 8, .rl, 64⟩, ⟨16, 12, .rl, 512⟩]⟩,
    ⟨0x044, 1, 4, false, [⟨0, 14, .rl, 0⟩]⟩,
    ⟨0x048, 1, 4, false, [⟨0, 16, .rl, 0⟩, ⟨16, 1, .rl, 0⟩, ⟨17, 1, .rl, 1⟩]⟩,
    ⟨0x04C, 1, 4, false, [⟨0, 8, .rl, 10⟩, ⟨8, 8, .rl, 20⟩, ⟨16, 8, .rl, 20⟩, ⟨24, 8, .rl, 10⟩]⟩,
    ⟨0x060, 7, 4, false, [⟨0, 16, .rl, 0⟩]⟩,
    ⟨0x080, 1, 4, false, [⟨0, 7, .ro, 0⟩, ⟨8, 7, .ro, 0⟩, ⟨16, 7, .ro, 0⟩, ⟨23, 1, .ro, 0⟩]⟩,
    ⟨0x084, 1, 4, false, [⟨0, 4, .ro, 15⟩, ⟨4, 4, .ro, 15⟩, ⟨8, 8, .ro, 0⟩, ⟨16, 8, .ro, 0⟩, ⟨24, 1, .ro, 0⟩]⟩,
    ⟨0x088, 1, 4, false, [⟨0, 12, .ro, 3416⟩, ⟨16, 12, .ro, 3416⟩]⟩,
    ⟨0x0A0, 7, 4, false, [⟨0, 3, .ro, 0⟩, ⟨3, 1, .ro, 0⟩, ⟨4, 14, .ro, 0⟩, ⟨18, 3, .ro, 0⟩, ⟨21, 2, .ro, 0⟩, ⟨23, 1, .ro, 0⟩, ⟨24, 1, .ro, 0⟩]⟩,
    ⟨0x0C0, 7, 4, false, [⟨0, 24, .ro, 0⟩]⟩,
    ⟨0x0E0, 1, 4, true, [⟨0, 32, .ro, 0⟩]⟩,
    ⟨0x0E4, 1, 4, true, [⟨0, 32, .ro, 0⟩]⟩] ++
  [
    ⟨0x0E8, 1, 4, true, [⟨0, 32, .ro, 0⟩]⟩,
    ⟨0x0EC, 1, 4, true, [⟨0, 32, .ro, 0⟩]⟩,
    ⟨0x0F0, 1, 4, false, [⟨0, 1, .rw1c, 0⟩, ⟨1, 1, .rw1c, 0⟩, ⟨2, 1, .rw1c, 0⟩, ⟨3, 1, .rw1c, 0⟩, ⟨4, 1, .rw1c, 0⟩, ⟨5, 1, .rw1c, 0⟩, ⟨6, 1, .rw1c, 0⟩, ⟨7, 1, .rw1c, 0⟩, ⟨8, 1, .rw1c, 0⟩, ⟨9, 1, .rw1c, 0⟩, ⟨10, 1, .rw1c, 0⟩, ⟨11, 1, .rw1c, 0⟩, ⟨12, 1, .rw1c, 0⟩, ⟨13, 1, .rw1c, 0⟩]⟩,
    ⟨0x0F4, 1, 4, false, [⟨0, 1, .wo, 0⟩, ⟨1, 1, .wo, 0⟩, ⟨2, 3, .wo, 0⟩, ⟨5, 1, .wo, 0⟩]⟩,
    ⟨0x100, 7, 4, true, [⟨0, 32, .ro, 0⟩]⟩,
    ⟨0x120, 7, 4, true, [⟨0, 32, .ro, 0⟩]⟩,
    ⟨0x140, 7, 4, true, [⟨0, 32, .ro, 0⟩]⟩,
    ⟨0x160, 7, 4, true, [⟨0, 32, .ro, 0⟩]⟩,
    ⟨0x180, 7, 8, false, [⟨0, 8, .ro, 0⟩, ⟨8, 8, .ro, 0⟩, ⟨16, 8, .ro, 0⟩, ⟨24, 8, .ro, 0⟩]⟩,
    ⟨0x184, 7, 8, false, [⟨0, 8, .ro, 0⟩, ⟨8, 8, .ro, 0⟩, ⟨16, 8, .ro, 0⟩, ⟨24, 8, .ro, 0⟩]⟩,
    ⟨0x1C0, 7, 4, false, [⟨0, 8, .ro, 0⟩, ⟨8, 8, .ro, 0⟩]⟩,
    ⟨0x200, 1, 4, false, [⟨0, 8, .rw, 0⟩]⟩] ++
  [
    ⟨0x204, 1, 4, false, [⟨0, 13, .ro, 0⟩, ⟨13, 1, .ro, 0⟩, ⟨14, 1, .ro, 0⟩, ⟨16, 16, .ro, 0⟩]⟩,
    ⟨0x210, 1, 4, false, [⟨0, 14, .rw, 0⟩]⟩,
    ⟨0x214, 1, 4, false, [⟨0, 4, .ro, 15⟩, ⟨4, 12, .ro, 4095⟩]⟩,
    ⟨0x400, 256, 4, false, [⟨0, 2, .rl, 0⟩, ⟨2, 8, .rl, 64⟩, ⟨10, 2, .rl, 0⟩]⟩]

/-- Page 14 (Table 10-15, Table 10-16, Table 10-17). -/
def rowsFlt : List RegRow :=
  [
    ⟨0x040, 1, 4, false, [⟨0, 16, .rl, 1000⟩, ⟨16, 4, .rl, 2⟩, ⟨20, 1, .rl, 0⟩]⟩,
    ⟨0x044, 1, 4, false, [⟨0, 4, .rl, 3⟩, ⟨4, 12, .rl, 60⟩, ⟨16, 4, .rl, 4⟩, ⟨20, 12, .rl, 60⟩]⟩,
    ⟨0x048, 1, 4, false, [⟨0, 21, .rl, 2097151⟩]⟩,
    ⟨0x080, 1, 4, false, [⟨0, 2, .rs, 0⟩, ⟨2, 1, .ro, 0⟩, ⟨3, 1, .ro, 0⟩, ⟨4, 1, .rs, 0⟩, ⟨5, 1, .rs, 0⟩]⟩,
    ⟨0x084, 1, 4, false, [⟨0, 21, .ro, 0⟩]⟩,
    ⟨0x088, 1, 4, false, [⟨0, 21, .rs, 0⟩]⟩,
    ⟨0x08C, 1, 4, false, [⟨0, 21, .rs, 0⟩]⟩,
    ⟨0x090, 1, 4, false, [⟨0, 12, .rs, 0⟩, ⟨12, 2, .rs, 0⟩, ⟨14, 1, .rs, 0⟩, ⟨16, 8, .rs, 0⟩]⟩,
    ⟨0x094, 1, 4, false, [⟨0, 32, .rs, 0⟩]⟩,
    ⟨0x098, 1, 4, false, [⟨0, 32, .rs, 0⟩]⟩,
    ⟨0x09C, 1, 4, false, [⟨0, 32, .ro, 0⟩]⟩,
    ⟨0x0A0, 1, 4, true, [⟨0, 32, .ro, 0⟩]⟩] ++
  [
    ⟨0x0A4, 1, 4, true, [⟨0, 32, .ro, 0⟩]⟩,
    ⟨0x0A8, 1, 4, true, [⟨0, 32, .ro, 0⟩]⟩,
    ⟨0x0AC, 1, 4, true, [⟨0, 32, .ro, 0⟩]⟩,
    ⟨0x0B0, 1, 4, true, [⟨0, 32, .ro, 0⟩]⟩,
    ⟨0x0B4, 1, 4, true, [⟨0, 32, .ro, 0⟩]⟩,
    ⟨0x0B8, 1, 4, true, [⟨0, 32, .ro, 0⟩]⟩,
    ⟨0x0BC, 1, 4, true, [⟨0, 32, .ro, 0⟩]⟩,
    ⟨0x0C0, 1, 4, true, [⟨0, 32, .ro, 0⟩]⟩,
    ⟨0x0D0, 1, 4, false, [⟨0, 32, .rw, 0⟩]⟩,
    ⟨0x0D4, 1, 4, false, [⟨0, 3, .wo, 0⟩]⟩,
    ⟨0x0D8, 1, 4, false, [⟨0, 6, .ro, 0⟩, ⟨16, 16, .ro, 0⟩]⟩,
    ⟨0x0DC, 1, 4, false, [⟨0, 32, .ro, 0⟩]⟩] ++
  [
    ⟨0x0E0, 1, 4, false, [⟨0, 1, .wo, 0⟩, ⟨1, 1, .wo, 0⟩, ⟨2, 1, .wo, 0⟩, ⟨3, 1, .wo, 0⟩]⟩,
    ⟨0x0F0, 1, 4, false, [⟨0, 1, .rw1c, 0⟩, ⟨1, 1, .rw1c, 0⟩, ⟨2, 1, .rw1c, 0⟩, ⟨3, 1, .rw1c, 0⟩, ⟨4, 1, .rw1c, 0⟩, ⟨5, 1, .rw1c, 0⟩, ⟨6, 1, .rw1c, 0⟩]⟩,
    ⟨0x100, 1, 4, false, [⟨0, 32, .rw, 0⟩]⟩,
    ⟨0x104, 1, 4, false, [⟨0, 1, .ro, 0⟩]⟩,
    ⟨0x108, 8, 4, false, [⟨0, 32, .ro, 0⟩]⟩]

/-- Page 15 (Table 11-9). -/
def rowsMem : List RegRow :=
  [
    ⟨0x040, 1, 4, false, [⟨0, 1, .rl, 1⟩, ⟨8, 8, .rl, 24⟩, ⟨16, 16, .rl, 1000⟩]⟩,
    ⟨0x080, 1, 4, false, [⟨0, 1, .ro, 0⟩, ⟨1, 1, .ro, 0⟩, ⟨8, 8, .ro, 0⟩]⟩,
    ⟨0x084, 1, 4, true, [⟨0, 32, .ro, 0⟩]⟩,
    ⟨0x088, 1, 4, false, [⟨0, 6, .ro, 0⟩, ⟨6, 1, .ro, 0⟩]⟩,
    ⟨0x08C, 1, 4, false, [⟨0, 32, .ro, 0⟩]⟩,
    ⟨0x090, 1, 4, false, [⟨0, 6, .ro, 0⟩]⟩,
    ⟨0x094, 1, 4, false, [⟨0, 32, .ro, 0⟩]⟩,
    ⟨0x098, 1, 4, false, [⟨0, 7, .ro, 0⟩, ⟨8, 7, .ro, 0⟩, ⟨16, 5, .ro, 0⟩]⟩,
    ⟨0x09C, 1, 4, false, [⟨0, 8, .ro, 0⟩]⟩,
    ⟨0x0A0, 1, 4, false, [⟨0, 32, .ro, 0⟩]⟩,
    ⟨0x0C0, 1, 4, false, [⟨0, 1, .rw1c, 0⟩, ⟨1, 1, .rw1c, 0⟩, ⟨2, 1, .rw1c, 0⟩, ⟨3, 1, .rw1c, 0⟩, ⟨4, 1, .rw1c, 0⟩, ⟨5, 1, .rw1c, 0⟩, ⟨6, 1, .rw1c, 0⟩, ⟨7, 1, .rw1c, 0⟩, ⟨8, 1, .rw1c, 0⟩, ⟨9, 1, .rw1c, 0⟩, ⟨10, 1, .rw1c, 0⟩]⟩,
    ⟨0x0C4, 1, 4, false, [⟨0, 1, .wo, 0⟩, ⟨1, 3, .wo, 0⟩, ⟨4, 1, .wo, 0⟩]⟩] ++
  [
    ⟨0x100, 52, 4, true, [⟨0, 32, .ro, 0⟩]⟩,
    ⟨0x200, 18, 4, false, [⟨0, 8, .ro, 0⟩, ⟨8, 8, .ro, 0⟩, ⟨16, 8, .ro, 0⟩]⟩]

/-- Page 16 (Table 11-10). -/
def rowsLog : List RegRow :=
  [
    ⟨0x040, 1, 4, false, [⟨0, 8, .rl, 16⟩, ⟨8, 16, .rl, 1000⟩, ⟨24, 7, .rl, 90⟩]⟩,
    ⟨0x080, 1, 4, false, [⟨0, 1, .ro, 0⟩, ⟨1, 1, .ro, 0⟩, ⟨2, 1, .ro, 0⟩, ⟨3, 1, .ro, 0⟩, ⟨16, 11, .ro, 0⟩]⟩,
    ⟨0x084, 1, 4, false, [⟨0, 20, .ro, 0⟩]⟩,
    ⟨0x088, 1, 4, false, [⟨0, 32, .ro, 0⟩]⟩,
    ⟨0x08C, 1, 4, false, [⟨0, 32, .ro, 0⟩]⟩,
    ⟨0x090, 1, 4, false, [⟨0, 32, .ro, 0⟩]⟩,
    ⟨0x0A0, 1, 4, false, [⟨0, 32, .ro, 0⟩]⟩,
    ⟨0x0A4, 1, 4, true, [⟨0, 32, .ro, 0⟩]⟩,
    ⟨0x0A8, 1, 4, false, [⟨0, 32, .ro, 0⟩]⟩,
    ⟨0x0AC, 1, 4, false, [⟨0, 32, .ro, 0⟩]⟩,
    ⟨0x0B0, 1, 4, false, [⟨0, 32, .ro, 0⟩]⟩,
    ⟨0x0C0, 1, 4, false, [⟨0, 1, .rw1c, 0⟩, ⟨1, 1, .rw1c, 0⟩, ⟨2, 1, .rw1c, 0⟩, ⟨3, 1, .rw1c, 0⟩, ⟨4, 1, .rw1c, 0⟩, ⟨5, 1, .rw1c, 0⟩, ⟨6, 1, .rw1c, 0⟩]⟩] ++
  [
    ⟨0x0C4, 1, 4, false, [⟨0, 1, .wo, 0⟩]⟩,
    ⟨0x0D0, 1, 4, false, [⟨0, 16, .rw, 0⟩]⟩,
    ⟨0x0D4, 7, 4, false, [⟨0, 32, .rw, 0⟩]⟩,
    ⟨0x100, 1, 4, false, [⟨0, 19, .rw, 0⟩]⟩,
    ⟨0x104, 1, 4, false, [⟨0, 2, .ro, 0⟩, ⟨2, 1, .ro, 0⟩]⟩,
    ⟨0x108, 16, 4, false, [⟨0, 32, .ro, 0⟩]⟩,
    ⟨0x148, 1, 4, false, [⟨0, 32, .ro, 0⟩]⟩]

/-- Page 17 (Table 12-17). -/
def rowsMgt : List RegRow :=
  [
    ⟨0x040, 1, 4, false, [⟨0, 3, .ro, 2⟩, ⟨4, 3, .ro, 0⟩, ⟨8, 8, .ro, 4⟩]⟩,
    ⟨0x044, 1, 4, false, [⟨0, 3, .wo, 0⟩, ⟨3, 1, .wo, 0⟩, ⟨4, 1, .rw1c, 0⟩, ⟨8, 4, .ro, 0⟩]⟩,
    ⟨0x080, 1, 4, false, [⟨0, 3, .ro, 0⟩, ⟨3, 1, .ro, 0⟩, ⟨4, 1, .ro, 0⟩, ⟨5, 1, .rs, 0⟩, ⟨6, 1, .ro, 0⟩, ⟨8, 4, .ro, 0⟩, ⟨12, 4, .ro, 0⟩]⟩,
    ⟨0x084, 1, 4, false, [⟨0, 7, .ro, 0⟩, ⟨7, 1, .ro, 0⟩, ⟨8, 1, .ro, 0⟩, ⟨9, 1, .ro, 0⟩]⟩,
    ⟨0x088, 1, 4, false, [⟨0, 7, .ro, 0⟩, ⟨7, 1, .ro, 0⟩, ⟨8, 1, .ro, 0⟩, ⟨9, 1, .ro, 0⟩]⟩,
    ⟨0x08C, 1, 4, false, [⟨0, 32, .ro, 0⟩]⟩,
    ⟨0x090, 1, 4, false, [⟨0, 32, .ro, 0⟩]⟩,
    ⟨0x0A0, 1, 4, false, [⟨0, 25, .rw, 0⟩]⟩,
    ⟨0x0A4, 1, 4, false, [⟨0, 32, .wo, 0⟩]⟩,
    ⟨0x0A8, 1, 4, false, [⟨0, 1, .wo, 0⟩, ⟨1, 1, .wo, 0⟩, ⟨2, 1, .wo, 0⟩, ⟨3, 1, .wo, 0⟩, ⟨4, 1, .wo, 0⟩]⟩,
    ⟨0x0AC, 1, 4, false, [⟨0, 1, .ro, 0⟩, ⟨1, 1, .ro, 0⟩, ⟨2, 1, .ro, 0⟩, ⟨3, 1, .ro, 0⟩, ⟨4, 4, .ro, 0⟩]⟩,
    ⟨0x0B0, 1, 4, false, [⟨0, 16, .rl, 600⟩, ⟨16, 1, .rl, 1⟩]⟩] ++
  [
    ⟨0x0B4, 1, 4, true, [⟨0, 32, .ro, 0⟩]⟩,
    ⟨0x0B8, 1, 4, true, [⟨0, 32, .ro, 0⟩]⟩,
    ⟨0x0C0, 1, 4, false, [⟨0, 16, .rl, 100⟩, ⟨16, 1, .wo, 0⟩]⟩,
    ⟨0x0C4, 1, 4, false, [⟨0, 8, .rl, 95⟩, ⟨8, 8, .rl, 105⟩, ⟨16, 8, .rl, 115⟩]⟩,
    ⟨0x0F0, 1, 4, false, [⟨0, 1, .rw1c, 0⟩, ⟨1, 1, .rw1c, 0⟩, ⟨2, 1, .rw1c, 0⟩, ⟨3, 1, .rw1c, 0⟩, ⟨4, 1, .rw1c, 0⟩, ⟨5, 1, .rw1c, 0⟩, ⟨6, 1, .rw1c, 0⟩, ⟨7, 1, .rw1c, 0⟩, ⟨8, 1, .rw1c, 0⟩]⟩,
    ⟨0x0F4, 1, 4, false, [⟨0, 1, .wo, 0⟩]⟩,
    ⟨0x100, 16, 4, false, [⟨0, 16, .ro, 0⟩, ⟨16, 16, .ro, 32768⟩]⟩,
    ⟨0x180, 1, 4, false, [⟨0, 1, .wo, 0⟩, ⟨1, 1, .wo, 0⟩, ⟨2, 1, .wo, 0⟩, ⟨5, 3, .wo, 0⟩, ⟨8, 1, .ro, 0⟩, ⟨9, 1, .rw1c, 0⟩]⟩,
    ⟨0x184, 1, 4, false, [⟨0, 28, .rw, 0⟩, ⟨28, 4, .rw, 0⟩]⟩,
    ⟨0x188, 1, 4, false, [⟨0, 32, .rw, 0⟩]⟩]

/-- Page 18 (Table 12-18). -/
def rowsSec : List RegRow :=
  [
    ⟨0x040, 1, 4, false, [⟨0, 2, .ro, 0⟩, ⟨2, 1, .ro, 0⟩, ⟨3, 1, .ro, 0⟩, ⟨4, 1, .ro, 0⟩, ⟨5, 1, .ro, 0⟩]⟩,
    ⟨0x044, 12, 4, false, [⟨0, 32, .rl, 0⟩]⟩,
    ⟨0x080, 1, 4, false, [⟨0, 7, .ro, 0⟩, ⟨8, 7, .ro, 0⟩]⟩,
    ⟨0x084, 1, 4, false, [⟨0, 2, .ro, 0⟩, ⟨2, 2, .ro, 0⟩, ⟨4, 1, .ro, 0⟩, ⟨16, 16, .ro, 0⟩]⟩,
    ⟨0x088, 1, 4, false, [⟨0, 2, .wo, 0⟩, ⟨2, 1, .wo, 0⟩]⟩,
    ⟨0x090, 4, 4, false, [⟨0, 32, .ro, 0⟩]⟩,
    ⟨0x0A0, 1, 4, false, [⟨0, 10, .rw, 0⟩]⟩,
    ⟨0x0A4, 1, 4, false, [⟨0, 32, .wo, 0⟩]⟩,
    ⟨0x0A8, 1, 4, false, [⟨0, 1, .wo, 0⟩]⟩,
    ⟨0x0AC, 1, 4, false, [⟨0, 1, .ro, 0⟩, ⟨1, 1, .rw1c, 0⟩, ⟨2, 3, .ro, 0⟩, ⟨8, 8, .ro, 0⟩]⟩,
    ⟨0x0C0, 1, 4, false, [⟨0, 1, .rw1c, 0⟩, ⟨1, 1, .rw1c, 0⟩, ⟨2, 1, .rw1c, 0⟩, ⟨3, 1, .rw1c, 0⟩, ⟨4, 1, .rw1c, 0⟩, ⟨5, 1, .rw1c, 0⟩]⟩,
    ⟨0x0C4, 1, 4, false, [⟨0, 1, .ro, 0⟩]⟩] ++
  [
    ⟨0x0C8, 1, 4, true, [⟨0, 32, .ro, 0⟩]⟩,
    ⟨0x0CC, 1, 4, true, [⟨0, 32, .ro, 0⟩]⟩,
    ⟨0x100, 1, 4, false, [⟨0, 3, .rw, 0⟩]⟩,
    ⟨0x104, 12, 4, false, [⟨0, 32, .ro, 0⟩]⟩,
    ⟨0x140, 12, 4, false, [⟨0, 32, .wo, 0⟩]⟩,
    ⟨0x180, 12, 4, false, [⟨0, 32, .wo, 0⟩]⟩,
    ⟨0x1B0, 1, 4, false, [⟨0, 1, .ro, 0⟩, ⟨1, 1, .ro, 0⟩, ⟨2, 1, .rw1c, 0⟩]⟩,
    ⟨0x1B4, 1, 4, false, [⟨0, 10, .rw, 0⟩]⟩,
    ⟨0x1B8, 1, 4, false, [⟨0, 32, .ro, 0⟩]⟩,
    ⟨0x1C0, 1, 4, false, [⟨0, 2, .rw, 0⟩]⟩,
    ⟨0x1C4, 1, 4, false, [⟨0, 13, .rw, 0⟩]⟩,
    ⟨0x1C8, 1, 4, false, [⟨0, 12, .rw, 0⟩]⟩] ++
  [
    ⟨0x1CC, 1, 4, false, [⟨0, 32, .rw, 0⟩]⟩]

/-- Page 19 (Table 10-18). -/
def rowsTrp : List RegRow :=
  [
    ⟨0x040, 1, 4, false, [⟨0, 9, .rl, 440⟩, ⟨9, 9, .rl, 350⟩, ⟨18, 9, .rl, 480⟩]⟩,
    ⟨0x044, 1, 4, false, [⟨0, 8, .rl, 100⟩, ⟨8, 4, .rl, 16⟩, ⟨12, 10, .rl, 700⟩]⟩,
    ⟨0x048, 1, 4, false, [⟨0, 8, .rl, 85⟩, ⟨8, 1, .rl, 1⟩, ⟨9, 1, .rl, 1⟩, ⟨10, 1, .rl, 1⟩]⟩,
    ⟨0x080, 1, 4, false, [⟨0, 1, .ro, 0⟩, ⟨1, 1, .ro, 0⟩, ⟨2, 1, .ro, 0⟩, ⟨3, 1, .ro, 0⟩, ⟨4, 1, .ro, 0⟩, ⟨5, 1, .ro, 0⟩, ⟨6, 1, .ro, 0⟩, ⟨7, 1, .ro, 0⟩, ⟨8, 1, .ro, 0⟩, ⟨9, 1, .ro, 0⟩, ⟨10, 1, .ro, 0⟩, ⟨11, 1, .ro, 0⟩]⟩,
    ⟨0x084, 1, 4, false, [⟨0, 11, .rs, 0⟩]⟩,
    ⟨0x088, 1, 4, false, [⟨0, 32, .rs, 0⟩]⟩,
    ⟨0x08C, 1, 4, false, [⟨0, 8, .rs, 0⟩]⟩,
    ⟨0x090, 1, 4, false, [⟨0, 4, .rs, 15⟩, ⟨4, 6, .rs, 0⟩]⟩,
    ⟨0x094, 1, 4, false, [⟨0, 32, .rs, 0⟩]⟩,
    ⟨0x098, 1, 4, true, [⟨0, 32, .ro, 0⟩]⟩,
    ⟨0x0C0, 1, 4, false, [⟨0, 1, .rw1c, 0⟩, ⟨1, 1, .rw1c, 0⟩, ⟨2, 1, .rw1c, 0⟩]⟩,
    ⟨0x0C4, 1, 4, false, [⟨0, 1, .wo, 0⟩]⟩]

/-- Page 20 (Table 15-10). -/
def rowsPmb : List RegRow :=
  [
    ⟨0x040, 1, 4, false, [⟨0, 1, .rl, 1⟩, ⟨1, 1, .rl, 0⟩, ⟨8, 8, .rl, 0⟩]⟩,
    ⟨0x080, 1, 4, false, [⟨0, 7, .ro, 0⟩, ⟨7, 1, .ro, 0⟩, ⟨8, 1, .ro, 0⟩, ⟨9, 1, .ro, 0⟩]⟩,
    ⟨0x084, 1, 4, false, [⟨0, 16, .ro, 64⟩, ⟨16, 8, .ro, 0⟩, ⟨24, 8, .ro, 0⟩]⟩,
    ⟨0x088, 1, 4, false, [⟨0, 16, .ro, 64⟩, ⟨16, 8, .ro, 0⟩, ⟨24, 8, .ro, 0⟩]⟩,
    ⟨0x08C, 1, 4, false, [⟨0, 8, .ro, 0⟩, ⟨8, 8, .ro, 0⟩, ⟨16, 8, .ro, 0⟩, ⟨24, 8, .ro, 0⟩]⟩,
    ⟨0x090, 1, 4, true, [⟨0, 32, .ro, 0⟩]⟩,
    ⟨0x094, 1, 4, true, [⟨0, 32, .ro, 0⟩]⟩,
    ⟨0x098, 1, 4, true, [⟨0, 32, .ro, 0⟩]⟩,
    ⟨0x0C0, 1, 4, false, [⟨0, 1, .rw1c, 0⟩, ⟨1, 1, .rw1c, 0⟩, ⟨2, 1, .rw1c, 0⟩]⟩,
    ⟨0x0C4, 1, 4, false, [⟨0, 1, .wo, 0⟩]⟩]

/-- The register rows of page `p`; an absent page has none (R447). -/
def pageRows : Nat → List RegRow
  | 0 => rowsDir
  | 1 => rowsMod
  | 2 => rowsPwr
  | 3 => rowsClk
  | 4 => rowsTim
  | 5 => rowsStk
  | 6 => rowsBwk
  | 7 => rowsTtb
  | 8 => rowsCen
  | 9 => rowsPhs
  | 10 => rowsAfe
  | 11 => rowsCap
  | 12 => rowsWch
  | 13 => rowsLnk
  | 14 => rowsFlt
  | 15 => rowsMem
  | 16 => rowsLog
  | 17 => rowsMgt
  | 18 => rowsSec
  | 19 => rowsTrp
  | 20 => rowsPmb
  | _ => []

namespace R

abbrev BLK_ID_CODE (p : Nat) : Fld := ⟨p * 4096 + 0x0, 0, 8⟩
abbrev BLK_ID_PREFIX (p : Nat) : Fld := ⟨p * 4096 + 0x0, 8, 24⟩
abbrev BLK_VER_MINOR (p : Nat) : Fld := ⟨p * 4096 + 0x4, 0, 8⟩
abbrev BLK_VER_MAJOR (p : Nat) : Fld := ⟨p * 4096 + 0x4, 8, 8⟩
abbrev BLK_VER_STEPPING (p : Nat) : Fld := ⟨p * 4096 + 0x4, 16, 16⟩
abbrev BLK_CAP_INST (p : Nat) : Fld := ⟨p * 4096 + 0x8, 0, 8⟩
abbrev BLK_CAP_LOCKABLE (p : Nat) : Fld := ⟨p * 4096 + 0x8, 8, 1⟩
abbrev BLK_CAP_KINDS (p : Nat) : Fld := ⟨p * 4096 + 0x8, 9, 1⟩
abbrev BLK_CTL_CNT_CLR (p : Nat) : Fld := ⟨p * 4096 + 0xC, 0, 1⟩
abbrev BLK_STAT_ON (p : Nat) : Fld := ⟨p * 4096 + 0x10, 0, 1⟩
abbrev BLK_STAT_LOCKED (p : Nat) : Fld := ⟨p * 4096 + 0x10, 1, 1⟩
abbrev BLK_STAT_SAT (p : Nat) : Fld := ⟨p * 4096 + 0x10, 2, 1⟩
abbrev BLK_STAT_RESET (p : Nat) : Fld := ⟨p * 4096 + 0x10, 3, 1⟩
abbrev BLK_STAT_SAT_OFF (p : Nat) : Fld := ⟨p * 4096 + 0x10, 16, 12⟩
abbrev BLK_FLT_ACTIVE (p : Nat) : Fld := ⟨p * 4096 + 0x14, 0, 1⟩
abbrev BLK_FLT_LATCHED (p : Nat) : Fld := ⟨p * 4096 + 0x14, 1, 1⟩
abbrev BLK_FLT_WORST (p : Nat) : Fld := ⟨p * 4096 + 0x14, 2, 2⟩
abbrev BLK_FLT_FORCED (p : Nat) : Fld := ⟨p * 4096 + 0x14, 4, 1⟩
abbrev BLK_FLT_LAST_KIND (p : Nat) : Fld := ⟨p * 4096 + 0x14, 8, 8⟩
abbrev BLK_FLT_COUNT (p : Nat) : Fld := ⟨p * 4096 + 0x14, 16, 16⟩
abbrev BLK_FORCE_KIND (p : Nat) : Fld := ⟨p * 4096 + 0x18, 0, 8⟩
abbrev BLK_FORCE_INST (p : Nat) : Fld := ⟨p * 4096 + 0x18, 8, 6⟩
abbrev BLK_FORCE_COND (p : Nat) : Fld := ⟨p * 4096 + 0x18, 14, 1⟩
abbrev BLK_FORCE_CLEAR (p : Nat) : Fld := ⟨p * 4096 + 0x18, 15, 1⟩
abbrev BLK_FORCE_GO (p : Nat) : Fld := ⟨p * 4096 + 0x18, 16, 1⟩
abbrev BLK_FORCE_REFUSED (p : Nat) : Fld := ⟨p * 4096 + 0x18, 17, 1⟩
abbrev BLK_LOCK_LOCK (p : Nat) : Fld := ⟨p * 4096 + 0x1C, 0, 1⟩
abbrev BLK_LOCK_REFUSED (p : Nat) : Fld := ⟨p * 4096 + 0x1C, 1, 1⟩
abbrev DIR_INFO_PAGES : Fld := ⟨0x40, 0, 8⟩
abbrev DIR_ON_ON : Fld := ⟨0x80, 0, 21⟩
abbrev DIR_LOCKED_LOCKED : Fld := ⟨0x84, 0, 21⟩
abbrev DIR_ENTRY_CODE (n : Nat) : Fld := ⟨0x100 + 4 * n, 0, 8⟩
abbrev DIR_ENTRY_DOMAIN (n : Nat) : Fld := ⟨0x100 + 4 * n, 8, 5⟩
abbrev DIR_ENTRY_PRESENT (n : Nat) : Fld := ⟨0x100 + 4 * n, 13, 1⟩
abbrev DIR_ENTRY_ON (n : Nat) : Fld := ⟨0x100 + 4 * n, 14, 1⟩
abbrev DIR_ENTRY_LOCKED (n : Nat) : Fld := ⟨0x100 + 4 * n, 15, 1⟩
abbrev DIR_ENTRY_INST (n : Nat) : Fld := ⟨0x100 + 4 * n, 16, 8⟩
abbrev DIR_ENTRY_LOCKABLE (n : Nat) : Fld := ⟨0x100 + 4 * n, 24, 1⟩
abbrev MOD_PART_PART : Fld := ⟨0x1040, 0, 16⟩
abbrev MOD_PART_REV : Fld := ⟨0x1040, 16, 8⟩
abbrev MOD_PART_STEP : Fld := ⟨0x1040, 24, 8⟩
abbrev MOD_SERIAL_LO_SERIAL : Fld := ⟨0x1044, 0, 32⟩
abbrev MOD_SERIAL_HI_SERIAL : Fld := ⟨0x1048, 0, 32⟩
abbrev MOD_MFG_YEAR : Fld := ⟨0x104C, 0, 16⟩
abbrev MOD_MFG_WEEK : Fld := ⟨0x104C, 16, 8⟩
abbrev MOD_STRAP_RING_POS : Fld := ⟨0x1100, 0, 4⟩
abbrev MOD_STRAP_ROOT_CAP : Fld := ⟨0x1100, 4, 1⟩
abbrev MOD_STRAP_STRAP_ERR : Fld := ⟨0x1100, 7, 1⟩
abbrev MOD_ROLE_CFG_MODE : Fld := ⟨0x1104, 0, 2⟩
abbrev MOD_ROLE_CFG_LEAD_ELIGIBLE : Fld := ⟨0x1104, 2, 1⟩
abbrev MOD_ROLE_CFG_FLEET_ROOT : Fld := ⟨0x1104, 4, 2⟩
abbrev MOD_ROLE_CFG_RESERVE : Fld := ⟨0x1104, 8, 2⟩
abbrev MOD_ROLE_CFG_RACK_SIZE : Fld := ⟨0x1104, 12, 4⟩
abbrev MOD_ROLE_CFG_HOST_TMO : Fld := ⟨0x1104, 16, 16⟩
abbrev MOD_ROLE_STAT_ROLE : Fld := ⟨0x1108, 0, 2⟩
abbrev MOD_ROLE_STAT_ELECTING : Fld := ⟨0x1108, 2, 1⟩
abbrev MOD_ROLE_STAT_MODE_MISMATCH : Fld := ⟨0x1108, 3, 1⟩
abbrev MOD_ROLE_STAT_LEAD_POS : Fld := ⟨0x1108, 4, 4⟩
abbrev MOD_ROLE_STAT_DEPUTY_POS : Fld := ⟨0x1108, 8, 4⟩
abbrev MOD_ROLE_STAT_PEERS : Fld := ⟨0x1108, 12, 10⟩
abbrev MOD_ROLE_STAT_RING_STATE : Fld := ⟨0x1108, 22, 2⟩
abbrev MOD_ROLE_STAT_POS_CONFLICT : Fld := ⟨0x1108, 24, 1⟩
abbrev MOD_ROLE_STAT_ROOT_INACTIVE : Fld := ⟨0x1108, 25, 1⟩
abbrev MOD_ROLE_STAT_FLEET_ROOT_ACT : Fld := ⟨0x1108, 26, 1⟩
abbrev MOD_ROLE_STAT_DEGRADED : Fld := ⟨0x1108, 27, 1⟩
abbrev MOD_ROLE_STAT_HOST_RELAY : Fld := ⟨0x1108, 28, 1⟩
abbrev MOD_ROLE_STAT_FLEET_RELAY : Fld := ⟨0x1108, 29, 1⟩
abbrev MOD_ELECT_CNT_COUNT : Fld := ⟨0x110C, 0, 32⟩
abbrev PWR_CFG_CHG_W : Fld := ⟨0x2040, 0, 4⟩
abbrev PWR_ON_ON : Fld := ⟨0x2044, 0, 20⟩
abbrev PWR_STAT_PG : Fld := ⟨0x2080, 0, 20⟩
abbrev PWR_STAT_BUSY : Fld := ⟨0x2080, 20, 1⟩
abbrev PWR_STAT_CHARGING : Fld := ⟨0x2080, 21, 1⟩
abbrev PWR_STAT_CHARGED : Fld := ⟨0x2080, 22, 1⟩
abbrev PWR_REFUSED_DOM : Fld := ⟨0x2084, 0, 20⟩
abbrev PWR_HU_STORE_V : Fld := ⟨0x2088, 0, 16⟩
abbrev PWR_HU_CAP_EST : Fld := ⟨0x2088, 16, 12⟩
abbrev PWR_AUX_AUX_V : Fld := ⟨0x208C, 0, 16⟩
abbrev PWR_AUX_AUX_I : Fld := ⟨0x208C, 16, 16⟩
abbrev PWR_HU_CNT_COUNT : Fld := ⟨0x2090, 0, 32⟩
abbrev PWR_PG_CNT_COUNT : Fld := ⟨0x2094, 0, 32⟩
abbrev PWR_SW_CNT_COUNT : Fld := ⟨0x2098, 0, 32⟩
abbrev PWR_EVT_PG_LOST : Fld := ⟨0x20C0, 0, 1⟩
abbrev PWR_EVT_ON_FAIL : Fld := ⟨0x20C0, 1, 1⟩
abbrev PWR_EVT_REFUSED : Fld := ⟨0x20C0, 2, 1⟩
abbrev PWR_EVT_AUX_OV : Fld := ⟨0x20C0, 3, 1⟩
abbrev PWR_EVT_HU_CHARGE : Fld := ⟨0x20C0, 4, 1⟩
abbrev PWR_EVT_HU_CAP : Fld := ⟨0x20C0, 5, 1⟩
abbrev CLK_CFG_REF_SEL : Fld := ⟨0x3040, 0, 2⟩
abbrev CLK_STAT_PLL_LOCK : Fld := ⟨0x3080, 0, 1⟩
abbrev CLK_STAT_REF_ACT : Fld := ⟨0x3080, 1, 2⟩
abbrev CLK_STAT_XO_OK : Fld := ⟨0x3080, 3, 1⟩
abbrev CLK_STAT_FAC_OK : Fld := ⟨0x3080, 4, 1⟩
abbrev CLK_STAT_REC_OK : Fld := ⟨0x3080, 5, 1⟩
abbrev CLK_FREQ_PPB : Fld := ⟨0x3084, 0, 32⟩
abbrev CLK_SW_CNT_COUNT : Fld := ⟨0x3088, 0, 32⟩
abbrev CLK_EVT_PLL : Fld := ⟨0x30C0, 0, 1⟩
abbrev CLK_EVT_SWITCH : Fld := ⟨0x30C0, 1, 1⟩
abbrev TIM_CFG_SLEW_PPM : Fld := ⟨0x4040, 0, 8⟩
abbrev TIM_CFG_TOL_NS : Fld := ⟨0x4040, 8, 8⟩
abbrev TIM_CFG_STEP_MAX : Fld := ⟨0x4040, 16, 16⟩
abbrev TIM_ROOT_CFG_ROOT_TMO : Fld := ⟨0x4044, 0, 8⟩
abbrev TIM_ROOT_CFG_REF_TMO : Fld := ⟨0x4044, 8, 16⟩
abbrev TIM_PPS_OUT_EN : Fld := ⟨0x4048, 0, 1⟩
abbrev TIM_PPS_IN_POL : Fld := ⟨0x4048, 1, 1⟩
abbrev TIM_PPS_PPS_DLY : Fld := ⟨0x4048, 16, 16⟩
abbrev TIM_ASYM_E_ASYM : Fld := ⟨0x404C, 0, 16⟩
abbrev TIM_ASYM_W_ASYM : Fld := ⟨0x4050, 0, 16⟩
abbrev TIM_ASYM_UP_ASYM : Fld := ⟨0x4054, 0, 16⟩
abbrev TIM_TOD_LO_SEC : Fld := ⟨0x4058, 0, 32⟩
abbrev TIM_TOD_HI_SEC : Fld := ⟨0x405C, 0, 32⟩
abbrev TIM_STAT_STATE : Fld := ⟨0x4080, 0, 2⟩
abbrev TIM_STAT_VALID : Fld := ⟨0x4080, 2, 1⟩
abbrev TIM_STAT_SRC : Fld := ⟨0x4080, 3, 3⟩
abbrev TIM_STAT_ROOT : Fld := ⟨0x4080, 6, 1⟩
abbrev TIM_STAT_PPS_OK : Fld := ⟨0x4080, 7, 1⟩
abbrev TIM_NOW_LO_NS : Fld := ⟨0x4084, 0, 32⟩
abbrev TIM_NOW_HI_NS : Fld := ⟨0x4088, 0, 32⟩
abbrev TIM_OFFSET_OFS : Fld := ⟨0x408C, 0, 32⟩
abbrev TIM_HOLD_AGE : Fld := ⟨0x4090, 0, 16⟩
abbrev TIM_HOLD_ERR_EST : Fld := ⟨0x4090, 16, 16⟩
abbrev TIM_ROOT_GEN : Fld := ⟨0x4094, 0, 16⟩
abbrev TIM_ROOT_ADDR : Fld := ⟨0x4094, 16, 14⟩
abbrev TIM_HOLD_CNT_COUNT : Fld := ⟨0x40A0, 0, 32⟩
abbrev TIM_LOSS_CNT_COUNT : Fld := ⟨0x40A4, 0, 32⟩
abbrev TIM_EVT_LOST : Fld := ⟨0x40C0, 0, 1⟩
abbrev TIM_EVT_HOLD : Fld := ⟨0x40C0, 1, 1⟩
abbrev TIM_EVT_FAR : Fld := ⟨0x40C0, 2, 1⟩
abbrev TIM_EVT_ROOT : Fld := ⟨0x40C0, 3, 1⟩
abbrev TIM_EVT_PPS : Fld := ⟨0x40C0, 4, 1⟩
abbrev TIM_EVT_TOD_REF : Fld := ⟨0x40C0, 5, 1⟩
abbrev STK_STAT_ARMED : Fld := ⟨0x5080, 0, 14⟩
abbrev STK_LAST_STAKE : Fld := ⟨0x5084, 0, 13⟩
abbrev STK_LAST_FRAME_FRAME : Fld := ⟨0x5088, 0, 32⟩
abbrev STK_FIRE_CNT_COUNT : Fld := ⟨0x5090, 0, 32⟩
abbrev STK_LATE_CNT_COUNT : Fld := ⟨0x5094, 0, 32⟩
abbrev STK_EXP_CNT_COUNT : Fld := ⟨0x5098, 0, 32⟩
abbrev STK_ARR_X_CNT_COUNT : Fld := ⟨0x509C, 0, 32⟩
abbrev STK_NOTIFY_BIT : Fld := ⟨0x50A0, 0, 32⟩
abbrev STK_CMD_ARRIVE : Fld := ⟨0x50A4, 0, 1⟩
abbrev STK_CMD_STAKE : Fld := ⟨0x50A4, 1, 13⟩
abbrev STK_ADDR_STAKE : Fld := ⟨0x50C0, 0, 13⟩
abbrev STK_ADDR_REFUSED : Fld := ⟨0x50C0, 13, 1⟩
abbrev STK_DATA_DATA (n : Nat) : Fld := ⟨0x50C4 + 4 * n, 0, 32⟩
abbrev STK_EVT_FIRE : Fld := ⟨0x50F0, 0, 1⟩
abbrev STK_EVT_LATE : Fld := ⟨0x50F0, 1, 1⟩
abbrev STK_EVT_EXPIRE : Fld := ⟨0x50F0, 2, 1⟩
abbrev STK_EVT_REFUSED : Fld := ⟨0x50F0, 3, 1⟩
abbrev BWK_CFG_SRC : Fld := ⟨0x6040, 0, 2⟩
abbrev BWK_CFG_FF_LEAD : Fld := ⟨0x6040, 2, 4⟩
abbrev BWK_CFG_FOLLOW_EN : Fld := ⟨0x6040, 6, 1⟩
abbrev BWK_CFG_FOL_MAX : Fld := ⟨0x6040, 8, 8⟩
abbrev BWK_CFG_GUARD : Fld := ⟨0x6040, 16, 8⟩
abbrev BWK_VSET_V_NOM : Fld := ⟨0x6044, 0, 16⟩
abbrev BWK_VSET_V_TB : Fld := ⟨0x6044, 16, 12⟩
abbrev BWK_DROOP_KD : Fld := ⟨0x6048, 0, 8⟩
abbrev BWK_TBGAIN_KP : Fld := ⟨0x604C, 0, 10⟩
abbrev BWK_TBGAIN_KI : Fld := ⟨0x604C, 16, 12⟩
abbrev BWK_RAMP_RAMP : Fld := ⟨0x6050, 0, 10⟩
abbrev BWK_RAMP_CAP_SLEW : Fld := ⟨0x6050, 16, 8⟩
abbrev BWK_SOC_CFG_SOC_MIN : Fld := ⟨0x6054, 0, 8⟩
abbrev BWK_SOC_CFG_SOC_SET : Fld := ⟨0x6054, 8, 8⟩
abbrev BWK_SOC_CFG_SOC_MAX : Fld := ⟨0x6054, 16, 8⟩
abbrev BWK_SOC_CFG_RES_PCT : Fld := ⟨0x6054, 24, 8⟩
abbrev BWK_SOC_GAIN_KSOC : Fld := ⟨0x6058, 0, 8⟩
abbrev BWK_SOC_GAIN_PSOC_MAX : Fld := ⟨0x6058, 8, 8⟩
abbrev BWK_ENV_CFG_FB_PCT : Fld := ⟨0x605C, 0, 8⟩
abbrev BWK_ENV_CFG_STALE_MS : Fld := ⟨0x605C, 8, 8⟩
abbrev BWK_ENV_CFG_OFF_MS : Fld := ⟨0x605C, 16, 16⟩
abbrev BWK_SHORE_V_HI : Fld := ⟨0x6060, 0, 16⟩
abbrev BWK_SHORE_V_LO : Fld := ⟨0x6060, 16, 16⟩
abbrev BWK_CAP_HOST_CAP : Fld := ⟨0x6064, 0, 16⟩
abbrev BWK_CAP_RACK_CAP : Fld := ⟨0x6068, 0, 16⟩
abbrev BWK_CAP_LOCAL_CAP : Fld := ⟨0x606C, 0, 16⟩
abbrev BWK_DP_STAT_DP_STATE : Fld := ⟨0x6080, 0, 3⟩
abbrev BWK_DP_STAT_ENTRY : Fld := ⟨0x6080, 3, 1⟩
abbrev BWK_DP_STAT_HOLD : Fld := ⟨0x6080, 4, 1⟩
abbrev BWK_DP_STAT_RESTORE : Fld := ⟨0x6080, 5, 1⟩
abbrev BWK_DP_STAT_CAPPED : Fld := ⟨0x6080, 6, 1⟩
abbrev BWK_DP_STAT_OVF_EBB : Fld := ⟨0x6080, 7, 1⟩
abbrev BWK_DP_STAT_OVF_FLOOD : Fld := ⟨0x6080, 8, 1⟩
abbrev BWK_DP_STAT_STO_OFF_P : Fld := ⟨0x6080, 9, 1⟩
abbrev BWK_DP_STAT_STO_OFF_N : Fld := ⟨0x6080, 10, 1⟩
abbrev BWK_DP_STAT_ENV_STALE : Fld := ⟨0x6080, 11, 1⟩
abbrev BWK_DP_STAT_LOCKED : Fld := ⟨0x6080, 12, 1⟩
abbrev BWK_DP_STAT_CAP_BREACH : Fld := ⟨0x6080, 13, 1⟩
abbrev BWK_DP_STAT_CFG_ERR : Fld := ⟨0x6080, 14, 1⟩
abbrev BWK_DP_STAT_DROOP_MISMATCH : Fld := ⟨0x6080, 15, 1⟩
abbrev BWK_DP_STAT_FOLLOW : Fld := ⟨0x6080, 16, 1⟩
abbrev BWK_PLAN_PLAN_PT : Fld := ⟨0x6084, 0, 16⟩
abbrev BWK_PLAN_TARGET : Fld := ⟨0x6084, 16, 16⟩
abbrev BWK_SHARE_SHARE : Fld := ⟨0x6088, 0, 16⟩
abbrev BWK_SHARE_CAP_EFF : Fld := ⟨0x6088, 16, 16⟩
abbrev BWK_FEED_FEED_MEAN : Fld := ⟨0x608C, 0, 16⟩
abbrev BWK_FEED_FOL : Fld := ⟨0x608C, 16, 16⟩
abbrev BWK_STO_STO_MEAN : Fld := ⟨0x6090, 0, 16⟩
abbrev BWK_STO_SOC : Fld := ⟨0x6090, 16, 8⟩
abbrev BWK_ENV_EBB_POS : Fld := ⟨0x6094, 0, 16⟩
abbrev BWK_ENV_EBB_NEG : Fld := ⟨0x6094, 16, 16⟩
abbrev BWK_ENV_FLOOD_POS : Fld := ⟨0x6098, 0, 16⟩
abbrev BWK_ENV_FLOOD_NEG : Fld := ⟨0x6098, 16, 16⟩
abbrev BWK_ENV_CELL_EBB_CELL : Fld := ⟨0x609C, 0, 10⟩
abbrev BWK_ENV_CELL_FLD_CELL : Fld := ⟨0x609C, 16, 10⟩
abbrev BWK_ENV_AGE_AGE : Fld := ⟨0x60A0, 0, 16⟩
abbrev BWK_ENV_AGE_STALE_EFF : Fld := ⟨0x60A0, 16, 5⟩
abbrev BWK_ENV_AGE_OFF_EFF : Fld := ⟨0x60A0, 21, 10⟩
abbrev BWK_BUS_POS_V_BUS : Fld := ⟨0x60A4, 0, 16⟩
abbrev BWK_BUS_POS_V_SET : Fld := ⟨0x60A4, 16, 16⟩
abbrev BWK_BUS_NEG_V_BUS : Fld := ⟨0x60A8, 0, 16⟩
abbrev BWK_BUS_NEG_V_SET : Fld := ⟨0x60A8, 16, 16⟩
abbrev BWK_DEV_DEV_LAST : Fld := ⟨0x60AC, 0, 16⟩
abbrev BWK_DEV_DEV_MAX : Fld := ⟨0x60AC, 16, 16⟩
abbrev BWK_DEV_CNT_COUNT : Fld := ⟨0x60B0, 0, 32⟩
abbrev BWK_WIN_CNT_COUNT : Fld := ⟨0x60B4, 0, 32⟩
abbrev BWK_OVF_CNT_COUNT : Fld := ⟨0x60B8, 0, 32⟩
abbrev BWK_CAP_STAT_GRACE : Fld := ⟨0x60BC, 0, 16⟩
abbrev BWK_CAP_STAT_SHORT : Fld := ⟨0x60BC, 16, 16⟩
abbrev BWK_EVT_WIN : Fld := ⟨0x60C0, 0, 1⟩
abbrev BWK_EVT_SHORE : Fld := ⟨0x60C0, 1, 1⟩
abbrev BWK_EVT_UV : Fld := ⟨0x60C0, 2, 1⟩
abbrev BWK_EVT_DEV : Fld := ⟨0x60C0, 3, 1⟩
abbrev BWK_EVT_OVF : Fld := ⟨0x60C0, 4, 1⟩
abbrev BWK_EVT_BREACH : Fld := ⟨0x60C0, 5, 1⟩
abbrev BWK_EVT_STALE : Fld := ⟨0x60C0, 6, 1⟩
abbrev BWK_CLR_DEV : Fld := ⟨0x60C4, 0, 1⟩
abbrev TTB_CFG_EN : Fld := ⟨0x7040, 0, 1⟩
abbrev TTB_CFG_LOSS_LEARN : Fld := ⟨0x7040, 1, 1⟩
abbrev TTB_CFG_MK_FF_EN : Fld := ⟨0x7040, 2, 1⟩
abbrev TTB_CFG_FORGET : Fld := ⟨0x7040, 4, 4⟩
abbrev TTB_CFG_OUT_K : Fld := ⟨0x7040, 8, 4⟩
abbrev TTB_CFG_LEARN_MIN : Fld := ⟨0x7040, 12, 4⟩
abbrev TTB_CFG_OUT_FRAC : Fld := ⟨0x7040, 16, 8⟩
abbrev TTB_CFG_REJ_MAX : Fld := ⟨0x7040, 24, 4⟩
abbrev TTB_PLL_CFG_PER_TOL : Fld := ⟨0x7044, 0, 8⟩
abbrev TTB_PLL_CFG_KA : Fld := ⟨0x7044, 8, 4⟩
abbrev TTB_PLL_CFG_KB : Fld := ⟨0x7044, 12, 4⟩
abbrev TTB_PLL_CFG_BLANK_PCT : Fld := ⟨0x7044, 16, 8⟩
abbrev TTB_PLL_CFG_EDGE_MIN : Fld := ⟨0x7044, 24, 8⟩
abbrev TTB_GUARD_DIV_A : Fld := ⟨0x7048, 0, 8⟩
abbrev TTB_GUARD_FADE : Fld := ⟨0x7048, 8, 16⟩
abbrev TTB_LULL_LULL_MAX : Fld := ⟨0x704C, 0, 16⟩
abbrev TTB_LULL_MK_HOLD : Fld := ⟨0x704C, 16, 16⟩
abbrev TTB_STAT_STATE : Fld := ⟨0x7080, 0, 3⟩
abbrev TTB_STAT_READY : Fld := ⟨0x7080, 3, 1⟩
abbrev TTB_STAT_LOCK : Fld := ⟨0x7080, 4, 1⟩
abbrev TTB_STAT_FF_ACT : Fld := ⟨0x7080, 5, 1⟩
abbrev TTB_STAT_MK_FF : Fld := ⟨0x7080, 6, 1⟩
abbrev TTB_STAT_DIV : Fld := ⟨0x7080, 7, 1⟩
abbrev TTB_STAT_SLOT : Fld := ⟨0x7080, 8, 2⟩
abbrev TTB_STAT_ORDER : Fld := ⟨0x7080, 10, 3⟩
abbrev TTB_STAT_CONSIST : Fld := ⟨0x7080, 13, 4⟩
abbrev TTB_STAT_MK_PEND : Fld := ⟨0x7080, 17, 5⟩
abbrev TTB_PERIOD_PERIOD_US : Fld := ⟨0x7084, 0, 32⟩
abbrev TTB_INC_INC : Fld := ⟨0x7088, 0, 32⟩
abbrev TTB_PHASE_THETA : Fld := ⟨0x708C, 0, 32⟩
abbrev TTB_PHERR_ERR : Fld := ⟨0x7090, 0, 32⟩
abbrev TTB_STEP_COUNT : Fld := ⟨0x7094, 0, 32⟩
abbrev TTB_JOB_JOB_ID : Fld := ⟨0x7098, 0, 16⟩
abbrev TTB_AVG_AVG : Fld := ⟨0x709C, 0, 16⟩
abbrev TTB_AVG_LOSS : Fld := ⟨0x709C, 16, 16⟩
abbrev TTB_SLOT_JOB_ID (n : Nat) : Fld := ⟨0x70A0 + 4 * n, 0, 16⟩
abbrev TTB_SLOT_STEPS (n : Nat) : Fld := ⟨0x70A0 + 4 * n, 16, 8⟩
abbrev TTB_SLOT_VALID (n : Nat) : Fld := ⟨0x70A0 + 4 * n, 24, 1⟩
abbrev TTB_SLOT_READY (n : Nat) : Fld := ⟨0x70A0 + 4 * n, 25, 1⟩
abbrev TTB_SLOTPER_PERIOD_US (n : Nat) : Fld := ⟨0x70B0 + 4 * n, 0, 32⟩
abbrev TTB_LOCK_CNT_COUNT : Fld := ⟨0x70C0, 0, 32⟩
abbrev TTB_LOSS_CNT_COUNT : Fld := ⟨0x70C4, 0, 32⟩
abbrev TTB_REJ_CNT_COUNT : Fld := ⟨0x70C8, 0, 32⟩
abbrev TTB_OUT_CNT_COUNT : Fld := ⟨0x70CC, 0, 32⟩
abbrev TTB_MK_CNT_COUNT : Fld := ⟨0x70D0, 0, 32⟩
abbrev TTB_MKL_CNT_COUNT : Fld := ⟨0x70D4, 0, 32⟩
abbrev TTB_MKX_CNT_COUNT : Fld := ⟨0x70D8, 0, 32⟩
abbrev TTB_MK_LAST_LEAD : Fld := ⟨0x70E0, 0, 32⟩
abbrev TTB_MK_USE_DISP : Fld := ⟨0x70E4, 0, 3⟩
abbrev TTB_MK_USE_KIND : Fld := ⟨0x70E4, 8, 8⟩
abbrev TTB_MK_USE_JOB_ID : Fld := ⟨0x70E4, 16, 16⟩
abbrev TTB_EVT_LOCK_GAIN : Fld := ⟨0x70F0, 0, 1⟩
abbrev TTB_EVT_LOCK_LOST : Fld := ⟨0x70F0, 1, 1⟩
abbrev TTB_EVT_SUSPECT : Fld := ⟨0x70F0, 2, 1⟩
abbrev TTB_EVT_REJ : Fld := ⟨0x70F0, 3, 1⟩
abbrev TTB_EVT_RELEARN : Fld := ⟨0x70F0, 4, 1⟩
abbrev TTB_EVT_JOB : Fld := ⟨0x70F0, 5, 1⟩
abbrev TTB_EVT_MK_DROP : Fld := ⟨0x70F0, 6, 1⟩
abbrev TTB_CMD_DROP_LOCK : Fld := ⟨0x70F4, 0, 1⟩
abbrev TTB_CMD_CLEAR_SLOT : Fld := ⟨0x70F4, 1, 1⟩
abbrev TTB_CMD_SLOT : Fld := ⟨0x70F4, 2, 2⟩
abbrev TTB_TAB_ADDR_ADDR : Fld := ⟨0x7100, 0, 14⟩
abbrev TTB_TAB_ADDR_REFUSED : Fld := ⟨0x7100, 14, 1⟩
abbrev TTB_TAB_DATA_LO_DATA : Fld := ⟨0x7104, 0, 32⟩
abbrev TTB_TAB_DATA_HI_DATA : Fld := ⟨0x7108, 0, 32⟩
abbrev TTB_LOSS_ADDR_ADDR : Fld := ⟨0x710C, 0, 10⟩
abbrev TTB_LOSS_DATA_DATA : Fld := ⟨0x7110, 0, 32⟩
abbrev TTB_FALL_FALL_POS (n : Nat) : Fld := ⟨0x7120 + 4 * n, 0, 12⟩
abbrev TTB_FALL_FALL_VALID (n : Nat) : Fld := ⟨0x7120 + 4 * n, 12, 1⟩
abbrev CEN_CFG_CORE_EN : Fld := ⟨0x8040, 0, 4⟩
abbrev CEN_CFG_SAT_RPT : Fld := ⟨0x8040, 4, 1⟩
abbrev CEN_CTL_START : Fld := ⟨0x8044, 0, 1⟩
abbrev CEN_CTL_STOP : Fld := ⟨0x8044, 1, 1⟩
abbrev CEN_STAT_CORE0_ST : Fld := ⟨0x8080, 0, 2⟩
abbrev CEN_STAT_CORE1_ST : Fld := ⟨0x8080, 2, 2⟩
abbrev CEN_STAT_CORE2_ST : Fld := ⟨0x8080, 4, 2⟩
abbrev CEN_STAT_CORE3_ST : Fld := ⟨0x8080, 6, 2⟩
abbrev CEN_STAT_BANK : Fld := ⟨0x8080, 8, 1⟩
abbrev CEN_STAT_SWAP_PEND : Fld := ⟨0x8080, 9, 1⟩
abbrev CEN_STAT_IMG_A : Fld := ⟨0x8080, 10, 1⟩
abbrev CEN_STAT_IMG_B : Fld := ⟨0x8080, 11, 1⟩
abbrev CEN_STAT_SUPPRESS : Fld := ⟨0x8080, 12, 1⟩
abbrev CEN_STAT_REJ_CODE : Fld := ⟨0x8080, 16, 3⟩
abbrev CEN_FRAME_FRAME : Fld := ⟨0x8084, 0, 32⟩
abbrev CEN_SLOT_SLOT_A : Fld := ⟨0x8088, 0, 8⟩
abbrev CEN_SLOT_SLOT_B : Fld := ⟨0x8088, 16, 11⟩
abbrev CEN_LEN_END_DECL (n : Nat) : Fld := ⟨0x8090 + 4 * n, 0, 13⟩
abbrev CEN_LEN_CMD_DECL (n : Nat) : Fld := ⟨0x8090 + 4 * n, 16, 13⟩
abbrev CEN_END_END_LAST (n : Nat) : Fld := ⟨0x80A0 + 4 * n, 0, 13⟩
abbrev CEN_END_CMD_LAST (n : Nat) : Fld := ⟨0x80A0 + 4 * n, 16, 13⟩
abbrev CEN_SIG_LO_SIG : Fld := ⟨0x80B0, 0, 32⟩
abbrev CEN_SIG_HI_SIG : Fld := ⟨0x80B4, 0, 32⟩
abbrev CEN_SIG_FRAME_FRAME : Fld := ⟨0x80B8, 0, 32⟩
abbrev CEN_IMG_ACT_BUILD : Fld := ⟨0x80C0, 0, 32⟩
abbrev CEN_IMG_INACT_BUILD : Fld := ⟨0x80C4, 0, 32⟩
abbrev CEN_OVR_CNT_COUNT : Fld := ⟨0x80D0, 0, 32⟩
abbrev CEN_LATE_CNT_COUNT : Fld := ⟨0x80D4, 0, 32⟩
abbrev CEN_MISS_CNT_COUNT : Fld := ⟨0x80D8, 0, 32⟩
abbrev CEN_UE_CNT_COUNT : Fld := ⟨0x80DC, 0, 32⟩
abbrev CEN_SAT_CNT_COUNT (n : Nat) : Fld := ⟨0x80E0 + 4 * n, 0, 32⟩
abbrev CEN_EVT_OVR : Fld := ⟨0x80F0, 0, 1⟩
abbrev CEN_EVT_LATE : Fld := ⟨0x80F0, 1, 1⟩
abbrev CEN_EVT_MISS : Fld := ⟨0x80F0, 2, 1⟩
abbrev CEN_EVT_UE : Fld := ⟨0x80F0, 3, 1⟩
abbrev CEN_EVT_SAT : Fld := ⟨0x80F0, 4, 1⟩
abbrev CEN_EVT_REJ : Fld := ⟨0x80F0, 5, 1⟩
abbrev CEN_EVT_SWAP_DONE : Fld := ⟨0x80F0, 6, 1⟩
abbrev CEN_EVT_SWAP_CANCEL : Fld := ⟨0x80F0, 7, 1⟩
abbrev CEN_SWAP_FRAME : Fld := ⟨0x8100, 0, 32⟩
abbrev CEN_DMA_STAT_HALT : Fld := ⟨0x8104, 0, 32⟩
abbrev CEN_WIN_ADDR_ADDR : Fld := ⟨0x8180, 0, 22⟩
abbrev CEN_WIN_ADDR_CORE : Fld := ⟨0x8180, 22, 2⟩
abbrev CEN_WIN_ADDR_SPACE : Fld := ⟨0x8180, 24, 1⟩
abbrev CEN_WIN_ADDR_REFUSED : Fld := ⟨0x8180, 25, 1⟩
abbrev CEN_WIN_DATA_LO_DATA : Fld := ⟨0x8184, 0, 32⟩
abbrev CEN_WIN_DATA_HI_DATA : Fld := ⟨0x8188, 0, 32⟩
abbrev CEN_PRG_STAT_PREJ_CODE : Fld := ⟨0x8200, 0, 4⟩
abbrev CEN_PRG_STAT_LAW_P : Fld := ⟨0x8200, 4, 1⟩
abbrev CEN_PRG_STAT_LAW_N : Fld := ⟨0x8200, 5, 1⟩
abbrev CEN_PRG_STAT_COEF : Fld := ⟨0x8200, 6, 1⟩
abbrev CEN_PRG_STAT_HO_ACT : Fld := ⟨0x8200, 7, 1⟩
abbrev CEN_PRG_STAT_HO_PEND : Fld := ⟨0x8200, 8, 1⟩
abbrev CEN_PRG_STAT_SP_MODE : Fld := ⟨0x8200, 9, 1⟩
abbrev CEN_PRG_STAT_SS_DONE : Fld := ⟨0x8200, 10, 1⟩
abbrev CEN_PRG_STAT_SP_LAG : Fld := ⟨0x8200, 11, 1⟩
abbrev CEN_PRG_STAT_SP_CLAMP : Fld := ⟨0x8200, 12, 1⟩
abbrev CEN_PRG_STAT_SWAP_WHY : Fld := ⟨0x8200, 13, 2⟩
abbrev CEN_LAW_SEL_SEL_P : Fld := ⟨0x8204, 0, 1⟩
abbrev CEN_LAW_SEL_SEL_N : Fld := ⟨0x8204, 1, 1⟩
abbrev CEN_LAW_SEL_COEF : Fld := ⟨0x8204, 2, 1⟩
abbrev CEN_HO_CFG_HO_FADE : Fld := ⟨0x8208, 0, 16⟩
abbrev CEN_HO_CFG_HO_SLEW : Fld := ⟨0x8208, 16, 8⟩
abbrev CEN_HO_CFG_HO_SHADOW : Fld := ⟨0x8208, 24, 8⟩
abbrev CEN_HO_DELTA_DELTA_P : Fld := ⟨0x820C, 0, 16⟩
abbrev CEN_HO_DELTA_DELTA_N : Fld := ⟨0x820C, 16, 16⟩
abbrev CEN_HO_CNT_COUNT : Fld := ⟨0x8210, 0, 32⟩
abbrev CEN_SP_CFG_SS_RATE : Fld := ⟨0x8214, 0, 8⟩
abbrev CEN_SP_CFG_SS_ILIM : Fld := ⟨0x8214, 8, 8⟩
abbrev CEN_SP_CFG_SL_RATE : Fld := ⟨0x8214, 16, 8⟩
abbrev CEN_SP_CFG_SL_ACC : Fld := ⟨0x8214, 24, 8⟩
abbrev CEN_SP_TGT_V_TGT : Fld := ⟨0x8218, 0, 16⟩
abbrev CEN_SP_REF_V_REF_P : Fld := ⟨0x821C, 0, 16⟩
abbrev CEN_SP_REF_V_REF_N : Fld := ⟨0x821C, 16, 16⟩
abbrev CEN_SP_LAG_LAG_V : Fld := ⟨0x8220, 0, 16⟩
abbrev CEN_SP_LAG_LAG_MS : Fld := ⟨0x8220, 16, 16⟩
abbrev CEN_PRG_EVT_HO_DONE : Fld := ⟨0x8224, 0, 1⟩
abbrev CEN_PRG_EVT_HO_DEFER : Fld := ⟨0x8224, 1, 1⟩
abbrev CEN_PRG_EVT_SP_ARRIVE : Fld := ⟨0x8224, 2, 1⟩
abbrev CEN_PRG_EVT_SP_LAG : Fld := ⟨0x8224, 3, 1⟩
abbrev CEN_PRG_EVT_SP_CLAMP : Fld := ⟨0x8224, 4, 1⟩
abbrev CEN_PRG_EVT_PREJ : Fld := ⟨0x8224, 5, 1⟩
abbrev CEN_STAGE_SEAL : Fld := ⟨0x8228, 0, 1⟩
abbrev CEN_STAGE_BUSY : Fld := ⟨0x8228, 1, 1⟩
abbrev CEN_STAGE_STAGE_OK : Fld := ⟨0x8228, 2, 1⟩
abbrev PHS_CFG_I_RAT : Fld := ⟨0x9040, 0, 10⟩
abbrev PHS_CFG_N_MIN : Fld := ⟨0x9040, 16, 4⟩
abbrev PHS_CFG_N_MIN_F : Fld := ⟨0x9040, 20, 4⟩
abbrev PHS_LOOP_GP : Fld := ⟨0x9044, 0, 8⟩
abbrev PHS_LOOP_GI : Fld := ⟨0x9044, 8, 8⟩
abbrev PHS_LOOP_MIN_ON : Fld := ⟨0x9044, 16, 8⟩
abbrev PHS_LOOP_MIN_OFF : Fld := ⟨0x9044, 24, 8⟩
abbrev PHS_DT_DT_RISE : Fld := ⟨0x9048, 0, 10⟩
abbrev PHS_DT_DT_FALL : Fld := ⟨0x9048, 16, 10⟩
abbrev PHS_SHED_SHED_PCT : Fld := ⟨0x904C, 0, 8⟩
abbrev PHS_SHED_ADD_PCT : Fld := ⟨0x904C, 8, 8⟩
abbrev PHS_SHED_LIM_PCT : Fld := ⟨0x904C, 16, 8⟩
abbrev PHS_SHED_SHED_RAMP : Fld := ⟨0x904C, 24, 8⟩
abbrev PHS_SHED2_SHED_DWELL : Fld := ⟨0x9050, 0, 16⟩
abbrev PHS_SHED2_SHED_LOOK : Fld := ⟨0x9050, 16, 16⟩
abbrev PHS_ROT_ROT_S : Fld := ⟨0x9054, 0, 16⟩
abbrev PHS_ROT_GLIDE : Fld := ⟨0x9054, 16, 16⟩
abbrev PHS_PB_PB_CYCLES : Fld := ⟨0x9058, 0, 8⟩
abbrev PHS_PB_PB_MIN : Fld := ⟨0x9058, 8, 8⟩
abbrev PHS_PB_BRK_DI : Fld := ⟨0x9058, 16, 8⟩
abbrev PHS_PB_BRK_MAX : Fld := ⟨0x9058, 24, 8⟩
abbrev PHS_PROT_OC_PCT : Fld := ⟨0x905C, 0, 8⟩
abbrev PHS_PROT_OC_N : Fld := ⟨0x905C, 8, 4⟩
abbrev PHS_PROT_OT_WARN : Fld := ⟨0x905C, 16, 8⟩
abbrev PHS_PROT_OT_TRIP : Fld := ⟨0x905C, 24, 8⟩
abbrev PHS_PROT2_IMB_A : Fld := ⟨0x9060, 0, 8⟩
abbrev PHS_PROT2_SUM_A : Fld := ⟨0x9060, 8, 8⟩
abbrev PHS_SC_SC_LAG_V : Fld := ⟨0x9064, 0, 8⟩
abbrev PHS_SC_SC_MS : Fld := ⟨0x9064, 8, 8⟩
abbrev PHS_STAT_NFIRE_P : Fld := ⟨0x9080, 0, 4⟩
abbrev PHS_STAT_NFIRE_N : Fld := ⟨0x9080, 4, 4⟩
abbrev PHS_STAT_NACT_P : Fld := ⟨0x9080, 8, 4⟩
abbrev PHS_STAT_NACT_N : Fld := ⟨0x9080, 12, 4⟩
abbrev PHS_STAT_NFIRE_FP : Fld := ⟨0x9080, 16, 4⟩
abbrev PHS_STAT_NFIRE_FN : Fld := ⟨0x9080, 20, 4⟩
abbrev PHS_STAT_NACT_FP : Fld := ⟨0x9080, 24, 4⟩
abbrev PHS_STAT_NACT_FN : Fld := ⟨0x9080, 28, 4⟩
abbrev PHS_LNK_STAT_UP : Fld := ⟨0x9084, 0, 8⟩
abbrev PHS_LNK_STAT_ABORTED : Fld := ⟨0x9084, 8, 8⟩
abbrev PHS_LNK_STAT_ARMED : Fld := ⟨0x9084, 16, 8⟩
abbrev PHS_EVT_ISO : Fld := ⟨0x9088, 0, 1⟩
abbrev PHS_EVT_DRV : Fld := ⟨0x9088, 1, 1⟩
abbrev PHS_EVT_OT_WARN : Fld := ⟨0x9088, 2, 1⟩
abbrev PHS_EVT_IMB : Fld := ⟨0x9088, 3, 1⟩
abbrev PHS_EVT_SENSE : Fld := ⟨0x9088, 4, 1⟩
abbrev PHS_EVT_LINK_DOWN : Fld := ⟨0x9088, 5, 1⟩
abbrev PHS_EVT_SHORT : Fld := ⟨0x9088, 6, 1⟩
abbrev PHS_EVT_NOCMD : Fld := ⟨0x9088, 7, 1⟩
abbrev PHS_EVT_BRK_LONG : Fld := ⟨0x9088, 8, 1⟩
abbrev PHS_EVT_CUT : Fld := ⟨0x9088, 9, 1⟩
abbrev PHS_CMD_PK_CLR : Fld := ⟨0x908C, 0, 1⟩
abbrev PHS_CMD_ROT_NOW : Fld := ⟨0x908C, 1, 1⟩
abbrev PHS_REARM_LO_REARM : Fld := ⟨0x9090, 0, 32⟩
abbrev PHS_REARM_HI_REARM : Fld := ⟨0x9094, 0, 8⟩
abbrev PHS_ISO_LO_ISO : Fld := ⟨0x9098, 0, 32⟩
abbrev PHS_ISO_HI_ISO : Fld := ⟨0x909C, 0, 8⟩
abbrev PHS_ISO_CNT_COUNT : Fld := ⟨0x90A0, 0, 32⟩
abbrev PHS_ADD_CNT_COUNT : Fld := ⟨0x90A4, 0, 32⟩
abbrev PHS_SHED_CNT_COUNT : Fld := ⟨0x90A8, 0, 32⟩
abbrev PHS_CUT_CNT_COUNT : Fld := ⟨0x90AC, 0, 32⟩
abbrev PHS_BRK_CNT_COUNT : Fld := ⟨0x90B0, 0, 32⟩
abbrev PHS_LERR_CNT_COUNT (n : Nat) : Fld := ⟨0x90C0 + 4 * n, 0, 32⟩
abbrev PHS_LDLY_DLY (n : Nat) : Fld := ⟨0x90E0 + 4 * n, 0, 11⟩
abbrev PHS_PCFG_EN (n : Nat) : Fld := ⟨0x9100 + 4 * n, 0, 1⟩
abbrev PHS_PCFG_ORD (n : Nat) : Fld := ⟨0x9100 + 4 * n, 1, 4⟩
abbrev PHS_PSTAT_STATE (n : Nat) : Fld := ⟨0x9200 + 4 * n, 0, 3⟩
abbrev PHS_PSTAT_ISO_WHY (n : Nat) : Fld := ⟨0x9200 + 4 * n, 3, 4⟩
abbrev PHS_PSTAT_DRV (n : Nat) : Fld := ⟨0x9200 + 4 * n, 8, 5⟩
abbrev PHS_PSTAT_OFFSET (n : Nat) : Fld := ⟨0x9200 + 4 * n, 15, 17⟩
abbrev PHS_IAVG_I_AVG (n : Nat) : Fld := ⟨0x9300 + 4 * n, 0, 16⟩
abbrev PHS_IAVG_TEMP (n : Nat) : Fld := ⟨0x9300 + 4 * n, 16, 16⟩
abbrev PHS_IPK_I_MAX (n : Nat) : Fld := ⟨0x9400 + 4 * n, 0, 16⟩
abbrev PHS_IPK_I_MIN (n : Nat) : Fld := ⟨0x9400 + 4 * n, 16, 16⟩
abbrev AFE_CFG_OPEN_EN : Fld := ⟨0xA040, 0, 1⟩
abbrev AFE_CFG_OPEN_N : Fld := ⟨0xA040, 4, 4⟩
abbrev AFE_OPEN_OPEN (n : Nat) : Fld := ⟨0xA080 + 4 * n, 0, 32⟩
abbrev AFE_RANGE_RANGE (n : Nat) : Fld := ⟨0xA0A0 + 4 * n, 0, 32⟩
abbrev AFE_MON_SEL_CH : Fld := ⟨0xA0C0, 0, 8⟩
abbrev AFE_MON_MEAN_MEAN : Fld := ⟨0xA0C4, 0, 16⟩
abbrev AFE_MON_MEAN_LAST : Fld := ⟨0xA0C4, 16, 16⟩
abbrev AFE_MON_PK_MAX : Fld := ⟨0xA0C8, 0, 16⟩
abbrev AFE_MON_PK_MIN : Fld := ⟨0xA0C8, 16, 16⟩
abbrev AFE_CLR_OPEN : Fld := ⟨0xA0D0, 0, 1⟩
abbrev AFE_CAL_GAIN (n : Nat) : Fld := ⟨0xA100 + 4 * n, 0, 16⟩
abbrev AFE_CAL_OFFSET (n : Nat) : Fld := ⟨0xA100 + 4 * n, 16, 16⟩
abbrev CAP_CFG_EN : Fld := ⟨0xB040, 0, 1⟩
abbrev CAP_CFG_TRIG_CLASS : Fld := ⟨0xB040, 1, 3⟩
abbrev CAP_CFG_POST_PCT : Fld := ⟨0xB040, 8, 8⟩
abbrev CAP_STAT_FROZEN : Fld := ⟨0xB080, 0, 1⟩
abbrev CAP_STAT_RUNNING : Fld := ⟨0xB080, 1, 1⟩
abbrev CAP_STAT_DEPTH : Fld := ⟨0xB080, 16, 16⟩
abbrev CAP_TRIG_FRAME : Fld := ⟨0xB084, 0, 32⟩
abbrev CAP_OLDEST_BLOCK : Fld := ⟨0xB088, 0, 32⟩
abbrev CAP_CMD_FREEZE : Fld := ⟨0xB08C, 0, 1⟩
abbrev CAP_CMD_REARM : Fld := ⟨0xB08C, 1, 1⟩
abbrev CAP_WIN_ADDR_ADDR : Fld := ⟨0xB0C0, 0, 30⟩
abbrev CAP_WIN_DATA_DATA : Fld := ⟨0xB0C4, 0, 32⟩
abbrev WCH_CFG_EN : Fld := ⟨0xC040, 0, 1⟩
abbrev WCH_CFG_SW_SEL : Fld := ⟨0xC040, 1, 3⟩
abbrev WCH_CFG_INV_MAX : Fld := ⟨0xC040, 4, 4⟩
abbrev WCH_CFG_XC_MV : Fld := ⟨0xC040, 8, 8⟩
abbrev WCH_CFG_OW_MV : Fld := ⟨0xC040, 16, 8⟩
abbrev WCH_CFG_I_BAL : Fld := ⟨0xC040, 24, 2⟩
abbrev WCH_RING0_CFG_N_MON : Fld := ⟨0xC044, 0, 6⟩
abbrev WCH_RING1_CFG_N_MON : Fld := ⟨0xC048, 0, 6⟩
abbrev WCH_OWT_CFG_OWT_S : Fld := ⟨0xC04C, 0, 16⟩
abbrev WCH_OWT_CFG_SIG_TEST : Fld := ⟨0xC04C, 16, 1⟩
abbrev WCH_BAL_CFG_SRC : Fld := ⟨0xC050, 0, 2⟩
abbrev WCH_BAL_CFG_BAL_MAX : Fld := ⟨0xC050, 4, 4⟩
abbrev WCH_BAL_CFG_BAL_T_HI : Fld := ⟨0xC050, 8, 8⟩
abbrev WCH_BAL_CFG_BAL_T_OFF : Fld := ⟨0xC050, 16, 8⟩
abbrev WCH_BAL_CFG_BAL_VMARG : Fld := ⟨0xC050, 24, 8⟩
abbrev WCH_LIM_CFG_CL_MV : Fld := ⟨0xC054, 0, 8⟩
abbrev WCH_LIM_CFG_CL_T : Fld := ⟨0xC054, 8, 8⟩
abbrev WCH_LIM_CFG_SUM_TOL : Fld := ⟨0xC054, 16, 8⟩
abbrev WCH_LIM_CFG_RECLOSE : Fld := ⟨0xC054, 24, 8⟩
abbrev WCH_STAT_ST0 : Fld := ⟨0xC080, 0, 2⟩
abbrev WCH_STAT_ST1 : Fld := ⟨0xC080, 2, 2⟩
abbrev WCH_STAT_READY0 : Fld := ⟨0xC080, 4, 1⟩
abbrev WCH_STAT_READY1 : Fld := ⟨0xC080, 5, 1⟩
abbrev WCH_STAT_BAL_ACT : Fld := ⟨0xC080, 6, 1⟩
abbrev WCH_STAT_OWT_CYC : Fld := ⟨0xC080, 7, 1⟩
abbrev WCH_RING0_STAT_NFOUND : Fld := ⟨0xC084, 0, 6⟩
abbrev WCH_RING0_STAT_END_A : Fld := ⟨0xC084, 6, 6⟩
abbrev WCH_RING0_STAT_END_B : Fld := ⟨0xC084, 12, 6⟩
abbrev WCH_RING1_STAT_NFOUND : Fld := ⟨0xC088, 0, 6⟩
abbrev WCH_RING1_STAT_END_A : Fld := ⟨0xC088, 6, 6⟩
abbrev WCH_RING1_STAT_END_B : Fld := ⟨0xC088, 12, 6⟩
abbrev WCH_RING0_DLY_DHOP : Fld := ⟨0xC08C, 0, 16⟩
abbrev WCH_RING0_DLY_LOOP : Fld := ⟨0xC08C, 16, 16⟩
abbrev WCH_RING1_DLY_DHOP : Fld := ⟨0xC090, 0, 16⟩
abbrev WCH_RING1_DLY_LOOP : Fld := ⟨0xC090, 16, 16⟩
abbrev WCH_SWEEP_CNT_COUNT : Fld := ⟨0xC094, 0, 32⟩
abbrev WCH_SWEEP_FRAME_FRAME : Fld := ⟨0xC098, 0, 32⟩
abbrev WCH_CRC_CNT_COUNT : Fld := ⟨0xC0A0, 0, 32⟩
abbrev WCH_BRK_CNT_COUNT : Fld := ⟨0xC0A4, 0, 32⟩
abbrev WCH_INV_CNT_COUNT : Fld := ⟨0xC0A8, 0, 32⟩
abbrev WCH_OWT_CNT_COUNT : Fld := ⟨0xC0AC, 0, 32⟩
abbrev WCH_EVT_BREAK : Fld := ⟨0xC0C0, 0, 1⟩
abbrev WCH_EVT_RECLOSE : Fld := ⟨0xC0C0, 1, 1⟩
abbrev WCH_EVT_LOST : Fld := ⟨0xC0C0, 2, 1⟩
abbrev WCH_EVT_WIRE_SIG : Fld := ⟨0xC0C0, 3, 1⟩
abbrev WCH_EVT_WIRE_OPEN : Fld := ⟨0xC0C0, 4, 1⟩
abbrev WCH_EVT_MISMATCH : Fld := ⟨0xC0C0, 5, 1⟩
abbrev WCH_EVT_CELL_SHORE : Fld := ⟨0xC0C0, 6, 1⟩
abbrev WCH_EVT_CELL_LIMIT : Fld := ⟨0xC0C0, 7, 1⟩
abbrev WCH_EVT_SUM : Fld := ⟨0xC0C0, 8, 1⟩
abbrev WCH_EVT_CRC : Fld := ⟨0xC0C0, 9, 1⟩
abbrev WCH_EVT_ENUM : Fld := ⟨0xC0C0, 10, 1⟩
abbrev WCH_EVT_THERM : Fld := ⟨0xC0C0, 11, 1⟩
abbrev WCH_CMD_ENUM : Fld := ⟨0xC0C4, 0, 1⟩
abbrev WCH_CMD_OWT_NOW : Fld := ⟨0xC0C4, 1, 1⟩
abbrev WCH_CMD_REARM : Fld := ⟨0xC0C4, 2, 1⟩
abbrev WCH_CMD_MON : Fld := ⟨0xC0C4, 3, 6⟩
abbrev WCH_CELL_ADDR_CELL : Fld := ⟨0xC0D0, 0, 10⟩
abbrev WCH_CELL_DATA_PREC : Fld := ⟨0xC0D4, 0, 16⟩
abbrev WCH_CELL_DATA_COARSE : Fld := ⟨0xC0D4, 16, 10⟩
abbrev WCH_CELL_DATA_VALID : Fld := ⟨0xC0D4, 26, 2⟩
abbrev WCH_CELL_DATA_BLEED : Fld := ⟨0xC0D4, 28, 1⟩
abbrev WCH_BAL_ADDR_MON : Fld := ⟨0xC0D8, 0, 6⟩
abbrev WCH_BAL_DATA_MASK : Fld := ⟨0xC0DC, 0, 16⟩
abbrev WCH_BAL_DATA_TIMER : Fld := ⟨0xC0DC, 16, 16⟩
abbrev WCH_MON_OPEN (n : Nat) : Fld := ⟨0xC100 + 4 * n, 0, 17⟩
abbrev WCH_MON_PRESENT (n : Nat) : Fld := ⟨0xC100 + 4 * n, 17, 1⟩
abbrev WCH_MON_FAULT (n : Nat) : Fld := ⟨0xC100 + 4 * n, 18, 1⟩
abbrev WCH_MON_INHIBIT (n : Nat) : Fld := ⟨0xC100 + 4 * n, 19, 1⟩
abbrev WCH_MON_T_DIE (n : Nat) : Fld := ⟨0xC100 + 4 * n, 24, 8⟩
abbrev LNK_CFG_PORT_EN : Fld := ⟨0xD040, 0, 7⟩
abbrev LNK_CFG_ONE_LANE_OK : Fld := ⟨0xD040, 7, 1⟩
abbrev LNK_CFG_PORT_WIN : Fld := ⟨0xD040, 8, 8⟩
abbrev LNK_CFG_POOL_LOW : Fld := ⟨0xD040, 16, 12⟩
abbrev LNK_ADDR_ADDR : Fld := ⟨0xD044, 0, 14⟩
abbrev LNK_FLEET_CFG_BASIS : Fld := ⟨0xD048, 0, 16⟩
abbrev LNK_FLEET_CFG_PLAN_SRC : Fld := ⟨0xD048, 16, 1⟩
abbrev LNK_FLEET_CFG_TREE_EN : Fld := ⟨0xD048, 17, 1⟩
abbrev LNK_DIAG_CFG_CLEAN_DB : Fld := ⟨0xD04C, 0, 8⟩
abbrev LNK_DIAG_CFG_MARGIN_DB : Fld := ⟨0xD04C, 8, 8⟩
abbrev LNK_DIAG_CFG_REFL_DB : Fld := ⟨0xD04C, 16, 8⟩
abbrev LNK_DIAG_CFG_DIAG_S : Fld := ⟨0xD04C, 24, 8⟩
abbrev LNK_PCFG_ASYM (n : Nat) : Fld := ⟨0xD060 + 4 * n, 0, 16⟩
abbrev LNK_STAT_UP : Fld := ⟨0xD080, 0, 7⟩
abbrev LNK_STAT_ONE_LANE : Fld := ⟨0xD080, 8, 7⟩
abbrev LNK_STAT_FAIL : Fld := ⟨0xD080, 16, 7⟩
abbrev LNK_STAT_POOL_LOW : Fld := ⟨0xD080, 23, 1⟩
abbrev LNK_TREE_STAT_DEPTH : Fld := ⟨0xD084, 0, 4⟩
abbrev LNK_TREE_STAT_UP_LINK : Fld := ⟨0xD084, 4, 4⟩
abbrev LNK_TREE_STAT_CHILD : Fld := ⟨0xD084, 8, 8⟩
abbrev LNK_TREE_STAT_BLOCKED : Fld := ⟨0xD084, 16, 8⟩
abbrev LNK_TREE_STAT_ROOT_RACK : Fld := ⟨0xD084, 24, 1⟩
abbrev LNK_POOL_FREE : Fld := ⟨0xD088, 0, 12⟩
abbrev LNK_POOL_MIN_FREE : Fld := ⟨0xD088, 16, 12⟩
abbrev LNK_PSTAT_STATE (n : Nat) : Fld := ⟨0xD0A0 + 4 * n, 0, 3⟩
abbrev LNK_PSTAT_ROLE_ERR (n : Nat) : Fld := ⟨0xD0A0 + 4 * n, 3, 1⟩
abbrev LNK_PSTAT_PEER_ADDR (n : Nat) : Fld := ⟨0xD0A0 + 4 * n, 4, 14⟩
abbrev LNK_PSTAT_PEER_PORT (n : Nat) : Fld := ⟨0xD0A0 + 4 * n, 18, 3⟩
abbrev LNK_PSTAT_CLEAN_AT (n : Nat) : Fld := ⟨0xD0A0 + 4 * n, 21, 2⟩
abbrev LNK_PSTAT_CLEAN_REQ (n : Nat) : Fld := ⟨0xD0A0 + 4 * n, 23, 1⟩
abbrev LNK_PSTAT_BASE_VALID (n : Nat) : Fld := ⟨0xD0A0 + 4 * n, 24, 1⟩
abbrev LNK_PDLY_DLY (n : Nat) : Fld := ⟨0xD0C0 + 4 * n, 0, 24⟩
abbrev LNK_NOROUTE_CNT_COUNT : Fld := ⟨0xD0E0, 0, 32⟩
abbrev LNK_GAP_CNT_COUNT : Fld := ⟨0xD0E4, 0, 32⟩
abbrev LNK_STOP_CNT_COUNT : Fld := ⟨0xD0E8, 0, 32⟩
abbrev LNK_AGED_CNT_COUNT : Fld := ⟨0xD0EC, 0, 32⟩
abbrev LNK_EVT_DOWN : Fld := ⟨0xD0F0, 0, 1⟩
abbrev LNK_EVT_DEGRADED : Fld := ⟨0xD0F0, 1, 1⟩
abbrev LNK_EVT_RETRAIN : Fld := ⟨0xD0F0, 2, 1⟩
abbrev LNK_EVT_FAIL : Fld := ⟨0xD0F0, 3, 1⟩
abbrev LNK_EVT_ROLE : Fld := ⟨0xD0F0, 4, 1⟩
abbrev LNK_EVT_POOL_LOW : Fld := ⟨0xD0F0, 5, 1⟩
abbrev LNK_EVT_STALL : Fld := ⟨0xD0F0, 6, 1⟩
abbrev LNK_EVT_LOST : Fld := ⟨0xD0F0, 7, 1⟩
abbrev LNK_EVT_NOROUTE : Fld := ⟨0xD0F0, 8, 1⟩
abbrev LNK_EVT_ADDR : Fld := ⟨0xD0F0, 9, 1⟩
abbrev LNK_EVT_DETACHED : Fld := ⟨0xD0F0, 10, 1⟩
abbrev LNK_EVT_CLEAN : Fld := ⟨0xD0F0, 11, 1⟩
abbrev LNK_EVT_MARGIN : Fld := ⟨0xD0F0, 12, 1⟩
abbrev LNK_EVT_CFG : Fld := ⟨0xD0F0, 13, 1⟩
abbrev LNK_CMD_RETRAIN : Fld := ⟨0xD0F4, 0, 1⟩
abbrev LNK_CMD_BASE : Fld := ⟨0xD0F4, 1, 1⟩
abbrev LNK_CMD_PORT : Fld := ⟨0xD0F4, 2, 3⟩
abbrev LNK_CMD_POOL_MIN_CLR : Fld := ⟨0xD0F4, 5, 1⟩
abbrev LNK_CRC_CNT_COUNT (n : Nat) : Fld := ⟨0xD100 + 4 * n, 0, 32⟩
abbrev LNK_RTR_CNT_COUNT (n : Nat) : Fld := ⟨0xD120 + 4 * n, 0, 32⟩
abbrev LNK_RETX_CNT_COUNT (n : Nat) : Fld := ⟨0xD140 + 4 * n, 0, 32⟩
abbrev LNK_LOST_CNT_COUNT (n : Nat) : Fld := ⟨0xD160 + 4 * n, 0, 32⟩
abbrev LNK_OPT_PWR_TX0 (n : Nat) : Fld := ⟨0xD180 + 8 * n, 0, 8⟩
abbrev LNK_OPT_PWR_TX1 (n : Nat) : Fld := ⟨0xD180 + 8 * n, 8, 8⟩
abbrev LNK_OPT_PWR_RX0 (n : Nat) : Fld := ⟨0xD180 + 8 * n, 16, 8⟩
abbrev LNK_OPT_PWR_RX1 (n : Nat) : Fld := ⟨0xD180 + 8 * n, 24, 8⟩
abbrev LNK_OPT_LOSS_LOSS0 (n : Nat) : Fld := ⟨0xD184 + 8 * n, 0, 8⟩
abbrev LNK_OPT_LOSS_LOSS1 (n : Nat) : Fld := ⟨0xD184 + 8 * n, 8, 8⟩
abbrev LNK_OPT_LOSS_RL_LOC (n : Nat) : Fld := ⟨0xD184 + 8 * n, 16, 8⟩
abbrev LNK_OPT_LOSS_RL_FAR (n : Nat) : Fld := ⟨0xD184 + 8 * n, 24, 8⟩
abbrev LNK_BASE_BASE0 (n : Nat) : Fld := ⟨0xD1C0 + 4 * n, 0, 8⟩
abbrev LNK_BASE_BASE1 (n : Nat) : Fld := ⟨0xD1C0 + 4 * n, 8, 8⟩
abbrev LNK_CH_ADDR_CH : Fld := ⟨0xD200, 0, 8⟩
abbrev LNK_CH_DATA_USE : Fld := ⟨0xD204, 0, 13⟩
abbrev LNK_CH_DATA_STOP_RX : Fld := ⟨0xD204, 13, 1⟩
abbrev LNK_CH_DATA_STOP_TX : Fld := ⟨0xD204, 14, 1⟩
abbrev LNK_CH_DATA_GAPS : Fld := ⟨0xD204, 16, 16⟩
abbrev LNK_ROUTE_ADDR_ADDR : Fld := ⟨0xD210, 0, 14⟩
abbrev LNK_ROUTE_DATA_LINK : Fld := ⟨0xD214, 0, 4⟩
abbrev LNK_ROUTE_DATA_AGE : Fld := ⟨0xD214, 4, 12⟩
abbrev LNK_CHCFG_CLASS (n : Nat) : Fld := ⟨0xD400 + 4 * n, 0, 2⟩
abbrev LNK_CHCFG_CH_MAX (n : Nat) : Fld := ⟨0xD400 + 4 * n, 2, 8⟩
abbrev LNK_CHCFG_DELIV (n : Nat) : Fld := ⟨0xD400 + 4 * n, 10, 2⟩
abbrev FLT_CFG_SLACK : Fld := ⟨0xE040, 0, 16⟩
abbrev FLT_CFG_SHADOW_MS : Fld := ⟨0xE040, 16, 4⟩
abbrev FLT_CFG_ESC_ON_CLR : Fld := ⟨0xE040, 20, 1⟩
abbrev FLT_REP_CFG_RST_MAX : Fld := ⟨0xE044, 0, 4⟩
abbrev FLT_REP_CFG_RST_WIN : Fld := ⟨0xE044, 4, 12⟩
abbrev FLT_REP_CFG_FLAP_MAX : Fld := ⟨0xE044, 16, 4⟩
abbrev FLT_REP_CFG_FLAP_WIN : Fld := ⟨0xE044, 20, 12⟩
abbrev FLT_L1_EN_EN : Fld := ⟨0xE048, 0, 21⟩
abbrev FLT_STAT_LEVEL : Fld := ⟨0xE080, 0, 2⟩
abbrev FLT_STAT_SAFE_REQ : Fld := ⟨0xE080, 2, 1⟩
abbrev FLT_STAT_SHADOW : Fld := ⟨0xE080, 3, 1⟩
abbrev FLT_STAT_QUEUE_OVF : Fld := ⟨0xE080, 4, 1⟩
abbrev FLT_STAT_SLACK_FULL : Fld := ⟨0xE080, 5, 1⟩
abbrev FLT_ACTIVE_BLK : Fld := ⟨0xE084, 0, 21⟩
abbrev FLT_LATCH_BLK : Fld := ⟨0xE088, 0, 21⟩
abbrev FLT_FATAL_BLK : Fld := ⟨0xE08C, 0, 21⟩
abbrev FLT_FIRST_LO_SRC : Fld := ⟨0xE090, 0, 12⟩
abbrev FLT_FIRST_LO_CLASS : Fld := ⟨0xE090, 12, 2⟩
abbrev FLT_FIRST_LO_VALID : Fld := ⟨0xE090, 14, 1⟩
abbrev FLT_FIRST_LO_KIND : Fld := ⟨0xE090, 16, 8⟩
abbrev FLT_FIRST_HI_ADDR : Fld := ⟨0xE094, 0, 32⟩
abbrev FLT_FIRST_SEQ_SEQ : Fld := ⟨0xE098, 0, 32⟩
abbrev FLT_SEQ_NEXT : Fld := ⟨0xE09C, 0, 32⟩
abbrev FLT_CORR_CNT_COUNT : Fld := ⟨0xE0A0, 0, 32⟩
abbrev FLT_UNC_CNT_COUNT : Fld := ⟨0xE0A4, 0, 32⟩
abbrev FLT_FATAL_CNT_COUNT : Fld := ⟨0xE0A8, 0, 32⟩
abbrev FLT_L1_CNT_COUNT : Fld := ⟨0xE0AC, 0, 32⟩
abbrev FLT_L2_CNT_COUNT : Fld := ⟨0xE0B0, 0, 32⟩
abbrev FLT_L3_CNT_COUNT : Fld := ⟨0xE0B4, 0, 32⟩
abbrev FLT_SHADOW_CNT_COUNT : Fld := ⟨0xE0B8, 0, 32⟩
abbrev FLT_DROP_CNT_COUNT : Fld := ⟨0xE0BC, 0, 32⟩
abbrev FLT_FORCE_CNT_COUNT : Fld := ⟨0xE0C0, 0, 32⟩
abbrev FLT_DISP_SEQ_SEQ : Fld := ⟨0xE0D0, 0, 32⟩
abbrev FLT_DISP_CODE : Fld := ⟨0xE0D4, 0, 3⟩
abbrev FLT_PEND_COUNT : Fld := ⟨0xE0D8, 0, 6⟩
abbrev FLT_PEND_LEFT : Fld := ⟨0xE0D8, 16, 16⟩
abbrev FLT_PEND_SEQ_SEQ : Fld := ⟨0xE0DC, 0, 32⟩
abbrev FLT_CLR_LATCH : Fld := ⟨0xE0E0, 0, 1⟩
abbrev FLT_CLR_FATAL : Fld := ⟨0xE0E0, 1, 1⟩
abbrev FLT_CLR_FIRST : Fld := ⟨0xE0E0, 2, 1⟩
abbrev FLT_CLR_STAT : Fld := ⟨0xE0E0, 3, 1⟩
abbrev FLT_EVT_ESC1 : Fld := ⟨0xE0F0, 0, 1⟩
abbrev FLT_EVT_ESC2 : Fld := ⟨0xE0F0, 1, 1⟩
abbrev FLT_EVT_ESC3 : Fld := ⟨0xE0F0, 2, 1⟩
abbrev FLT_EVT_SHADOW_END : Fld := ⟨0xE0F0, 3, 1⟩
abbrev FLT_EVT_QUEUE_OVF : Fld := ⟨0xE0F0, 4, 1⟩
abbrev FLT_EVT_FORCE : Fld := ⟨0xE0F0, 5, 1⟩
abbrev FLT_EVT_DISP_REF : Fld := ⟨0xE0F0, 6, 1⟩
abbrev FLT_REC_SEQ_SEQ : Fld := ⟨0xE100, 0, 32⟩
abbrev FLT_REC_STAT_HELD : Fld := ⟨0xE104, 0, 1⟩
abbrev FLT_REC_DATA_DATA (n : Nat) : Fld := ⟨0xE108 + 4 * n, 0, 32⟩
abbrev MEM_CFG_SCRUB_EN : Fld := ⟨0xF040, 0, 1⟩
abbrev MEM_CFG_DRAM_SCRUB_H : Fld := ⟨0xF040, 8, 8⟩
abbrev MEM_CFG_SCRUB_MS : Fld := ⟨0xF040, 16, 16⟩
abbrev MEM_STAT_SCRUB_ACT : Fld := ⟨0xF080, 0, 1⟩
abbrev MEM_STAT_DRAM_SCRUB_ACT : Fld := ⟨0xF080, 1, 1⟩
abbrev MEM_STAT_FENCED : Fld := ⟨0xF080, 8, 8⟩
abbrev MEM_UE_CNT_COUNT : Fld := ⟨0xF084, 0, 32⟩
abbrev MEM_LAST_CORR_STORE : Fld := ⟨0xF088, 0, 6⟩
abbrev MEM_LAST_CORR_COPY : Fld := ⟨0xF088, 6, 1⟩
abbrev MEM_LAST_CORR_ADDR_ADDR : Fld := ⟨0xF08C, 0, 32⟩
abbrev MEM_LAST_UE_STORE : Fld := ⟨0xF090, 0, 6⟩
abbrev MEM_LAST_UE_ADDR_ADDR : Fld := ⟨0xF094, 0, 32⟩
abbrev MEM_REPAIR_FACTORY_USED : Fld := ⟨0xF098, 0, 7⟩
abbrev MEM_REPAIR_FIELD_USED : Fld := ⟨0xF098, 8, 7⟩
abbrev MEM_REPAIR_PENDING : Fld := ⟨0xF098, 16, 5⟩
abbrev MEM_DMA_HALT_HALT : Fld := ⟨0xF09C, 0, 8⟩
abbrev MEM_DMA_ADDR_ADDR : Fld := ⟨0xF0A0, 0, 32⟩
abbrev MEM_EVT_CORR : Fld := ⟨0xF0C0, 0, 1⟩
abbrev MEM_EVT_HARD : Fld := ⟨0xF0C0, 1, 1⟩
abbrev MEM_EVT_SPARE_OUT : Fld := ⟨0xF0C0, 2, 1⟩
abbrev MEM_EVT_SINGLE_UE : Fld := ⟨0xF0C0, 3, 1⟩
abbrev MEM_EVT_TWIN_UE : Fld := ⟨0xF0C0, 4, 1⟩
abbrev MEM_EVT_FETCH_UE : Fld := ⟨0xF0C0, 5, 1⟩
abbrev MEM_EVT_FW_UE : Fld := ⟨0xF0C0, 6, 1⟩
abbrev MEM_EVT_DATA_UE : Fld := ⟨0xF0C0, 7, 1⟩
abbrev MEM_EVT_DMA_UE : Fld := ⟨0xF0C0, 8, 1⟩
abbrev MEM_EVT_DRAM_CORR : Fld := ⟨0xF0C0, 9, 1⟩
abbrev MEM_EVT_DRAM_UE : Fld := ⟨0xF0C0, 10, 1⟩
abbrev MEM_CMD_DMA_RESUME : Fld := ⟨0xF0C4, 0, 1⟩
abbrev MEM_CMD_CH : Fld := ⟨0xF0C4, 1, 3⟩
abbrev MEM_CMD_SCRUB_NOW : Fld := ⟨0xF0C4, 4, 1⟩
abbrev MEM_CORR_CNT_COUNT (n : Nat) : Fld := ⟨0xF100 + 4 * n, 0, 32⟩
abbrev MEM_SPARE_TOTAL (n : Nat) : Fld := ⟨0xF200 + 4 * n, 0, 8⟩
abbrev MEM_SPARE_USED_A (n : Nat) : Fld := ⟨0xF200 + 4 * n, 8, 8⟩
abbrev MEM_SPARE_USED_B (n : Nat) : Fld := ⟨0xF200 + 4 * n, 16, 8⟩
abbrev LOG_CFG_BURST : Fld := ⟨0x10040, 0, 8⟩
abbrev LOG_CFG_RATE_MS : Fld := ⟨0x10040, 8, 16⟩
abbrev LOG_CFG_WARN_PCT : Fld := ⟨0x10040, 24, 7⟩
abbrev LOG_STAT_READY : Fld := ⟨0x10080, 0, 1⟩
abbrev LOG_STAT_FULL : Fld := ⟨0x10080, 1, 1⟩
abbrev LOG_STAT_NEAR_FULL : Fld := ⟨0x10080, 2, 1⟩
abbrev LOG_STAT_ERASING : Fld := ⟨0x10080, 3, 1⟩
abbrev LOG_STAT_QDEPTH : Fld := ⟨0x10080, 16, 11⟩
abbrev LOG_HEAD_HEAD : Fld := ⟨0x10084, 0, 20⟩
abbrev LOG_PCYC_COUNT : Fld := ⟨0x10088, 0, 32⟩
abbrev LOG_HOURS_HOURS : Fld := ⟨0x1008C, 0, 32⟩
abbrev LOG_USEC_USEC : Fld := ⟨0x10090, 0, 32⟩
abbrev LOG_DROP_CNT_COUNT : Fld := ⟨0x100A0, 0, 32⟩
abbrev LOG_QOVF_CNT_COUNT : Fld := ⟨0x100A4, 0, 32⟩
abbrev LOG_LIMIT_CNT_COUNT : Fld := ⟨0x100A8, 0, 32⟩
abbrev LOG_RETIRED_CNT_COUNT : Fld := ⟨0x100AC, 0, 32⟩
abbrev LOG_TORN_CNT_COUNT : Fld := ⟨0x100B0, 0, 32⟩
abbrev LOG_EVT_NEAR_FULL : Fld := ⟨0x100C0, 0, 1⟩
abbrev LOG_EVT_FULL : Fld := ⟨0x100C0, 1, 1⟩
abbrev LOG_EVT_QOVF : Fld := ⟨0x100C0, 2, 1⟩
abbrev LOG_EVT_TORN : Fld := ⟨0x100C0, 3, 1⟩
abbrev LOG_EVT_WR_FAIL : Fld := ⟨0x100C0, 4, 1⟩
abbrev LOG_EVT_ERASE_REF : Fld := ⟨0x100C0, 5, 1⟩
abbrev LOG_EVT_NOTE_REF : Fld := ⟨0x100C0, 6, 1⟩
abbrev LOG_CMD_ERASE : Fld := ⟨0x100C4, 0, 1⟩
abbrev LOG_NOTE_CODE_CODE : Fld := ⟨0x100D0, 0, 16⟩
abbrev LOG_NOTE_DATA (n : Nat) : Fld := ⟨0x100D4 + 4 * n, 0, 32⟩
abbrev LOG_RD_IDX_IDX : Fld := ⟨0x10100, 0, 19⟩
abbrev LOG_RD_STAT_STATE : Fld := ⟨0x10104, 0, 2⟩
abbrev LOG_RD_STAT_CRC_OK : Fld := ⟨0x10104, 2, 1⟩
abbrev LOG_RD_DATA_DATA (n : Nat) : Fld := ⟨0x10108 + 4 * n, 0, 32⟩
abbrev LOG_RD_STREAM_DATA : Fld := ⟨0x10148, 0, 32⟩
abbrev MGT_PSTATE_STATE : Fld := ⟨0x11040, 0, 3⟩
abbrev MGT_PSTATE_PREV : Fld := ⟨0x11040, 4, 3⟩
abbrev MGT_PSTATE_CAUSE : Fld := ⟨0x11040, 8, 8⟩
abbrev MGT_PREQ_TARGET : Fld := ⟨0x11044, 0, 3⟩
abbrev MGT_PREQ_GO : Fld := ⟨0x11044, 3, 1⟩
abbrev MGT_PREQ_REFUSED : Fld := ⟨0x11044, 4, 1⟩
abbrev MGT_PREQ_WHY : Fld := ⟨0x11044, 8, 4⟩
abbrev MGT_BOOT_STAGE : Fld := ⟨0x11080, 0, 3⟩
abbrev MGT_BOOT_SLOT : Fld := ⟨0x11080, 3, 1⟩
abbrev MGT_BOOT_TRIAL : Fld := ⟨0x11080, 4, 1⟩
abbrev MGT_BOOT_FALLBACK : Fld := ⟨0x11080, 5, 1⟩
abbrev MGT_BOOT_BSET_ERR : Fld := ⟨0x11080, 6, 1⟩
abbrev MGT_BOOT_FAIL_A : Fld := ⟨0x11080, 8, 4⟩
abbrev MGT_BOOT_FAIL_B : Fld := ⟨0x11080, 12, 4⟩
abbrev MGT_SLOTA_SVN : Fld := ⟨0x11084, 0, 7⟩
abbrev MGT_SLOTA_VALID : Fld := ⟨0x11084, 7, 1⟩
abbrev MGT_SLOTA_CONFIRMED : Fld := ⟨0x11084, 8, 1⟩
abbrev MGT_SLOTA_PREFERRED : Fld := ⟨0x11084, 9, 1⟩
abbrev MGT_SLOTB_SVN : Fld := ⟨0x11088, 0, 7⟩
abbrev MGT_SLOTB_VALID : Fld := ⟨0x11088, 7, 1⟩
abbrev MGT_SLOTB_CONFIRMED : Fld := ⟨0x11088, 8, 1⟩
abbrev MGT_SLOTB_PREFERRED : Fld := ⟨0x11088, 9, 1⟩
abbrev MGT_BUILDA_BUILD : Fld := ⟨0x1108C, 0, 32⟩
abbrev MGT_BUILDB_BUILD : Fld := ⟨0x11090, 0, 32⟩
abbrev MGT_FW_ADDR_ADDR : Fld := ⟨0x110A0, 0, 25⟩
abbrev MGT_FW_DATA_DATA : Fld := ⟨0x110A4, 0, 32⟩
abbrev MGT_FW_CMD_ERASE : Fld := ⟨0x110A8, 0, 1⟩
abbrev MGT_FW_CMD_VERIFY : Fld := ⟨0x110A8, 1, 1⟩
abbrev MGT_FW_CMD_ACTIVATE : Fld := ⟨0x110A8, 2, 1⟩
abbrev MGT_FW_CMD_CONFIRM : Fld := ⟨0x110A8, 3, 1⟩
abbrev MGT_FW_CMD_CANCEL : Fld := ⟨0x110A8, 4, 1⟩
abbrev MGT_FW_STAT_BUSY : Fld := ⟨0x110AC, 0, 1⟩
abbrev MGT_FW_STAT_VERIFIED : Fld := ⟨0x110AC, 1, 1⟩
abbrev MGT_FW_STAT_ACT_PEND : Fld := ⟨0x110AC, 2, 1⟩
abbrev MGT_FW_STAT_FULL : Fld := ⟨0x110AC, 3, 1⟩
abbrev MGT_FW_STAT_RESULT : Fld := ⟨0x110AC, 4, 4⟩
abbrev MGT_FW_CFG_CONFIRM_S : Fld := ⟨0x110B0, 0, 16⟩
abbrev MGT_FW_CFG_AUTO_SVN : Fld := ⟨0x110B0, 16, 1⟩
abbrev MGT_BOOT_CNT_COUNT : Fld := ⟨0x110B4, 0, 32⟩
abbrev MGT_FALLBACK_CNT_COUNT : Fld := ⟨0x110B8, 0, 32⟩
abbrev MGT_WDOG_PERIOD_MS : Fld := ⟨0x110C0, 0, 16⟩
abbrev MGT_WDOG_KICK : Fld := ⟨0x110C0, 16, 1⟩
abbrev MGT_TLIM_WARN : Fld := ⟨0x110C4, 0, 8⟩
abbrev MGT_TLIM_HIGH : Fld := ⟨0x110C4, 8, 8⟩
abbrev MGT_TLIM_CRIT : Fld := ⟨0x110C4, 16, 8⟩
abbrev MGT_EVT_LOCKSTEP : Fld := ⟨0x110F0, 0, 1⟩
abbrev MGT_EVT_WDOG : Fld := ⟨0x110F0, 1, 1⟩
abbrev MGT_EVT_TEMP_WARN : Fld := ⟨0x110F0, 2, 1⟩
abbrev MGT_EVT_TEMP_HIGH : Fld := ⟨0x110F0, 3, 1⟩
abbrev MGT_EVT_TEMP_CRIT : Fld := ⟨0x110F0, 4, 1⟩
abbrev MGT_EVT_RAIL : Fld := ⟨0x110F0, 5, 1⟩
abbrev MGT_EVT_FALLBACK : Fld := ⟨0x110F0, 6, 1⟩
abbrev MGT_EVT_CONFIRM_TMO : Fld := ⟨0x110F0, 7, 1⟩
abbrev MGT_EVT_FW_CHECK : Fld := ⟨0x110F0, 8, 1⟩
abbrev MGT_CMD_SENS_CLR : Fld := ⟨0x110F4, 0, 1⟩
abbrev MGT_SENS_VALUE (n : Nat) : Fld := ⟨0x11100 + 4 * n, 0, 16⟩
abbrev MGT_SENS_MAX (n : Nat) : Fld := ⟨0x11100 + 4 * n, 16, 16⟩
abbrev MGT_DBG_CTL_HALT : Fld := ⟨0x11180, 0, 1⟩
abbrev MGT_DBG_CTL_STEP : Fld := ⟨0x11180, 1, 1⟩
abbrev MGT_DBG_CTL_RESUME : Fld := ⟨0x11180, 2, 1⟩
abbrev MGT_DBG_CTL_TARGET : Fld := ⟨0x11180, 5, 3⟩
abbrev MGT_DBG_CTL_HALTED : Fld := ⟨0x11180, 8, 1⟩
abbrev MGT_DBG_CTL_REFUSED : Fld := ⟨0x11180, 9, 1⟩
abbrev MGT_DBG_ADDR_OFFSET : Fld := ⟨0x11184, 0, 28⟩
abbrev MGT_DBG_ADDR_SPACE : Fld := ⟨0x11184, 28, 4⟩
abbrev MGT_DBG_DATA_DATA : Fld := ⟨0x11188, 0, 32⟩
abbrev SEC_LIFE_LC : Fld := ⟨0x12040, 0, 2⟩
abbrev SEC_LIFE_ID_VALID : Fld := ⟨0x12040, 2, 1⟩
abbrev SEC_LIFE_OWNER_FUSED : Fld := ⟨0x12040, 3, 1⟩
abbrev SEC_LIFE_OWNER_PART : Fld := ⟨0x12040, 4, 1⟩
abbrev SEC_LIFE_KEEP_LOG : Fld := ⟨0x12040, 5, 1⟩
abbrev SEC_OWNER_KEY_HASH (n : Nat) : Fld := ⟨0x12044 + 4 * n, 0, 32⟩
abbrev SEC_SVN_FUSE_CNT : Fld := ⟨0x12080, 0, 7⟩
abbrev SEC_SVN_FW_SVN : Fld := ⟨0x12080, 8, 7⟩
abbrev SEC_DBG_LEVEL : Fld := ⟨0x12084, 0, 2⟩
abbrev SEC_DBG_DEFAULT : Fld := ⟨0x12084, 2, 2⟩
abbrev SEC_DBG_GRANTED : Fld := ⟨0x12084, 4, 1⟩
abbrev SEC_DBG_LEFT_S : Fld := ⟨0x12084, 16, 16⟩
abbrev SEC_DBG_CMD_LEVEL : Fld := ⟨0x12088, 0, 2⟩
abbrev SEC_DBG_CMD_GO : Fld := ⟨0x12088, 2, 1⟩
abbrev SEC_CHAL_CHAL (n : Nat) : Fld := ⟨0x12090 + 4 * n, 0, 32⟩
abbrev SEC_CMD_ADDR_ADDR : Fld := ⟨0x120A0, 0, 10⟩
abbrev SEC_CMD_DATA_DATA : Fld := ⟨0x120A4, 0, 32⟩
abbrev SEC_CMD_GO_GO : Fld := ⟨0x120A8, 0, 1⟩
abbrev SEC_CMD_STAT_BUSY : Fld := ⟨0x120AC, 0, 1⟩
abbrev SEC_CMD_STAT_DONE : Fld := ⟨0x120AC, 1, 1⟩
abbrev SEC_CMD_STAT_RESULT : Fld := ⟨0x120AC, 2, 3⟩
abbrev SEC_CMD_STAT_LAST_CMD : Fld := ⟨0x120AC, 8, 8⟩
abbrev SEC_EVT_SIG : Fld := ⟨0x120C0, 0, 1⟩
abbrev SEC_EVT_CMD : Fld := ⟨0x120C0, 1, 1⟩
abbrev SEC_EVT_DEBUG : Fld := ⟨0x120C0, 2, 1⟩
abbrev SEC_EVT_FUSE : Fld := ⟨0x120C0, 3, 1⟩
abbrev SEC_EVT_ENTROPY : Fld := ⟨0x120C0, 4, 1⟩
abbrev SEC_EVT_AUTH : Fld := ⟨0x120C0, 5, 1⟩
abbrev SEC_ERASE_GRANT : Fld := ⟨0x120C4, 0, 1⟩
abbrev SEC_REF_CNT_COUNT : Fld := ⟨0x120C8, 0, 32⟩
abbrev SEC_AUTH_CNT_COUNT : Fld := ⟨0x120CC, 0, 32⟩
abbrev SEC_MR_SEL_SEL : Fld := ⟨0x12100, 0, 3⟩
abbrev SEC_MR_DATA_DATA (n : Nat) : Fld := ⟨0x12104 + 4 * n, 0, 32⟩
abbrev SEC_MR_EXT_DATA (n : Nat) : Fld := ⟨0x12140 + 4 * n, 0, 32⟩
abbrev SEC_NONCE_DATA (n : Nat) : Fld := ⟨0x12180 + 4 * n, 0, 32⟩
abbrev SEC_ATT_STAT_BUSY : Fld := ⟨0x121B0, 0, 1⟩
abbrev SEC_ATT_STAT_READY : Fld := ⟨0x121B0, 1, 1⟩
abbrev SEC_ATT_STAT_REFUSED : Fld := ⟨0x121B0, 2, 1⟩
abbrev SEC_ATT_ADDR_ADDR : Fld := ⟨0x121B4, 0, 10⟩
abbrev SEC_ATT_DATA_DATA : Fld := ⟨0x121B8, 0, 32⟩
abbrev SEC_CERT_SEL_ENTRY : Fld := ⟨0x121C0, 0, 2⟩
abbrev SEC_CERT_LEN_LEN : Fld := ⟨0x121C4, 0, 13⟩
abbrev SEC_CERT_ADDR_ADDR : Fld := ⟨0x121C8, 0, 12⟩
abbrev SEC_CERT_DATA_DATA : Fld := ⟨0x121CC, 0, 32⟩
abbrev TRP_V_CFG_BUS_OV : Fld := ⟨0x13040, 0, 9⟩
abbrev TRP_V_CFG_STR_OV : Fld := ⟨0x13040, 9, 9⟩
abbrev TRP_V_CFG_FEED_OV : Fld := ⟨0x13040, 18, 9⟩
abbrev TRP_I_CFG_PH_OC : Fld := ⟨0x13044, 0, 8⟩
abbrev TRP_I_CFG_PH_DG : Fld := ⟨0x13044, 8, 4⟩
abbrev TRP_I_CFG_STR_OC : Fld := ⟨0x13044, 12, 10⟩
abbrev TRP_T_CFG_CP_OT : Fld := ⟨0x13048, 0, 8⟩
abbrev TRP_T_CFG_STR_EN : Fld := ⟨0x13048, 8, 1⟩
abbrev TRP_T_CFG_FEED_EN : Fld := ⟨0x13048, 9, 1⟩
abbrev TRP_T_CFG_CP_EN : Fld := ⟨0x13048, 10, 1⟩
abbrev TRP_STAT_BUS_OV_P : Fld := ⟨0x13080, 0, 1⟩
abbrev TRP_STAT_BUS_OV_N : Fld := ⟨0x13080, 1, 1⟩
abbrev TRP_STAT_STR_OV_P : Fld := ⟨0x13080, 2, 1⟩
abbrev TRP_STAT_STR_OV_N : Fld := ⟨0x13080, 3, 1⟩
abbrev TRP_STAT_STR_OC_P : Fld := ⟨0x13080, 4, 1⟩
abbrev TRP_STAT_STR_OC_N : Fld := ⟨0x13080, 5, 1⟩
abbrev TRP_STAT_FEED_OV_P : Fld := ⟨0x13080, 6, 1⟩
abbrev TRP_STAT_FEED_OV_N : Fld := ⟨0x13080, 7, 1⟩
abbrev TRP_STAT_CP_OT1 : Fld := ⟨0x13080, 8, 1⟩
abbrev TRP_STAT_CP_OT2 : Fld := ⟨0x13080, 9, 1⟩
abbrev TRP_STAT_PH_OC : Fld := ⟨0x13080, 10, 1⟩
abbrev TRP_STAT_ST_OK : Fld := ⟨0x13080, 11, 1⟩
abbrev TRP_LATCH_LATCH : Fld := ⟨0x13084, 0, 11⟩
abbrev TRP_PH_LO_PH : Fld := ⟨0x13088, 0, 32⟩
abbrev TRP_PH_HI_PH : Fld := ⟨0x1308C, 0, 8⟩
abbrev TRP_FIRST_CMP : Fld := ⟨0x13090, 0, 4⟩
abbrev TRP_FIRST_PHASE : Fld := ⟨0x13090, 4, 6⟩
abbrev TRP_FIRST_FRAME_FRAME : Fld := ⟨0x13094, 0, 32⟩
abbrev TRP_CNT_COUNT : Fld := ⟨0x13098, 0, 32⟩
abbrev TRP_EVT_TRIP : Fld := ⟨0x130C0, 0, 1⟩
abbrev TRP_EVT_CLR_REF : Fld := ⟨0x130C0, 1, 1⟩
abbrev TRP_EVT_ST_FAIL : Fld := ⟨0x130C0, 2, 1⟩
abbrev TRP_CLR_LATCH : Fld := ⟨0x130C4, 0, 1⟩
abbrev PMB_CFG_EN : Fld := ⟨0x14040, 0, 1⟩
abbrev PMB_CFG_PEC_REQ : Fld := ⟨0x14040, 1, 1⟩
abbrev PMB_CFG_ALERT_MASK : Fld := ⟨0x14040, 8, 8⟩
abbrev PMB_STAT_ADDR : Fld := ⟨0x14080, 0, 7⟩
abbrev PMB_STAT_SILENT : Fld := ⟨0x14080, 7, 1⟩
abbrev PMB_STAT_ALERT : Fld := ⟨0x14080, 8, 1⟩
abbrev PMB_STAT_PAGE : Fld := ⟨0x14080, 9, 1⟩
abbrev PMB_STATUS_P_WORD : Fld := ⟨0x14084, 0, 16⟩
abbrev PMB_STATUS_P_VOUT : Fld := ⟨0x14084, 16, 8⟩
abbrev PMB_STATUS_P_IOUT : Fld := ⟨0x14084, 24, 8⟩
abbrev PMB_STATUS_N_WORD : Fld := ⟨0x14088, 0, 16⟩
abbrev PMB_STATUS_N_VOUT : Fld := ⟨0x14088, 16, 8⟩
abbrev PMB_STATUS_N_IOUT : Fld := ⟨0x14088, 24, 8⟩
abbrev PMB_STATUS_X_INPUT_P : Fld := ⟨0x1408C, 0, 8⟩
abbrev PMB_STATUS_X_INPUT_N : Fld := ⟨0x1408C, 8, 8⟩
abbrev PMB_STATUS_X_TEMP : Fld := ⟨0x1408C, 16, 8⟩
abbrev PMB_STATUS_X_CML : Fld := ⟨0x1408C, 24, 8⟩
abbrev PMB_CMD_CNT_COUNT : Fld := ⟨0x14090, 0, 32⟩
abbrev PMB_ERR_CNT_COUNT : Fld := ⟨0x14094, 0, 32⟩
abbrev PMB_TMO_CNT_COUNT : Fld := ⟨0x14098, 0, 32⟩
abbrev PMB_EVT_PEC : Fld := ⟨0x140C0, 0, 1⟩
abbrev PMB_EVT_CMD : Fld := ⟨0x140C0, 1, 1⟩
abbrev PMB_EVT_STUCK : Fld := ⟨0x140C0, 2, 1⟩
abbrev PMB_CLR_FAULTS : Fld := ⟨0x140C4, 0, 1⟩

end R

end Sys2Proof.Machine
end

