-- ==== Sys2Proof/Machine/Sparse.lean ====
section
/-!
DEFINITION. Sparse storage in one canonical form: a list of (address, value) pairs with strictly rising
addresses, no entry equal to what an unlisted address reads as. The register file, the RAMs, the tables and the
stores of the module are all held this way, each with its own default function.
-/
namespace Sys2Proof.Machine

/-- Sparse contents: (address, value) pairs. -/
abbrev Sparse (α : Type) := List (Nat × α)

/-- The value at address `k`; an unlisted address reads `d k`. -/
def Sparse.get {α : Type} (d : Nat → α) : Sparse α → Nat → α
  | [], k => d k
  | (a, v) :: m, k => if a = k then v else Sparse.get d m k

/-- Put the pair (k, v) in its place, replacing the pair that stands at `k`. -/
def Sparse.insert {α : Type} (k : Nat) (v : α) : Sparse α → Sparse α
  | [] => [(k, v)]
  | (a, w) :: m =>
    if k < a then (k, v) :: (a, w) :: m
    else if k = a then (k, v) :: m
    else (a, w) :: Sparse.insert k v m

/-- Take every pair at `k` out (in the canonical form there is at most one). -/
def Sparse.erase {α : Type} (k : Nat) : Sparse α → Sparse α
  | [] => []
  | (a, w) :: m => if a = k then Sparse.erase k m else (a, w) :: Sparse.erase k m

/-- Write `v` at `k`: writing what an unlisted address reads as removes the entry. -/
def Sparse.set {α : Type} [DecidableEq α] (d : Nat → α) (m : Sparse α) (k : Nat) (v : α) : Sparse α :=
  if v = d k then Sparse.erase k m else Sparse.insert k v m

/-- Every listed address lies above `k`. -/
def Sparse.above {α : Type} (k : Nat) : Sparse α → Bool
  | [] => true
  | (a, _) :: _ => decide (k < a)

/-- The canonical form: addresses strictly rising, no entry equal to the default of its address. -/
def Sparse.wf {α : Type} [DecidableEq α] (d : Nat → α) : Sparse α → Bool
  | [] => true
  | (a, v) :: m => decide (v ≠ d a) && Sparse.above a m && Sparse.wf d m

/-- Keep only the entries whose address satisfies `p`; the others read their default again. -/
def Sparse.keep {α : Type} (p : Nat → Bool) (m : Sparse α) : Sparse α :=
  m.filter (fun e => p e.1)

/-- Change every listed value; entries that become the default are dropped. -/
def Sparse.mapV {α : Type} [DecidableEq α] (d : Nat → α) (f : α → α) : Sparse α → Sparse α
  | [] => []
  | (a, v) :: m => Sparse.set d (Sparse.mapV d f m) a (f v)

/-- Write a list of values at consecutive addresses from `k`. -/
def Sparse.setMany {α : Type} [DecidableEq α] (d : Nat → α) (m : Sparse α) (k : Nat) : List α → Sparse α
  | [] => m
  | v :: vs => Sparse.setMany d (Sparse.set d m k v) (k + 1) vs

/-- Read `n` consecutive values from `k`. -/
def Sparse.getMany {α : Type} (d : Nat → α) (m : Sparse α) (k : Nat) : Nat → List α
  | 0 => []
  | n + 1 => Sparse.get d m k :: Sparse.getMany d m (k + 1) n

end Sys2Proof.Machine
end

