-- ==== Sys2Proof/Machine/State.lean ====
section
/-!
DEFINITION. The state of the module: every register, FIFO, buffer, counter, mode and pin the spec gives it, the queue of waiting
commands, the reasons a command can stop for, and the state right after reset.
-/
namespace Sys2Proof.Machine

/-- Reasons a command can stop the block for. The spec has the module report every fault of its own as a state change, so
no command of the table raises this one; it stands for a state that the spec says does not exist (safe). -/
inductive Fault where
  | noSuchState
  deriving DecidableEq, Repr

/-- Reasons a command is refused by the model. `notModelled` names a command that has no meaning yet (safe). -/
inductive Refusal where
  | notModelled (mnemonic : String)
  deriving DecidableEq, Repr

/-- The pins and external conditions that belong to no register: outputs the module drives (R18, R259), whether the facility's pulse is
good (R259), whether SCL is held low (R466). -/
structure Pins where
  stoHold : Bool := false
  ppsOut : Bool := false
  ppsGood : Bool := false
  sclLow : Bool := false
  deriving DecidableEq, Repr

/-- Time (R246 to R260): the local timebase and the offset of fleet time to it, in ticks of 78.125 ps (R249), and what beacon tracking holds
between beacons: the last 8 offsets, the ticks of the source's last beacon, of the last root beacon, of the last 1 PPS edge and of the last
attempt at the PLL's lock. -/
structure TimeS where
  ticks : Nat := 0
  ofs : Int := 0
  xoFallback : Bool := false
  todPending : Option Nat := none
  everLocked : Bool := false
  offs : List Int := []
  lastBeacon : Nat := 0
  leadValid : Bool := false
  far : Bool := false
  stepDue : Option Int := none
  holdUs : Nat := 0
  curPort : Nat := 7
  rootHold : Nat := 0
  ppsTick : Nat := 0
  pllTick : Nat := 0
  ppsPulse : Nat := 0
  lastRoot : Nat := 0
  deriving DecidableEq, Repr

/-- The collector (R303 to R330): fatal lane and queue of waiting reports, record window (newest first), pending records,
conditions with START and no CLR, level-1 resets and their shadows, blocks whose next report carries RESTART, the resets and
self-clears within the windows of R316 and R317, records waiting for the FAULT channel, the instants of the last raise of
rate-limited kinds, the counters whose saturation is reported (R456), whether a QUEUE_OVF report is due (R330), and the level-3 reset that
escalation asked for with its instant, or that ACTIVATE asked for (R311, R385). -/
structure FltS where
  lane : List Rep := []
  queue : List Rep := []
  window : List FRec := []
  pend : List Pend := []
  conds : List Cond := []
  resets : List Reset := []
  restartDue : List (Nat × Nat) := []
  rstHist : List (Nat × Nat) := []
  flapHist : List (Nat × Nat) := []
  faultTx : List FRec := []
  lastRaise : List (Nat × Nat) := []
  satDone : List Nat := []
  ovfDue : Bool := false
  l3 : Bool := false
  l3Tick : Nat := 0
  l3Sys : Bool := false
  deriving DecidableEq, Repr

/-- A row of one copy of a store (R338, R343). -/
structure RowId where
  store : Nat
  copy : Nat
  row : Nat
  deriving DecidableEq, Repr

/-- Stored-data protection (R338 to R348): fenced rows, corrections of rows within the last second, scrub positions (row of a store, word of a
tile), the page a fetch trap restores, instants of recent traps by page, the bytes (store, address) that a report has shown to fail in both
copies (R339). Which bytes fail is an input of the reads. -/
structure MemS where
  fences : List RowId := []
  corr : List (RowId × Nat) := []
  scrubRow : List Nat := List.replicate 18 0
  dramWord : List Nat := List.replicate 20 0
  trap : Option Nat := none
  trapHist : List (Nat × Nat) := []
  dead : List (Nat × Nat) := []
  deriving DecidableEq, Repr

/-- The fold that the newest CONDITION record carries (R354): its CODE and ADDR, the live REPEAT and LAST_DT, the operating
instant (µs) of the first occurrence, and the slot once the record is in the store. -/
structure Fold where
  code : Nat
  addr : Nat
  rept : Nat := 0
  lastDt : Nat := 0
  firstUs : Nat
  slot : Option Nat := none
  deriving DecidableEq, Repr

/-- The event recorder in the NVL domain (R349 to R360): arrivals, the queue, used tokens and omitted counts per CODE, the
fold, the START records that were written, NOTE instants, the readout snapshot position. -/
structure LogS where
  arr : List LogArr := []
  queue : List LogRec := []
  used : Sparse Nat := []
  omitted : Sparse Nat := []
  fold : Option Fold := none
  startWritten : List (Nat × Nat × Nat × Nat) := []
  noteTicks : List Nat := []
  snap : List Nat := []
  rdWord : Nat := 0
  eraseHead : Nat := 0
  eraseDrop : Nat := 0
  deriving DecidableEq, Repr

/-- A firmware slot (R368, R384): its bytes, VALID, CONFIRMED, PREFERRED, SVN and BUILD, and whether it cannot be read. -/
structure SlotImg where
  bytes : Sparse Nat := []
  valid : Bool := false
  confirmed : Bool := false
  preferred : Bool := false
  svn : Nat := 0
  build : Nat := 0
  broken : Bool := false
  deriving DecidableEq, Repr

/-- One certificate of the store (R377). -/
structure Cert where
  bytes : List Nat := []
  deriving DecidableEq, Repr

/-- Non-volatile contents that are not fuses: the counter area (R349, R352, PWR_HU_CNT), the log store (slot → 64 bytes), the
pending repair list (R344), the firmware and certificate stores (R368, R377). -/
structure Nv where
  head : Nat := 0
  pcyc : Nat := 0
  hours : Nat := 0
  usec : Nat := 0
  drop : Nat := 0
  limit : Nat := 0
  retired : Nat := 0
  torn : Nat := 0
  huCnt : Nat := 0
  repairs : List RowId := []
  slots : Sparse (List Nat) := []
  slotA : SlotImg := {}
  slotB : SlotImg := {}
  certs : List Cert := List.replicate 4 {}
  trial : Option Bool := none
  trialFail : Option Bool := none
  deriving DecidableEq, Repr

/-- The fuses (R343, R373, R376, R382, R387): each bit only ever goes from blank to burnt. `lc` counts the burnt state fuses:
0 BLANK, 1 PROVISIONED, 2 FIELD; `returned` is the RETURNED fuse. -/
structure Fuses where
  provisioned : Bool := false
  field : Bool := false
  returned : Bool := false
  keepLog : Bool := false
  secret : List Nat := []
  ownerRoot : List Nat := []
  ownerPart : Bool := false
  svn : Nat := 0
  vendorRoot : List Nat := []
  serial : Nat := 0
  year : Nat := 0
  week : Nat := 0
  factoryRows : List RowId := []
  fieldRows : List RowId := []
  deriving DecidableEq, Repr

/-- A ring peer as its heartbeats and TELEM show it (R23, R67). -/
structure Peer where
  pos : Nat
  addr : Nat := 0
  healthy : Bool := false
  eligible : Bool := false
  mode : Nat := 0
  leaving : Bool := false
  hostUp : Bool := false
  fleetUp : Bool := false
  leadPos : Nat := 15
  deputyPos : Nat := 15
  eastT : Option Nat := none
  westT : Option Nat := none
  telem : List Nat := []
  deriving DecidableEq, Repr

/-- A plan point pair (Table 09-9). -/
structure PlanPt where
  t : Nat
  lo : Nat
  hi : Nat
  deriving DecidableEq, Repr

/-- The rack's share and plan state (R27, R55, R292): last SHARE message, plan in use. -/
structure PlanS where
  points : List PlanPt := []
  cap : Nat := 0xFFFF
  seq : Nat := 0
  ended : Bool := false
  share : List Nat := []
  mirror : List Nat := []
  pRack : Int := 0
  cRack : Nat := 0xFFFF
  deriving DecidableEq, Repr

/-- Roles (R21 to R39): ring peers, own leaving flag, the lead that a rejoined ring keeps (R29). -/
structure RoleS where
  peers : List Peer := []
  leaving : Bool := false
  rejoin : Option Nat := none
  deriving DecidableEq, Repr

/-- A frame in a retry store: its LSEQ, class, message and how often it was sent (R275). -/
structure Sent where
  lseq : Nat
  cls : Nat
  msg : Msg
  tries : Nat := 1
  deriving DecidableEq, Repr

/-- A link port (R273 to R282): sequence numbers, send credits per class pool, credits to return, retry store, waiting
messages, peer's STOPMAP, counters of the retrain rules, the last frame put on the fibre; of each lane (R272) the scrambler's last 58 bits, the
lane whose turn is next, and the coded blocks of the last frame as sync header and payload; `failTick` is the tick of the last entry to FAIL. -/
structure Port where
  light : Bool := false
  scr : List Nat := [0, 0]
  turn : Nat := 0
  fibre : List (List (Nat × Nat)) := [[], []]
  txSeq : Nat := 0
  rxSeq : Nat := 0
  cr0 : Nat := 0
  cr1 : Nat := 0
  cr2 : Nat := 0
  ret0 : Nat := 0
  ret1 : Nat := 0
  ret2 : Nat := 0
  retry : List Sent := []
  txq : List Msg := []
  peerStop : List Nat := []
  crcTicks : List Nat := []
  retrains : List Nat := []
  since3 : Nat := 0
  lastCh : Nat := 255
  lastTx : Option Frame := none
  peerTx : List Int := [0, 0]
  badLoc : Nat := 0
  badFar : Nat := 0
  badLoss : Nat := 0
  badMargin : Nat := 0
  failTick : Nat := 0
  goodRun : Nat := 0
  newBase : Bool := false
  bGen : Nat := 0
  bDepth : Nat := 15
  bUpHere : Bool := false
  deriving DecidableEq, Repr

/-- The links (R276 to R299): ports, messages handed to the management core or the engine mailbox, channels this module has
stopped (with the instant), broadcast de-duplication, own MSEQ per channel, gaps, route table, stored register
responses, held destinations (R286), the links 4 to 7 as relayed beacons show them and the ring position they belong to (R295). -/
structure LnkS where
  ports : List Port := List.replicate 7 {}
  inbox : List Msg := []
  mailbox : List Msg := []
  stopped : List (Nat × Nat) := []
  pool2 : Option Nat := none
  pool3 : Option Nat := none
  seen : List (Bool × Nat × Nat × Nat) := []
  mseq : Sparse Nat := []
  gaps : Sparse Nat := []
  routes : Sparse (Nat × Nat) := []
  responses : List (Bool × Nat × Nat × Msg) := []
  holds : List (Nat × Nat) := []
  heldq : List Msg := []
  depUp : List (Nat × Nat × Nat × Bool × Bool) := []
  depPos : Nat := 15
  deriving DecidableEq, Repr

/-- Stakes (R261 to R267): records as their 32 bytes, the window buffer and its snapshot, stakes that have fired and wait for a later
frame (R263), actions that take effect at the next frame boundary, firings that took effect in this frame, release instants (stake,
T_rel). -/
structure StkS where
  recs : Sparse (List Nat) := []
  buf : List Nat := List.replicate 8 0
  snap : List Nat := List.replicate 8 0
  due : List Nat := []
  acts : List (List Nat) := []
  fired : Nat := 0
  rel : List (Nat × Nat) := []
  deriving DecidableEq, Repr

/-- Management (R364 to R390): whether stage 0 is done, the running slot operation (0 none, 1 erase, 2 verify), staging buffer, watchdog with
the tick of its last restart, engine cores that debug halted with the bundle each steps next, instruction RAM, what debug wrote to the data
RAM and the core registers since their owner last ran, confirmation time-out reported, the instant the slot was taken in trial (R386), the
pair stopped by LOCKSTEP. -/
structure MgtS where
  romDone : Bool := false
  fwOp : Nat := 0
  staging : List (Nat × Nat) := []
  wdogOn : Bool := false
  wdogKick : Nat := 0
  coresHalted : List Nat := []
  stepPos : List Nat := List.replicate 4 0
  iram : Sparse Nat := []
  dram : Sparse Nat := []
  cregs : Sparse Nat := []
  confirmTmo : Bool := false
  trialTick : Nat := 0
  lockstep : Bool := false
  deriving DecidableEq, Repr

/-- Security (R375 to R391): measurement registers, keys derived at boot, command buffer, certificate window, report, nonce and
extension words, the level's expiry. -/
structure SecS where
  meas : List (List Nat) := List.replicate 8 (List.replicate 48 0)
  dik : List Nat := []
  bak : List Nat := []
  dikClosed : Bool := false
  cmd : List Nat := List.replicate 576 0
  certBuf : List (List Nat) := List.replicate 4 []
  report : List Nat := []
  reportNext : List Nat := []
  nonce : List Nat := List.replicate 12 0
  ext : List Nat := List.replicate 12 0
  grantEnd : Nat := 0
  certLen : List Nat := List.replicate 4 0
  deriving DecidableEq, Repr

/-- A change of Table 13-1 in progress (R400 to R403): an accepted RUN entry, an exit with its target and frame number. -/
inductive Change where
  | none
  | entry (passed : Bool) (acceptTick : Nat)
  | exit (target j : Nat)
  | toState (target : Nat)
  deriving DecidableEq, Repr

/-- An active input check (R417, R418): code, ADDR, the filtered value and the limit it crossed. -/
structure Check where
  code : Nat
  addr : Nat
  value : Int
  limit : Int
  deriving DecidableEq, Repr

/-- Power (R399 to R443): the change in progress, hold-up progress, the instant CHARGING began (R439), the waiting switches of a PWR_ON write,
active input checks, frames in a row beyond a limit (per check and channel), 100 ms means of channels 138 and 139 (newest first) and of the
coolant difference, sums towards the running ones (channels 138, 139, 136, and 137 less 136), samples in a row of the sensor checks. -/
structure PwrS where
  change : Change := .none
  flushed : Bool := false
  auxBack : Bool := false
  chgTick : Nat := 0
  switches : List (Nat × Bool) := []
  checks : List Check := []
  filt : Sparse Int := []
  cp1 : List Int := []
  cp2 : List Int := []
  auxCnt : Nat := 0
  huCnt : Nat := 0
  cpSum : List Rat := List.replicate 4 0
  cpN : Nat := 0
  dts : List Int := []
  deriving DecidableEq, Repr

/-- The PMBus port (R466 to R471): mirror values (command × 2 + page → value), the alert bits that were released and whether CLEAR_FAULTS
released them, the bytes of the last answer and whether the last transfer was acknowledged, sums of channels 62 to 67 towards their 1 ms
means with their frames. -/
structure PmbS where
  mirror : List (Nat × Nat) := []
  resp : Option (List Nat) := none
  ackd : Bool := false
  alertWord : Nat := 0
  cleared : Bool := false
  sums : List Rat := List.replicate 6 0
  sumN : Nat := 0
  deriving DecidableEq, Repr

/-- One phase (R174 to R189): the command in force (MODE, VALUE in ticks, OFFSET), the reference r_j of the last frame, the
integrator q_j, the feed correction, starting periods left, braking periods left, last frame mean, 1 ms accumulators, run
lengths of the judged protections. -/
structure Phase where
  mode : Nat := 0
  value : Int := 0
  offset : Nat := 0
  r : Rat := 0
  q : Rat := 0
  corr : Rat := 0
  expect : Rat := 0
  startLeft : Nat := 0
  brake : Option Nat := none
  mean : Rat := 0
  sumI : Rat := 0
  sumT : Rat := 0
  imbRun : Nat := 0
  warn : Bool := false
  fresh : Bool := false
  deriving DecidableEq, Repr

/-- A converter of one pole (R180 to R184): BASE, the run of firing phases in order, the shed ramp (its frame j), dwell, a rotation
in progress (phase to shed). -/
structure Conv where
  base : Nat := 0
  run : List Nat := []
  shedJ : Option Nat := none
  dwell : Nat := 0
  rot : Option Nat := none
  deriving DecidableEq, Repr

/-- A phase link (R198 to R204): downlink SEQ, consecutive bad or missing status frames, ARM due, the frames of the running frame's 8 slots,
PATCH and CFG frames that wait for a slot (TYPE, body), echo requests sent in training, whether a status frame came in the running frame, the
status words last taken in. -/
structure PLink where
  seq : Nat := 0
  missed : Nat := 0
  armDue : Bool := false
  sent : List (List Nat) := []
  due : List (Nat × List Nat) := []
  echoes : Nat := 0
  got : Bool := false
  words : List Nat := []
  deriving DecidableEq, Repr

/-- The phase controller: 40 phases, converters (0 storage positive, 1 storage negative, 2 feed positive, 3 feed negative), 8
links, PH_NOCMD latch (R204), frames accumulated towards the 1 ms means, sum-mismatch run per pole, soft-start limit and lag
run in frames per pole (R190). -/
structure PhsS where
  ph : List Phase := List.replicate 40 {}
  conv : List Conv := List.replicate 4 {}
  links : List PLink := List.replicate 8 {}
  noCmd : Bool := false
  frames : Nat := 0
  sumRun : List Nat := [0, 0]
  scRun : List Nat := [0, 0]
  deriving DecidableEq, Repr

/-- The analog front end: last block (raw codes), consecutive frames below −98 % and at or above it per channel, active AFE_OPEN
channels, accumulator of the monitored channel. -/
structure AfeS where
  inst : List Int := []
  mean4 : List Int := []
  ls : List Int := []
  lowRun : List Nat := List.replicate 160 0
  okRun : List Nat := List.replicate 160 0
  openCond : List Nat := []
  monSum : Rat := 0
  deriving DecidableEq, Repr

/-- A frame block of the flight recorder (Table 06-7). -/
structure FrameBlk where
  frame : Nat := 0
  fleetT : Nat := 0
  flags : Nat := 0
  sideOff : Nat := 0xFFFFFFFF
  sig : Nat := 0
  hs : List (List Int) := []
  ls : List Int := []
  cmd : List Nat := []
  deriving DecidableEq, Repr

/-- A side entry of the recorder: offset in the side area, TYPE, FRAME, bytes (R196). -/
structure SideEnt where
  off : Nat
  typ : Nat
  frame : Nat
  bytes : List Nat
  deriving DecidableEq, Repr

/-- The flight recorder: ring of frame blocks by index, next index, blocks held, side entries (newest first) with the write
offset, post-trigger blocks left once triggered, reads of the window word. -/
structure CapS where
  ring : Sparse FrameBlk := []
  next : Nat := 0
  held : Nat := 0
  side : List SideEnt := []
  sideNext : Nat := 0
  post : Option Nat := none
  rdWord : Nat := 0
  deriving DecidableEq, Repr

/-- The cliff comparators: phases whose comparator is active (R326). -/
structure TrpS where
  ph : List Nat := []
  deriving DecidableEq, Repr

/-- One pole of the breakwater: measured output of the last frame (kW), law output after hand-over, feed-forward, storage
command and overflow (A), feed command (kW), held envelope powers (kW), the envelope currents of the frame (A), frames in a row
outside the shore limits (R44 to R49). -/
structure BPole where
  pout : Rat := 0
  iTB : Rat := 0
  iFF : Rat := 0
  iCmd : Rat := 0
  iOvf : Rat := 0
  pF : Rat := 0
  pEbb : Rat := 0
  pFld : Rat := 0
  iEbb : Rat := 0
  iFld : Rat := 0
  shoreRun : Nat := 0
  poutMean : Rat := 0
  deriving DecidableEq, Repr

/-- The breakwater (R43 to R67): poles, plan point and its moved value (kW), terms of the target, follow term and its bound, frames
without overflow, sums over the running plan interval (feed, load, storage, pole outputs), 1 ms load means newest first, the
host target, what the running interval saw (overflow, cap slew, entry, lock, breach), the host cap and the rack cap that wait for the end of
an election, worst deviation of each position since the last rack
report, plan intervals since RUN entry, the shore limits in force since the last plan boundary (10 mV). -/
structure BwkS where
  pole : List BPole := List.replicate 2 {}
  pdp : Rat := 0
  star : Rat := 0
  starFrom : Rat := 0
  capDown : Bool := false
  ptgt : Rat := 0
  psoc : Rat := 0
  pfol : Rat := 0
  folBound : Rat := 8
  ovfClear : Nat := 0
  feedNow : Rat := 0
  sums : List Rat := List.replicate 5 0
  sumN : Nat := 0
  loads : List Rat := []
  tgt : Option Rat := none
  ivOvf : Bool := false
  ivSlew : Bool := false
  ivEntry : Bool := false
  ivLock : Bool := true
  capWait : Option Nat := none
  rackWait : Option Nat := none
  breach : Bool := false
  ivBreach : Bool := false
  worst : List Rat := []
  runMs : Nat := 0
  hostTick : Nat := 0
  shareTick : Nat := 0
  stale : List Bool := [false, false]
  off : List Bool := [false, false]
  ovf : Bool := false
  loadMean : Rat := 0
  shoreHi : Nat := 41200
  shoreLo : Nat := 38800
  deriving DecidableEq, Repr

/-- A slot of the tide table (R82, R87, R92, R95): job, steps learned, period in ticks, fall position, recency. -/
structure TSlot where
  valid : Bool := false
  ready : Bool := false
  job : Nat := 0
  steps : Nat := 0
  period : Rat := 0
  fallPos : Nat := 0
  fallValid : Bool := false
  used : Nat := 0
  deriving DecidableEq, Repr

/-- A step marker (Table 03-4). -/
structure Marker where
  flags : Nat
  job : Nat
  step : Nat
  edgeT : Nat
  kind : Nat
  pos : Nat
  delta : Int
  dur : Nat
  period : Nat
  deriving DecidableEq, Repr

/-- A waiting marker with its disposition and its tide-table stake (R91, R94); the slot its job change has selected, with whether that
slot matched the job (R95). -/
structure MkWait where
  mrk : Marker
  disp : Nat
  stake : Nat
  slot : Option (Nat × Bool) := none
  deriving DecidableEq, Repr

/-- Sums of one table entry over the running step: frames, load of each pole (R85). -/
structure TAcc where
  n : Nat := 0
  p : Rat := 0
  q : Rat := 0
  deriving DecidableEq, Repr

/-- A closed step that is being learned (R85 to R87): its accumulators, λ_eff, whether the outlier test is left out, the next
entry to update, the period at which the step closed. -/
structure TUpd where
  acc : Sparse TAcc
  lam : Rat
  relearn : Bool
  next : Nat := 0
  slot : Fin 4
  per : Rat
  deriving DecidableEq, Repr

/-- A ramp of the marker step term: its job, change, start tick, length in ticks (R93). -/
structure MkRamp where
  job : Nat
  delta : Rat
  start : Nat
  len : Nat
  deriving DecidableEq, Repr

/-- The tide table (R70 to R101): table entries (slot × 4,096 + entry → 64 bits), loss table, loss writes for the next plan
boundary, slots, edge detector, recent edges and marker instants (ticks, newest first), period and phase; of the last tracked edge whether
it was a detected one, its period and its predicted instant, and the edges detected since; the outcome of a period and the loss of lock
that wait for the next frame boundary (R79); guard and fades (base value, progress), step accumulators, waiting markers, markers used,
marker step term: its ramps, the held values that fall with the ticks their falls began, its weight. -/
structure TtbS where
  tab : Sparse Nat := []
  loss : Sparse Nat := []
  lossDue : List (Nat × Nat) := []
  slots : List TSlot := List.replicate 4 {}
  useCnt : Nat := 0
  rej : Nat := 0
  relearn : Bool := false
  last4 : List Rat := []
  pHi : Rat := 0
  pLo : Rat := 0
  prevLoad : Rat := 0
  below : Bool := false
  above : Bool := false
  edges : List Rat := []
  t : Rat := 0
  theta : Nat := 0
  lastRef : Rat := 0
  refSeen : Bool := true
  marks : List Rat := []
  refDet : Bool := false
  preT : Rat := 0
  preZero : Rat := 0
  nEdge : Nat := 0
  bad : Nat := 0
  outcome : Option Bool := none
  drop : Bool := false
  div : List (List Rat) := [[], []]
  divLow : Nat := 0
  divSince : Nat := 0
  fade : Rat := 1
  fadeIn : Bool := false
  hold : List Rat := [0, 0]
  acc : Sparse TAcc := []
  clean : Bool := false
  fallAt : Option Nat := none
  eIn : Rat := 0
  eOut : Rat := 0
  eStk0 : Rat := 0
  socSum : Rat := 0
  tempSum : Rat := 0
  stepN : Nat := 0
  upd : Option TUpd := none
  mks : List MkWait := []
  seen : List (Nat × Nat × Nat) := []
  mkRamps : List MkRamp := []
  mkFall : List (Rat × Nat) := []
  mkFade : Rat := 1
  socBin : Nat := 0
  lullTick : Nat := 0
  ploss : Rat := 0
  deriving DecidableEq, Repr

/-- A law of a pole (R147 to R149, R164): tracking state (Q5), observer state, push term, last output (Q5), frames run without a
saturation since START or a swap. -/
structure LawSt where
  track : Int := 0
  xh : List Int := []
  push : Bool := false
  out : Int := 0
  ran : Nat := 0
  deriving DecidableEq, Repr

/-- A fade of a pole (R165): offset at the hand-over (1/32 A), length and frames gone. -/
structure Fade where
  delta : Rat := 0
  n : Nat := 0
  j : Nat := 0
  deriving DecidableEq, Repr

/-- A DMA transfer in flight (R131): its channel (core × 8 + channel), the cycle of the running frame at which it completes, its path with the
other core (Table 04-8), source and destination offsets, bytes. -/
structure DmaOp where
  chan : Nat
  done : Int
  path : Nat
  src : Nat
  dst : Nat
  len : Nat
  deriving DecidableEq, Repr

/-- An image set-point (R161): target, value, velocity. -/
structure SpS where
  tgt : Rat := 0
  val : Rat := 0
  vel : Rat := 0
  deriving DecidableEq, Repr

/-- What a swap replaced, kept until the frame ends (R128): the laws' part of the outgoing image. -/
structure SwapUndo where
  laws : List (List LawSt)
  fades : List Fade
  regs : List (Fld × Nat)
  prof : Option (List Nat)
  deriving DecidableEq, Repr

/-- A cell observer's state and outputs (R154, R155). -/
structure CellObs where
  sb : Rat := 0
  ss : Rat := 0
  v1 : Rat := 0
  v2 : Rat := 0
  tc : Rat := 25
  iE : Rat := 0
  iF : Rat := 0
  valid : Bool := false
  deriving DecidableEq, Repr

/-- The control engine and its programs (R117 to R172): weave banks (bank × 524,288 + core × 131,072 + offset → byte), core SRAM (core ×
4,194,304 + offset → byte), pending swap and start frames, a STOP that waits for the boundary, window writes for the boundary, the law
states of both poles, fades, set-point motion (target and V_REF in V, velocity in V/s), lag run (frames), observers with the sweep instant
of the newest complete set of each string, forecast and schedule outputs with the ones of the running ring, engine fault of the frame, mean
string current of the sweep interval, an uncorrected engine fault of the frame, the coefficient images of the boot set that wait for START
and the profile that one of them carries (R170); lane files ((core × 4 + engine) × 16,384 + offset → byte), the cells' accumulators ((core ×
4 + engine) × 64 + cell), the engine area of the DRAM tiles (R131), the input snapshot's bytes (R117), transfers in flight, the frame's
window misses (channel, cycle), cores whose task set its saturation flag in the frame (R110), cores whose last outputs carry the stale flag
(R132), the published words (Table 05-7), register values that wait for the frame's publication (R119), the image's set-points, i_TB of the
last frame and the laws before this frame's step (R165), a sweep that waits for the next snapshot, the configuration words of the last
snapshot, what a swap of this frame replaced. -/
structure CenS where
  bank : Sparse Nat := []
  sram : Sparse Nat := []
  swap : Option Nat := none
  start : Option Nat := none
  stop : Bool := false
  faulted : List Nat := []
  winDue : List (Nat × Nat) := []
  laws : List (List LawSt) := List.replicate 2 (List.replicate 2 {})
  fades : List Fade := List.replicate 2 {}
  selFrames : Nat := 0
  tgt : Rat := 400
  vref : List Rat := [400, 400]
  vel : List Rat := [0, 0]
  came : List Bool := [false, false]
  arrived : List Bool := [true, true]
  preV : List (List Rat) := [[], []]
  lagRun : Nat := 0
  obs : Sparse CellObs := []
  obsTick : List (Option Nat) := [none, none]
  envNew : Bool := false
  strSum : List Rat := [0, 0]
  strN : Nat := 0
  fcst : List Nat := []
  sched : Option Rat := none
  fcstNext : List Nat := []
  schedNext : Option Rat := none
  unpub : Bool := false
  miss : Bool := false
  coefs : List (List Nat) := []
  prof : Option (List Nat) := none
  lanes : Sparse Nat := []
  acc : Sparse Int := []
  dram : Sparse Nat := []
  snap : List Nat := []
  dma : List DmaOp := []
  missAt : List (Nat × Nat) := []
  sat : List Nat := []
  stale : List Nat := []
  pub : Sparse Nat := []
  due : List (Fld × Nat) := []
  sps : List SpS := []
  lastTB : List Rat := [0, 0]
  laws0 : List (List LawSt) := []
  sweepDue : Bool := false
  regSeen : List Nat := []
  undo : Option SwapUndo := none
  deriving DecidableEq, Repr

/-- A cell as the last delivered sweep shows it (WCH_CELL_DATA, Table 07-6), with d of that sweep (100 µV), runs of INVALID sweeps
and of sweeps beyond the shore and the limit, and its bleed: bleed time left (ms), whether it is bleeding. -/
structure WCell where
  prec : Nat := 0
  coarse : Nat := 0
  valid : Nat := 3
  bled : Bool := false
  d : Int := 0
  invRun : Nat := 0
  shoreRun : Nat := 0
  limRun : Nat := 0
  timer : Nat := 0
  bleed : Bool := false
  deriving DecidableEq, Repr

/-- A monitor: its last block's temperatures (1/16 °C) and faults, consecutive positive tests per wire, wires with an
unconfirmed signature, tests that wait (wire), request in force (R239), cells whose new timer and cells whose stop are still to be
sent, DIAG due, bleed state to be resent, thermal pause. -/
structure WMon where
  tDie : Int := 0
  tTab : Int := 0
  precFault : Bool := false
  coarseFault : Bool := false
  posRun : Sparse Nat := []
  unconf : List Nat := []
  tests : List Nat := []
  reqMask : Nat := 0
  reqTimer : Nat := 0
  setDue : Nat := 0
  stopDue : Nat := 0
  diag : Bool := false
  resend : Bool := false
  thermal : Bool := false
  deriving DecidableEq, Repr

/-- A ring: hops whose break is located with the sides that sent "restored" (bit 0 towards A, bit 1 towards B), ticks of the last break and of
the last restored ALARM, the test in flight (position, wire), the timed cycle's place, the sum-mismatch run, string voltage at F, the hop
delays of the segments at port A and port B (1/16 of 6.25 ns), the broken hops of the mode in force, the state that the next sweep enters,
monitors that the last service window sent DIAG to, tick of the last bring-up. -/
structure WRing where
  lost : List (Nat × Nat) := []
  breakTick : Nat := 0
  restTick : Nat := 0
  test : Option (Nat × Nat) := none
  cyc : Option Nat := none
  sumRun : Nat := 0
  vF : Rat := 0
  dhop : List Nat := [0, 0]
  hops : List Nat := []
  due : Option Nat := none
  diagd : List Nat := []
  upTick : Nat := 0
  deriving DecidableEq, Repr

/-- The withy chain (R210 to R245): rings, cells by index, monitors by number, the composed sweep data (4,096 bytes), frames sent since the last
sweep instant (ring, port, bytes), whether a sweep is in flight, ticks of the last sweep instant and of the last start of a timed test
cycle. -/
structure WchS where
  rings : List WRing := List.replicate 2 {}
  cells : Sparse WCell := []
  mons : Sparse WMon := []
  data : List Nat := []
  inFlight : Bool := false
  instant : Nat := 0
  owtTick : Nat := 0
  tx : List (Nat × Nat × List Nat) := []
  deriving DecidableEq, Repr

/-- Everything of the module but its fuses and its queue of waiting commands. `regs` is the register file (address → word,
an unlisted address reads its reset value); `rdata` is the last value a window or register read handed out, `resp` the
STATUS of the last register word; `freeCtr` is the model's own index of the next free value. -/
structure Mod where
  freeCtr : Nat := 0
  regs : Sparse Word := []
  rdata : Nat := 0
  resp : Nat := 0
  pins : Pins := {}
  time : TimeS := {}
  flt : FltS := {}
  mem : MemS := {}
  log : LogS := {}
  nv : Nv := {}
  roles : RoleS := {}
  plan : PlanS := {}
  lnk : LnkS := {}
  stk : StkS := {}
  mgt : MgtS := {}
  sec : SecS := {}
  pwr : PwrS := {}
  pmb : PmbS := {}
  phs : PhsS := {}
  afe : AfeS := {}
  cap : CapS := {}
  trp : TrpS := {}
  bwk : BwkS := {}
  ttb : TtbS := {}
  cen : CenS := {}
  wch : WchS := {}
  deriving DecidableEq, Repr

/-- The state of the block: the commands that wait, first in first out; the fuses; the rest of the module. -/
structure State where
  pending : List Instr := []
  fuses : Fuses := {}
  m : Mod := {}
  deriving DecidableEq, Repr

/-- The module at the release of power-on reset (R405): every register at its reset value, AON, TIM, MGT, SEC, NVL and TRP on,
STANDBY, nothing in memory, no command waiting. Values the spec does not give are the field defaults above (log 5). -/
def State.reset : State := {}

end Sys2Proof.Machine
end

