-- ==== Sys2Proof/Machine/Ops.lean ====
section
/-!
DEFINITION. The shared operations: reading and writing registers and fields, counters (R456), time and frame numbers (R249),
raising reports and conditions (R302, R308, R330), arrivals of log records (R352), sending messages (R283, R284), power states
(R399), STO_HOLD (R18) and free values.
-/
namespace Sys2Proof.Machine

/-- What a command answers. -/
abbrev Out := Host.Outcome State Fault Refusal


/-! ## The register file -/

/-- Row of page `p` that holds offset `o`: the page's own rows or the common header (R450, Table 15-7). -/
def findRow (o : Nat) : List RegRow → Option RegRow
  | [] => none
  | r :: rs =>
    if r.off ≤ o ∧ (o - r.off) % r.stride = 0 ∧ (o - r.off) / r.stride < r.count then some r else findRow o rs

/-- The register row of an address, with the register's number within the row. -/
def rowOf (a : Nat) : Option (RegRow × Nat) :=
  let o := a % 4096
  if o < 0x40 then
    if a / 4096 < 21 then (headerRows.find? (fun r => r.off == o)).map (fun r => (r, a / 4096)) else none
  else (findRow o (pageRows (a / 4096))).map (fun r => (r, (o - r.off) / r.stride))

/-- Sum of the reset values of a row's fields in their places. -/
def rowReset (r : RegRow) : Nat := r.fields.foldl (fun v f => v + f.rst % 2 ^ f.w * 2 ^ f.lo) 0

/-- Reset words that Table 15-4 names instead of giving numbers, where they are fixed by the spec itself: PHS_PCFGn.ORD
(Table 06-16), LNK_CHCFGc.CLASS (Table 09-5), MEM_SPAREs.TOTAL (Table 11-1). -/
def specialReset (a : Nat) : Nat :=
  if 0x9100 ≤ a ∧ a < 0x91A0 then
    let n := (a - 0x9100) / 4
    (if n < 24 then n % 12 else (n - 24) % 8) * 2
  else if 0xD400 ≤ a ∧ a < 0xD800 then
    let c := (a - 0xD400) / 4
    if c ≤ 3 then 0 else if c ≤ 8 then 1 else if c ≤ 13 then 2 else if c < 32 then 0 else 3
  else if 0xF200 ≤ a ∧ a < 0xF248 then
    [16, 16, 16, 16, 4, 4, 4, 4, 2, 2, 2, 2, 8, 8, 8, 2, 1, 1].getD ((a - 0xF200) / 4) 0
  else if a = 0x12084 then 0xA
  else if a = 0x14080 then 0x40
  else 0

/-- The word an address reads at reset. -/
def regReset (a : Nat) : Word :=
  match rowOf a with
  | none => 0
  | some (r, _) => BitVec.ofNat 32 (rowReset r + specialReset a)

/-- The stored word of a register. -/
def Mod.word (m : Mod) (a : Nat) : Word := Sparse.get regReset m.regs a

/-- Store a word in a register. -/
def Mod.setWord (m : Mod) (a : Nat) (v : Word) : Mod := { m with regs := Sparse.set regReset m.regs a v }

/-- The mask of a field within its word. -/
def Fld.mask (f : Fld) : Word := BitVec.ofNat 32 ((2 ^ f.w - 1) * 2 ^ f.lo)

/-- A word with a field replaced by the low bits of `v`. -/
def insertField (w : Word) (f : Fld) (v : Nat) : Word :=
  (w &&& ~~~f.mask) ||| BitVec.ofNat 32 (v % 2 ^ f.w * 2 ^ f.lo)

/-- The value of a field. -/
def Mod.get (m : Mod) (f : Fld) : Nat := bits (m.word f.addr).toNat f.lo f.w

/-- The value of a two's complement field. -/
def Mod.getI (m : Mod) (f : Fld) : Int := sext f.w (m.get f)

/-- Whether a one-bit field is 1. -/
def Mod.is (m : Mod) (f : Fld) : Bool := m.get f != 0

/-- Write a field; the other bits of the word stay. -/
def Mod.put (m : Mod) (f : Fld) (v : Nat) : Mod := m.setWord f.addr (insertField (m.word f.addr) f v)

/-- Write a two's complement field. -/
def Mod.putI (m : Mod) (f : Fld) (v : Int) : Mod := m.put f (enc f.w v)

/-- Write a field from a rational, rounded RNA and held at the field's ends (R109). -/
def Mod.putQ (m : Mod) (f : Fld) (q : Rat) : Mod := m.put f (encQ f.w q)

/-- Write an unsigned field from a rational, rounded RNA and held at the field's ends. -/
def Mod.putU (m : Mod) (f : Fld) (q : Rat) : Mod := m.put f (encU f.w q)

/-- Write a one-bit field. -/
def Mod.flag (m : Mod) (f : Fld) (b : Bool) : Mod := m.put f (b2n b)

/-- Write several fields in order. -/
def Mod.puts (m : Mod) (l : List (Fld × Nat)) : Mod := l.foldl (fun m e => m.put e.1 e.2) m

/-- Return a page's registers to their reset values (R449), but for the addresses `keep` names. -/
def Mod.resetPage (m : Mod) (p : Nat) (keep : Nat → Bool := fun _ => false) : Mod :=
  { m with regs := Sparse.keep (fun a => a / 4096 != p || keep a) m.regs }

/-- The next free value's index (the counter moves on). -/
def Mod.fresh (m : Mod) : Nat × Mod := (m.freeCtr, { m with freeCtr := m.freeCtr + 1 })

/-! ## Domains, pages, power state -/

/-- Power state of MGT_PSTATE (Table 12-2). -/
def Mod.pstate (m : Mod) : Nat := m.get R.MGT_PSTATE_STATE

/-- A command that changes the module outside its fuses. In OFF nothing is served and nothing runs (R392, R399). -/
def onMod (f : Mod → Mod) (s : State) : Out := if s.m.pstate = 0 then .next s else .next { s with m := f s.m }

/-- A command that also reads or burns fuses. -/
def onBoth (f : Fuses × Mod → Fuses × Mod) (s : State) : Out :=
  if s.m.pstate = 0 then .next s else .next { s with fuses := (f (s.fuses, s.m)).1, m := (f (s.fuses, s.m)).2 }

/-- The module is in RUN. -/
def Mod.inRun (m : Mod) : Bool := m.pstate == 3

/-- Domain of a page (Table 15-1, Table 14-5); 31 for an absent page. LNK lies in TIM by Table 15-1. -/
def pageDomain (p : Nat) : Nat :=
  [0, 0, 0, 17, 17, 17, 17, 17, 17, 10, 11, 18, 13, 17, 0, 0, 3, 1, 2, 19, 0].getD p 31

/-- A domain is at power-good (PWR_STAT.PG). -/
def Mod.domainOn (m : Mod) (d : Nat) : Bool := bit (m.get R.PWR_STAT_PG) d

/-- A page is present and its domain is on (R447, R449). -/
def Mod.pageOn (m : Mod) (p : Nat) : Bool := decide (p < 21) && m.domainOn (pageDomain p)

/-- A page is locked (R454). -/
def Mod.locked (m : Mod) (p : Nat) : Bool := m.is (R.BLK_LOCK_LOCK p)

/-- A block is held in a level-1 reset, for its inst where the reset is of one inst (R322, Table 10-5). -/
def Mod.inReset (m : Mod) (blk inst : Nat) : Bool :=
  m.flt.resets.any (fun r => r.held && r.blk == blk &&
    (if blk = 12 then r.inst == inst else if blk = 13 then r.inst == inst || r.inst == 7 else true))

/-! ## Time -/

/-- Fleet time where the module keeps it, in ticks of 78.125 ps (R249). -/
def Mod.fleetTicks (m : Mod) : Nat := ((m.time.ticks : Int) + m.time.ofs).toNat

/-- Fleet time, ns, rounded down (R249). -/
def Mod.fleetNs (m : Mod) : Nat := m.fleetTicks * 5 / 64

/-- Local timebase, ns. -/
def Mod.localNs (m : Mod) : Nat := m.time.ticks * 5 / 64

/-- Time is valid (TIM_STAT.VALID, R251). -/
def Mod.timeValid (m : Mod) : Bool := m.is R.TIM_STAT_VALID

/-- The module's time in ns: fleet time in LOCKED and HOLDOVER, else the local timebase (Table 08-2). -/
def Mod.nowNs (m : Mod) : Nat := if 2 ≤ m.get R.TIM_STAT_STATE then m.fleetNs else m.localNs

/-- Frame number: the time divided by 5,000 ns, rounded down (R8, R249). -/
def Mod.frame (m : Mod) : Nat := m.nowNs / 5000

/-- Ticks in one second, one millisecond, one microsecond. -/
def tickS : Nat := 12800000000
def tickMs : Nat := 12800000
def tickUs : Nat := 12800

/-! ## Reports and conditions -/

/-- Block bits of FLT_ACTIVE and the ACTIVE and FORCED bits of BLK_FLT follow the list of conditions (R308, R332). -/
def Mod.syncActive (m : Mod) (blk : Nat) : Mod :=
  let on := m.flt.conds.any (fun c => c.blk == blk)
  let fr := m.flt.conds.any (fun c => c.blk == blk && c.forced)
  ((m.put R.FLT_ACTIVE_BLK (setBit (m.get R.FLT_ACTIVE_BLK) blk on)).flag (R.BLK_FLT_ACTIVE blk) on).flag (R.BLK_FLT_FORCED blk) fr

/-- The report lines: FLT_LATCH for every report but a CLR, FLT_FATAL for a fatal one (R308, R310, R330). -/
def Mod.reportLines (m : Mod) (r : Rep) : Mod :=
  let m := if r.ind = .clr then m else
    let m := m.put R.FLT_LATCH_BLK (setBit (m.get R.FLT_LATCH_BLK) r.blk true)
    if r.cls = 2 then
      (m.put R.FLT_FATAL_BLK (setBit (m.get R.FLT_FATAL_BLK) r.blk true)).put R.FLT_STAT_SAFE_REQ 1
    else m
  let c : Cond := ⟨r.blk, r.inst, r.kind, r.addr, r.cls, r.forced⟩
  match r.ind with
  | .event => m
  | .start =>
    let m := if c ∈ m.flt.conds then m else { m with flt.conds := m.flt.conds ++ [c] }
    m.syncActive r.blk
  | .clr => ({ m with flt.conds := m.flt.conds.erase c }).syncActive r.blk

/-- Whether a report finds no room (R330): the fatal lane holds 64 reports, the queue 512. -/
def Mod.noRoom (m : Mod) (r : Rep) : Bool :=
  if r.cls = 2 then decide (64 ≤ m.flt.lane.length) else decide (512 ≤ m.flt.queue.length)

/-- Enter a report in the fatal lane or the queue (R330). Without room one is discarded: of the fatal lane the new one; of the queue the
newest corrected report when the new one is uncorrected and there is one, else the new one. -/
def Mod.enterReport (m : Mod) (r : Rep) : Mod :=
  if m.noRoom r then
    if r.cls = 2 then m
    else
      let m := { m with flt.ovfDue := true }
      if r.cls = 0 || !m.flt.queue.any (fun q => q.cls == 0) then m
      else
        let i := m.flt.queue.length - 1 - (m.flt.queue.reverse.findIdx (fun q => q.cls == 0))
        { m with flt.queue := m.flt.queue.eraseIdx i ++ [r] }
  else if r.cls = 2 then { m with flt.lane := m.flt.lane ++ [r] }
  else { m with flt.queue := m.flt.queue ++ [r] }

/-- A detector of this block and inst is silent: its block is held in a level-1 reset or its domain is off (R322, R333). -/
def Mod.silent (m : Mod) (blk inst : Nat) : Bool := m.inReset blk inst || !m.pageOn blk

/-- The first saturation of the counter at `a` until its page's counters are cleared (R456): SAT, and SAT_OFF when SAT was 0; `tell` raises
CNT_SAT. -/
def Mod.satMark (m : Mod) (a : Nat) (tell : Mod → Rep → Mod) : Mod :=
  if a ∈ m.flt.satDone then m
  else
    let p := a / 4096
    let m := { m with flt.satDone := m.flt.satDone ++ [a] }
    let m := if m.is (R.BLK_STAT_SAT p) then m else m.put (R.BLK_STAT_SAT_OFF p) (a % 4096)
    let m := m.put (R.BLK_STAT_SAT p) 1
    if m.silent 14 0 then m else tell m { blk := 14, inst := 0, kind := 0x09, addr := a, cls := 0 }

/-- Add `n` to the counter at register address `a`; it holds at 2³² − 1 (R456). -/
def Mod.countBy (m : Mod) (a n : Nat) (tell : Mod → Rep → Mod) : Mod :=
  let v := (m.word a).toNat
  if v + n < 2 ^ 32 then m.setWord a (BitVec.ofNat 32 (v + n))
  else (m.setWord a (BitVec.ofNat 32 (2 ^ 32 - 1))).satMark a tell

/-- Put a report into the collector (R330): one that finds no room counts in FLT_DROP_CNT, a counter like every other (R456). -/
def Mod.pushReport (m : Mod) (r : Rep) : Mod :=
  if m.noRoom r then
    ((m.enterReport r).countBy R.FLT_DROP_CNT_COUNT.addr 1 (fun m r => (m.reportLines r).enterReport r)).put R.FLT_STAT_QUEUE_OVF 1
  else m.enterReport r

/-- A detector sends a report: nothing while its block is held in a level-1 reset or its domain is off (R322, R333);
else the report lines act and the report enters the collector (R302, R330). -/
def Mod.report (m : Mod) (r : Rep) : Mod := if m.silent r.blk r.inst then m else (m.reportLines r).pushReport r

/-- Raise an event. -/
def Mod.raise (m : Mod) (blk inst kind addr cls : Nat) : Mod :=
  m.report { blk := blk, inst := inst, kind := kind, addr := addr, cls := cls }

/-- A key for the instants of rate-limited raises. -/
def raiseKey (blk inst kind : Nat) : Nat := blk * 2 ^ 16 + inst * 2 ^ 8 + kind

/-- Whether a kind may be raised again: never raised, or not within `win` ticks. -/
def Mod.mayRaise (m : Mod) (key win : Nat) : Bool :=
  match m.flt.lastRaise.find? (fun e => e.1 == key) with
  | none => true
  | some e => decide (e.2 + win ≤ m.time.ticks)

/-- Raise an event at most once per `win` ticks. -/
def Mod.raiseLim (m : Mod) (win blk inst kind addr cls : Nat) : Mod :=
  let key := raiseKey blk inst kind
  if m.mayRaise key win then
    { (m.raise blk inst kind addr cls) with
      flt.lastRaise := (key, m.time.ticks) :: (m.raise blk inst kind addr cls).flt.lastRaise.filter (fun e => e.1 != key) }
  else m

/-- As `raiseLim`, for a kind limited per ADDR. -/
def Mod.raiseLimAt (m : Mod) (win blk inst kind addr cls : Nat) : Mod :=
  let key := (addr + 1) * 2 ^ 24 + raiseKey blk inst kind
  if m.mayRaise key win then
    { (m.raise blk inst kind addr cls) with
      flt.lastRaise := (key, m.time.ticks) :: (m.raise blk inst kind addr cls).flt.lastRaise.filter (fun e => e.1 != key) }
  else m

/-- A condition is active by its own detector. -/
def Mod.condOn (m : Mod) (blk inst kind addr : Nat) : Bool :=
  m.flt.conds.any (fun c => c.blk == blk && c.inst == inst && c.kind == kind && c.addr == addr && !c.forced)

/-- START of a condition; nothing when it is active already (R307). -/
def Mod.condStart (m : Mod) (blk inst kind addr cls : Nat) : Mod :=
  if m.condOn blk inst kind addr then m
  else m.report { blk := blk, inst := inst, kind := kind, addr := addr, cls := cls, ind := .start }

/-- START of a corrected-class condition under the limit `key` of at most one per second (R209, R245, R301). -/
def Mod.condStartLim (m : Mod) (key blk inst kind addr : Nat) : Mod :=
  if m.condOn blk inst kind addr || !m.mayRaise key tickS then m
  else
    let m := m.condStart blk inst kind addr 0
    { m with flt.lastRaise := (key, m.time.ticks) :: m.flt.lastRaise.filter (fun e => e.1 != key) }

/-- CLR of a condition; nothing when it is not active (R307). -/
def Mod.condEnd (m : Mod) (blk inst kind addr cls : Nat) : Mod :=
  if m.condOn blk inst kind addr then
    m.report { blk := blk, inst := inst, kind := kind, addr := addr, cls := cls, ind := .clr }
  else m

/-- START or CLR of a condition as `b` says. -/
def Mod.condSet (m : Mod) (b : Bool) (blk inst kind addr cls : Nat) : Mod :=
  if b then m.condStart blk inst kind addr cls else m.condEnd blk inst kind addr cls

/-! ## Counters (R456) -/

/-- Add `n` to the counter at register address `a`: hold at 2³² − 1; the first saturation sets SAT and SAT_OFF of the page and
raises CNT_SAT once until the page's counters are cleared. -/
def Mod.bumpBy (m : Mod) (a n : Nat) : Mod := m.countBy a n (fun m r => (m.reportLines r).pushReport r)

/-- Count one event. -/
def Mod.bump (m : Mod) (f : Fld) : Mod := m.bumpBy f.addr 1

/-! ## The event log's arrivals (R352) -/

/-- A log record stamped with the present instant. -/
def Mod.stamp (m : Mod) (typ code : Nat) (body : List Nat) : LogRec :=
  { typ := typ, code := code % 65536, pcyc := m.get R.LOG_PCYC_COUNT, hours := m.get R.LOG_HOURS_HOURS,
    usec := m.get R.LOG_USEC_USEC, fleetT := if m.timeValid then m.fleetNs else 0, body := pad 28 body }

/-- A record arrives for the log. -/
def Mod.log1 (m : Mod) (typ code : Nat) (body : List Nat) (free : Bool := true) : Mod :=
  { m with log.arr := m.log.arr ++ [⟨m.stamp typ code body, free⟩] }

/-- TRUST record (R398): ARG0, ARG1 and the first 20 bytes of a digest. -/
def Mod.logTrust (m : Mod) (code a0 a1 : Nat) (dig : List Nat := []) : Mod :=
  m.log1 0x07 code (leBytes 4 a0 ++ leBytes 4 a1 ++ pad 20 dig)

/-- ROLE record (Table 11-5). -/
def Mod.logRole (m : Mod) (code pos : Nat) : Mod :=
  m.log1 0x05 code ([pos, m.get R.MOD_ROLE_STAT_LEAD_POS, m.get R.MOD_ROLE_STAT_DEPUTY_POS, 0] ++
    leBytes 2 (m.get R.MOD_ROLE_STAT_PEERS))

/-- CONDITION record (R418): ADDR, VALUE, LIMIT. -/
def Mod.logCond (m : Mod) (code addr : Nat) (value limit : Int) : Mod :=
  m.log1 0x02 code (leBytes 4 addr ++ leBytes 4 (enc 32 value) ++ leBytes 4 (enc 32 limit))

/-- POWER record (Table 11-5). -/
def Mod.logPower (m : Mod) (new old cause torn : Nat) : Mod :=
  m.log1 0x04 (new + old * 16) ([cause, 0] ++ leBytes 2 torn ++ leBytes 4 (m.get R.LOG_DROP_CNT_COUNT))

/-! ## Status bits of the PMBus port (R469) -/

/-- STATUS_VOUT, STATUS_IOUT and STATUS_INPUT of a pole. -/
def pmbVout (p : Nat) : Fld := if p = 0 then R.PMB_STATUS_P_VOUT else R.PMB_STATUS_N_VOUT
def pmbIout (p : Nat) : Fld := if p = 0 then R.PMB_STATUS_P_IOUT else R.PMB_STATUS_N_IOUT
def pmbInput (p : Nat) : Fld := if p = 0 then R.PMB_STATUS_X_INPUT_P else R.PMB_STATUS_X_INPUT_N

/-- Status bits latch when their cause arises (R469). -/
def Mod.pmbSet (m : Mod) (f : Fld) (b : Nat) : Mod := m.put f (m.get f ||| b)

/-! ## Messages -/

/-- Own module address (LNK_ADDR.ADDR). -/
def Mod.addr (m : Mod) : Nat := m.get R.LNK_ADDR_ADDR

/-- Own ring position. -/
def Mod.pos (m : Mod) : Nat := m.get R.MOD_STRAP_RING_POS

/-- A port is UP or UP_1L (Table 09-3). -/
def Mod.portUp (m : Mod) (p : Nat) : Bool :=
  m.get (R.LNK_PSTAT_STATE p) == 2 || m.get (R.LNK_PSTAT_STATE p) == 3

/-- Role field: 0 none, 1 member, 2 deputy, 3 lead. -/
def Mod.role (m : Mod) : Nat := m.get R.MOD_ROLE_STAT_ROLE

/-- This module is the lead. -/
def Mod.isLead (m : Mod) : Bool := m.role == 3

/-- Put a message in a port's queue. -/
def Mod.enqueue (m : Mod) (p : Nat) (g : Msg) : Mod :=
  { m with lnk.ports := (bank 7 m.lnk.ports {}).modify p (fun q => { q with txq := q.txq ++ [g] }) }

/-- The next MSEQ of a channel (Table 09-7), counted on. -/
def Mod.nextMseq (m : Mod) (c : Nat) : Nat × Mod :=
  let v := Sparse.get (fun _ => 0) m.lnk.mseq c
  (v, { m with lnk.mseq := Sparse.set (fun _ => 0) m.lnk.mseq c ((v + 1) % 65536) })

/-- One copy of a ring broadcast from each trained ring port (R284). -/
def Mod.putRing (m : Mod) (g : Msg) : Mod :=
  let m := if m.portUp 0 then m.enqueue 0 g else m
  if m.portUp 1 then m.enqueue 1 { g with west := true } else m

/-- Send a ring broadcast: its copies have one MSEQ (R284). -/
def Mod.sendRing (m : Mod) (c : Nat) (body : List Nat) : Mod :=
  let (q, m) := m.nextMseq c
  m.putRing { chan := c, scope := .ring, dst := 0, src := m.addr, mseq := q, body := body }

/-- Position of a peer by its address; none when no peer has it. -/
def Mod.posOfAddr (m : Mod) (a : Nat) : Option Nat := (m.roles.peers.find? (fun p => p.addr == a)).map (·.pos)

/-- Positions in the ring: this module's and its peers', rising. -/
def Mod.ringPositions (m : Mod) : List Nat :=
  (List.range 10).filter (fun p => p == m.pos || m.roles.peers.any (fun q => q.pos == p))

/-- Hops east from this module to ring position `p` (R284). -/
def Mod.hopsEast (m : Mod) (p : Nat) : Nat :=
  let l := m.ringPositions
  let n := l.length
  if n = 0 then 0 else (l.findIdx (· == p) + n - l.findIdx (· == m.pos)) % n

/-- The ring port towards position `p`: fewer hops, east on a tie, the other port when that one is down (R284). -/
def Mod.ringPort (m : Mod) (p : Nat) : Option Nat :=
  let e := m.hopsEast p
  let w := m.ringPositions.length - e
  let first := if e ≤ w then 0 else 1
  if m.portUp first then some first else if m.portUp (1 - first) then some (1 - first) else none

/-- Send a message onto the ring towards position `p`; lost when no ring port is up. -/
def Mod.ringUnicast (m : Mod) (p : Nat) (g : Msg) : Mod :=
  match m.ringPort p with
  | none => m
  | some q => m.enqueue q { g with west := q == 1 }

/-- Route table entry of an address: link (Table 09-17 coding) and local tick of its last refresh (R285). -/
def routeDflt (_ : Nat) : Nat × Nat := (0xF, 0)

/-- The route entry of an address. -/
def Mod.route (m : Mod) (a : Nat) : Nat × Nat := Sparse.get routeDflt m.lnk.routes a

/-- Healthy peers by rising ring position that show something in their heartbeats. -/
def Mod.lowestPeer (m : Mod) (f : Peer → Bool) : Option Peer :=
  (List.range 10).findSome? (fun p => m.roles.peers.find? (fun q => q.pos == p && q.healthy && f q))

/-- The ring position that carries the lead's links 4 to 7 (R33, R295): the deputy, or while neither the lead nor the deputy shows FLEET_UP the
fleet relay. -/
def Mod.carrierPos (m : Mod) : Nat :=
  let d := m.get R.MOD_ROLE_STAT_DEPUTY_POS
  let own := (List.range 4).any (fun i => m.portUp (2 + i))
  if own || m.roles.peers.any (fun q => q.pos == d && q.fleetUp) then d
  else match m.lowestPeer (·.fleetUp) with
    | some q => q.pos
    | none => d

/-- Send by a tree link: 0 to 3 the own fleet ports, 4 to 7 those of the deputy or fleet relay, over the ring (R295). -/
def Mod.sendLink (m : Mod) (l : Nat) (g : Msg) : Mod :=
  if l < 4 then m.enqueue (2 + l) g
  else if l < 8 then m.ringUnicast m.carrierPos { g with relay := l - 3 }
  else m

/-- The key in `holds` of destinations that go by the up link. -/
def upHold : Nat := 16384

/-- Route a unicast (R285): onto the own ring, to a routed child link, to the up link; the acting root discards one without a
route. A module that is not the lead sends it to the lead over the ring. Tree unicasts of a held destination wait (R286). -/
def Mod.routeUnicast (m : Mod) (g : Msg) : Mod :=
  match m.posOfAddr g.dst with
  | some p => m.ringUnicast p g
  | none =>
    if m.isLead then
      let l := (m.route g.dst).1
      let held := m.lnk.holds.any (fun h => h.1 == g.dst || (h.1 == upHold && decide (8 ≤ l)))
      if held then { m with lnk.heldq := m.lnk.heldq ++ [g] }
      else if l < 8 then m.sendLink l g
      else if m.get R.LNK_TREE_STAT_UP_LINK < 8 then m.sendLink (m.get R.LNK_TREE_STAT_UP_LINK) g
      else if m.is R.TIM_STAT_ROOT then
        ((m.bump R.LNK_NOROUTE_CNT_COUNT).raiseLim tickS 13 7 0x09 g.dst 0).put ⟨0xD0F0, 8, 1⟩ 1
      else m
    else m.ringUnicast (m.get R.MOD_ROLE_STAT_LEAD_POS) g

/-- Send a unicast of this module. -/
def Mod.sendUnicast (m : Mod) (c dst : Nat) (body : List Nat) (tag : Nat := 0) (resp : Bool := false) : Mod :=
  let (q, m) := m.nextMseq c
  m.routeUnicast { chan := c, resp := resp, scope := .unicast, dst := dst, src := m.addr, mseq := q, tag := tag, body := body }

/-- The peer that is the host relay while this module's HOST port is down (R33): of the healthy peers that show HOST_UP the lowest position. -/
def Mod.hostRelay (m : Mod) : Option Peer := m.lowestPeer (·.hostUp)

/-- Whether this module serves the host at its HOST port (R32, R33, R291). -/
def Mod.servesHost (m : Mod) : Bool := m.isLead || m.is R.MOD_ROLE_STAT_HOST_RELAY

/-- The peer through which a module that does not serve the host reaches it: the lead while its HOST port is up, else the host relay (R32, R33). -/
def Mod.hostServer (m : Mod) : Option Peer :=
  match m.roles.peers.find? (fun q => q.pos == m.get R.MOD_ROLE_STAT_LEAD_POS && q.hostUp) with
  | some q => some q
  | none => m.hostRelay

/-- Send to the host (R32, R33, R291): the serving module out of its own HOST port while that is up, any other over the ring to the module that
serves. A module that knows no lead is no member yet and uses its own port. -/
def Mod.sendHost (m : Mod) (c : Nat) (body : List Nat) : Mod :=
  let (q, m) := m.nextMseq c
  let g : Msg := { chan := c, scope := .host, dst := m.addr, src := m.addr, mseq := q, body := body }
  if (m.servesHost || m.get R.MOD_ROLE_STAT_LEAD_POS == 15) && m.portUp 6 then m.enqueue 6 g
  else
    match m.hostServer with
    | some p => m.ringUnicast p.pos { g with dst := p.addr }
    | none => m

/-- Fleet broadcast: up the tree to the acting root; the root sends it on every child link (R284). -/
def Mod.sendChildren (m : Mod) (g : Msg) : Mod :=
  (List.range 8).foldl (fun m l => if bit (m.get R.LNK_TREE_STAT_CHILD) l then m.sendLink l g else m) m

/-- Send a fleet broadcast (R284): a lead that is not the root sends it up; the root sends it down and onto its ring; a module
that is not the lead hands it to the lead. -/
def Mod.sendFleet (m : Mod) (c : Nat) (body : List Nat) : Mod :=
  let (q, m) := m.nextMseq c
  let g : Msg := { chan := c, scope := .fleet, dst := 0, src := m.addr, mseq := q, body := body }
  if m.isLead then
    if m.is R.TIM_STAT_ROOT then (m.sendChildren g).putRing { g with scope := .ring }
    else if m.get R.LNK_TREE_STAT_UP_LINK < 8 then m.sendLink (m.get R.LNK_TREE_STAT_UP_LINK) g
    else m
  else m.ringUnicast (m.get R.MOD_ROLE_STAT_LEAD_POS) g

/-- Take the first message that a receive command is about out of the inbox. -/
def Mod.takeInbox (m : Mod) (c : Nat) (body : List Nat) : Mod :=
  { m with lnk.inbox := m.lnk.inbox.eraseP (fun g => g.chan == c && g.body == body) }

/-! ## STO_HOLD, ABORT and the power state -/

/-- STO_HOLD stops toggling and its contacts stay low (R18, R428). -/
def Mod.stoStop (m : Mod) : Mod := { m with pins.stoHold := false }

/-- States from which the chain may bleed (R242). -/
def bleedState (s : Nat) : Bool := s == 2 || s == 3 || s == 4

/-- A chain frame (R214) between start delimiter and EOF: CMD, HOP, ARG, BODY, HCRC. -/
def chainFrame (cmd hop arg : Nat) (body : List Nat) : List Nat :=
  let b := [cmd % 256, hop % 256] ++ leBytes 2 arg ++ body
  b ++ leBytes 2 (crcMsb 16 0x1021 0xFFFF b)

/-- The bits of a chain frame on the line (R214): 16 bits of preamble, the start delimiter, the bytes least significant bit first. -/
def chainBits (b : List Nat) : List Bool :=
  (List.range 16).map (fun i => i % 2 == 0) ++ (0xD5 :: b).flatMap (fun x => (List.range 8).map (fun i => bit x i))

/-- The levels of the line per half bit (R212, R214): Manchester code, a 1 rising and a 0 falling at mid-bit; then the line held for `hold` bit times, 3
for EOF and 6 for ABORT. -/
def chainLine (b : List Nat) (hold : Nat) : List Bool :=
  let l := (chainBits b).flatMap (fun x => [!x, x])
  l ++ List.replicate (2 * hold) (l.getLast?.getD false)

/-- Ring state of Table 07-8. -/
def Mod.ringState (m : Mod) (r : Nat) : Nat := m.get (if r = 0 then R.WCH_STAT_ST0 else R.WCH_STAT_ST1)

/-- A frame leaves a chain port: 0 port A, 1 port B. -/
def Mod.chainTx (m : Mod) (r port : Nat) (b : List Nat) : Mod := { m with wch.tx := m.wch.tx ++ [(r, port, b)] }

/-- A broadcast on a ring: from port A in CLOSED, from both ports in LINE and SPLIT (R236). -/
def Mod.chainAll (m : Mod) (r : Nat) (b : List Nat) : Mod :=
  match m.ringState r with
  | 0 => m
  | 1 => m.chainTx r 0 b
  | _ => (m.chainTx r 0 b).chainTx r 1 b

/-- BAL pause to every monitor of both rings (R242): no cell bleeds. -/
def Mod.balPause (m : Mod) : Mod :=
  let f := chainFrame 5 0xFE 0xFFFF [0, 0, 1]
  let m := (m.chainAll 0 f).chainAll 1 f
  { m with wch.cells := Sparse.mapV (fun _ => {}) (fun c => { c with bleed := false }) m.wch.cells } |>.put R.WCH_STAT_BAL_ACT 0

/-- Leaving RUN and STANDBY is announced in the heartbeats, and a lead's announcement starts an election (R25). -/
def Mod.leaveRoles (m : Mod) : Mod :=
  let m := { m with roles.leaving := true }
  if m.isLead then m.put R.MOD_ROLE_STAT_ELECTING 1 else m

/-- A change of power state with its POWER record (R399): PREV, STATE and CAUSE of MGT_PSTATE; leaving the states in which the chain
may bleed sends BAL pause (R242); leaving RUN and STANDBY is announced (R25), and the announcement ends in them. -/
def Mod.setPState (m : Mod) (new cause : Nat) (rec : Bool := true) : Mod :=
  let old := m.pstate
  let m := if bleedState old && !bleedState new then m.balPause else m
  let m := m.puts [(R.MGT_PSTATE_PREV, old), (R.MGT_PSTATE_STATE, new), (R.MGT_PSTATE_CAUSE, cause)]
  let m := if new = 2 ∨ new = 3 then { m with roles.leaving := false } else m.leaveRoles
  if rec then m.logPower new old cause 0 else m

end Sys2Proof.Machine
end

