-- ==== Sys2Proof/Machine/PhaseOps.lean ====
section
/-!
DEFINITION. Shared operations of the phase controller, the analog front end and the flight recorder: channel maps and
calibration (R173, R474), active phases (R174), isolation (R205, R207), ABORT (R206, R310), firing order and offsets (R180, R181),
downlink frames (R199, R200), recorder start and rearm (R196, R197).
-/
namespace Sys2Proof.Machine

/-- Pole of a phase: 0 positive, 1 negative (Table 06-1). -/
def phasePole (n : Nat) : Nat := if n < 12 then 0 else if n < 24 then 1 else if n < 32 then 0 else 1

/-- A phase of the storage converter. -/
def isStorage (n : Nat) : Bool := decide (n < 24)

/-- Converter index of a phase. -/
def convOf (n : Nat) : Nat := if n < 12 then 0 else if n < 24 then 1 else if n < 32 then 2 else 3

/-- The phases of a converter, ascending. -/
def convPhases : Nat → List Nat
  | 0 => List.range 12
  | 1 => (List.range 12).map (· + 12)
  | 2 => (List.range 8).map (· + 24)
  | _ => (List.range 8).map (· + 32)

/-- Period of a converter's phases in ticks (R175). -/
def convPeriod (c : Nat) : Nat := if c < 2 then 64000 else 128000

/-- Link of a phase (Table 06-1). -/
def phaseLink (n : Nat) : Nat := n / 5

/-- Channels of a phase whose opening isolates it (R195). -/
def phaseChannels (n : Nat) : List Nat := if n < 24 then [n, 96 + n] else [n, n + 16, 96 + n]

/-- The phase that a channel belongs to; none for channels 56 to 95 and 136 on. -/
def channelPhase (c : Nat) : Option Nat :=
  if c < 40 then some c else if c < 56 then some (c - 16) else if 96 ≤ c ∧ c < 136 then some (c - 96) else none

/-- Full scale of a channel in its unit at ±2.5 V (Tables 06-1, 06-2); low-speed channels count 0.01 °C per code. -/
def fullScale (c : Nat) : Rat :=
  if c < 56 then 125 else if c < 60 then 500 else if c < 62 then 1000 else if c < 64 then 500 else if c < 66 then 500
  else if c < 68 then 1000 else 32768

/-- A raw code, in quarter LSB, calibrated by AFE_CALn: OFFSET subtracted before GAIN (Table 06-18). -/
def Mod.calQ (m : Mod) (c : Nat) (raw4 : Int) : Rat :=
  ((raw4 : Rat) / 4 - m.getI (R.AFE_CAL_OFFSET c)) * (m.get (R.AFE_CAL_GAIN c) : Rat) / 32768

/-- The frame mean of a high-speed channel in its unit (R192, R474). -/
def Mod.chanMean (m : Mod) (c : Nat) : Rat := m.calQ c (m.afe.mean4.getD c 0) * fullScale c / 32768

/-- The boundary sample of a high-speed channel in its unit. -/
def Mod.chanInst (m : Mod) (c : Nat) : Rat := m.calQ c (4 * m.afe.inst.getD c 0) * fullScale c / 32768

/-- The latest sample of a low-speed channel (96 to 159) in 0.01 °C or the integrator's unit. -/
def Mod.chanLow (m : Mod) (c : Nat) : Rat := m.calQ c (4 * m.afe.ls.getD (c - 96) 0)

/-- Bit `n` of a pair of registers that hold one bit per phase. -/
def Mod.pairBit (m : Mod) (lo hi : Nat) (n : Nat) : Bool :=
  if n < 32 then bit (m.word lo).toNat n else bit (m.word hi).toNat (n - 32)

/-- Set or clear bit `n` of such a pair. -/
def Mod.setPairBit (m : Mod) (lo hi : Nat) (n : Nat) (b : Bool) : Mod :=
  if n < 32 then m.setWord lo (BitVec.ofNat 32 (setBit (m.word lo).toNat n b))
  else m.setWord hi (BitVec.ofNat 32 (setBit (m.word hi).toNat (n - 32) b))

/-- A phase is isolated (PHS_ISO_LO, PHS_ISO_HI). -/
def Mod.isolated (m : Mod) (n : Nat) : Bool := m.pairBit 0x9098 0x909C n

/-- A phase link is trained. -/
def Mod.linkUp (m : Mod) (l : Nat) : Bool := bit (m.get R.PHS_LNK_STAT_UP) l

/-- A phase is active (R174). -/
def Mod.phaseActive (m : Mod) (n : Nat) : Bool := m.is (R.PHS_PCFG_EN n) && !m.isolated n && m.linkUp (phaseLink n)

/-- Number of active phases of a converter. -/
def Mod.nAct (m : Mod) (c : Nat) : Nat := ((convPhases c).filter m.phaseActive).length

/-- The converter's state. -/
def Mod.conv (m : Mod) (c : Nat) : Conv := m.phs.conv.getD c {}

/-- Change a converter. -/
def Mod.setConv (m : Mod) (c : Nat) (f : Conv → Conv) : Mod := { m with phs.conv := (bank 4 m.phs.conv {}).modify c f }

/-- The phase's state. -/
def Mod.phase (m : Mod) (n : Nat) : Phase := m.phs.ph.getD n {}

/-- Change a phase. -/
def Mod.setPhase (m : Mod) (n : Nat) (f : Phase → Phase) : Mod := { m with phs.ph := (bank 40 m.phs.ph {}).modify n f }

/-- The places of a converter: its phases in order of ORD, equal ORD in ascending phase number (R180). -/
def Mod.places (m : Mod) (c : Nat) : List Nat :=
  (List.range 16).flatMap (fun o => (convPhases c).filter (fun n => m.get (R.PHS_PCFG_ORD n) == o))

/-- The active phases in circular order from place `b` (R180). -/
def Mod.activeFrom (m : Mod) (c b : Nat) : List Nat :=
  let l := m.places c
  (l.drop (b % l.length) ++ l.take (b % l.length)).filter m.phaseActive

/-- Target offset of the j-th phase of a run of n (R180). -/
def targetOffset (c j n : Nat) : Nat :=
  let p := convPeriod c
  if n = 0 then 0
  else
    let t := (rna ((j : Rat) * p / n)).toNat
    let h := if c % 2 = 1 then (rna ((p : Rat) / (2 * n : Nat))).toNat else 0
    (t + h) % p

/-- OFFSET moves towards its target by at most GLIDE, the shorter way round (R181). -/
def glide (p cur tgt g : Nat) : Nat :=
  let up := (tgt + p - cur) % p
  if up = 0 then cur
  else if up ≤ p / 2 then (cur + min up g) % p
  else (cur + p - min (p - up) g) % p

/-- The outgoing phase of a shed ramp: the old BASE phase in a rotation, else the run's last position (R182, R184). -/
def Conv.outgoing (c : Conv) : Option Nat := if c.shedJ.isNone then none else if c.rot.isSome then c.rot else c.run.getLast?

/-- PHS_PSTATn.STATE of a phase (Table 06-17). -/
def Mod.phaseState (m : Mod) (n : Nat) : Nat :=
  let x := m.phase n
  let c := m.conv (convOf n)
  if !m.is (R.PHS_PCFG_EN n) then 0
  else if m.isolated n then 1
  else if !c.run.contains n then 2
  else if x.brake.isSome then 6
  else if c.outgoing == some n then 7
  else if 0 < x.startLeft then 3
  else if x.mode = 2 || x.mode = 3 then 5
  else 4

/-- PHS_STAT and PHS_PSTATn follow the phases. -/
def Mod.syncPhases (m : Mod) : Mod :=
  let m := (List.range 40).foldl (fun m n => m.puts [(R.PHS_PSTAT_STATE n, m.phaseState n), (R.PHS_PSTAT_OFFSET n, (m.phase n).offset)]) m
  m.puts [(R.PHS_STAT_NFIRE_P, (m.conv 0).run.length), (R.PHS_STAT_NFIRE_N, (m.conv 1).run.length),
    (R.PHS_STAT_NACT_P, m.nAct 0), (R.PHS_STAT_NACT_N, m.nAct 1),
    (R.PHS_STAT_NFIRE_FP, (m.conv 2).run.length), (R.PHS_STAT_NFIRE_FN, (m.conv 3).run.length),
    (R.PHS_STAT_NACT_FP, m.nAct 2), (R.PHS_STAT_NACT_FN, m.nAct 3)]

/-- A phase is commanded OFF: mode 0, its reference and integrator at rest. -/
def Mod.phaseOff (m : Mod) (n : Nat) : Mod :=
  m.setPhase n (fun x => { x with mode := 0, value := 0, r := 0, q := 0, corr := 0, startLeft := 0, brake := none })

/-- Every phase of the shelf is commanded OFF and every run ends. -/
def Mod.allOff (m : Mod) : Mod :=
  let m := (List.range 40).foldl Mod.phaseOff m
  let m := (List.range 4).foldl (fun m c => m.setConv c (fun x => { x with run := [], shedJ := none, dwell := 0, rot := none })) m
  m.syncPhases

/-- Four ABORT symbols on all 8 phase links; the drivers hold off until the next ARM (R202, R206, R310). -/
def Mod.abortLinks (m : Mod) : Mod := (m.puts [(R.PHS_LNK_STAT_ABORTED, 0xFF), (R.PHS_LNK_STAT_ARMED, 0)]).allOff

/-- Isolate a phase with its cause (R205, R207): OFF, not active, counted. A phase already isolated keeps its first cause. -/
def Mod.isolate (m : Mod) (n why : Nat) : Mod :=
  if m.isolated n then m
  else
    let m := (m.setPairBit 0x9098 0x909C n true).put (R.PHS_PSTAT_ISO_WHY n) why
    let m := (m.bump R.PHS_ISO_CNT_COUNT).put R.PHS_EVT_ISO 1
    let c := convOf n
    let out := (m.conv c).outgoing == some n || (m.conv c).rot.isSome
    let m := (m.phaseOff n).setConv c (fun x =>
      { x with run := x.run.filter (· != n), shedJ := if out then none else x.shedJ, rot := none })
    m.syncPhases

/-- CRC-16 of a phase-link frame (R199). -/
def phaseCrc (b : List Nat) : Nat := crcMsb 16 0x1021 0xFFFF b

/-- A phase word (Table 06-9): 6 bytes. -/
def phaseWord (feed : Bool) (mode : Nat) (value : Int) (offset : Nat) : List Nat :=
  leBytes 6 ((if feed then enc 18 value else value.toNat % 2 ^ 18) + offset % 2 ^ 17 * 2 ^ 18 + mode % 8 * 2 ^ 35)

/-- The phase word of phase n as commanded now. -/
def Mod.wordOfPhase (m : Mod) (n : Nat) : List Nat :=
  let x := m.phase n
  phaseWord (!isStorage n) x.mode x.value x.offset

/-- A downlink frame between SOF and EOF: TYPE, SEQ, body, CRC-16 (R199). -/
def downFrame (typ seq : Nat) (body : List Nat) : List Nat :=
  let b := [typ, seq % 256] ++ body
  b ++ leBytes 2 (phaseCrc b)

/-- Body of the CMD frame of a link (Table 06-8): FRAME and five phase words. -/
def Mod.cmdBody (m : Mod) (l : Nat) : List Nat :=
  [m.frame % 256] ++ (List.range 5).flatMap (fun i => m.wordOfPhase (5 * l + i))

/-- Body of a CFG frame (Table 06-8). -/
def Mod.cfgBody (m : Mod) (l : Nat) (arm echo : Bool) : List Nat :=
  [b2n arm] ++ leBytes 2 (m.get R.PHS_DT_DT_RISE) ++ leBytes 2 (m.get R.PHS_DT_DT_FALL) ++ leBytes 2 (m.get (R.PHS_LDLY_DLY l)) ++
    [ofBits 5 (fun i => decide (24 ≤ 5 * l + i)), b2n echo] ++ zeros 7

/-- The slots of a frame that a CFG or a PATCH frame may take (R199): slot 4 for CFG, slots 1 to 3 and 5 to 7 for PATCH. -/
def slotsFor (typ : Nat) : List Nat := if typ = 3 then [4] else [1, 2, 3, 5, 6, 7]

/-- Put a CFG or PATCH frame into the running frame's first slot for it that still carries KEEP, under that slot's SEQ; without one it waits for
the next frame (R199). DESIGN CHOICE (log 61): the spec names no slot for a PATCH; which KEEP slots have passed is not timed. -/
def PLink.place (k : PLink) (typ : Nat) (body : List Nat) : PLink :=
  match (slotsFor typ).find? (fun i => (k.sent.getD i []).headD 0 == 2) with
  | some i => { k with sent := k.sent.set i (downFrame typ ((k.sent.getD i []).getD 1 0) body) }
  | none => { k with due := k.due ++ [(typ, body)] }

/-- Send a CFG or PATCH frame on a phase link. -/
def Mod.sendDown (m : Mod) (l typ : Nat) (body : List Nat) : Mod :=
  { m with phs.links := (bank 8 m.phs.links {}).modify l (fun k => k.place typ body) }

/-- The 8 slots of a new frame (R199): CMD in slot 0, KEEP in the others, then what waits. -/
def PLink.newFrame (k : PLink) (cmd : List Nat) : PLink :=
  let sent := downFrame 1 k.seq cmd :: (List.range 7).map (fun i => downFrame 2 (k.seq + 1 + i) [])
  k.due.foldl (fun k e => k.place e.1 e.2) { k with sent := sent, seq := (k.seq + 8) % 256, due := [] }

/-- A PATCH frame for one phase with its present command (R200, R205, R189). -/
def Mod.patch (m : Mod) (n : Nat) : Mod :=
  let l := phaseLink n
  if m.linkUp l then
    m.sendDown l 4 ([2 ^ (n % 5)] ++ (List.range 5).flatMap (fun i => if i = n % 5 then m.wordOfPhase n else zeros 6))
  else m

/-- Blocks of the recorder ring (R196). -/
def capBlocks : Nat := 4096000

/-- The recorder's trigger (R197): the trigger frame is shown, POST_PCT % of the ring more is written. A recorder that is already
triggered or frozen keeps its trigger. -/
def Mod.capTrigger (m : Mod) : Mod :=
  if m.cap.post.isSome || m.is R.CAP_STAT_FROZEN || !m.pageOn 11 then m
  else ({ m with cap.post := some (capBlocks * min 100 (m.get R.CAP_CFG_POST_PCT) / 100) }).put R.CAP_TRIG_FRAME m.frame

/-- The recorder resumes (R197). -/
def Mod.capRearm (m : Mod) : Mod := ({ m with cap.post := none }).puts [(R.CAP_STAT_FROZEN, 0)]

/-- Every active condition of a block whose kind is in the list ends with its CLR; forced ones stay (R307, R332). -/
def Mod.endConds (m : Mod) (blk : Nat) (kinds : List Nat) : Mod :=
  (m.flt.conds.filter (fun c => c.blk == blk && kinds.contains c.kind && !c.forced)).foldl
    (fun m c => m.condEnd c.blk c.inst c.kind c.addr c.cls) m

/-- What the breakwater computes outside RUN: commands at zero (R43). -/
def BPole.rest (x : BPole) : BPole :=
  { x with iTB := 0, iFF := 0, iCmd := 0, iOvf := 0, pF := 0, shoreRun := 0 }

/-- The tide table outside RUN: STATE OFF, no feed-forward, no learning; the table and the slots are kept (R70). -/
def Mod.ttbOff (m : Mod) : Mod :=
  let m := { m with bwk.pole := (bank 2 m.bwk.pole {}).map (fun (x : BPole) => { x with iFF := 0 }) }
  ({ m with ttb := { m.ttb with
      edges := [], marks := [], t := 0, theta := 0, refSeen := true, refDet := false, nEdge := 0, bad := 0, outcome := none, drop := false,
      div := [[], []], divLow := 0, divSince := 0, fade := 1, fadeIn := false, hold := [0, 0], acc := [], clean := false, upd := none,
      mkRamps := [], mkFall := [], mkFade := 1, last4 := [], below := false, above := false } }).puts
    [(R.TTB_STAT_STATE, 0), (R.TTB_STAT_LOCK, 0), (R.TTB_STAT_FF_ACT, 0), (R.TTB_STAT_MK_FF, 0), (R.TTB_STAT_DIV, 0),
     (R.TTB_STAT_CONSIST, 0), (R.TTB_PERIOD_PERIOD_US, 0), (R.TTB_INC_INC, 0), (R.TTB_PHASE_THETA, 0)]

/-- RUN is left: every phase OFF, the breakwater's commands zero and DP_STATE OFF, its conditions of R43 ended with their flags, the
tide table OFF (R70), SS_DONE and SP_LAG cleared (R158, R162), phase commands suppressed (R122). -/
def Mod.leaveRun (m : Mod) : Mod :=
  let m := m.allOff
  let m := { m with bwk.pole := m.bwk.pole.map BPole.rest, bwk.pfol := 0, bwk.breach := false, bwk.ovfClear := 0, cen.lagRun := 0,
                    cen.fades := List.replicate 2 {} }
  let m := m.puts [(R.BWK_DP_STAT_DP_STATE, 0), (R.BWK_DP_STAT_ENTRY, 0), (R.BWK_DP_STAT_HOLD, 0), (R.BWK_DP_STAT_RESTORE, 0),
    (R.BWK_DP_STAT_CAPPED, 0), (R.BWK_DP_STAT_OVF_EBB, 0), (R.BWK_DP_STAT_OVF_FLOOD, 0), (R.BWK_DP_STAT_CAP_BREACH, 0),
    (R.BWK_DP_STAT_DROOP_MISMATCH, 0), (R.BWK_DP_STAT_LOCKED, 0), (R.BWK_DP_STAT_FOLLOW, 0), (R.CEN_PRG_STAT_SS_DONE, 0),
    (R.CEN_PRG_STAT_SP_LAG, 0), (R.CEN_PRG_STAT_HO_ACT, 0), (R.CEN_STAT_SUPPRESS, 1)]
  (m.endConds 6 [1, 2, 4, 5, 9, 10]).ttbOff

end Sys2Proof.Machine
end

