-- ==== Sys2Proof/Machine/Collector.lean ====
section
/-!
DEFINITION. The fault collector (R302 to R325): report kinds of every block, taking a record in, the record's outputs, the
ladder of levels, slack windows, shadows, dispositions.
-/
namespace Sys2Proof.Machine

/-- Classes of the report kinds of each block, kind 1 first (Tables 02, 03-8, 04-12, 05-12, 06-14, 07-12, 08-10, 09-14, 10-13, 11-8,
12-15, 14-11, 15-11; R309). SELF kinds of FLT are listed with their class. Channel-dependent kinds stand with the class of
channel 0 (AFE_OPEN, DMA_MISS). -/
def kindClasses : Nat → List Nat
  | 1 => [1]
  | 2 => [2, 1, 0, 1, 1, 1]
  | 3 => [2, 0]
  | 4 => [1, 0, 1, 0, 0]
  | 5 => [0, 0, 0]
  | 6 => [1, 1, 0, 0, 1, 0, 1, 0, 0, 0]
  | 7 => [0, 0, 0, 0, 0, 0, 0]
  | 8 => [2, 2, 1, 2, 2, 0, 0, 0, 0, 0, 0, 0]
  | 9 => [1, 1, 1, 0, 0, 1, 1, 0, 2, 1, 0]
  | 10 => [1, 0]
  | 12 => [1, 1, 1, 0, 0, 1, 0, 1, 1, 1, 2, 1, 0, 0]
  | 13 => [1, 0, 0, 1, 1, 0, 0, 0, 0, 1, 1, 0, 1, 0]
  | 14 => [0, 1, 2, 0, 0, 0, 1, 0, 0, 0]
  | 15 => [0, 0, 1, 1, 1, 1, 2, 2, 1, 0, 1]
  | 16 => [0, 1, 0, 0, 1]
  | 17 => [2, 2, 0, 1, 2, 1, 1, 1, 0]
  | 18 => [0, 0, 0, 2, 1, 0]
  | 19 => [2, 2, 2, 2, 2, 2, 1]
  | 20 => [0, 0, 1]
  | _ => []

/-- Class of a kind; none when the block has no such kind. -/
def kindClass (blk kind : Nat) : Option Nat := if kind = 0 then none else (kindClasses blk)[kind - 1]?

/-- SELF kinds: records the collector makes itself (Table 10-13). -/
def selfKind (blk kind : Nat) : Bool := blk == 14 && decide (1 ≤ kind) && decide (kind ≤ 6)

/-- Condition kinds (Table 10-3; Tables 12-15, 14-11 and R471 for MGT, PWR and PMB). -/
def condKind (blk kind : Nat) : Bool :=
  (match blk with
   | 1 => [1]
   | 2 => [4, 5]
   | 4 => [1, 2, 3]
   | 6 => [1, 2, 4, 5, 6, 7, 9, 10]
   | 9 => [4, 5, 6, 7]
   | 10 => [1]
   | 12 => [1, 2, 3, 6, 8, 10, 11, 12, 13]
   | 13 => [1, 2, 4, 5, 6, 7, 10, 11, 12, 13]
   | 17 => [3, 4, 5, 6]
   | 19 => [1, 2, 3, 4, 5, 6]
   | 20 => [3]
   | _ => []).contains kind

/-- Whether a report is on the shadowed list of a level-1 reset of block `t`, inst `ti` (Table 10-5, R320). -/
def shadowedBy (t ti blk inst kind : Nat) : Bool :=
  match t with
  | 7 => (blk == 7 && kind == 1) || (blk == 6 && kind == 3)
  | 8 => (blk == 8 && kind == 3) || (blk == 9 && kind == 10) || (blk == 6 && kind == 6)
  | 9 => blk == 9 && (kind == 7 || kind == 8 || kind == 10)
  | 10 => (blk == 10 && kind == 2) || (blk == 9 && kind == 6)
  | 12 => (blk == 12 && inst == ti && kind != 11) || (blk == 6 && kind == 6 && (inst == ti || inst == 2))
  | 13 => (blk == 13 && (ti == 7 || inst == ti)) || (blk == 4 && (kind == 1 || kind == 2))
  | 16 => blk == 16
  | 20 => blk == 20
  | _ => false

/-- The bytes of a fault record (Table 10-2). -/
def FRec.bytes (r : FRec) : List Nat :=
  leBytes 4 r.seq ++ leBytes 2 (r.blk * 64 + r.inst % 64 + r.cls * 4096 + b2n r.tvalid * 16384) ++ [r.kind,
    b2n r.clr + 2 * b2n r.forced + 4 * b2n r.shadow + 8 * b2n r.persist + 16 * b2n r.restart + 32 * b2n r.self +
      64 * b2n r.joined + 128 * b2n r.rept] ++ leBytes 4 r.addr ++ leBytes 4 r.frame ++ leBytes 8 r.time ++
    [r.action, r.disp] ++ zeros 6

/-- ACTION and DISP in the log's copy of a fault record that is not written yet (R358). -/
def LogRec.follow (r : LogRec) (seq a d : Nat) : LogRec :=
  if r.typ = 1 ∧ le r.body 0 4 = seq then { r with body := r.body.take 16 ++ [a, d] ++ r.body.drop 18 } else r

/-- Change the record with a SEQ in the window, on its way to the FAULT channel (R303) and on its way to the log. -/
def Mod.editRec (m : Mod) (seq : Nat) (f : FRec → FRec) : Mod :=
  let m := match m.flt.window.find? (fun r => r.seq == seq) with
    | none => m
    | some r =>
      let a := (f r).action
      let d := (f r).disp
      { m with log.arr := m.log.arr.map (fun (e : LogArr) => { e with entry := e.entry.follow seq a d }),
               log.queue := m.log.queue.map (fun (e : LogRec) => e.follow seq a d) }
  { m with flt.window := m.flt.window.map (fun r => if r.seq == seq then f r else r),
           flt.faultTx := m.flt.faultTx.map (fun r => if r.seq == seq then f r else r) }

/-- ACTION of a record. -/
def Mod.setAction (m : Mod) (seq a : Nat) : Mod := m.editRec seq (fun r => { r with action := a })

/-- Give a record its SEQ and store it, with the counters and every output of R304. Its FRAME is the frame of intake (Table 10-2), or the one that the
report names (R130). -/
def Mod.intake (m : Mod) (r : FRec) (frame : Option Nat := none) : Mod :=
  let r := { r with seq := m.get R.FLT_SEQ_NEXT, frame := frame.getD (m.frame % 2 ^ 32), time := m.nowNs, tvalid := m.timeValid }
  let m := m.put R.FLT_SEQ_NEXT (r.seq + 1)
  let m := m.bump (if r.cls = 0 then R.FLT_CORR_CNT_COUNT else if r.cls = 1 then R.FLT_UNC_CNT_COUNT else R.FLT_FATAL_CNT_COUNT)
  let m := if r.forced && !r.self then (m.bump R.FLT_FORCE_CNT_COUNT).put R.FLT_EVT_FORCE 1 else m
  let m := if r.shadow then m.bump R.FLT_SHADOW_CNT_COUNT else m
  let m := m.puts [(R.BLK_FLT_LAST_KIND r.blk, r.kind), (R.BLK_FLT_COUNT r.blk, min (m.get (R.BLK_FLT_COUNT r.blk) + 1) 65535)]
  let m := if r.clr || r.self then m else
    let m := m.puts [(R.FLT_LATCH_BLK, setBit (m.get R.FLT_LATCH_BLK) r.blk true), (R.BLK_FLT_LATCHED r.blk, 1),
      (R.BLK_FLT_WORST r.blk, max (m.get (R.BLK_FLT_WORST r.blk)) r.cls)]
    if r.cls = 2 && m.get R.FLT_FIRST_LO_VALID == 0 then
      m.puts [(R.FLT_FIRST_LO_SRC, r.blk * 64 + r.inst % 64), (R.FLT_FIRST_LO_CLASS, 2), (R.FLT_FIRST_LO_VALID, 1),
        (R.FLT_FIRST_LO_KIND, r.kind), (R.FLT_FIRST_HI_ADDR, r.addr), (R.FLT_FIRST_SEQ_SEQ, r.seq)]
    else m
  let m := { m with flt.window := (r :: m.flt.window).take 256, flt.faultTx := m.flt.faultTx ++ [r] }
  let esc := r.self && (r.kind == 2 || r.kind == 3)
  let key := (r.blk, r.inst, r.kind, r.addr)
  let free := r.cls == 2 || esc || (r.clr && m.log.startWritten.contains key)
  let m := { m with log.arr := m.log.arr ++ [⟨m.stamp 0x01 (r.blk * 256 + r.kind)
    (r.bytes.take 16 ++ [r.action, r.disp]), free⟩] }
  if r.clr || r.self || r.shadow then m
  else if m.is ⟨0xB040, r.cls + 1, 1⟩ then m.capTrigger else m

/-- A record the collector makes itself; ADDR is the SEQ of the record concerned (Table 10-1, Table 10-13). -/
def Mod.selfRec (m : Mod) (kind cls seq : Nat) (rept : Bool := false) : Mod :=
  m.intake { seq := 0, blk := 14, inst := 0, cls := cls, tvalid := false, kind := kind, self := true, rept := rept, addr := seq,
             frame := 0, time := 0 }

/-- FLT_PEND and FLT_PEND_SEQ follow the list of pending records; LEFT counts from the present instant. -/
def Mod.syncPend (m : Mod) : Mod :=
  match m.flt.pend with
  | [] => m.puts [(R.FLT_PEND_COUNT, 0), (R.FLT_PEND_LEFT, 0), (R.FLT_PEND_SEQ_SEQ, 0)]
  | p :: ps => m.puts [(R.FLT_PEND_COUNT, ps.length + 1), (R.FLT_PEND_LEFT, min ((p.deadline - m.time.ticks) / tickUs) 65535),
      (R.FLT_PEND_SEQ_SEQ, p.seq)]

/-- The module goes to SAFE HOLD (R310): ABORT on the phase links in every state whose links carry frames, STO_HOLD stops, RUN and
STANDBY become SAFE HOLD with a POWER record of CAUSE `cause`; a change in progress lapses (Table 13-8). -/
def Mod.safeHold (m : Mod) : Mod :=
  let m := m.stoStop
  let m := if m.pstate = 1 || m.pstate = 0 || m.time.xoFallback then m else m.abortLinks
  if m.pstate = 2 || m.pstate = 3 then { (m.leaveRun.setPState 4 1) with pwr.change := .none } else m

/-- Level 2 for a record (R310): ESC_L2, FLT_FATAL of the block, SAFE HOLD. -/
def Mod.level2 (m : Mod) (blk seq : Nat) (rept : Bool := false) : Mod :=
  let m := (m.setAction seq 2).selfRec 2 1 seq rept
  let m := (m.bump R.FLT_L2_CNT_COUNT).put R.FLT_EVT_ESC2 1
  let m := m.puts [(R.FLT_STAT_LEVEL, max (m.get R.FLT_STAT_LEVEL) 2), (R.FLT_FATAL_BLK, setBit (m.get R.FLT_FATAL_BLK) blk true),
    (R.FLT_STAT_SAFE_REQ, 1)]
  m.safeHold

/-- Level 3 falls due for a record (R311): the ESC_L3 record; the reset itself is the command LEVEL3_RESET. Not taken in HOLD-UP
(R334). -/
def Mod.level3 (m : Mod) (seq : Nat) : Mod :=
  if m.pstate = 1 then m
  else
    let m := (m.setAction seq 3).selfRec 3 2 seq
    let m := (m.bump R.FLT_L3_CNT_COUNT).puts [(R.FLT_EVT_ESC3, 1), (R.FLT_STAT_LEVEL, 3)]
    { m.stoStop with flt.l3 := true, flt.l3Tick := if m.flt.l3 then m.flt.l3Tick else m.time.ticks }

/-- Level-1 reset target of a block (R312, Table 10-5): 0 none, 1 in any state, 2 outside RUN, 3 MODULE. -/
def resetTarget (blk : Nat) : Nat :=
  if [7, 11, 12, 13, 16, 20].contains blk then 1
  else if [8, 9, 10].contains blk then 2
  else if [2, 3, 17, 18].contains blk then 3 else 0

/-- A block's reports may lead to a level-1 reset (R312). -/
def Mod.l1Allowed (m : Mod) (blk : Nat) : Bool :=
  (resetTarget blk == 1 || resetTarget blk == 2) && bit (m.get R.FLT_L1_EN_EN) blk

/-- Inst of a reset: WCH and LNK resets name a ring or a port; the other targets are reset whole. -/
def resetInst (blk inst : Nat) : Nat := if blk = 12 || blk = 13 then inst else 0

/-- The resets of a source within RST_WIN (R317). -/
def Mod.recentResets (m : Mod) (blk inst : Nat) : Nat :=
  let win := max 1 (m.get R.FLT_REP_CFG_RST_WIN) * tickS
  (m.flt.rstHist.filter (fun e => e.1 == blk * 64 + inst && decide (m.time.ticks < e.2 + win))).length

end Sys2Proof.Machine
end

