-- ==== Sys2Proof/Config.lean ====
section
/-!
DEFINITION. What an implementation fixes and the spec leaves open: the free values. Every constant here is opaque: no proof can
see its value, so a statement holds for every one. The cryptographic functions stand here too: the spec names SHA-384, ECDSA P-384, a
key derivation and an entropy source, and gives none of their arithmetic (log 3).
-/
namespace Sys2Proof

/-- The n-th free natural number: a value the spec leaves open, fresh for each index (log 4). -/
opaque Config.freeNat : Nat → Nat

/-- SHA-384 digest (48 bytes) of a byte list (R370). -/
opaque Config.sha384 : List Nat → List Nat

/-- Whether a 96-byte ECDSA P-384 signature over a message verifies under a public key (R370). -/
opaque Config.ecdsaOk : List Nat → List Nat → List Nat → Bool

/-- The ECDSA P-384 signature a key makes over a message, with the index of the random draw. -/
opaque Config.ecdsaSign : List Nat → List Nat → Nat → List Nat

/-- Key derivation: a secret and a context give a key (R378). -/
opaque Config.derive : List Nat → List Nat → List Nat

/-- The public key of a key pair. -/
opaque Config.publicKey : List Nat → List Nat

/-- The n-th draw of the entropy source, as bytes (R376). -/
opaque Config.entropy : Nat → List Nat

/-- The certificate of a key made by another key, with a serial index (R378). -/
opaque Config.makeCert : List Nat → List Nat → Nat → List Nat

/-- Public key that a certificate carries (R377). -/
opaque Config.certKey : List Nat → List Nat

/-- The F16E6 functions of the Melsil reference model by operation code (R115: reciprocal, square root, exponential, logarithm): fixed tables and
polynomials that the spec does not give. The model takes such a value where it keeps the bound of 1 unit in the last place. -/
opaque Config.f16Fn : Nat → Rat → Rat

/-- DAB transfer table of an image (R179): build, feed voltage, bus voltage and power per phase (kW) give VALUE in ticks. -/
opaque Config.dabValue : Nat → Rat → Rat → Rat → Int

/-- Expected primary-current mean of a DAB phase (R179): build, feed voltage, bus voltage, VALUE. -/
opaque Config.dabExpect : Nat → Rat → Rat → Int → Rat

/-- Gain of the feed loop's integral correction (R179), ticks per ampere. -/
opaque Config.dabGain : Nat → Rat

/-- A ZS4 coefficient set (R149): matrices row by row as integers, each with its own Q format, selectors of the measured inputs. -/
structure Config.Zs4 where
  n : Nat
  sel : List Nat
  a : List (List Int)
  b : List Int
  l : List (List Int)
  c : List (List Int)
  k : List Int
  kr : Int
  kz : Int
  qa : Nat
  qb : Nat
  ql : Nat
  qc : Nat
  qk : Nat
  qkr : Nat
  qkz : Nat
  qx : Nat
  qy : Nat
  m : List (List Int)
  qm : Nat
  deriving DecidableEq, Repr, Inhabited

/-- The ZS4 set of a law of an image: build, member, and the bytes of the core SRAM that hold the coefficients in use (R149, R169, R170). Their
encoding is not in the spec. -/
opaque Config.zs4 : Nat → Nat → List Nat → Config.Zs4

/-- Ports an image's PORTS section binds: (task number, port) pairs; its encoding is not in the spec (Table 05-2). -/
opaque Config.portsOf : List Nat → List (Nat × Nat)

/-- Critical flag of a DMA channel in a PORTS section (R132). -/
opaque Config.dmaCritical : List Nat → Nat → Bool

/-- Whether the parameters of a SETPOINTS section are in range (R161, Table 05-14 code 6). Its encoding is not in the spec. -/
opaque Config.setpointsOk : List Nat → Bool

/-- An image set-point (R161): rate (1/ms), acceleration (1/ms²), band, and the HOST region that carries its target: core, offset, fraction bits. -/
structure Config.SetPoint where
  rate : Rat
  acc : Rat
  lo : Rat
  hi : Rat
  core : Nat
  off : Nat
  q : Nat
  deriving DecidableEq, Repr, Inhabited

/-- The set-points a SETPOINTS section declares (R161). -/
opaque Config.setpoints : List Nat → List Config.SetPoint

/-- Whether the TRACK maps of a HANDOVER section ask for a hand-over at a swap (R163). -/
opaque Config.trackMapped : List Nat → Bool

/-- Whether a HANDOVER section's groups are well formed and its parameters in range (R148). -/
opaque Config.handoverOk : List Nat → Bool

/-- How many of an OPDESC section's 16-byte entries are operation descriptors; the transfer descriptors follow (Table 05-2 gives no count). -/
opaque Config.opCount : List Nat → Nat

/-- Result of an operation whose coding the spec does not state (compare, clamp, select, sign): operation code, both operands, the old value at
the destination. -/
opaque Config.opValue : Nat → Rat → Rat → Rat → Rat

/-- Which of several lanes with the least value arg-min names. -/
opaque Config.argMin : List Rat → Nat

/-- Byte of the constant pool: build, core, offset (R144). -/
opaque Config.constByte : Nat → Nat → Nat → Nat

/-- Where the input snapshot holds the byte that an address of space 2 names (R117, R144): its index among the latched bytes. -/
opaque Config.snapIndex : Nat → Nat

/-- Engine that receives an exchange: the descriptor's second source word (Table 04-4). -/
opaque Config.exchangeTo : Nat → Nat

/-- Path of a DMA transfer (Table 04-8) and the other core it names: the descriptor's second source word. -/
opaque Config.dmaPath : Nat → Nat × Nat

/-- Port of a port write and the first published word it names (Table 05-7): the descriptor's destination word. -/
opaque Config.portOf : Nat → Nat × Nat

/-- First of the 64 published words that a PORTS section binds to the chain (R239). -/
opaque Config.chainPub : List Nat → Nat

/-- Staged regions with their CRC-64 in a STAGE_CRC section: core, offset, length, CRC (R171). -/
opaque Config.stageCrcOf : List Nat → List (Nat × Nat × Nat × Nat)

/-- Nominal voltage of a rail, mV: sensor 14 or 15 (R366). The spec gives no figure. -/
opaque Config.railNominal : Nat → Nat

/-- What a coefficient image puts into the engine SRAM: core, offset, byte (R170). Its encoding is not in the spec. -/
opaque Config.coefData : List Nat → List (Nat × Nat × Nat)

/-- What an image puts into the loss table (R99, R170): entry index and LOSS. Its encoding is not in the spec. -/
opaque Config.lossOf : List Nat → List (Nat × Nat)

/-- The version of the boot ROM that M0 measures (Table 12-6). The spec gives no figure. -/
opaque Config.romVersion : Nat

end Sys2Proof
end

