-- ==== Sys2Proof/Machine/Stores.lean ====
section
/-!
DEFINITION. Parity and correction of the stores (R338 to R345, R348): what a read that meets failing bytes does to the counters, the
registers, the fences and the repair list. Which bytes fail is an input.
-/
namespace Sys2Proof.Machine

/-- Twin stores (R338). -/
def twinStore (st : Nat) : Bool := decide (st ≤ 7) || st == 12 || st == 13

/-- Bytes per copy of an SRAM store (Table 11-1). -/
def storeBytes (st : Nat) : Nat :=
  if st < 4 then 4194304 else if st < 8 then 262144 else if st < 12 then 65536 else if st = 12 then 2097152 else if st = 13 then 1048576
  else if st = 14 then 1572864 else if st = 15 then 262144 else if st = 16 then 26624 else 65536

/-- The domain of a store is on (Table 11-1). -/
def Mod.storeOn (m : Mod) (st : Nat) : Bool :=
  if st < 4 then m.domainOn (4 + st) else if st < 8 then m.domainOn st else if st < 12 then m.domainOn (st - 4)
  else if st < 14 then m.domainOn 1 else if st = 14 then m.domainOn 14 || m.domainOn 15 || m.domainOn 16
  else if st = 15 then m.domainOn 17 else if st = 16 then true else if st = 17 then m.domainOn 3
  else if st < 42 then m.domainOn 8 else m.domainOn 9

/-- A report of the MEM block with its event bit. -/
def Mod.memReport (m : Mod) (st kind addr cls : Nat) : Mod := (m.raise 15 st kind addr cls).put ⟨0xF0C0, kind - 1, 1⟩ 1

/-- A report of the MEM block raised at most once per second per store. -/
def Mod.memReport1s (m : Mod) (st kind addr cls : Nat) : Mod := (m.raiseLim tickS 15 st kind addr cls).put ⟨0xF0C0, kind - 1, 1⟩ 1

/-- An uncorrectable read (R345): MEM_UE_CNT, MEM_LAST_UE, MEM_LAST_UE_ADDR. -/
def Mod.memUe (m : Mod) (st addr : Nat) : Mod :=
  (m.bump R.MEM_UE_CNT_COUNT).puts [(R.MEM_LAST_UE_STORE, st), (R.MEM_LAST_UE_ADDR_ADDR, addr)]

/-- An uncorrectable read of a single-copy store (Table 11-2). -/
def Mod.singleUe (m : Mod) (st addr : Nat) : Mod := (m.memUe st addr).memReport st 4 addr 1

/-- An uncorrectable read of the link buffer pool: where a buffer lies in it is not in the spec, so the address is a free value. -/
def Mod.linkUe (m : Mod) : Mod :=
  let f := m.fresh
  f.2.singleUe 14 (Config.freeNat f.1 % 1572864)

/-- The bytes of a twin store that a report has shown to fail in both copies, in a range of addresses (R339). -/
def Mod.deadAt (m : Mod) (st a n : Nat) : List Nat :=
  (m.mem.dead.filter (fun e => e.1 == st && decide (a ≤ e.2) && decide (e.2 < a + n))).map Prod.snd

/-- Such a byte is noted. -/
def Mod.markDead (m : Mod) (st a : Nat) : Mod :=
  if twinStore st && !m.mem.dead.contains (st, a) then { m with mem.dead := m.mem.dead ++ [(st, a)] } else m

/-- Bytes that a write covers are good again in both copies (R339, R341). -/
def Mod.dropDead (m : Mod) (st a n : Nat) : Mod :=
  { m with mem.dead := m.mem.dead.filter (fun e => !(e.1 == st && decide (a ≤ e.2) && decide (e.2 < a + n))) }

/-- The failing bytes that a narrow write of `n` bytes at `a` meets in its words and does not overwrite (R341). -/
def Mod.keptDead (m : Mod) (st a n : Nat) : List Nat :=
  (m.deadAt st (a / 8 * 8) ((a % 8 + n + 7) / 8 * 8)).filter (fun o => !(decide (a ≤ o) && decide (o < a + n)))

/-- A row of a copy is fenced (R344). -/
def Mod.fenced (m : Mod) (st copy row : Nat) : Bool := m.mem.fences.contains ⟨st, copy, row⟩

/-- Spare rows of a copy of a store that are neither in use nor promised to a pending repair (R343, R344). -/
def Mod.sparesLeft (m : Mod) (st copy : Nat) : Nat :=
  m.get (R.MEM_SPARE_TOTAL st) - m.get (if copy = 0 then R.MEM_SPARE_USED_A st else R.MEM_SPARE_USED_B st) -
    (m.nv.repairs.filter (fun r => r.store == st && r.copy == copy)).length

/-- A row is hard (R344): fenced, reported, put on the pending repair list; SPARE_OUT when it cannot be repaired. -/
def Mod.rowHard (m : Mod) (r : RowId) : Mod :=
  let m := { m with mem.fences := m.mem.fences ++ [r] }
  let m := (m.put R.MEM_STAT_FENCED (min 255 (m.get R.MEM_STAT_FENCED + 1))).memReport r.store 2 (128 * r.row) 0
  if m.nv.repairs.contains r then m
  else if m.sparesLeft r.store r.copy = 0 ∨ 64 ≤ m.get R.MEM_REPAIR_FIELD_USED + m.nv.repairs.length ∨ 16 ≤ m.nv.repairs.length then
    m.memReport r.store 3 (128 * r.row) 1
  else ({ m with nv.repairs := m.nv.repairs ++ [r] }).put R.MEM_REPAIR_PENDING (m.nv.repairs.length + 1)

/-- A correction of a row is noted; the third within 1 s makes the row hard (R344). -/
def Mod.noteRow (m : Mod) (r : RowId) : Mod :=
  let recent := m.mem.corr.filter (fun (e : RowId × Nat) => decide (m.time.ticks < e.2 + tickS))
  let n := (recent.filter (fun (e : RowId × Nat) => e.1 == r)).length
  if 2 ≤ n then ({ m with mem.corr := recent.filter (fun (e : RowId × Nat) => e.1 != r) }).rowHard r
  else { m with mem.corr := (r, m.time.ticks) :: recent }

/-- A corrected word of a twin store (R340): counted once, PAR_CORR at most once per second; `copies` are those that failed. Corrections of
a fenced row are not counted. -/
def Mod.correctWord (m : Mod) (st addr : Nat) (copies : List Nat) : Mod :=
  let l := copies.filter (fun c => !m.fenced st c (addr / 128))
  match l with
  | [] => m
  | c :: _ =>
    let m := (m.bump (R.MEM_CORR_CNT_COUNT st)).puts [(R.MEM_LAST_CORR_STORE, st), (R.MEM_LAST_CORR_COPY, c),
      (R.MEM_LAST_CORR_ADDR_ADDR, addr)]
    let m := m.memReport1s st 1 addr 0
    l.foldl (fun m c => m.noteRow ⟨st, c, addr / 128⟩) m

/-- A DRAM word with a single-bit (1) or a double-bit (2) error is read (R348). -/
def Mod.dramError (m : Mod) (tile addr err : Nat) : Mod :=
  if err = 1 then
    let m := (m.bump (R.MEM_CORR_CNT_COUNT (32 + tile))).puts [(R.MEM_LAST_CORR_STORE, 32 + tile), (R.MEM_LAST_CORR_COPY, 0),
      (R.MEM_LAST_CORR_ADDR_ADDR, addr)]
    m.memReport1s (32 + tile) 10 addr 0
  else if err = 2 then (m.memUe (32 + tile) addr).memReport (32 + tile) 11 addr 1
  else m

/-- The fuse map and the repair list as MEM_REPAIR and MEM_SPAREs show them (R343, R344). -/
def Mod.showRepairs (m : Mod) (fu : Fuses) : Mod :=
  let rows := fu.factoryRows ++ fu.fieldRows
  let used := fun (st copy : Nat) => (rows.filter (fun r => r.store == st && r.copy == copy)).length
  let m := (List.range 18).foldl (fun m st => m.puts [(R.MEM_SPARE_USED_A st, used st 0), (R.MEM_SPARE_USED_B st, used st 1)]) m
  m.puts [(R.MEM_REPAIR_FACTORY_USED, fu.factoryRows.length), (R.MEM_REPAIR_FIELD_USED, fu.fieldRows.length),
    (R.MEM_REPAIR_PENDING, m.nv.repairs.length)]

/-- Burn one pending repair into a free field entry (R344); SPARE_OUT when no spare row or no entry is left. -/
def burnRepair (x : Fuses × Mod) (r : RowId) : Fuses × Mod :=
  let used := ((x.1.factoryRows ++ x.1.fieldRows).filter (fun q => q.store == r.store && q.copy == r.copy)).length
  if x.1.fieldRows.length < 64 && decide (used < x.2.get (R.MEM_SPARE_TOTAL r.store)) then
    ({ x.1 with fieldRows := x.1.fieldRows ++ [r] }, x.2)
  else (x.1, x.2.memReport r.store 3 (128 * r.row) 1)

/-- Pending repairs at power-on reset (R344): burnt, and the list emptied; the map's rows are switched to spare rows (R343). -/
def burnRepairs (fu : Fuses) (m : Mod) : Fuses × Mod :=
  let x := m.nv.repairs.foldl burnRepair (fu, { m with nv.repairs := [] })
  (x.1, x.2.showRepairs x.1)

end Sys2Proof.Machine
end

