-- ==== Sys2Proof/Machine/Guard.lean ====
section
/-!
DEFINITION. Access rules of register words (R391, R392, R406, R449, R460, R463): the STATUS a write or a read of a word gets before
its own register's rule acts.
-/
namespace Sys2Proof.Machine

/-- Lifecycle (Table 12-7 coding in SEC_LIFE.LC): 0 BLANK, 1 PROVISIONED, 2 FIELD, 3 RETURNED. -/
def Mod.lc (m : Mod) : Nat := m.get R.SEC_LIFE_LC

/-- Debug level: 0 closed, 1 authorised, 2 open (R388). -/
def Mod.dbgLevel (m : Mod) : Nat := m.get R.SEC_DBG_LEVEL

/-- A quiet state of Table 12-11: STANDBY, SAFE HOLD or SERVICE. -/
def Mod.quiet (m : Mod) : Bool := m.pstate == 2 || m.pstate == 4 || m.pstate == 5

/-- Capability RD (R389, Table 12-11). -/
def Mod.capRD (m : Mod) : Bool :=
  decide (1 ≤ m.dbgLevel) && (m.quiet || (m.inRun && (m.lc == 0 || m.lc == 1 || (m.lc == 2 && m.dbgLevel == 1))))

/-- Capability WR. -/
def Mod.capWR (m : Mod) : Bool := m.dbgLevel == 2 && m.quiet

/-- Capability EH. -/
def Mod.capEH (m : Mod) : Bool := m.dbgLevel == 2 && m.quiet

/-- Capability F: force bits of pages other than TRP (Tables 10-9, 12-11). -/
def Mod.capF (m : Mod) : Bool :=
  let d := m.dbgLevel
  match m.lc with
  | 0 => m.quiet || m.inRun || m.pstate == 1
  | 1 => m.quiet || m.pstate == 1 || (m.inRun && d == 2)
  | 2 => decide (1 ≤ d) && (m.quiet || m.pstate == 1)
  | _ => m.quiet || m.pstate == 1

/-- Capability FT: force bits of the TRP page. -/
def Mod.capFT (m : Mod) : Bool :=
  (m.quiet || m.pstate == 1) && (m.lc != 2 || decide (1 ≤ m.dbgLevel))

/-- Capability JT (R389, Table 12-11): IEEE 1149.1 beyond IDCODE and BYPASS, with WR and EH; never in FIELD (R390). -/
def Mod.capJT (m : Mod) : Bool := m.dbgLevel == 2 && m.quiet && m.lc != 2

/-- IDCODE of module revision M1 with stepping B0 (R430). -/
def jtagIdcode : Nat := 0x1F5080A7

/-- Instructions of the IEEE 1149.1 port: IDCODE, BYPASS, any other. -/
inductive JtagInstr where
  | idcode | bypass | other
  deriving DecidableEq, Repr

/-- What the IEEE 1149.1 port answers (R390, R430): none where it does not answer the instruction; IDCODE's 32 bits, BYPASS's one 0 bit; what else the
port offers the spec does not say, and the port only lets it pass. -/
def Mod.jtagAnswer (m : Mod) : JtagInstr → Option (Option Nat)
  | .idcode => some (some jtagIdcode)
  | .bypass => some (some 0)
  | .other => if m.capJT then some none else none

/-- Registers that take writes before stage 4 (R406): the firmware window, SEC command, nonce, extend and certificate windows,
LOG_RD_IDX, MGT_PREQ. -/
def earlyWrite (a : Nat) : Bool :=
  (0x110A0 ≤ a && a < 0x110B0) || (0x120A0 ≤ a && a < 0x120B0) || (0x12140 ≤ a && a < 0x121B0) || (0x121C0 ≤ a && a < 0x121D0) ||
    a == 0x10100 || a == 0x11044

/-- The writable set of the SEC page (R391). -/
def secWritable (a : Nat) : Bool :=
  a % 4096 < 0x40 || (0x12044 ≤ a && a < 0x12074) || (0x120A0 ≤ a && a < 0x120B0) || a == 0x12088 || a == 0x12100 ||
    (0x12140 ≤ a && a < 0x12170) || (0x12180 ≤ a && a < 0x121B8) || (0x121C0 ≤ a && a < 0x121D0) || a == 0x120C0

/-- A write of the word `v` at `a` lacks its authorisation (R391, first case apart). -/
def Mod.unauthWrite (m : Mod) (a v : Nat) : Bool :=
  if a / 4096 = 18 then !secWritable a || (0x12044 ≤ a && a < 0x12074 && decide (2 ≤ m.lc))
  else if a = 0x100C4 then bit v 0 && decide (2 ≤ m.lc) && !m.is R.SEC_ERASE_GRANT
  else if a = 0x11180 then
    if v % 8 = 0 then !m.capRD else if bits v 5 3 = 0 then !m.capWR else !m.capEH
  else if a = 0x11184 then !m.capRD
  else if a = 0x11188 then !m.capWR
  else false

/-- A refusal for lack of authorisation: SEC_AUTH_CNT counts and AUTH_REFUSED is raised, at most once per second (R391). -/
def Mod.authRefused (m : Mod) : Mod := (m.bump R.SEC_AUTH_CNT_COUNT).raiseLim tickS 18 0 0x06 0 0 |>.put R.SEC_EVT_AUTH 1

/-- Writes are held off until stage 4 but for the excepted registers (R406). -/
def Mod.tooEarly (m : Mod) (a : Nat) : Bool := m.get R.MGT_BOOT_STAGE != 4 && !earlyWrite a

/-- A page serves accesses: it is present and on, and in recovery only MGT and SEC serve (R374). -/
def Mod.pageServes (m : Mod) (p : Nat) : Bool := m.pageOn p && (m.get R.MGT_BOOT_STAGE != 7 || p == 17 || p == 18)

/-- STATUS of a write before the register's own rule (R460): 2 no such page, 3 not authorised, 1 before stage 4 (R406) or the block
is held in a level-1 reset (R463), 0 none of these. The firmware's own writes of the configuration image are not held off (`fw`). -/
def Mod.wrStatus (m : Mod) (a v : Nat) (fw : Bool := false) : Nat :=
  if !m.pageServes (a / 4096) then 2
  else if m.unauthWrite a v then 3
  else if !fw && m.tooEarly a then 1
  else if m.is (R.BLK_STAT_RESET (a / 4096)) && decide (0x40 ≤ a % 4096) then 1
  else 0

/-- A register write with a rule of its own: `f` acts when the access rules let it, and STATUS goes to `resp`. -/
def Mod.guarded (m : Mod) (a v : Nat) (f : Mod → Mod) : Mod :=
  match m.wrStatus a v with
  | 0 => { f m with resp := 0 }
  | 3 => { m.authRefused with resp := 3 }
  | k => { m with resp := k }

/-- A word refused by its own block's rule (R452): STATUS 1. -/
def Mod.refuse (m : Mod) : Mod := { m with resp := 1 }

/-- As `guarded`, for a rule that may refuse the word itself. -/
def Mod.guardedR (m : Mod) (a v : Nat) (f : Mod → Mod) : Mod :=
  match m.wrStatus a v with
  | 0 => f { m with resp := 0 }
  | 3 => { m.authRefused with resp := 3 }
  | k => { m with resp := k }

/-- STATUS of a read (R406, R460): the page is on, and a debug register is read with RD (R391). -/
def Mod.rdStatus (m : Mod) (a : Nat) : Nat :=
  if !m.pageServes (a / 4096) then 2
  else if (a = 0x11180 ∨ a = 0x11184 ∨ a = 0x11188) ∧ !m.capRD then 3
  else 0

/-- A read with a side effect: `f` gives the word and the module after the read. -/
def Mod.guardedRd (m : Mod) (a : Nat) (f : Mod → Nat × Mod) : Mod :=
  match m.rdStatus a with
  | 0 => { (f m).2 with rdata := (f m).1 % 2 ^ 32, resp := 0 }
  | 3 => { m.authRefused with resp := 3 }
  | k => { m with resp := k }

end Sys2Proof.Machine
end

