-- ==== Sys2Proof/Machine/Image.lean ====
section
/-!
DEFINITION. Number formats of the engine (R107 to R115), image containers (R141 to R148, R155, R156), regions and the cell profile
table.
-/
namespace Sys2Proof.Machine

/-! ## Formats -/

/-- Floor of the binary logarithm of a positive rational. -/
def log2Q (q : Rat) : Int :=
  let k : Int := (Nat.log2 q.num.toNat : Int) - Nat.log2 q.den
  if (2 : Rat) ^ k ≤ q then k else k - 1

/-- Largest finite magnitude of F16E6 (Table 04-2). -/
def f16Max : Rat := (2 - 1 / 512) * 2 ^ 32

/-- Unit in the last place of F16E6 at a value (R108). -/
def f16Ulp (q : Rat) : Rat := if q = 0 then (2 : Rat) ^ (-39 : Int) else (2 : Rat) ^ (max (log2Q (absQ q)) (-30) - 9)

/-- Nearest value of F16E6's grid, RNE, before it is held at the largest magnitude (R108, R109). -/
def f16Near (q : Rat) : Rat := (rne (q / f16Ulp q) : Rat) * f16Ulp q

/-- An F16E6 result saturates (R110). -/
def f16Over (q : Rat) : Bool := decide (f16Max < absQ (f16Near q))

/-- Nearest F16E6 value, RNE, held at the largest finite magnitude (R108 to R110). -/
def f16 (q : Rat) : Rat := clampQ (-f16Max) f16Max (f16Near q)

/-- Value of an F16E6 word (R108). -/
def f16Dec (w : Nat) : Rat :=
  let e := bits w 9 6
  let f : Rat := (bits w 0 9 : Nat)
  let v : Rat := if e = 0 then f / 512 * (2 : Rat) ^ (-30 : Int) else (1 + f / 512) * (2 : Rat) ^ ((e : Int) - 31)
  if bit w 15 then -v else v

/-- F16E6 division with R111. -/
def f16Div (a b : Rat) : Rat := if b = 0 then (if a = 0 then 0 else if a < 0 then -f16Max else f16Max) else f16 (a / b)

/-- The F16E6 word of a value (R108); zero is +0. -/
def f16Enc (q : Rat) : Nat :=
  let v := f16 q
  let a := absQ v
  let k := max (log2Q a) (-30)
  let f := (a / (2 : Rat) ^ (k - 9)).floor.toNat
  if v = 0 then 0 else (if v < 0 then 32768 else 0) + (if f < 512 then f else (k + 31).toNat * 512 + (f - 512))

/-- The natural logarithm of 2 to 30 decimals. -/
def ln2 : Rat := 693147180559945309417232121458 / 10 ^ 30

/-- Exponential by its series, beyond F16E6's precision; held far outside F16E6's range. -/
def expR (x : Rat) : Rat :=
  if 32 < x then (2 : Rat) ^ (40 : Int) else if x < -40 then 0
  else
    let n := rne (x / ln2)
    let r := x - n * ln2
    (2 : Rat) ^ n * (List.range 16).foldr (fun i a => 1 + r * a / ((i + 1 : Nat) : Rat)) 1

/-- Logarithm of a positive value by its series, beyond F16E6's precision. -/
def logR (x : Rat) : Rat :=
  let k := log2Q x
  let y := x / (2 : Rat) ^ k
  let t := (y - 1) / (y + 1)
  k * ln2 + 2 * t * (List.range 24).foldr (fun i a => 1 / ((2 * i + 1 : Nat) : Rat) + t * t * a) 0

/-- Square root, rounded down beyond F16E6's precision. -/
def sqrtR (x : Rat) : Rat := (Nat.sqrt (x.num.toNat * x.den * 4 ^ 60) : Rat) / ((x.den * 2 ^ 60 : Nat) : Rat)

/-- A function within 1 unit in the last place of its exact result (R115): the reference model's value where it keeps that bound. -/
def within1 (op : Nat) (x exact : Rat) : Rat :=
  let v := Config.f16Fn op x
  if f16 v = v ∧ absQ (v - exact) ≤ f16Ulp exact then v else f16 exact

/-- F16E6 reciprocal, square root, exponential and logarithm with R111 (operation codes 0x61 to 0x64). -/
def f16Recip (a : Rat) : Rat := if a = 0 then f16Max else within1 0x61 a (1 / a)
def f16Sqrt (a : Rat) : Rat := if a ≤ 0 then 0 else within1 0x62 a (sqrtR a)
def f16Exp (a : Rat) : Rat := within1 0x63 a (expR a)
def f16Log (a : Rat) : Rat := if a ≤ 0 then -f16Max else within1 0x64 a (logR a)

/-- Operands for which R111 gives the result of a division, a reciprocal, a square root or a logarithm. -/
def f16Odd (op : Nat) (x y : Rat) : Bool :=
  match op with
  | 0x60 => decide (y = 0)
  | 0x61 => decide (x = 0)
  | 0x62 => decide (x < 0)
  | 0x64 => decide (x ≤ 0)
  | _ => false

/-- An F16E6 value in a task's arithmetic with the task's saturation flag (R110). -/
structure F16 where
  v : Rat
  sat : Bool := false
  deriving DecidableEq, Repr

/-- Each operation rounds once, in RNE (R109), and carries the flag on. -/
def F16.round (q : Rat) (s : Bool) : F16 := ⟨f16 q, s || f16Over q⟩
def F16.add (a b : F16) : F16 := F16.round (a.v + b.v) (a.sat || b.sat)
def F16.sub (a b : F16) : F16 := F16.round (a.v - b.v) (a.sat || b.sat)
def F16.mul (a b : F16) : F16 := F16.round (a.v * b.v) (a.sat || b.sat)
def F16.div (a b : F16) : F16 := ⟨f16Div a.v b.v, a.sat || b.sat || f16Odd 0x60 a.v b.v || (decide (b.v ≠ 0) && f16Over (a.v / b.v))⟩
def F16.exp (a : F16) : F16 := ⟨f16Exp a.v, a.sat || f16Over (expR a.v)⟩
def F16.sqrt (a : F16) : F16 := ⟨f16Sqrt a.v, a.sat || f16Odd 0x62 a.v 0⟩
def F16.max (a b : F16) : F16 := ⟨if a.v < b.v then b.v else a.v, a.sat || b.sat⟩
def F16.min (a b : F16) : F16 := ⟨if b.v < a.v then b.v else a.v, a.sat || b.sat⟩

/-- FX16 value of Q fraction bits, rounded RNA and saturated (R109, R110), as its integer. -/
def fx16 (q : Nat) (v : Rat) : Int := clampI (-32768) 32767 (rna (v * (2 : Rat) ^ q))

/-- ACC48 narrowed to 16 bits by a right shift in RNA (R112). -/
def narrowRna (acc : Int) (s : Nat) : Int := clampI (-32768) 32767 (rna ((acc : Rat) / (2 : Rat) ^ s))

/-- ACC48 narrowed to 16 bits by a right shift in RDN (R112). -/
def narrowRdn (acc : Int) (s : Nat) : Int := clampI (-32768) 32767 (acc / (2 ^ s : Nat))

/-- The rounding mode of a bundle's ROUND field for FX results: 0 and the class default 3 RNA, 1 RNE, 2 RDN (R109, Table 05-3). -/
def roundBy (mode : Nat) (q : Rat) : Int := if mode = 1 then rne q else if mode = 2 then rdn q else rna q

/-- A value held in a two's complement field of `w` bits, and whether it saturates (R110). -/
def satTo (w : Nat) (i : Int) : Int × Bool :=
  let v := clampI (-(2 ^ (w - 1))) (2 ^ (w - 1) - 1) i
  (v, v != i)

/-- Narrowing to a width by a shift of −16 to 47 in a named mode (R112): a negative shift is to the left. -/
def narrow (w mode : Nat) (s : Int) (v : Rat) : Int × Bool := satTo w (roundBy mode (v / (2 : Rat) ^ s))

/-- ACC48 addition saturates where it leaves the range (R110). -/
def acc48 (a b : Int) : Int := clampI (-(2 ^ 47)) (2 ^ 47 - 1) (a + b)

/-- An exact dot product in ACC48. -/
def dot48 (x y : List Int) : Int := (x.zip y).foldl (fun a e => acc48 a (e.1 * e.2)) 0

/-- Quantising a block to B8 (R114): exponent and mantissas. -/
def b8Quant (x : List Rat) : Int × List Int :=
  let mx := x.foldl (fun a v => max a (absQ v)) 0
  if mx = 0 then (-128, x.map (fun _ => 0))
  else
    let e := max (-128) (log2Q mx - 6)
    let q := fun (e : Int) => x.map (fun v => rne (v / (2 : Rat) ^ e))
    let e := if (q e).any (fun m => decide (127 < m ∨ m < -128)) then e + 1 else e
    if 127 < e then (127, (q 127).map (clampI (-128) 127)) else (e, q e)

/-- A B8 block product added to ACC48 with its scale (R113). -/
def b8Acc (acc p ea eb exp : Int) : Int :=
  let s := ea + eb - exp
  if 0 ≤ s then acc48 acc (clampI (-(2 ^ 47)) (2 ^ 47 - 1) (p * 2 ^ s.toNat)) else acc48 acc (rne ((p : Rat) * (2 : Rat) ^ s))

/-- Sum over 64 lanes in the fixed pairwise tree with `add` at every node (R115). -/
def laneTree {α : Type} (add : α → α → α) : Nat → List α → List α
  | 0, l => l
  | n + 1, l =>
    laneTree add n ((List.range (l.length / 2)).filterMap (fun i =>
      match l[2 * i]?, l[2 * i + 1]? with
      | some a, some b => some (add a b)
      | _, _ => none))

/-- CRC-64 of ECMA-182 (R135). -/
def crc64 (b : List Nat) : Nat := crcMsb 64 0x42F0E1EBA9EA3693 0 b

/-! ## Cores -/

/-- CORE_ST field of a core. -/
def coreSt (c : Nat) : Fld := ⟨0x8080, 2 * c, 2⟩

/-- Some core runs. -/
def Mod.coresRun (m : Mod) : Bool := (List.range 4).any (fun c => m.get (coreSt c) == 2)

/-! ## Containers -/

/-- Bytes of one weave bank of one core, of one bank, of one core's SRAM. -/
def coreBank : Nat := 131072
def bankSize : Nat := 524288
def sramSize : Nat := 4194304

/-- Byte of a weave bank; the container lies over the four cores' banks in core order (log 12). -/
def Mod.bankByte (m : Mod) (b o : Nat) : Nat := Sparse.get (fun _ => 0) m.cen.bank (b * bankSize + o)

/-- Byte of core SRAM. -/
def Mod.sramByte (m : Mod) (c o : Nat) : Nat := Sparse.get (fun _ => 0) m.cen.sram (c * sramSize + o)

/-- `n` bytes of a byte function from `o`. -/
def bytesAt (f : Nat → Nat) (o n : Nat) : List Nat := (List.range n).map (fun i => f (o + i))

/-- Little-endian value of `n` bytes at `o`. -/
def rdAt (f : Nat → Nat) (o n : Nat) : Nat := le (bytesAt f o n) 0 n

/-- Section table entries: TYPE, CORE, OFFSET, LENGTH (R142). -/
def sections (f : Nat → Nat) : List (Nat × Nat × Nat × Nat) :=
  (List.range (rdAt f 18 2)).map (fun i =>
    let o := 128 + 16 * i
    (rdAt f o 2, f (o + 2), rdAt f (o + 4) 4, rdAt f (o + 8) 4))

/-- Bytes of the first section of a type. -/
def sectionBytes (f : Nat → Nat) (t : Nat) : Option (List Nat) :=
  ((sections f).find? (fun s => s.1 == t)).map (fun s => bytesAt f s.2.2.1 s.2.2.2)

/-- Bytes of every section of a type, in the table's order: one for each core that has it (R142). -/
def sectionsBytes (f : Nat → Nat) (t : Nat) : List (List Nat) :=
  ((sections f).filter (fun s => s.1 == t)).map (fun s => bytesAt f s.2.2.1 s.2.2.2)

/-- Bytes of a core's section of a type (R142). -/
def sectionOf (f : Nat → Nat) (t c : Nat) : Option (List Nat) :=
  ((sections f).find? (fun s => s.1 == t && s.2.1 == c)).map (fun s => bytesAt f s.2.2.1 s.2.2.2)

/-- A region (R145). -/
structure Region where
  core : Nat
  attr : Nat
  off : Nat
  len : Nat
  init : Nat
  deriving DecidableEq, Repr

/-- The region table. -/
def regionsOf (f : Nat → Nat) : List Region :=
  (sectionsBytes f 0x05).flatMap (fun b => (List.range (b.length / 16)).map (fun i =>
      ⟨b.getD (16 * i) 0, b.getD (16 * i + 1) 0, le b (16 * i + 4) 4, le b (16 * i + 8) 4, le b (16 * i + 12) 4⟩))

/-- A task (R147). -/
structure Task where
  id : Nat
  kind : Nat
  core : Nat
  part : Nat
  poles : Nat
  group : Nat
  member : Nat
  dflt : Bool
  track : Nat
  initM : Nat
  span : Nat
  deriving DecidableEq, Repr

/-- The task table. -/
def tasksOf (f : Nat → Nat) : List Task :=
  (sectionsBytes f 0x07).flatMap (fun b => (List.range (b.length / 32)).map (fun i =>
      let o := 32 * i
      ⟨le b o 2, b.getD (o + 2) 0, b.getD (o + 3) 0, b.getD (o + 4) 0, b.getD (o + 5) 0, b.getD (o + 6) 0,
       b.getD (o + 7) 0 % 2, bit (b.getD (o + 7) 0) 7, le b (o + 8) 4, le b (o + 12) 4, le b (o + 16) 2⟩))

/-- A law of a pole: kind 1 or 2 whose POLES names the pole or both. -/
def Task.lawOf (t : Task) (p : Nat) : Bool := (t.kind == 1 || t.kind == 2) && (t.poles == p || t.poles == 2)

/-- The cell profile table (Table 05-9); fields in table order, two bytes each (log 13). -/
structure Profile where
  vMin : Rat
  vMax : Rat
  sLo : Rat
  sHi : Rat
  tMin : Rat
  tMax : Rat
  q : Rat
  beta : Rat
  tauD : Rat
  rho0 : List Rat
  rho1 : Rat
  tau1 : Rat
  rho2 : Rat
  tau2 : Rat
  ocv : List Rat
  cTh : Rat
  gTh : Rat
  gS : Rat
  gV : Rat
  h : Rat
  iE : Rat
  iF : Rat
  cells : Nat
  deriving DecidableEq, Repr

/-- Read a profile from a PROFILE section. -/
def profileOf (b : List Nat) : Profile :=
  let v := fun i => f16Dec (le b (2 * i) 2)
  { vMin := v 0, vMax := v 1, sLo := v 2, sHi := v 3, tMin := v 4, tMax := v 5, q := v 6, beta := v 7, tauD := v 8,
    rho0 := (List.range 16).map (fun i => v (9 + i)), rho1 := v 25, tau1 := v 26, rho2 := v 27, tau2 := v 28,
    ocv := (List.range 64).map (fun i => v (29 + i)), cTh := v 93, gTh := v 94, gS := v 95, gV := v 96, h := v 97,
    iE := v 98, iF := v 99, cells := le b 200 2 }

/-- R156: a table the module accepts. -/
def Profile.ok (p : Profile) : Bool :=
  decide (p.vMin < p.vMax) && decide (p.sLo < p.sHi) && decide (p.tMin < p.tMax) &&
    [p.q, p.cTh, p.gTh, p.tau1, p.tau2, p.tauD, p.h].all (fun x => decide (0 < x))

/-- Register values of a frame's outputs: shown when the frame is published (R119), at once while no core runs. -/
def Mod.shows (m : Mod) (l : List (Fld × Nat)) : Mod := if m.coresRun then { m with cen.due := m.cen.due ++ l } else m.puts l

/-- The active bank (CEN_STAT.BANK). -/
def Mod.actBank (m : Mod) : Nat := m.get R.CEN_STAT_BANK

/-- A bank holds an accepted image. -/
def Mod.bankOk (m : Mod) (b : Nat) : Bool := if b = 0 then m.is R.CEN_STAT_IMG_A else m.is R.CEN_STAT_IMG_B

/-- The active image's bytes. -/
def Mod.actImg (m : Mod) : Nat → Nat := m.bankByte m.actBank

/-- Build number of a bank's image; 0 when none. -/
def Mod.buildOf (m : Mod) (b : Nat) : Nat := if m.bankOk b then rdAt (m.bankByte b) 8 4 else 0

/-- Build of the active image. -/
def Mod.build (m : Mod) : Nat := m.buildOf m.actBank

/-- The profile in use: that of a coefficient image taken at START (R170), else the accepted active image's. -/
def Mod.profile (m : Mod) : Option Profile :=
  match m.cen.prof with
  | some b => some (profileOf b)
  | none => if m.bankOk m.actBank then (sectionBytes m.actImg 0x0C).map profileOf else none

/-- A kind of task is in the active image and its core runs. -/
def Mod.taskRuns (m : Mod) (k : Nat) : Bool := (tasksOf m.actImg).any (fun t => t.kind == k && m.get (coreSt t.core) == 2)

/-- Regions of the active image. -/
def Mod.regions (m : Mod) : List Region := if m.bankOk m.actBank then regionsOf m.actImg else []

/-- A region with an attribute bit of Table 05-5 covers 8 bytes at an offset of a core's SRAM. -/
def regionHas (rs : List Region) (a c o : Nat) : Bool :=
  rs.any (fun r => r.core == c && bit r.attr a && decide (r.off ≤ o) && decide (o + 8 ≤ r.off + r.len))

/-- Regions overlap, or a COEF pair is unequal (R145, Table 05-14 code 2). -/
def regionsBad (rs : List Region) : Bool :=
  (List.range rs.length).any (fun i =>
    match rs[i]? with
    | none => false
    | some r =>
      (rs.take i).any (fun t => t.core == r.core && decide (t.off < r.off + r.len) && decide (r.off < t.off + t.len)) ||
      (bit r.attr 5 && (match (rs.take i).reverse.find? (fun t => bit t.attr 4) with
        | none => true
        | some t => t.len != r.len)))

/-- Ports a task kind may drive (Tables 05-6 and 05-7), ports numbered in the order of Table 05-7: I_TB_P, I_TB_N, PH_CMD, OBS, SCHED,
FCST, SVC, PUB. PUB is bound by any kind. -/
def kindPorts : Nat → List Nat
  | 1 => [0, 1, 7]
  | 2 => [0, 1, 7]
  | 3 => [4, 7]
  | 4 => [5, 7]
  | 5 => [3, 7]
  | 6 => [6, 7]
  | 7 => [2, 7]
  | 8 => [7]
  | _ => []

/-- Refusal code of Table 04-12 for a container; 0 accepted so far. `sigOk` is the signature check. The limits are those of every core (R123).
DESIGN CHOICE (log 60): of several failing checks the first in the order of Table 04-12 shows; a DMA_CH figure above 8 answers code 5, the code
of the other memory limits; SC_DECL is held to 1,024 for every core, whether or not it writes phase commands. -/
def rejCode (f : Nat → Nat) (coreEn : Nat) (sigOk : Bool) : Nat :=
  let fig := fun c o n => rdAt f (32 + 16 * c + o) n
  let cores := List.range 4
  if rdAt f 0 4 ≠ 0x464D5701 ∨ rdAt f 4 2 ≠ 1 ∨ rdAt f 6 2 ≠ 0x00B0 then 1
  else if cores.any (fun c => decide (7680 < fig c 0 2)) then 2
  else if cores.any (fun c => decide (fig c 2 2 ≠ 0x1FFF ∧ 1584 < fig c 2 2) || decide (1024 < fig c 4 2)) then 3
  else if cores.any (fun c => decide (8192 < fig c 6 2)) then 4
  else if cores.any (fun c => decide (4096 < fig c 8 2) || decide (4 < fig c 10 1) || decide (8 < fig c 11 1)) then 5
  else if !sigOk then 6
  else if cores.any (fun c => bit (f 16) c && !bit coreEn c) then 7
  else 0

/-- Where the bundles of a section begin (Table 05-2): after the slot index of ring A or ring B. -/
def bundleStart (t : Nat) : Nat := if t = 2 then 800 else if t = 3 then 8000 else 0

/-- A bundle (Table 05-3): CYCLE, LAST, CMD, the four engine slots (OPC, DESC, ROUND) and XFER (KIND, DESC, REP). -/
structure Bundle where
  cycle : Nat
  last : Bool
  cmd : Bool
  ops : List (Nat × Nat × Nat)
  xfer : Nat × Nat × Nat
  deriving DecidableEq, Repr

/-- The bundle of 16 bytes at `o` (Table 05-3). -/
def bundleAt (f : Nat → Nat) (o : Nat) : Bundle :=
  let h := rdAt f o 2
  let x := rdAt f (o + 14) 2
  { cycle := bits h 0 13, last := bit h 13, cmd := bit h 14,
    ops := [2, 5, 8, 11].map (fun k =>
      let w := rdAt f (o + k) 3
      (bits w 0 8, bits w 8 12, bits w 20 2)),
    xfer := (bits x 0 4, bits x 4 8, bits x 12 4) }

/-- The bundles from `o` on, up to the one with LAST or at most `n`. -/
def bundlesFrom (f : Nat → Nat) (o : Nat) : Nat → List Bundle
  | 0 => []
  | n + 1 =>
    let b := bundleAt f o
    if b.last then [b] else b :: bundlesFrom f (o + 16) n

/-- What a core issues of a part in frame `k` (R120, Table 05-2): the whole every-frame part; of ring A and ring B the slot that its index
names by first bundle and count. -/
def partBundles (f : Nat → Nat) (c k t : Nat) : List Bundle :=
  match (sections f).find? (fun s => s.1 == t && s.2.1 == c) with
  | none => []
  | some (_, _, o, len) =>
    if t = 1 then bundlesFrom f o (len / 16)
    else
      let e := o + 4 * (k % (if t = 2 then 200 else 2000))
      bundlesFrom f (o + bundleStart t + 16 * rdAt f e 2) (rdAt f (e + 2) 2)

/-- Every bundle that a core issues in frame `k`, in issue order: the every-frame part, then its ring-A slot, then its ring-B slot (R120). -/
def issued (f : Nat → Nat) (c k : Nat) : List Bundle := [1, 2, 3].flatMap (partBundles f c k)

/-- The cycle of a frame's last bundle; 0 without one. -/
def lastCycle (l : List Bundle) : Nat := l.foldl (fun a b => max a b.cycle) 0

/-- The cycle of a frame's last phase-command write (Table 05-3, CMD); 0x1FFF without one. -/
def cmdCycle (l : List Bundle) : Nat := ((l.filter (·.cmd)).getLast?.map (·.cycle)).getD 0x1FFF

/-- Operation codes of Table 05-4; 0x00 issues nothing (R143). -/
def opcodes : List Nat :=
  [0x00, 0x01, 0x02, 0x03, 0x04, 0x10, 0x11, 0x12, 0x13, 0x20, 0x21, 0x22, 0x23, 0x30, 0x31, 0x40, 0x41, 0x42, 0x43, 0x44, 0x45, 0x46,
   0x47, 0x48, 0x49, 0x4A, 0x50, 0x51, 0x52, 0x53, 0x58, 0x60, 0x61, 0x62, 0x63, 0x64, 0x68, 0x70, 0x78]

/-- Every engine slot of every bundle of the image names an operation code of Table 05-4 (R143, R146). -/
def opcodesOk (f : Nat → Nat) : Bool :=
  (sections f).all (fun s =>
    if s.1 = 1 ∨ s.1 = 2 ∨ s.1 = 3 then
      (List.range ((s.2.2.2 - bundleStart s.1) / 16)).all (fun i =>
        [2, 5, 8, 11].all (fun k => opcodes.contains (f (s.2.2.1 + bundleStart s.1 + 16 * i + k))))
    else true)

/-! ## Descriptors (R144) -/

/-- A 16-byte descriptor: SRC_A, SRC_B, DST, COUNT, SHIFT, FMT. -/
structure Desc where
  a : Nat
  b : Nat
  dst : Nat
  count : Nat
  shift : Int
  fmt : Nat
  deriving DecidableEq, Repr

/-- Fields of an address word and of a descriptor (R144). -/
def adrOff (w : Nat) : Nat := bits w 0 22
def adrSpace (w : Nat) : Nat := bits w 22 2
def Desc.blocks (d : Desc) : Nat := bits d.a 24 8 + 1
def Desc.src (d : Desc) : Nat := bits d.fmt 0 4
def Desc.df (d : Desc) : Nat := bits d.fmt 4 4
def Desc.chan (d : Desc) : Nat := bits d.dst 29 3

/-- The i-th descriptor of a section's bytes. -/
def descAt (b : List Nat) (i : Nat) : Desc :=
  let o := 16 * i
  ⟨le b o 4, le b (o + 4) 4, le b (o + 8) 4, le b (o + 12) 2, sext 8 (b.getD (o + 14) 0), b.getD (o + 15) 0⟩

/-- Bytes of `n` elements of a format (Table 04-2): FX16 2, FX8 1, ACC48 6, B8 a block of 32 mantissas and its exponent, F16E6 2. -/
def fmtBytes (fmt n : Nat) : Nat := if fmt = 1 then n else if fmt = 2 then 6 * n else if fmt = 3 then (n + 31) / 32 * 33 else 2 * n

/-- What an operation reads: address words with bytes. -/
def opReads (op : Nat) (d : Desc) : List (Nat × Nat) :=
  let n := fmtBytes d.src d.count
  if 1 ≤ op ∧ op ≤ 4 then [(d.a, 64 * d.blocks * n), (d.b, n)]
  else if op = 0x58 then [(d.a, n), (d.b, fmtBytes d.src 1)]
  else if op = 0x70 then [(d.a, 2 * d.count)]
  else if op = 0x78 then [(d.a, d.count)]
  else if (0x10 ≤ op ∧ op ≤ 0x23) ∨ (0x40 ≤ op ∧ op ≤ 0x44) ∨ (0x48 ≤ op ∧ op ≤ 0x4A) ∨ op = 0x60 then [(d.a, n), (d.b, n)]
  else [(d.a, n)]

/-- Where an operation writes: address word and bytes. -/
def opWrites (op : Nat) (d : Desc) : Nat × Nat :=
  if 1 ≤ op ∧ op ≤ 4 then (d.dst, fmtBytes d.df (64 * d.blocks))
  else if 0x50 ≤ op ∧ op ≤ 0x53 then (d.dst, fmtBytes d.df ((d.count + 63) / 64))
  else if op = 0x68 then (d.dst, fmtBytes 3 d.count)
  else if op = 0x70 then (d.dst, 2 * d.count)
  else if op = 0x78 then (d.dst, d.count)
  else (d.dst, fmtBytes d.df d.count)

/-- A core's SRAM range lies in one region; it meets a STAGE region. -/
def inRegion (rs : List Region) (c o n : Nat) : Bool := rs.any (fun r => r.core == c && decide (r.off ≤ o) && decide (o + n ≤ r.off + r.len))
def meetsStage (rs : List Region) (c o n : Nat) : Bool :=
  rs.any (fun r => r.core == c && bit r.attr 2 && decide (r.off < o + n) && decide (o < r.off + r.len))

/-- The descriptors of a core's OPDESC section, operations and transfers. -/
def opDesc (s : List Nat) (i : Nat) : Desc := descAt s i
def xferDesc (s : List Nat) (i : Nat) : Desc := descAt s (Config.opCount s + i)

/-- Every bundle of a core's three parts. -/
def allBundles (f : Nat → Nat) (c : Nat) : List Bundle :=
  (sections f).flatMap (fun s =>
    if (s.1 = 1 ∨ s.1 = 2 ∨ s.1 = 3) ∧ s.2.1 = c then
      (List.range ((s.2.2.2 - bundleStart s.1) / 16)).map (fun i => bundleAt f (s.2.2.1 + bundleStart s.1 + 16 * i))
    else [])

/-- The operations and transfers of the image keep R146 over its region table: none reads a STAGE region, none writes core SRAM outside a region,
and no destination lies in the input snapshot (R144). -/
def descriptorsOk (f : Nat → Nat) : Bool :=
  let rs := regionsOf f
  (List.range 4).all (fun c =>
    match sectionOf f 0x04 c with
    | none => true
    | some s =>
      let rdOk := fun (e : Nat × Nat) => adrSpace e.1 != 1 || !meetsStage rs c (adrOff e.1) e.2
      let wrOk := fun (e : Nat × Nat) => adrSpace e.1 != 2 && (adrSpace e.1 != 1 || inRegion rs c (adrOff e.1) e.2)
      (allBundles f c).all (fun b =>
        b.ops.all (fun o => o.1 == 0 || ((opReads o.1 (opDesc s o.2.1)).all rdOk && wrOk (opWrites o.1 (opDesc s o.2.1)))) &&
        (match b.xfer with
         | (0, _, _) => true
         | (k, i, r) =>
           let d := xferDesc s i
           let n := d.count * (r + 1)
           if k = 1 then rdOk (d.a, n) && wrOk (d.dst % 2 ^ 24, n)
           else if k = 2 then wrOk (d.dst, 2 * n)
           else rdOk (d.a, 2 * n))))

/-- A weave image has sections 0x01 to 0x08 for every core it uses (R142). -/
def sectionsThere (f : Nat → Nat) : Bool :=
  (List.range 4).all (fun c => !bit (f 16) c || [1, 2, 3, 4, 5, 6, 7, 8].all (fun t => (sections f).any (fun s => s.1 == t && s.2.1 == c)))

/-- Refusal code of Table 05-14 for a container; 0 accepted. `svcNeeded`: service mode is locked and the module is lead-eligible;
`mode` is the locked mode, if any. DESIGN CHOICE (log 60): a section that R142 needs and that is missing answers code 1. -/
def prejCode (f : Nat → Nat) (mode : Option Nat) (svcNeeded : Bool) : Nat :=
  let ts := tasksOf f
  let ss := sections f
  let ports := (sectionsBytes f 0x08).flatMap Config.portsOf
  let groups := (ts.map (·.group)).filter (· != 0)
  if ss.any (fun s => s.1 == 0 || s.1 == 0x0B || decide (0x0D < s.1)) || decide (rdAt f 18 2 = 0 ∨ 64 < rdAt f 18 2) || !opcodesOk f ||
    !sectionsThere f then 1
  else if regionsBad (regionsOf f) || !descriptorsOk f then 2
  else if ports.any (fun e => match ts.find? (fun t => t.id == e.1) with
      | none => true
      | some t => !(kindPorts t.kind).contains e.2) then 3
  else if [0, 1].any (fun p => !(ts.any (fun t => t.lawOf p))) ||
      groups.any (fun g => decide (2 < (ts.filter (fun t => t.group == g)).length) ||
        !(ts.any (fun t => t.group == g && t.dflt))) then 4
  else if (match mode with
      | none => false
      | some k => !bit (f 17) k) || (svcNeeded && !(ts.any (fun t => t.kind == 6))) then 5
  else if (match sectionBytes f 0x0A with
      | none => false
      | some b => !Config.handoverOk b) || (match sectionBytes f 0x09 with
      | none => false
      | some b => !Config.setpointsOk b) then 6
  else if (match sectionBytes f 0x0C with
      | none => false
      | some b => !(profileOf b).ok) then 7
  else if ts.any (fun t => t.kind == 5 && decide (40 < t.span)) then 8
  else 0

end Sys2Proof.Machine
end

