-- ==== Sys2Proof/Machine/Breakwater.lean ====
section
/-!
DEFINITION. The breakwater (R43 to R69): equations (1), (6) to (9), the native law, envelopes, plan point, caps, states, deviation,
and the breakwater's commands.
-/
namespace Sys2Proof.Machine

/-! ## Parameters (Table 02-1 with the clamps of Tables 02-10 to 02-19) -/

/-- V_NOM, V. -/
def Mod.vNom (m : Mod) : Rat := (clampN 39400 40600 (m.get R.BWK_VSET_V_NOM) : Nat) / (100 : Rat)

/-- V_TB, V. -/
def Mod.vTb (m : Mod) : Rat := (clampN 40 400 (m.get R.BWK_VSET_V_TB) : Nat) / (100 : Rat)

/-- k_D, V per kW. -/
def Mod.kD (m : Mod) : Rat := (min 22 (m.get R.BWK_DROOP_KD) : Nat) / (1000 : Rat)

/-- S_RAMP per 1 ms, kW: 0.1 %/s of the 200 kW rating is 0.0002 kW per ms. -/
def Mod.sRamp (m : Mod) : Rat := (clampN 1 1000 (m.get R.BWK_RAMP_RAMP) : Nat) * (2 / 10000 : Rat)

/-- S_CAP per 1 ms, kW: 0.5 %/ms of 200 kW is 1 kW per ms. -/
def Mod.sCap (m : Mod) : Rat := (clampN 25 200 (m.get R.BWK_RAMP_CAP_SLEW) : Nat)

/-- A cap field as it acts: 0xFFFF none, values from 2,001 to 0xFFFE act as 2,000 (Table 02-19). -/
def capActs (v : Nat) : Nat := if v = 0xFFFF then v else min v 2000

/-- C_EFF in 0.1 kW, 0xFFFF none (R60). -/
def Mod.cEff (m : Mod) : Nat :=
  min (capActs (m.get R.BWK_CAP_HOST_CAP)) (min (capActs (m.get R.BWK_CAP_RACK_CAP)) (capActs (m.get R.BWK_CAP_LOCAL_CAP)))

/-- The plan source in force: SRC 0b11 acts as LOCAL (Table 02-10). -/
def Mod.planSrc (m : Mod) : Nat := if m.get R.BWK_CFG_SRC = 3 then 0 else m.get R.BWK_CFG_SRC

/-- Sweep period, ms (WCH_CFG.SW_SEL). -/
def Mod.tSw (m : Mod) : Nat := [1, 2, 5, 10].getD (min 3 (m.get R.WCH_CFG_SW_SEL)) 10

/-- STALE_EFF, ms (R51). -/
def Mod.staleEff (m : Mod) : Nat := max (clampN 2 20 (m.get R.BWK_ENV_CFG_STALE_MS)) (m.tSw + 2)

/-- OFF_EFF, ms (R51). -/
def Mod.offEff (m : Mod) : Nat := max (clampN 10 1000 (m.get R.BWK_ENV_CFG_OFF_MS)) (10 * m.tSw)

/-- SOC limits and aim, %. -/
def Mod.socMin (m : Mod) : Rat := (m.get R.BWK_SOC_CFG_SOC_MIN : Nat) / (2 : Rat)
def Mod.socMax (m : Mod) : Rat := (m.get R.BWK_SOC_CFG_SOC_MAX : Nat) / (2 : Rat)
def Mod.socSet (m : Mod) : Rat := (m.get R.BWK_SOC_CFG_SOC_SET : Nat) / (2 : Rat)

/-- FOL_MAX, kW (values above 80 act as 80). -/
def Mod.folMax (m : Mod) : Rat := (min 80 (m.get R.BWK_CFG_FOL_MAX) : Nat) / (10 : Rat)

/-- A quotient with R111 where the divisor is 0. -/
def divV (a b : Rat) : Rat := if b = 0 then (if a = 0 then 0 else if a < 0 then -f16Max else f16Max) else a / b

/-! ## Measured quantities of the frame (Table 06-2) -/

/-- V_bus,p: the boundary sample (R44). -/
def Mod.vBus (m : Mod) (p : Nat) : Rat := m.chanInst (56 + p)

/-- V_STR,p, frame mean. -/
def Mod.vStr (m : Mod) (p : Nat) : Rat := m.chanMean (58 + p)

/-- String current, frame mean, positive in ebb. -/
def Mod.iStr (m : Mod) (p : Nat) : Rat := m.chanMean (60 + p)

/-- Pole load current, frame mean. -/
def Mod.iLoad (m : Mod) (p : Nat) : Rat := m.chanMean (66 + p)

/-- Feed power of a pole, kW. -/
def Mod.feedP (m : Mod) (p : Nat) : Rat := m.chanMean (62 + p) * m.chanMean (64 + p) / 1000

/-- Storage power of a pole, kW, positive in ebb. -/
def Mod.stoP (m : Mod) (p : Nat) : Rat := m.vStr p * m.iStr p / 1000

/-- P_load, kW: the shelf load of the frame. -/
def Mod.loadP (m : Mod) : Rat := (m.vBus 0 * m.iLoad 0 + m.vBus 1 * m.iLoad 1) / 1000

/-- Pole record of the breakwater. -/
def Mod.bp (m : Mod) (p : Nat) : BPole := m.bwk.pole.getD p {}

/-- Change a pole record. -/
def Mod.setBp (m : Mod) (p : Nat) (f : BPole → BPole) : Mod := { m with bwk.pole := (bank 2 m.bwk.pole {}).modify p f }

/-! ## Envelopes (R49 to R51) -/

/-- A cell's observer. -/
def Mod.cellObs (m : Mod) (i : Nat) : CellObs := Sparse.get (fun _ => {}) m.cen.obs i

/-- Age of a pole's newest complete set, frames; none when there is no set. -/
def Mod.envAge (m : Mod) (p : Nat) : Option Nat := (m.cen.obsTick.getD p none).map (fun t => (m.time.ticks - t) / 64000)

/-- String limits of a pole, A, with the cell that sets each (R49, R51). -/
def Mod.strLimits (m : Mod) (p : Nat) : (Rat × Nat) × (Rat × Nat) :=
  match m.profile with
  | none => ((0, 0), (0, 0))
  | some pr =>
    if m.bwk.stale.getD p false then
      let fb : Rat := (min 100 (m.get R.BWK_ENV_CFG_FB_PCT) : Nat) / (100 : Rat)
      ((min (pr.iE * fb) 625, p * 512), (min (pr.iF * fb) 625, p * 512))
    else
      (List.range pr.cells).foldl (fun a i =>
        let o := m.cellObs (p * 512 + i)
        if o.valid then
          ((if o.iE < a.1.1 then (o.iE, p * 512 + i) else a.1), (if o.iF < a.2.1 then (o.iF, p * 512 + i) else a.2))
        else a) ((min 625 pr.iE, p * 512), (min 625 pr.iF, p * 512))

/-- Mean observer state of charge of a string, %. -/
def Mod.socStr (m : Mod) (p : Nat) : Rat :=
  match m.profile with
  | none => 0
  | some pr => 100 * meanQ ((List.range pr.cells).map (fun i => (m.cellObs (p * 512 + i)).sb))

/-- Stack SOC, % (R50). DESIGN CHOICE (log 32): the spec names no measure of a string's energy; the measured string voltage V_STR stands for
it, since both strings carry cells of one profile, and with both at 0 the plain mean holds. -/
def Mod.soc (m : Mod) : Rat :=
  let w := m.vStr 0 + m.vStr 1
  if w = 0 then (m.socStr 0 + m.socStr 1) / 2 else (m.vStr 0 * m.socStr 0 + m.vStr 1 * m.socStr 1) / w

/-- E_STK, kJ: energy of the stack between empty and full by the profile (R63). -/
def Mod.eStk (m : Mod) : Rat :=
  match m.profile with
  | none => 0
  | some pr => 2 * pr.cells * pr.q * meanQ pr.ocv / 1000

/-- Form a pole's envelope (R49, R50, R51). -/
def Mod.formEnv (m : Mod) (p : Nat) : Mod :=
  let g : Rat := (min 50 (m.get R.BWK_CFG_GUARD) : Nat) / (200 : Rat)
  let ((e, _), (f, _)) := m.strLimits p
  let cap : Rat := (m.nAct p : Rat) * (25 / 2)
  let res : Rat := (min 100 (m.get R.BWK_SOC_CFG_RES_PCT) : Nat) / (100 : Rat)
  let pe := (1 - g) * min (m.vStr p * e / 1000) cap * (if m.soc < m.socMin then res else 1)
  let pf := (1 - g) * min (m.vStr p * f / 1000) cap * (if m.socMax < m.soc then res else 1)
  if m.bwk.off.getD p false then m.setBp p (fun x => { x with pEbb := 0, pFld := 0 })
  else m.setBp p (fun x => { x with pEbb := max 0 pe, pFld := max 0 pf })

/-- The envelope registers (Tables 02-22 to 02-25), shown when their frame is published (R119). DESIGN CHOICE (log 32): BWK_ENV_AGE has one
field for two poles; it shows the age of the pole whose newest complete set is older, and 0xFFFF while either pole has none. -/
def Mod.showEnv (m : Mod) : Mod :=
  let l0 := m.strLimits 0
  let l1 := m.strLimits 1
  let age := match m.envAge 0, m.envAge 1 with
    | some a, some b => min 65535 (max a b)
    | _, _ => 65535
  m.shows [(R.BWK_ENV_EBB_POS, encU R.BWK_ENV_EBB_POS.w ((m.bp 0).pEbb * 10)), (R.BWK_ENV_EBB_NEG, encU R.BWK_ENV_EBB_NEG.w ((m.bp 1).pEbb * 10)),
     (R.BWK_ENV_FLOOD_POS, encU R.BWK_ENV_FLOOD_POS.w ((m.bp 0).pFld * 10)),
     (R.BWK_ENV_FLOOD_NEG, encU R.BWK_ENV_FLOOD_NEG.w ((m.bp 1).pFld * 10)),
     (R.BWK_ENV_CELL_EBB_CELL, if l1.1.1 < l0.1.1 then l1.1.2 else l0.1.2),
     (R.BWK_ENV_CELL_FLD_CELL, if l1.2.1 < l0.2.1 then l1.2.2 else l0.2.2),
     (R.BWK_ENV_AGE_AGE, age), (R.BWK_ENV_AGE_STALE_EFF, m.staleEff), (R.BWK_ENV_AGE_OFF_EFF, m.offEff)]

/-- A pole's outputs are older than a threshold in ms (R51). -/
def Mod.olderThan (m : Mod) (p ms : Nat) : Bool :=
  match m.envAge p with
  | none => true
  | some a => decide (ms * 200 < a)

/-- ENV_STALE of the poles ends when their outputs are fresh again, STO_OFF when they are no older than OFF_EFF and STO_HOLD
toggles (R43, R51). -/
def Mod.envFresh (m : Mod) : Mod :=
  let m := [0, 1].foldl (fun m p =>
    let m := if m.bwk.stale.getD p false && !m.olderThan p m.staleEff then
        ({ m with bwk.stale := (bank 2 m.bwk.stale false).set p false }).condEnd 6 p 6 0 0 |>.formEnv p
      else m
    if m.bwk.off.getD p false && !m.olderThan p m.offEff && m.pins.stoHold then
      ({ m with bwk.off := (bank 2 m.bwk.off false).set p false }).condEnd 6 p 7 0 1 |>.formEnv p
    else m) m
  m.puts [(R.BWK_DP_STAT_ENV_STALE, b2n (m.bwk.stale.any id)), (R.BWK_DP_STAT_STO_OFF_P, b2n (m.bwk.off.getD 0 false)),
    (R.BWK_DP_STAT_STO_OFF_N, b2n (m.bwk.off.getD 1 false))]

/-! ## The law and the pole commands -/

/-- V_set,p (1), with V_REF in place of V_NOM (R157). -/
def Mod.vSet (m : Mod) (p : Nat) : Rat := m.cen.vref.getD p 0 - m.kD * ((m.bp p).pout - m.bwk.pdp / 2)

/-- e_p at Q12 (2). -/
def Mod.err12 (m : Mod) (p : Nat) : Int := fx16 12 (m.vSet p - m.vBus p)

/-- K_P at Q4 and K_I at Q8, K_I converted in RNA. -/
def Mod.kp4 (m : Mod) : Int := clampI 0 32767 (16 * m.get R.BWK_TBGAIN_KP)
def Mod.ki8 (m : Mod) : Int := clampI 0 32767 (rna ((m.get R.BWK_TBGAIN_KI : Rat) * 256 / 100))

/-- Push term π with its hysteresis (3). -/
def pushNext (push : Bool) (e vtb : Rat) : Bool :=
  if vtb < absQ e then true else if absQ e < vtb / 2 then false else push

/-- Clamp a Q5 state to the envelope (4). -/
def clampEnv5 (iFld iEbb : Rat) (x : Int) : Int := clampI (fx16 5 (-iFld)) (fx16 5 iEbb) x

/-- The proportional part of the native law in ACC48 at 16 fraction bits (5): K_P e, and three times K_P for the part beyond V_TB / 2 while π acts. -/
def nativeAcc (kp4 e12 : Int) (vtb : Rat) (push : Bool) : Int :=
  let half : Int := fx16 12 (vtb / 2)
  let sg : Int := if e12 < 0 then -1 else if e12 = 0 then 0 else 1
  acc48 (kp4 * e12) (if push then 3 * kp4 * (e12 - sg * half) else 0)

/-- One frame of the native law, (3) to (5), in its fixed formats: new x and π, output i_TB at Q5. -/
def nativeLaw (kp4 ki8 e12 : Int) (vtb iFld iEbb : Rat) (x : Int) (push : Bool) : Int × Bool × Int :=
  let push := pushNext push ((e12 : Rat) / 4096) vtb
  let x := clampEnv5 iFld iEbb (clampI (-32768) 32767 (x + narrowRna (ki8 * e12) 15))
  (x, push, clampI (-32768) 32767 (x + narrowRna (nativeAcc kp4 e12 vtb push) 11))

/-- A result of that frame saturates (R110): a narrowing or a sum of 16 bits. -/
def nativeSat (kp4 ki8 e12 : Int) (vtb iFld iEbb : Rat) (x : Int) (push : Bool) : Bool :=
  let r := nativeLaw kp4 ki8 e12 vtb iFld iEbb x push
  let d := narrow 16 0 15 ((ki8 * e12 : Int) : Rat)
  let p := narrow 16 0 11 ((nativeAcc kp4 e12 vtb r.2.1 : Int) : Rat)
  d.2 || (satTo 16 (x + d.1)).2 || p.2 || (satTo 16 (r.1 + p.1)).2

/-- The soft start of RAMP runs (R159, R190). -/
def Mod.softStart (m : Mod) : Bool := !m.is R.CEN_PRG_STAT_SP_MODE && !m.is R.CEN_PRG_STAT_SS_DONE

/-- Start limit SS_ILIM as a fraction: in RAMP before SS_DONE (R159); 1 otherwise. -/
def Mod.startLim (m : Mod) : Rat :=
  if !m.softStart then 1
  else (clampN 5 100 (m.get R.CEN_SP_CFG_SS_ILIM) : Nat) / (100 : Rat)

/-- Frames of an exit from RUN that have begun (R403); none outside an exit. -/
def Mod.exitJ (m : Mod) : Option Nat :=
  match m.pwr.change with
  | .exit _ j => some j
  | _ => none

/-- I_EBB,p and I_FLD,p of the frame from the held powers (R49), scaled in an exit (R403), and P_out,p of the frame for (1): feed power plus
storage power. DEDUCED (log 32): no channel of Table 06-2 measures the converters' bus side, so both are taken where they are measured, at the
feed and at the string. -/
def Mod.envCurrents (m : Mod) (p : Nat) : Mod :=
  let v := m.vBus p
  let k : Rat := match m.exitJ with
    | none => 1
    | some j => ((800 - j : Nat) : Rat) / 800
  m.setBp p (fun x => { x with iEbb := divV (x.pEbb * k * 1000) v, iFld := divV (x.pFld * k * 1000) v,
                               pout := m.feedP p + m.stoP p })

/-- Equations (6) to (9) of a pole, with the start limit on the storage and feed commands (R159). -/
def Mod.poleCommands (m : Mod) (p : Nat) : Mod :=
  let v := m.vBus p
  let l := m.startLim
  let fr : Rat := (m.nAct (p + 2) : Rat) * (25 / 2) * l
  m.setBp p (fun x =>
    let iS := x.iFF + x.iTB
    let c := clampQ (-x.iFld) x.iEbb iS
    let o := if m.exitJ.isSome then 0 else iS - c
    let pf := m.bwk.star / 2 + m.bwk.pfol / 2 + v * o / 1000
    { x with iCmd := clampQ (-x.iFld * l) (x.iEbb * l) c, iOvf := o, pF := if m.softStart then clampQ (-fr) fr pf else pf })

/-- DP_STATE: the present condition of highest precedence (R57). -/
def Mod.syncDp (m : Mod) : Mod :=
  let st :=
    if !m.inRun then 0
    else if m.exitJ.isSome then 7
    else if m.bwk.ovf then 6
    else if m.is R.BWK_DP_STAT_CAPPED then 5
    else if m.is R.BWK_DP_STAT_HOLD then 3
    else if m.is R.BWK_DP_STAT_RESTORE then 4
    else if m.is R.BWK_DP_STAT_ENTRY then 1
    else 2
  m.put R.BWK_DP_STAT_DP_STATE st

/-- HOLD is set: P_TGT is frozen (Table 02-3). -/
def Mod.enterHold (m : Mod) : Mod := if m.inRun then (m.put R.BWK_DP_STAT_HOLD 1).syncDp else m

/-- A valid plan or share message ends HOLD unless an election runs (Table 02-4). -/
def Mod.endHold (m : Mod) : Mod :=
  if m.is R.MOD_ROLE_STAT_ELECTING then m else (m.put R.BWK_DP_STAT_HOLD 0).syncDp

/-- Overflow of the frame (Table 02-4): entry with its report, at most one per 100 ms; frames without it are counted. -/
def Mod.overflowFrame (m : Mod) : Mod :=
  let o := m.bwk.pole.map (·.iOvf)
  if o.any (fun x => x != 0) then
    let m := { m with bwk.ovfClear := 0, bwk.ivOvf := true }
    let m := if o.any (fun x => decide (0 < x)) then m.put R.BWK_DP_STAT_OVF_EBB 1 else m
    let m := if o.any (fun x => decide (x < 0)) then m.put R.BWK_DP_STAT_OVF_FLOOD 1 else m
    if m.bwk.ovf then m
    else
      let m := ({ m with bwk.ovf := true }).bump R.BWK_OVF_CNT_COUNT |>.put R.BWK_EVT_OVF 1
      let key := raiseKey 6 2 4
      let m := if m.mayRaise key (100 * tickMs) then
          { (m.condStart 6 2 4 0 0) with flt.lastRaise := (key, m.time.ticks) :: m.flt.lastRaise.filter (fun e => e.1 != key) }
        else m
      m.syncDp
  else { m with bwk.ovfClear := m.bwk.ovfClear + 1 }

/-- Bus window, shore limits and BUS_UV of the frame (R48). -/
def Mod.busFrame (m : Mod) : Mod :=
  let hi : Rat := (m.bwk.shoreHi : Rat) / 100
  let lo : Rat := (m.bwk.shoreLo : Rat) / 100
  let outside := [0, 1].any (fun p => decide (m.vBus p < 394 ∨ 406 < m.vBus p))
  let m := if outside then (m.bump R.BWK_WIN_CNT_COUNT).put R.BWK_EVT_WIN 1 else m
  [0, 1].foldl (fun m p =>
    let v := m.vBus p
    let m := if v < lo ∨ hi < v then m.setBp p (fun x => { x with shoreRun := x.shoreRun + 1 })
      else (m.setBp p (fun x => { x with shoreRun := 0 })).condEnd 6 p 1 0 1
    if v < 360 then
      (if m.condOn 6 p 2 0 then m else (m.put R.BWK_EVT_UV 1).pmbSet (pmbVout p) 16).condStart 6 p 2 0 1
    else m.condEnd 6 p 2 0 1) m

/-- P_DP* moves within the interval: at S_CAP after a cap lowered P_DP or a breach raised it, else linearly over 200 frames (R52). -/
def Mod.moveStar (m : Mod) : Mod :=
  let d := m.bwk.pdp - m.bwk.star
  let step := if m.bwk.capDown then m.sCap / 200 else absQ (m.bwk.pdp - m.bwk.starFrom) / 200
  let star := if absQ d ≤ step then m.bwk.pdp else if d < 0 then m.bwk.star - step else m.bwk.star + step
  { m with bwk.star := star, bwk.capDown := m.bwk.capDown && star != m.bwk.pdp,
           bwk.ivSlew := m.bwk.ivSlew || (m.bwk.capDown && d != 0) }

/-- Sums of the running plan interval: feed, load, storage, pole outputs; whether cadence lock held in every frame of it and whether the cap
was breached in one (R65). -/
def Mod.sumFrame (m : Mod) : Mod :=
  let v := [m.feedP 0 + m.feedP 1, m.loadP, m.stoP 0 + m.stoP 1, (m.bp 0).pout, (m.bp 1).pout]
  { m with bwk.sums := (m.bwk.sums.zip v).map (fun e => e.1 + e.2), bwk.sumN := m.bwk.sumN + 1, bwk.feedNow := v.getD 0 0,
           bwk.ivLock := m.bwk.ivLock && m.is R.TTB_STAT_LOCK, bwk.ivBreach := m.bwk.ivBreach || m.bwk.breach }

/-! ## The plan boundary (R52 to R66) -/

/-- Mean of a sum over the interval; 0 before the first frame. -/
def Mod.ivMean (m : Mod) (i : Nat) : Rat := if m.bwk.sumN = 0 then 0 else m.bwk.sums.getD i 0 / (m.bwk.sumN : Rat)

/-- The worst |D| of each position since the last rack report, after one more (R67). -/
def worseDev (worst : List Rat) (p : Nat) (d : Rat) : List Rat := (bank 10 worst 0).modify p (fun w => max w (absQ d))

/-- Close the elapsed interval: means, deviation and its bound (R65), the lead's own part of the worst deviation (R67), registers. -/
def Mod.closeInterval (m : Mod) : Mod :=
  let feed := m.ivMean 0
  let load := m.ivMean 1
  let d := feed - m.bwk.pdp
  let inScope := m.inRun && [2, 3, 4, 5].contains (m.get R.BWK_DP_STAT_DP_STATE) && !m.bwk.ivOvf && !m.bwk.ivEntry &&
    !m.bwk.ivSlew && !m.bwk.ivBreach && !m.bwk.breach && !m.is R.BWK_DP_STAT_ENTRY
  let bound : Rat := if m.bwk.ivLock && m.is R.TTB_STAT_LOCK then 2 else 10
  let m := (((m.putQ R.BWK_FEED_FEED_MEAN (feed * 10)).putQ R.BWK_STO_STO_MEAN (m.ivMean 2 * 10)).putU R.BWK_STO_SOC
    (m.soc * 2)).putQ R.BWK_DEV_DEV_LAST (d * 10)
  let m := m.flag R.BWK_DP_STAT_LOCKED (m.bwk.ivLock && m.is R.TTB_STAT_LOCK)
  let m := if inScope then m.put R.BWK_DEV_DEV_MAX (max (m.get R.BWK_DEV_DEV_MAX) (encU 16 (absQ d * 10))) else m
  let m := if inScope && decide (bound < absQ d) then
      ((m.bump R.BWK_DEV_CNT_COUNT).put R.BWK_EVT_DEV 1).raise 6 2 3 0 0
    else m
  { m with bwk.worst := if m.isLead then worseDev m.bwk.worst m.pos ((rna (d * 10) : Rat) / 10) else m.bwk.worst,
           bwk.loads := if m.inRun then (load :: m.bwk.loads).take 10000 else m.bwk.loads, bwk.loadMean := load,
           bwk.runMs := if m.inRun then m.bwk.runMs + 1 else 0,
           bwk.pole := m.bwk.pole.mapIdx (fun p x => { x with poutMean := m.ivMean (3 + p) }),
           bwk.sums := List.replicate 5 0, bwk.sumN := 0, bwk.ivOvf := m.bwk.ovf, bwk.ivSlew := false,
           bwk.ivEntry := m.is R.BWK_DP_STAT_ENTRY, bwk.ivLock := m.is R.TTB_STAT_LOCK, bwk.ivBreach := m.bwk.breach }

/-- P_TGT of the source (Table 02-2): frozen in HOLD; until a source first supplies it, the feed draw at RUN entry. -/
def Mod.planTarget (m : Mod) : Rat :=
  if m.is R.BWK_DP_STAT_HOLD then m.bwk.ptgt
  else if m.planSrc = 0 then
    if m.is R.TTB_STAT_LOCK then ((m.getI R.TTB_AVG_AVG : Rat) + m.getI R.TTB_AVG_LOSS) / 10
    else if m.bwk.loads = [] then m.bwk.ptgt else meanQ m.bwk.loads
  else m.bwk.tgt.getD m.bwk.ptgt

/-- P_SOC (R53). -/
def Mod.planSoc (m : Mod) : Rat :=
  let mx : Rat := (m.get R.BWK_SOC_GAIN_PSOC_MAX : Nat) / (10 : Rat)
  let k : Rat := (m.get R.BWK_SOC_GAIN_KSOC : Nat) / (10 : Rat)
  if m.is R.MOD_ROLE_STAT_ELECTING then m.bwk.psoc
  else if m.is R.BWK_DP_STAT_RESTORE then (if m.soc < m.socSet then mx else -mx)
  else if m.planSrc = 2 then 0
  else clampQ (-mx) mx (k * (m.socSet - m.soc))

/-- RESTORE (Table 02-4) with its SOC_SHORE condition. -/
def Mod.judgeRestore (m : Mod) : Mod :=
  let s := m.soc
  if s < m.socMin ∨ m.socMax < s then (m.put R.BWK_DP_STAT_RESTORE 1).condStart 6 2 0x0A 0 0
  else if m.socMin + 1 ≤ s ∧ s ≤ m.socMax - 1 then (m.put R.BWK_DP_STAT_RESTORE 0).condEnd 6 2 0x0A 0 0
  else m

/-- CAP_BREACH ends (R64). -/
def Mod.endBreach (m : Mod) : Mod :=
  if m.bwk.breach then (({ m with bwk.breach := false }).put R.BWK_DP_STAT_CAP_BREACH 0).condEnd 6 2 5 0 1 else m

/-- CAP_STAT of a boundary with CAPPED set (R63), and the breach of R64. -/
def Mod.judgeCap (m : Mod) : Mod :=
  if m.is R.BWK_DP_STAT_CAPPED then
    let sh := m.bwk.loadMean - (m.cEff : Rat) / 10
    let eav := m.eStk * max 0 (m.soc - m.socMin) / 100
    let gr : Nat := if sh ≤ 0 then 65535 else min 65535 (max 0 (rdn (eav / sh * 1000))).toNat
    let m := (m.putQ R.BWK_CAP_STAT_SHORT (sh * 10)).put R.BWK_CAP_STAT_GRACE gr
    if 0 < sh ∧ m.soc ≤ m.socMin then
      ((({ m with bwk.breach := true, bwk.ivBreach := true }).puts [(R.BWK_DP_STAT_CAP_BREACH, 1), (R.BWK_EVT_BREACH, 1),
        (R.BWK_DP_STAT_CAPPED, 0)]).condStart 6 2 5 0 1)
    else m
  else m

/-- The plan point moves (R52, R56, R61, R64). While an election runs it holds, and the shortfall is still judged (R28, R52, R63). In a breach
it goes to the ramp-limited target, and the feed command follows at S_CAP. -/
def Mod.movePlan (m : Mod) : Mod :=
  let tgt := m.planTarget
  let soc := m.planSoc
  let m := { m with bwk.ptgt := tgt, bwk.psoc := soc }
  let want := tgt + soc
  let old := m.bwk.pdp
  if m.is R.MOD_ROLE_STAT_ELECTING then ({ m with bwk.starFrom := m.bwk.star }).judgeCap
  else
    let lim := old + clampQ (-m.sRamp) m.sRamp (want - old)
    let c : Rat := (m.cEff : Rat) / 10
    let none := decide (m.cEff = 0xFFFF)
    let m := if m.bwk.breach && (none || decide (lim ≤ c)) then m.endBreach else m
    let capped := !none && decide (c < lim) && !m.bwk.breach
    let new := if capped then c else lim
    let m := { m with bwk.pdp := new, bwk.starFrom := m.bwk.star,
                      bwk.capDown := (capped && decide (new < old)) || (m.bwk.breach && decide (old < new)) ||
                        (m.bwk.capDown && m.bwk.star != new) }
    let m := m.flag R.BWK_DP_STAT_CAPPED capped
    let m := if capped || decide (absQ (want - new) ≤ 1 / 2) then m.put R.BWK_DP_STAT_ENTRY 0 else m
    m.judgeCap

/-- The follow term (R66): the bound moves by 0.08 kW per interval towards 0 with lock and FOL_MAX without. While an election runs the term
keeps its value, since the feed draw changes by droop alone (R28). -/
def Mod.moveFollow (m : Mod) : Mod :=
  let b := if m.is R.TTB_STAT_LOCK then max 0 (m.bwk.folBound - 8 / 100) else min m.folMax (m.bwk.folBound + 8 / 100)
  let f := if m.is R.MOD_ROLE_STAT_ELECTING then m.bwk.pfol
    else if m.is R.BWK_CFG_FOLLOW_EN then clampQ (-b) b ((m.bwk.loadMean - m.bwk.pdp) / 2) else 0
  (({ m with bwk.folBound := b, bwk.pfol := f }).putQ R.BWK_FEED_FOL (f * 10)).flag R.BWK_DP_STAT_FOLLOW
    (m.is R.BWK_CFG_FOLLOW_EN && decide (0 < b))

/-- The plan boundary of the breakwater; BWK_SHORE as written comes into force. -/
def Mod.planBoundary (m : Mod) : Mod :=
  let m := { m.closeInterval with bwk.shoreHi := clampN 40600 43500 (m.get R.BWK_SHORE_V_HI),
                                  bwk.shoreLo := clampN 36000 39400 (m.get R.BWK_SHORE_V_LO) }
  let m := m.puts [(R.BWK_DP_STAT_OVF_EBB, b2n (m.bwk.pole.any (fun x => decide (0 < x.iOvf)))),
    (R.BWK_DP_STAT_OVF_FLOOD, b2n (m.bwk.pole.any (fun x => decide (x.iOvf < 0))))]
  if m.inRun then
    let m := if m.exitJ.isSome then m else m.judgeRestore.movePlan.moveFollow
    let m := ((m.putQ R.BWK_PLAN_PLAN_PT (m.bwk.pdp * 10)).putQ R.BWK_PLAN_TARGET ((m.bwk.ptgt + m.bwk.psoc) * 10)).put
      R.BWK_SHARE_CAP_EFF m.cEff
    m.syncDp
  else m.put R.BWK_SHARE_CAP_EFF m.cEff

/-- A cap is accepted: it binds at the next plan boundary and ends CAP_BREACH (R60, R64). -/
def Mod.acceptHostCap (m : Mod) (v : Nat) : Mod := (m.put R.BWK_CAP_HOST_CAP v).endBreach

/-- A rack cap of a SHARE is accepted (R60, R62, R64). DESIGN CHOICE (log 32): the SHARE repeats its cap every 1 ms, and one of the value in
force is no new cap: it does not clear CAP_BREACH. -/
def Mod.acceptRackCap (m : Mod) (c : Nat) : Mod :=
  if c = m.get R.BWK_CAP_RACK_CAP then m else (m.put R.BWK_CAP_RACK_CAP c).endBreach

/-- A rack cap arrives: at once, or when ELECTING = 1 at the election's end (R62). -/
def Mod.takeRackCap (m : Mod) (c : Nat) : Mod :=
  if m.is R.MOD_ROLE_STAT_ELECTING then { m with bwk.rackWait := some c } else m.acceptRackCap c

/-- ELECTING rises or falls: HOLD follows, and the caps that came during the election are accepted at its end (R28, R52, R62). -/
def Mod.setElecting (m : Mod) (b : Bool) : Mod :=
  let m := m.flag R.MOD_ROLE_STAT_ELECTING b
  if b then m.enterHold
  else
    let m := match m.bwk.capWait with
      | none => m
      | some v => { m.acceptHostCap v with bwk.capWait := none }
    let m := match m.bwk.rackWait with
      | none => m
      | some v => { m.acceptRackCap v with bwk.rackWait := none }
    if m.planSrc = 0 then m.endHold else m

/-- What RUN entry sets in the breakwater (R43, R52, R58, R66, Table 02-4): the plan point and P_TGT at the measured feed draw,
ENTRY, the follow bound at FOL_MAX. -/
def Mod.breakwaterEntry (m : Mod) : Mod :=
  let f := m.bwk.feedNow
  let m := { m with bwk.pdp := f, bwk.star := f, bwk.starFrom := f, bwk.ptgt := f, bwk.psoc := 0, bwk.pfol := 0, bwk.tgt := none,
                    bwk.folBound := m.folMax, bwk.loads := [], bwk.runMs := 0, bwk.ovf := false, bwk.ovfClear := 0, bwk.capDown := false,
                    bwk.ivEntry := true, bwk.hostTick := m.time.ticks, bwk.shareTick := m.time.ticks,
                    bwk.pole := m.bwk.pole.map BPole.rest }
  ((m.puts [(R.BWK_DP_STAT_ENTRY, 1), (R.BWK_DP_STAT_HOLD, 0)]).flag R.BWK_DP_STAT_HOLD (m.is R.MOD_ROLE_STAT_ELECTING)).syncDp

/-! ## Commands -/

/-- OVERFLOW_CLEAR (R58, Table 02-4): 200 frames in a row without overflow end OVERFLOW; ENTRY is set, P_DP restarts from the
measured feed draw. -/
def execOverflowClear (s : State) : Out := onMod (fun m =>
  if m.bwk.ovf && decide (200 ≤ m.bwk.ovfClear) && m.inRun then
    let m := { m with bwk.ovf := false, bwk.pdp := m.bwk.feedNow, bwk.star := m.bwk.feedNow, bwk.starFrom := m.bwk.feedNow,
                      bwk.ivEntry := true }
    ((m.puts [(R.BWK_DP_STAT_ENTRY, 1), (R.BWK_DP_STAT_OVF_EBB, 0), (R.BWK_DP_STAT_OVF_FLOOD, 0)]).condEnd 6 2 4 0 0).syncDp
  else m) s

/-- BUS_SHORE (R48): a pole outside the shore limits for 10 frames in a row. -/
def execBusShore (p : Fin 2) (s : State) : Out := onMod (fun m =>
  if m.inRun && decide (10 ≤ (m.bp p).shoreRun) && !m.condOn 6 p 1 0 then
    ((m.put R.BWK_EVT_SHORE 1).pmbSet (pmbVout p) (if (m.bwk.shoreHi : Rat) / 100 < m.vBus p then 64 else 32)).condStart 6 p 1 0 1
  else m) s

/-- ENV_STALE_TIMEOUT (R43, R51): where the weave runs, a pole's observer outputs older than STALE_EFF put it on the fallback envelope. -/
def execEnvStaleTimeout (p : Fin 2) (s : State) : Out := onMod (fun m =>
  if m.coresRun && m.olderThan p m.staleEff && !m.bwk.stale.getD p false then
    let m := { m with bwk.stale := (bank 2 m.bwk.stale false).set p true }
    let m := (m.puts [(R.BWK_DP_STAT_ENV_STALE, 1), (R.BWK_EVT_STALE, 1)]).condStart 6 p 6 0 0
    (m.formEnv p).showEnv
  else m) s

/-- STO_OFF_TIMEOUT (R43, R51): where the weave runs, outputs older than OFF_EFF, or STO_HOLD not toggling, make the pole's envelope zero. -/
def execStoOffTimeout (p : Fin 2) (s : State) : Out := onMod (fun m =>
  if m.coresRun && (m.olderThan p m.offEff || !m.pins.stoHold) && !m.bwk.off.getD p false then
    let m := { m with bwk.off := (bank 2 m.bwk.off false).set p true }
    let m := (m.puts [(if p.val = 0 then R.BWK_DP_STAT_STO_OFF_P else R.BWK_DP_STAT_STO_OFF_N, 1), (R.BWK_EVT_STALE, 1)]).condStart
      6 p 7 0 1
    (m.formEnv p).showEnv
  else m) s

/-- A write of BWK_CAP_HOST. -/
def Mod.hostCapWrite (m : Mod) (v : Word) : Mod :=
  if m.is R.MOD_ROLE_STAT_ELECTING then { m with bwk.capWait := some (v.toNat % 65536) } else m.acceptHostCap (v.toNat % 65536)

/-- BWK_CAP_HOST_WRITE (R60, R62): the cap is accepted, or when ELECTING = 1 once the election ends. -/
def execBwkCapHostWrite (v : Word) (s : State) : Out := onMod (fun m =>
  m.guarded 0x6064 v.toNat (fun m => m.hostCapWrite v)) s

/-- DEV of BWK_CLR. -/
def Mod.clrDev (m : Mod) (dev : Bool) : Mod :=
  if dev then m.put R.BWK_DEV_DEV_MAX 0 else m

/-- BWK_CLR.DEV (Table 02-31): 1 sets DEV_MAX to 0. -/
def execBwkClrDev (dev : Bool) (s : State) : Out := onMod (fun m =>
  m.guarded 0x60C4 (b2n dev) (fun m => m.clrDev dev)) s

end Sys2Proof.Machine
end

