-- ==== Sys2Proof/Machine/TideTable.lean ====
section
/-!
DEFINITION. The tide table (R70 to R103): edge detector, cadence lock, slots, feed-forward, learning, step markers, loss table, and
the tide table's commands.
-/
namespace Sys2Proof.Machine

/-! ## Parameters (Tables 03-9 to 03-12) -/

/-- An RL field of the TTB page in force: RL fields take effect at lock; before it they act at their reset values. -/
def Mod.ttbField (m : Mod) (f : Fld) : Nat := if m.locked 7 then m.get f else bits (regReset f.addr).toNat f.lo f.w

/-- PER_TOL as a fraction. -/
def Mod.perTol (m : Mod) : Rat := (clampN 10 200 (m.ttbField R.TTB_PLL_CFG_PER_TOL) : Nat) / (10000 : Rat)

/-- FADE, frames. -/
def Mod.ttbFade (m : Mod) : Nat := max 20 (m.ttbField R.TTB_GUARD_FADE)

/-- The module's time in ticks: fleet time in LOCKED and HOLDOVER, else local (Table 08-2). -/
def Mod.nowTicks (m : Mod) : Nat := if 2 ≤ m.get R.TIM_STAT_STATE then m.fleetTicks else m.time.ticks

/-- An instant in ns as ticks. -/
def nsTicks (ns : Nat) : Rat := (ns : Rat) * 64 / 5

/-- Periods the PLL may follow: 50 ms to 60 s, in ticks (R73). -/
def periodOk (t : Rat) : Bool := decide (640000000 ≤ t) && decide (t ≤ 768000000000)

/-- One turn of θ (40 bits). -/
def turn : Nat := 2 ^ 40

/-- INC for a period in ticks: round(2⁴⁰ × 5 µs / T). -/
def incOf (t : Rat) : Nat := if t ≤ 0 then 0 else (rna ((turn : Rat) * 64000 / t)).toNat

/-- Active slot. -/
def Mod.tslot (m : Mod) : Nat := m.get R.TTB_STAT_SLOT

/-- A slot record. -/
def Mod.slotRec (m : Mod) (n : Nat) : TSlot := m.ttb.slots.getD n {}

/-- STATE of Table 03-1. -/
def Mod.tstate (m : Mod) : Nat := m.get R.TTB_STAT_STATE

/-- Show a slot in its registers (Tables 03-15, 03-21) and, when it is active, in TTB_STEP and READY. -/
def Mod.showSlot (m : Mod) (n : Nat) : Mod :=
  let x := m.slotRec n
  let m := m.puts [(R.TTB_SLOT_JOB_ID n, x.job), (R.TTB_SLOT_STEPS n, min 255 x.steps), (R.TTB_SLOT_VALID n, b2n x.valid),
    (R.TTB_SLOT_READY n, b2n x.ready), (R.TTB_SLOTPER_PERIOD_US n, (rna (x.period / 12800)).toNat),
    (R.TTB_FALL_FALL_POS n, x.fallPos), (R.TTB_FALL_FALL_VALID n, b2n x.fallValid)]
  if n = m.tslot then m.puts [(R.TTB_STEP_COUNT, x.steps), (R.TTB_STAT_READY, b2n x.ready)] else m

/-- Change a slot record. -/
def Mod.setSlot (m : Mod) (n : Nat) (f : TSlot → TSlot) : Mod :=
  ({ m with ttb.slots := (bank 4 m.ttb.slots {}).modify n f }).showSlot n

/-- A tide-table report, at most once per 10 s per kind (R103). -/
def Mod.ttbReport (m : Mod) (k : Nat) : Mod := m.raiseLim (10 * tickS) 7 0 k m.tslot 0

/-- Loss-table entry default: LOSS 1,311, COUNT 0 (R99). -/
def lossDflt (_ : Nat) : Nat := 1311

/-- A table entry (R82). -/
def Mod.tabEntry (m : Mod) (a : Nat) : Nat := Sparse.get (fun _ => 0) m.ttb.tab a

/-- LOAD of a pole in an entry, 1/32 A (Table 03-3). -/
def entryLoad (e p : Nat) : Int := sext 16 (bits e (16 * p) 16)

/-- Set the phase: STATE bits follow. -/
def Mod.setTState (m : Mod) (s : Nat) : Mod := m.puts [(R.TTB_STAT_STATE, s), (R.TTB_STAT_LOCK, b2n (s == 3 || s == 4))]

/-- Show T and INC. -/
def Mod.showPeriod (m : Mod) : Mod :=
  m.puts [(R.TTB_PERIOD_PERIOD_US, (rna (m.ttb.t / 12800)).toNat), (R.TTB_INC_INC, incOf m.ttb.t)]

/-! ## Feed-forward -/

/-- Forecast of a pole's load current at θ, A, interpolated between entries (R83). -/
def Mod.forecast (m : Mod) (p theta : Nat) : Rat :=
  let j := theta / 2 ^ 28 % 4096
  let w : Rat := (theta % 2 ^ 28 : Nat) / ((2 ^ 28 : Nat) : Rat)
  let a : Rat := entryLoad (m.tabEntry (m.tslot * 4096 + j)) p
  let b : Rat := entryLoad (m.tabEntry (m.tslot * 4096 + (j + 1) % 4096)) p
  (a + (b - a) * w) / 32

/-- The table feed-forward is active: LOCKED and READY (Table 03-1). -/
def Mod.ffOn (m : Mod) : Bool := m.tstate == 3 && m.is R.TTB_STAT_READY

/-- The unfaded table feed-forward of a pole (R83). -/
def Mod.tableFF (m : Mod) (p : Nat) : Rat :=
  let th := (m.ttb.theta + m.get R.BWK_CFG_FF_LEAD * incOf m.ttb.t) % turn
  m.forecast p th - divV ((m.bwk.star / 2 + m.bwk.pfol / 2) * 1000) (m.vBus p)

/-- Table part of i_FF of a pole: from the value at the last turn of the fade towards the table or towards zero (R81). -/
def Mod.tabFF (m : Mod) (p : Nat) : Rat :=
  m.ttb.hold.getD p 0 * (1 - m.ttb.fade) + (if m.ttb.fadeIn then m.tableFF p * m.ttb.fade else 0)

/-- The fade turns towards the table or towards zero, from the value it has reached (R81). -/
def Mod.turnFade (m : Mod) (on : Bool) : Mod :=
  if m.ttb.fadeIn == on then m else { m with ttb.fadeIn := on, ttb.fade := 0, ttb.hold := [m.tabFF 0, m.tabFF 1] }

/-- The feed-forward stops (R81). -/
def Mod.stopFF (m : Mod) : Mod := m.turnFade false

/-- The feed-forward starts where LOCKED and READY hold and no move to SEEK is due (R81). -/
def Mod.startFF (m : Mod) : Mod := if m.ffOn && !m.ttb.drop then m.turnFade true else m

/-- Value of a ramp at an instant. -/
def MkRamp.at_ (r : MkRamp) (at_ : Nat) : Rat :=
  if at_ ≤ r.start then 0 else if r.start + r.len ≤ at_ then r.delta else r.delta * ((at_ - r.start : Nat) : Rat) / (r.len : Rat)

/-- Value at an instant of a held step that falls to zero over 100 ms from tick `e.2` on. -/
def fallVal (at_ : Nat) (e : Rat × Nat) : Rat := e.1 * max 0 (1 - ((at_ - e.2 : Nat) : Rat) / ((100 * tickMs : Nat) : Rat))

/-- Marker step term at an instant, kW per pole (R93): the ramps begun so far and the steps that fall. -/
def Mod.mkTerm (m : Mod) (at_ : Nat) : Rat := sumQ (m.ttb.mkRamps.map (·.at_ at_)) + sumQ (m.ttb.mkFall.map (fallVal at_))

/-- The states that carry the marker step term (Table 03-1). -/
def Mod.mkOn (m : Mod) : Bool := m.tstate == 1 || m.tstate == 2 || (m.tstate == 3 && !m.is R.TTB_STAT_READY)

/-- The hold of a job's marker steps ends: what they have reached falls to zero over 100 ms (R93). -/
def Mod.endHoldOf (m : Mod) (job : Nat) : Mod :=
  let now := m.nowTicks
  let mine := fun (r : MkRamp) => r.job == job && decide (r.start ≤ now)
  let v := sumQ ((m.ttb.mkRamps.filter mine).map (·.at_ now))
  { m with ttb.mkRamps := m.ttb.mkRamps.filter (fun r => !mine r),
           ttb.mkFall := m.ttb.mkFall.filter (fun e => fallVal now e != 0) ++ (if v = 0 then [] else [(v, now)]) }

/-- i_FF of a pole (R81, R83, R93). -/
def Mod.iFF (m : Mod) (p : Nat) : Rat := m.tabFF p + divV (m.mkTerm m.nowTicks * 1000) (m.vBus p) * m.ttb.mkFade

/-- One frame of the fades and i_FF of both poles. The marker step term fades out over FADE frames when the table becomes active, after
which its ramps are done, and in SUSPECT and LULL, from which it comes back as it went. -/
def Mod.ffFrame (m : Mod) : Mod :=
  let n : Rat := 1 / (m.ttbFade : Rat)
  let m := { m with ttb.fade := min 1 (m.ttb.fade + n), ttb.mkFade := if m.mkOn then min 1 (m.ttb.mkFade + n) else max 0 (m.ttb.mkFade - n) }
  let m := if m.ffOn && m.ttb.mkFade == 0 then { m with ttb.mkRamps := [], ttb.mkFall := [] } else m
  let m := [0, 1].foldl (fun m p => let i := m.iFF p; m.setBp p (fun x => { x with iFF := i })) m
  m.puts [(R.TTB_STAT_FF_ACT, b2n (m.tabFF 0 != 0 || m.tabFF 1 != 0)), (R.TTB_STAT_MK_FF, b2n (m.mkTerm m.nowTicks * m.ttb.mkFade != 0))]

/-! ## Lock -/

/-- Longest run of consistent candidates of order q, newest first (R73): periods of q intervals, each within PER_TOL of the running
mean of its run. Answers the length (at most 8) and the mean. -/
def runOf (tol : Rat) (edges : List Rat) (q : Nat) : Nat × Rat :=
  let cand := (List.range 8).filterMap (fun i =>
    match edges[i * q]?, edges[(i + 1) * q]? with
    | some a, some b => some (a - b)
    | _, _ => none)
  let r := cand.foldl (fun (a : Bool × Nat × Rat) c =>
    if !a.1 || !periodOk c then (false, a.2)
    else if a.2.1 = 0 then (true, 1, c)
    else if absQ (c - a.2.2) ≤ tol * a.2.2 then (true, a.2.1 + 1, (a.2.2 * (a.2.1 : Rat) + c) / ((a.2.1 + 1 : Nat) : Rat))
    else (false, a.2)) (true, 0, 0)
  r.2

/-- The lowest order of 1 to 4 with the longest run: order, length, mean (R73). -/
def bestRun (tol : Rat) (edges : List Rat) : Nat × Nat × Rat :=
  [2, 3, 4].foldl (fun a q => if a.2.1 < (runOf tol edges q).1 then (q, runOf tol edges q) else a) (1, runOf tol edges 1)

/-- Begin the accumulation of a step (R85). -/
def Mod.beginStep (m : Mod) : Mod :=
  { m with ttb.acc := [], ttb.clean := m.tstate == 3, ttb.fallAt := none, ttb.eIn := 0, ttb.eOut := 0, ttb.socSum := 0, ttb.tempSum := 0,
           ttb.stepN := 0, ttb.eStk0 := m.eStk * m.soc / 100 }

/-- Lock is lost: SEEK, LOCK_LOST, counted where lock was held (Table 03-2); the report from SUSPECT and LULL (Table 03-7). -/
def Mod.loseLock (m : Mod) : Mod :=
  let old := m.tstate
  let m := m.stopFF
  let m := if old = 3 ∨ old = 4 then m.bump R.TTB_LOSS_CNT_COUNT else m
  let m := (m.setTState 1).puts [(R.TTB_EVT_LOCK_LOST, 1), (R.TTB_STAT_CONSIST, 0), (R.TTB_STAT_DIV, 0)]
  let m := { m with ttb.t := 0, ttb.clean := false, ttb.acc := [], ttb.div := [[], []], ttb.divLow := 0, ttb.bad := 0, ttb.outcome := none,
                    ttb.drop := false }
  if old = 4 ∨ old = 5 then m.showPeriod.ttbReport 1 else m.showPeriod

/-- A command, a job change or END calls for SEEK: the feed-forward stops, and the move is made at the next frame boundary (R79). -/
def Mod.dropLock (m : Mod) : Mod :=
  if m.tstate = 0 then m else { m.stopFF with ttb.drop := true, ttb.edges := [], ttb.marks := [] }

/-- Choose a slot for a job (R95): its own, for JOB_ID 0 the anonymous one near the period, an empty one, the least recently
active one. Answers also whether the slot matched. -/
def Mod.pickSlot (m : Mod) (job : Nat) (per : Rat) : Nat × Bool :=
  let near := fun (x : TSlot) => x.valid && x.job == job && (job != 0 || decide (absQ (x.period - per) ≤ 4 * m.perTol * per))
  match m.ttb.slots.findIdx? near with
  | some n => (n, true)
  | none =>
    match m.ttb.slots.findIdx? (fun x => !x.valid) with
    | some n => (n, false)
    | none => ((List.range 4).foldl (fun a n => if (m.slotRec n).used < (m.slotRec a).used then n else a) 0, false)

/-- Clear a slot: every entry 0, S = 0, READY = 0, FALL_VALID = 0 (R92, R95, R98); a step of it still being learned is dropped. -/
def Mod.clearSlot (m : Mod) (n : Nat) : Mod :=
  ({ m with ttb.tab := Sparse.keep (fun a => a / 4096 != n) m.ttb.tab,
            ttb.upd := m.ttb.upd.filter (fun u => u.slot.val != n) }).setSlot n (fun x => { used := x.used })

/-- Make a chosen slot active for a job; one that did not match is cleared first (R95). -/
def Mod.activateSlot (m : Mod) (s : Nat × Bool) (job : Nat) : Mod :=
  let m := if s.2 then m else m.clearSlot s.1
  let m := { m with ttb.useCnt := m.ttb.useCnt + 1, ttb.rej := 0 }
  let m := m.put R.TTB_STAT_SLOT s.1
  m.setSlot s.1 (fun x => { x with valid := true, job := job, used := m.ttb.useCnt })

/-- A job change (R95): EVT.JOB, JOB, and the move to SEEK. -/
def Mod.jobChange (m : Mod) (job : Nat) : Mod := ((m.put R.TTB_EVT_JOB 1).put R.TTB_JOB_JOB_ID job).dropLock

/-- Position in the step (0 to under 1) that θ has at an instant. -/
def Mod.posAt (m : Mod) (x : Rat) : Rat :=
  if m.ttb.t ≤ 0 then 0
  else
    let f := (m.ttb.theta : Rat) / (turn : Rat) - ((m.nowTicks : Rat) - x) / m.ttb.t
    f - (rdn f : Rat)

/-- Table entry at an instant. -/
def Mod.entryAt (m : Mod) (x : Rat) : Nat := (rdn (m.posAt x * 4096)).toNat % 4096

/-- Phase error in ticks of an instant at which θ was to pass position `pos`, the shorter way round the step (R75, R91). -/
def Mod.phaseErr (m : Mod) (pos x : Rat) : Rat :=
  let d := m.posAt x - pos
  (d - (rdn (d + 1 / 2) : Rat)) * m.ttb.t

/-- Show a phase error. -/
def Mod.showErr (m : Mod) (e : Rat) : Mod := m.putQ R.TTB_PHERR_ERR (e / 128)

/-- θ such that it equals a position at an instant (R91); an instant later in the frame puts it before that position. -/
def Mod.placeTheta (m : Mod) (t pos x : Rat) : Mod :=
  let f : Rat := if t ≤ 0 then 0 else ((m.nowTicks : Rat) - x) / t + pos
  { m with ttb.theta := (rdn (f * turn) % turn).toNat }

/-- LOCKED is entered with a period and the phase at 0 at instant `x` (R74, R96). `whole`: the step that begins there lies whole in LOCKED
(R85), which is so where a marker's instant in the running frame enters it. -/
def Mod.enterLocked (m : Mod) (t x : Rat) (whole : Bool) : Mod :=
  let m := m.placeTheta t 0 x
  let m := { m with ttb.t := t, ttb.lastRef := x, ttb.refSeen := true, ttb.refDet := !whole, ttb.preT := t, ttb.preZero := x,
                                     ttb.edges := [], ttb.nEdge := 0, ttb.bad := 0, ttb.outcome := none }
  let m := ((m.setTState 3).put R.TTB_EVT_LOCK_GAIN 1).bump R.TTB_LOCK_CNT_COUNT
  let m := m.showPeriod
  let m := if (m.slotRec m.tslot).valid then m else m.activateSlot (m.tslot, false) (m.get R.TTB_JOB_JOB_ID)
  { m.beginStep.startFF with ttb.clean := whole }

/-- The outcome of a period (Table 03-2): one out of tolerance makes SUSPECT, the second in a row loses lock. -/
def Mod.judgePeriod (m : Mod) (ok : Bool) : Mod :=
  let n := if ok then 0 else m.ttb.bad + 1
  let m := { m with ttb.bad := n }
  let m :=
    if m.tstate = 3 then
      if ok then m else ((m.setTState 4).put R.TTB_EVT_SUSPECT 1).stopFF
    else if m.tstate = 4 then
      if ok then (if m.is R.TTB_STAT_DIV then m else (m.setTState 3).startFF)
      else if 2 ≤ n then m.loseLock else m
    else m
  if m.tstate = 4 ∧ !periodOk m.ttb.t then m.loseLock else m

/-- Moves whose trigger is known take effect at the frame boundary (R79). -/
def Mod.settle (m : Mod) : Mod :=
  if m.ttb.drop then m.loseLock
  else
    match m.ttb.outcome with
    | none => m
    | some ok => ({ m with ttb.outcome := none }).judgePeriod ok

/-! ## Learning (R84 to R87, R92, R99 to R101) -/

/-- λ = 2^−FORGET. -/
def Mod.lamMin (m : Mod) : Rat := 1 / ((2 ^ clampN 2 10 (m.ttbField R.TTB_CFG_FORGET) : Nat) : Rat)

/-- Residuals of an entry, 1/32 A, by its accumulators. -/
def residual (e : Nat) (a : TAcc) : Rat × Rat :=
  (a.p / (a.n : Rat) * 32 - entryLoad e 0, a.q / (a.n : Rat) * 32 - entryLoad e 1)

/-- Larger magnitude of the two residuals. -/
def maxRes (r : Rat × Rat) : Rat := max (absQ r.1) (absQ r.2)

/-- Outlier test of an entry (R85); an entry no step has updated yet is none. -/
def isOutlier (k : Nat) (e : Nat) (a : TAcc) : Bool :=
  bits e 48 8 != 0 && decide ((k : Rat) * max (bits e 32 16 : Nat) 64 < maxRes (residual e a))

/-- Update of one entry (R85). -/
def learnEntry (k : Nat) (relearn : Bool) (lam : Rat) (e : Nat) (a : TAcc) : Nat :=
  if a.n = 0 then e
  else if !relearn && isOutlier k e a then setBit e 56 true
  else
    let r := residual e a
    let lp := clampI (-32768) 32767 (entryLoad e 0 + rna (lam * r.1))
    let ln := clampI (-32768) 32767 (entryLoad e 1 + rna (lam * r.2))
    let sp : Rat := (bits e 32 16 : Nat)
    let s := encU 16 (sp + lam * (maxRes r - sp))
    enc 16 lp + enc 16 ln * 2 ^ 16 + s * 2 ^ 32 + min 255 (bits e 48 8 + 1) * 2 ^ 48

/-- OUT_K and OUT_FRAC with their clamps. -/
def Mod.outK (m : Mod) : Nat := clampN 2 15 (m.ttbField R.TTB_CFG_OUT_K)
def Mod.outFrac (m : Mod) : Nat := clampN 5 100 (m.ttbField R.TTB_CFG_OUT_FRAC)

/-- Update up to `n` entries of the closed step in index order (R87). -/
def Mod.learnSome (m : Mod) (n : Nat) : Mod :=
  match m.ttb.upd with
  | none => m
  | some u =>
    let k := m.outK
    let tab := (List.range n).foldl (fun t i =>
      let j := u.next + i
      if j < 4096 then
        let a := u.slot.val * 4096 + j
        Sparse.set (fun _ => 0) t a (learnEntry k u.relearn u.lam (Sparse.get (fun _ => 0) t a) (Sparse.get (fun _ => {}) u.acc j))
      else t) m.ttb.tab
    { m with ttb.tab := tab, ttb.upd := some { u with next := min 4096 (u.next + n) } }

/-- Fall position of a learned step (R92). -/
def Mod.learnFall (m : Mod) (lam : Rat) : Mod :=
  match m.ttb.fallAt with
  | none => m
  | some p =>
    m.setSlot m.tslot (fun x =>
      if x.fallValid then
        let d := (p + 4096 - x.fallPos) % 4096
        let d : Int := if d ≤ 2048 then d else (d : Int) - 4096
        { x with fallPos := (rna ((x.fallPos : Rat) + lam * d) % 4096).toNat }
      else { x with fallPos := p % 4096, fallValid := true })

/-- Loss-table bin of an SOC (%) and a temperature (°C) (R99). -/
def lossBin (soc temp : Rat) : Nat :=
  (clampI 0 15 (rdn ((temp + 10) / 5))).toNat * 64 + (clampI 0 63 (rdn (soc * 64 / 100))).toNat

/-- Loss learning of a learned step (R100). -/
def Mod.learnLoss (m : Mod) : Mod :=
  let s := m.ttb.eIn + m.ttb.eOut
  if m.is R.TTB_CFG_LOSS_LEARN && decide (1 ≤ s) && decide (0 < m.ttb.stepN) then
    let dE := m.eStk * m.soc / 100 - m.ttb.eStk0
    let l := (m.ttb.eIn - m.ttb.eOut - dE) / s
    if l < 0 ∨ 1 / 5 < l then m.ttbReport 7
    else
      let n : Rat := (m.ttb.stepN : Rat)
      let b := lossBin (m.ttb.socSum / n) (m.ttb.tempSum / n)
      let e := Sparse.get lossDflt m.ttb.loss b
      let v : Rat := (e % 65536 : Nat)
      { m with ttb.loss := Sparse.set lossDflt m.ttb.loss b (encU 16 (v + (l * 65536 - v) / 64) + min 255 (bits e 16 8 + 1) * 65536) }
  else m

/-- Mean cell temperature, °C, by the observers. -/
def Mod.meanTemp (m : Mod) : Rat :=
  match m.profile with
  | none => 25
  | some pr => meanQ ([0, 1].flatMap (fun r => (List.range pr.cells).map (fun i => (m.cellObs (r * 512 + i)).tc)))

/-- LOSS at an SOC and a temperature, interpolated between bin centres (R101). -/
def Mod.lossAt (m : Mod) (soc temp : Rat) : Rat :=
  let x := clampQ 0 63 (soc * 64 / 100 - 1 / 2)
  let y := clampQ 0 15 ((temp + 10) / 5 - 1 / 2)
  let i := (rdn x).toNat
  let j := (rdn y).toNat
  let v := fun (j i : Nat) => ((Sparse.get lossDflt m.ttb.loss (min 15 j * 64 + min 63 i) % 65536 : Nat) : Rat) / 65536
  let fx := x - (i : Rat)
  let fy := y - (j : Rat)
  (v j i * (1 - fx) + v j (i + 1) * fx) * (1 - fy) + (v (j + 1) i * (1 - fx) + v (j + 1) (i + 1) * fx) * fy

/-- Forecast load of an entry of the active slot, kW. -/
def Mod.entryKw (m : Mod) (j : Nat) : Rat :=
  let e := m.tabEntry (m.tslot * 4096 + j)
  m.vNom * ((entryLoad e 0 + entryLoad e 1 : Int) : Rat) / 32000

/-- P_LOSS (R101). -/
def Mod.stepLoss (m : Mod) : Mod :=
  let loss := m.lossAt m.soc m.meanTemp * (sumQ ((List.range 4096).map (fun j => absQ (m.entryKw j - m.bwk.pdp))) / 4096)
  ({ m with ttb.ploss := loss }).putQ R.TTB_AVG_LOSS (loss * 10)

/-- P̂_STEP and P_LOSS (R84, R101). -/
def Mod.stepAverages (m : Mod) : Mod :=
  (m.putQ R.TTB_AVG_AVG (sumQ ((List.range 4096).map m.entryKw) / 4096 * 10)).stepLoss

/-- P_LOSS is recomputed at each change of SOC bin, where a slot holds a forecast (R101). -/
def Mod.socBinFrame (m : Mod) : Mod :=
  let b := (clampI 0 63 (rdn (m.soc * 64 / 100))).toNat
  if b = m.ttb.socBin then m
  else
    let m := { m with ttb.socBin := b }
    if (m.slotRec m.tslot).valid then m.stepLoss else m

/-- Close the step at a reference edge (R85, R86). -/
def Mod.closeStep (m : Mod) (ok : Bool) : Mod :=
  if m.ttb.clean && ok && m.tstate == 3 then
    let k := m.outK
    let relearn := decide (max 1 (m.ttbField R.TTB_CFG_REJ_MAX) ≤ m.ttb.rej)
    let outs := ((List.range 4096).filter (fun j =>
      let a := Sparse.get (fun _ => {}) m.ttb.acc j
      a.n != 0 && isOutlier k (m.tabEntry (m.tslot * 4096 + j)) a)).length
    if !relearn && decide (m.outFrac * 4096 < outs * 100) then
      ((({ m with ttb.rej := m.ttb.rej + 1 }).bump R.TTB_REJ_CNT_COUNT).put R.TTB_EVT_REJ 1).ttbReport 2
    else
      let s := (m.slotRec m.tslot).steps + 1
      let lam : Rat := if relearn then 1 / 2 else max m.lamMin (1 / (s : Rat))
      let m := if relearn then (m.put R.TTB_EVT_RELEARN 1).ttbReport 3 else m.bumpBy R.TTB_OUT_CNT_COUNT.addr outs
      let m := { m with ttb.rej := 0, ttb.upd := some { acc := m.ttb.acc, lam := lam, relearn := relearn, slot := Fin.ofNat 4 m.tslot, per := m.ttb.t } }
      (m.learnFall lam).learnLoss
  else m

/-! ## Edges -/

/-- Bounds of KA and KB as gains. -/
def Mod.gainA (m : Mod) : Rat := ((2 ^ clampN 0 8 (m.ttbField R.TTB_PLL_CFG_KA) : Nat) : Rat)
def Mod.gainB (m : Mod) : Rat := ((2 ^ clampN 1 12 (m.ttbField R.TTB_PLL_CFG_KB) : Nat) : Rat)

/-- θ moved by a part of a period. -/
def Mod.moveTheta (m : Mod) (part : Rat) : Nat := (((m.ttb.theta : Int) + rna (part * turn)) % turn).toNat

/-- A reference edge in LOCKED or SUSPECT (R75, R76): phase error, corrections, the closed step, the outcome of the period, which acts at the
frame boundary (R79). The step that begins is whole in LOCKED only where LOCKED is held already (R85). -/
def Mod.trackEdge (m : Mod) (x : Rat) (marker : Bool) : Mod :=
  let t := m.ttb.t
  let e := m.phaseErr 0 x
  let ok := decide (absQ e ≤ m.perTol * t)
  let m := (m.showErr e).closeStep ok
  let m := { m with ttb.theta := m.moveTheta (e / t / m.gainA), ttb.t := t + e / m.gainB, ttb.lastRef := x, ttb.refSeen := true, ttb.nEdge := 0,
                    ttb.refDet := !marker, ttb.preT := t, ttb.preZero := x - e, ttb.outcome := some ok }
  m.showPeriod.beginStep

/-- A marker instant replaces the detected edge just tracked (R72): its phase error and corrections in place of that edge's. -/
def Mod.replaceEdge (m : Mod) (x : Rat) : Mod :=
  let e := x - m.ttb.preZero
  let m := (m.showErr e)
  ({ m with ttb.theta := m.moveTheta ((x - m.ttb.lastRef) / m.ttb.preT / m.gainA), ttb.t := m.ttb.preT + e / m.gainB, ttb.lastRef := x,
            ttb.refDet := false }).showPeriod

/-- Insert an instant into a list, newest first. -/
def insertEdge (x : Rat) : List Rat → List Rat
  | [] => [x]
  | y :: ys => if y ≤ x then x :: y :: ys else y :: insertEdge x ys

/-- An edge while no lock is held (R72, R73): a marker replaces the detected edges within the tolerance of it, and a detected edge within
that of a marker is not counted again. The tolerance is ±PER_TOL of T_run, of the shortest period where no run stands. -/
def Mod.pushEdge (m : Mod) (x : Rat) (marker : Bool) : Mod :=
  let r := (bestRun m.perTol m.ttb.edges).2
  let tol := m.perTol * (if r.1 = 0 then 640000000 else r.2)
  let near := fun (y : Rat) => decide (absQ (x - y) ≤ tol)
  if marker then
    { m with ttb.edges := (insertEdge x (m.ttb.edges.filter (fun y => m.ttb.marks.contains y || !near y))).take 33,
             ttb.marks := (x :: m.ttb.marks).take 33 }
  else if m.ttb.marks.any near then m
  else { m with ttb.edges := (insertEdge x m.ttb.edges).take 33 }

/-- SEEK and ACQUIRE at a frame boundary (R73, R74, R79): ORDER and CONSIST; ACQUIRE from 2, LOCKED from 8 consistent periods; a relock far
from the active slot's period is a job change (R95). -/
def Mod.seekFrame (m : Mod) : Mod :=
  let (q, n, t) := bestRun m.perTol m.ttb.edges
  let m := m.puts [(R.TTB_STAT_ORDER, q), (R.TTB_STAT_CONSIST, n)]
  if 8 ≤ n then
    let x0 := m.slotRec m.tslot
    let far := x0.valid && decide (x0.period ≠ 0) && decide (4 * m.perTol * x0.period < absQ (t - x0.period))
    let job := m.get R.TTB_JOB_JOB_ID
    let m := if far then (m.put R.TTB_EVT_JOB 1).activateSlot (m.pickSlot job t) job else m
    m.enterLocked t (m.ttb.edges.headD m.nowTicks) false
  else if 2 ≤ n ∧ m.tstate = 1 then m.setTState 2
  else if n < 2 ∧ m.tstate = 2 then m.setTState 1
  else m

/-- A detected edge in LOCKED or SUSPECT (R72, R77): one that a marker stands for is not counted; one within the blanking is ignored; later
ones are tracked when they are the expected reference edge: in tolerance of θ passing 0, or early, as the q-th edge since the last. -/
def Mod.detectedEdge (m : Mod) (x : Rat) : Mod :=
  let tol := m.perTol * m.ttb.t
  let blank : Rat := (clampN 50 90 (m.ttbField R.TTB_PLL_CFG_BLANK_PCT) : Nat) / (100 : Rat) * m.ttb.t
  if m.ttb.marks.any (fun y => decide (absQ (x - y) ≤ tol)) then m
  else
    let n := m.ttb.nEdge + 1
    let m := { m with ttb.nEdge := n }
    let e := m.phaseErr 0 x
    let due := decide (e ≤ tol) && (decide (-tol ≤ e) || decide (m.get R.TTB_STAT_ORDER ≤ n))
    if x - m.ttb.lastRef ≤ blank ∨ !due then m else m.trackEdge x false

/-- A marker's edge in LOCKED or SUSPECT (R72, R75): it replaces the detected edge within the tolerance that was tracked for it. -/
def Mod.markerEdge (m : Mod) (x : Rat) : Mod :=
  let m := { m with ttb.marks := (x :: m.ttb.marks).take 33 }
  if absQ (x - m.ttb.lastRef) ≤ m.perTol * m.ttb.t then (if m.ttb.refDet then m.replaceEdge x else m) else m.trackEdge x true

/-- An edge instant, detected or by a REF marker (R72, R73, R75, R77). -/
def Mod.refEdge (m : Mod) (x : Rat) (marker : Bool) : Mod :=
  if m.tstate = 1 ∨ m.tstate = 2 ∨ (m.ttb.drop && m.tstate != 0) then m.pushEdge x marker
  else if m.tstate = 3 ∨ m.tstate = 4 then (if marker then m.markerEdge x else m.detectedEdge x)
  else m

/-- Edge detector of the frame (R71): running mean, envelopes, crossings to 1/16 frame. Answers the rising and falling instants. DESIGN
CHOICE (log 38): the first frame after OFF sets both envelopes to its load, and until the fourth the mean is over the frames there are. -/
def Mod.edgeFrame (m : Mod) : Mod × Option Rat × Option Rat :=
  let l4 := (m.loadP :: m.ttb.last4).take 4
  let f := meanQ l4
  let dec : Rat := 1 / 2000
  let hi := if m.ttb.last4 = [] then f else max f (m.ttb.pHi - dec)
  let lo := if m.ttb.last4 = [] then f else min f (m.ttb.pLo + dec)
  let mid := (hi + lo) / 2
  let h := (hi - lo) / 8
  let prev := m.ttb.prevLoad
  let big := decide (((max 1 (m.ttbField R.TTB_PLL_CFG_EDGE_MIN) : Nat) : Rat) / 2 ≤ hi - lo)
  let at_ := fun (lvl : Rat) =>
    (m.nowTicks : Rat) - 64000 + (rna (16 * (if f = prev then 1 else (lvl - prev) / (f - prev))) : Rat) * 4000
  let rise := big && m.ttb.below && decide (prev ≤ mid + h) && decide (mid + h < f) && decide (m.ttb.last4 ≠ [])
  let fall := big && m.ttb.above && decide (mid - h ≤ prev) && decide (f < mid - h) && decide (m.ttb.last4 ≠ [])
  ({ m with ttb.last4 := l4, ttb.pHi := hi, ttb.pLo := lo, ttb.prevLoad := f,
            ttb.below := (m.ttb.below && !rise) || decide (f < mid - h),
            ttb.above := (m.ttb.above && !fall) || decide (mid + h < f) },
    if rise then some (at_ (mid + h)) else none, if fall then some (at_ (mid - h)) else none)

/-- The divergence guard (R80), judged in LOCKED from the first step that the slot has learned: before it the table holds no forecast (log 38). -/
def Mod.divFrame (m : Mod) : Mod :=
  let a : Rat := (max 1 (m.ttbField R.TTB_GUARD_DIV_A) : Nat)
  let d := [0, 1].map (fun p => ((absQ (m.iLoad p - m.forecast p m.ttb.theta)) :: m.ttb.div.getD p []).take 16)
  let m := { m with ttb.div := d }
  let means := d.map meanQ
  let full := d.all (fun l => l.length == 16)
  if m.tstate == 3 && decide (1 ≤ (m.slotRec m.tslot).steps) && full && means.any (fun x => decide (a < x)) then
    let m := { m with ttb.divLow := 0, ttb.divSince := m.nowTicks }
    (((m.setTState 4).puts [(R.TTB_STAT_DIV, 1), (R.TTB_EVT_SUSPECT, 1)])).stopFF
  else if m.is R.TTB_STAT_DIV then
    let low := means.all (fun x => decide (x < a / 2))
    let m := { m with ttb.divLow := if low then m.ttb.divLow + 1 else 0 }
    if 16 ≤ m.ttb.divLow then m.put R.TTB_STAT_DIV 0
    else if m.tstate = 4 ∧ 2 * m.ttb.t < ((m.nowTicks - m.ttb.divSince : Nat) : Rat) then m.loseLock
    else m
  else m

/-- Bus-side storage power of the frame, kW, positive in ebb: V_bus × (i_L − the feed phases' secondary currents). -/
def Mod.busSto (m : Mod) : Rat :=
  let sec := fun (p : Nat) => sumQ ((convPhases (2 + p)).map (fun n => m.chanMean (n + 16)))
  (m.vBus 0 * (m.iLoad 0 - sec 0) + m.vBus 1 * (m.iLoad 1 - sec 1)) / 1000

/-- Accumulate the frame in the running step (R85, R100). -/
def Mod.accFrame (m : Mod) : Mod :=
  let inc := incOf m.ttb.t
  let j := ((m.ttb.theta + turn - inc / 2) + 2 ^ 27) % turn / 2 ^ 28
  let a := Sparse.get (fun _ => ({} : TAcc)) m.ttb.acc j
  let s := m.busSto * (5 / 1000000)
  { m with ttb.acc := Sparse.set (fun _ => {}) m.ttb.acc j { n := a.n + 1, p := a.p + m.iLoad 0, q := a.q + m.iLoad 1 },
           ttb.eIn := m.ttb.eIn + max 0 (-s), ttb.eOut := m.ttb.eOut + max 0 s, ttb.socSum := m.ttb.socSum + m.soc,
           ttb.tempSum := m.ttb.tempSum + m.meanTemp, ttb.stepN := m.ttb.stepN + 1 }

/-- One frame of the tide table in RUN with EN = 1; else STATE is OFF (R70). -/
def Mod.tideFrame (m : Mod) : Mod :=
  if !m.inRun || m.ttbField R.TTB_CFG_EN == 0 then (if m.tstate = 0 then m else m.ttbOff)
  else
    let m := (if m.tstate = 0 then m.setTState 1 else m).settle
    let m := m.learnSome 32
    let (m, rise, fall) := m.edgeFrame
    let old := m.ttb.theta
    let m := if m.ttb.t ≤ 0 then m else
      let th := (old + incOf m.ttb.t) % turn
      let near := decide (absQ ((m.nowTicks : Rat) - m.ttb.lastRef) * 2 < m.ttb.t)
      { m with ttb.theta := th, ttb.refSeen := if old ≤ th then m.ttb.refSeen else near }
    let m := match rise with
      | none => m
      | some x => m.refEdge x false
    let m := (if m.tstate = 1 ∨ m.tstate = 2 then m.seekFrame else m).settle
    let m := match fall with
      | none => m
      | some x => if m.ttb.fallAt.isNone && (m.tstate == 3) then { m with ttb.fallAt := some (m.entryAt x) } else m
    let m := if m.tstate = 3 then m.accFrame else { m with ttb.clean := false }
    let m := if m.tstate = 3 ∨ m.tstate = 4 then m.divFrame else m
    m.socBinFrame.ffFrame.shows [(R.TTB_PHASE_THETA, m.ttb.theta / 256)]

/-! ## Markers (R88 to R97) -/

/-- Read a marker (Table 03-4). -/
def markerOf (b : List Nat) : Marker :=
  { flags := b.getD 1 0, job := le b 2 2, step := le b 4 4, edgeT := le b 8 8, kind := b.getD 16 0, pos := le b 18 2,
    delta := sext 16 (le b 20 2), dur := le b 22 2, period := le b 24 4 }

/-- R88: a marker the module rejects. DESIGN CHOICE (log 58): a POS above 4,095 and a reserved FLAGS bit other than 0, which Table 03-4 rules
out and R88 does not list, are rejected too. -/
def markerBad (b : List Nat) : Bool :=
  let k := markerOf b
  b.length != 32 || b.getD 0 0 != 0x31 || decide (4 < k.kind) || (k.pos != 0 && k.kind != 2) || decide (4095 < k.pos) ||
    b.getD 17 0 != 0 || le b 28 4 != 0 || decide (8 ≤ k.flags) || (k.period != 0 && decide (k.period < 50000 ∨ 60000000 < k.period))

/-- Count of healthy modules of MOD_ROLE_STAT.PEERS, at least 1. -/
def Mod.nHealthy (m : Mod) : Nat :=
  max 1 ((List.range 10).filter (fun n => bit (m.get R.MOD_ROLE_STAT_PEERS) n)).length

/-- Disposition of Table 03-5 for a lead time in ns. -/
def Mod.markerDisp (m : Mod) (lead : Int) : Nat :=
  let t : Int := if m.ttb.t ≤ 0 then 60000000000 else rna (m.ttb.t * 5 / 64)
  if !m.timeValid then 4
  else if lead < -t ∨ 60000000000 < lead then 3
  else if lead < 250000 then 2
  else if 16 ≤ m.ttb.mks.length then 4
  else if m.ffOn then 0 else 1

/-- MK_PEND follows the waiting markers. -/
def Mod.showMarkers (m : Mod) : Mod :=
  m.puts [(R.TTB_STAT_MK_PEND, m.ttb.mks.length),
    (R.STK_STAT_ARMED, (m.stk.recs.filter (fun (e : Nat × List Nat) => e.2.getD 2 0 % 8 == 1)).length + m.ttb.mks.length)]

/-- The lull begins (R97). -/
def Mod.enterLull (m : Mod) : Mod :=
  if m.tstate = 3 ∨ m.tstate = 4 then
    { ((m.stopFF).setTState 5) with ttb.lullTick := m.nowTicks, ttb.clean := false, ttb.outcome := none, ttb.bad := 0 }
  else m

/-- LULL_MAX in ticks. -/
def Mod.lullMax (m : Mod) : Nat := max 1 (m.ttbField R.TTB_LULL_LULL_MAX) * tickS

/-- RESUME within LULL_MAX: θ = 0 at the instant, LOCKED again (R97). -/
def Mod.resumeLull (m : Mod) (x : Rat) : Mod :=
  if m.tstate = 5 ∧ m.nowTicks ≤ m.ttb.lullTick + m.lullMax then
    let whole := decide ((m.nowTicks : Rat) ≤ x)
    let m := (m.showErr (m.phaseErr 0 x)).placeTheta m.ttb.t 0 x
    let m := ({ m with ttb.lastRef := x, ttb.refSeen := true, ttb.refDet := false, ttb.nEdge := 0 }).setTState 3
    { m.beginStep.startFF with ttb.clean := whole }
  else m

/-- A job stops (R97): fade-out, SEEK at the frame boundary, the slot keeps its contents. -/
def Mod.endJob (m : Mod) : Mod := m.dropLock

/-- Phase reset to a position at an instant (R91). -/
def Mod.resetPhase (m : Mod) (pos x : Rat) : Mod :=
  if (m.tstate = 3 ∨ m.tstate = 4) ∧ 0 < m.ttb.t then m.placeTheta m.ttb.t pos x else m

/-- A mark that is no reference edge: the phase error is measured and the phase reset at the same instant (R91). -/
def Mod.markPhase (m : Mod) (pos x : Rat) : Mod :=
  if (m.tstate = 3 ∨ m.tstate = 4) ∧ 0 < m.ttb.t then (m.showErr (m.phaseErr pos x)).placeTheta m.ttb.t pos x else m

/-- An entry index as a position. -/
def entryPos (n : Nat) : Rat := (n : Rat) / 4096

/-- The main falling edge of the running step, by a FALL marker (R92). -/
def Mod.noteFall (m : Mod) (x : Rat) : Mod := if m.tstate = 3 then { m with ttb.fallAt := some (m.entryAt x) } else m

/-- The marker arms the step term (R93). -/
def Mod.armsStep (m : Mod) (k : Marker) (d : Nat) : Bool := d == 1 && (m.ttbField R.TTB_CFG_MK_FF_EN != 0) && k.delta != 0

/-- A waiting marker's instant: its stake has fired (R91 to R93, R95 to R97). The next marker of a job ends the hold of its earlier steps;
one that arms no step of its own lets them fall (DESIGN CHOICE, log 58: over the 100 ms that follow MK_HOLD). -/
def Mod.fireMarker (m : Mod) (stake : Nat) : Mod :=
  match m.ttb.mks.find? (fun w => w.stake == stake) with
  | none => m
  | some w =>
    let k := w.mrk
    let x := nsTicks k.edgeT
    let m := ({ m with ttb.mks := m.ttb.mks.filter (fun w => w.stake != stake) }).showMarkers
    let m := if m.armsStep k w.disp then m else m.endHoldOf k.job
    let m := match w.slot with
      | none => m
      | some n => m.activateSlot n k.job
    if bit k.flags 2 then m.endJob
    else
      match k.kind with
      | 0 =>
        let sl := m.slotRec m.tslot
        if (m.tstate = 1 ∨ m.tstate = 2) ∧ !m.ttb.drop ∧ sl.ready ∧ k.period ≠ 0 ∧
            absQ ((k.period : Rat) * 12800 - sl.period) ≤ m.perTol * sl.period then m.enterLocked sl.period x (decide ((m.nowTicks : Rat) ≤ x))
        else (m.refEdge x true).resetPhase 0 x
      | 1 =>
        let sl := m.slotRec m.tslot
        let m := m.noteFall x
        if sl.fallValid then m.markPhase (entryPos sl.fallPos) x else m
      | 2 => m.markPhase (entryPos k.pos) x
      | 3 => m.enterLull
      | _ => if m.tstate = 5 then m.resumeLull x else (m.refEdge x true).resetPhase 0 x

/-- A marker of disposition 2 acts at arrival (Table 03-5). DESIGN CHOICE (log 58): END, of which the table does not speak, stops the job
then. -/
def Mod.lateMarker (m : Mod) (k : Marker) : Mod :=
  let x := nsTicks k.edgeT
  if bit k.flags 2 then m.endJob
  else match k.kind with
    | 0 => m.refEdge x true
    | 1 => m.noteFall x
    | 3 => m.enterLull
    | 4 => if m.tstate = 5 then m.resumeLull x else m.refEdge x true
    | _ => m

/-- The marker step term is armed (R93); one armed where none stands starts at full weight. -/
def Mod.armStep (m : Mod) (k : Marker) : Mod :=
  let start := (rna (nsTicks k.edgeT)).toNat - m.get R.BWK_CFG_FF_LEAD * 64000
  let len := (if k.dur = 0 then 1000 else k.dur) * tickUs
  let full := m.ttb.mkRamps == [] && m.ttb.mkFall == [] && (m.mkOn || m.ttb.drop)
  { m with ttb.mkRamps := m.ttb.mkRamps ++ [⟨k.job, (k.delta : Rat) / (2 * (m.nHealthy : Rat)), start, len⟩],
           ttb.mkFade := if full then 1 else m.ttb.mkFade }

/-- A free tide-table stake, 8,176 to 8,191 (R91). -/
def Mod.freeMkStake (m : Mod) : Nat :=
  (((List.range 16).map (· + 8176)).find? (fun n => !m.ttb.mks.any (fun w => w.stake == n))).getD 8176

/-- A marker is judged and disposed of (R88, R90, R94, R95). DESIGN CHOICE (log 58): the last 64 markers are remembered for the test of
duplicates, for which R94 gives no depth; a marker changes the job and selects a slot in OFF as in the other states, of which R95 does
not speak. -/
def Mod.takeMarker (m : Mod) (b : List Nat) : Mod :=
  if markerBad b then (m.bump R.TTB_MKX_CNT_COUNT).ttbReport 4
  else
    let k := markerOf b
    if m.timeValid && m.ttb.seen.contains (k.job, k.step, k.kind) then m.bump R.TTB_MKL_CNT_COUNT
    else
      let lead : Int := (k.edgeT : Int) - m.nowNs
      let d := m.markerDisp lead
      let m := (m.putI R.TTB_MK_LAST_LEAD (clampI (-(2 ^ 31 - 1)) (2 ^ 31 - 1) (lead / 1000))).puts
        [(R.TTB_MK_USE_DISP, d), (R.TTB_MK_USE_KIND, k.kind), (R.TTB_MK_USE_JOB_ID, k.job)]
      if 3 ≤ d then ((m.bump R.TTB_MKX_CNT_COUNT).put R.TTB_EVT_MK_DROP 1).ttbReport (if d = 3 then 5 else 6)
      else
        let m := { m with ttb.seen := ((k.job, k.step, k.kind) :: m.ttb.seen).take 64 }
        let m := m.bump (if d = 2 then R.TTB_MKL_CNT_COUNT else R.TTB_MK_CNT_COUNT)
        let sel := if k.job ≠ m.get R.TTB_JOB_JOB_ID ∨ bit k.flags 1 then some (m.pickSlot k.job ((k.period : Rat) * 12800)) else none
        let m := if sel.isSome then m.jobChange k.job else m
        if d = 2 then (match sel with
          | none => m
          | some n => m.activateSlot n k.job).lateMarker k
        else
          let m := ({ m with ttb.mks := m.ttb.mks ++ [MkWait.mk k d m.freeMkStake sel] }).showMarkers
          if m.armsStep k d then m.armStep k else m

/-! ## Commands -/

/-- MISSED_EDGE (R76): θ has passed 0 by PER_TOL × T with no reference edge: the period is out of tolerance, θ coasts on. -/
def execMissedEdge (s : State) : Out := onMod (fun m =>
  if (m.tstate = 3 ∨ m.tstate = 4) ∧ !m.ttb.refSeen ∧ m.perTol * turn ≤ (m.ttb.theta : Rat) then
    ({ m with ttb.outcome := some false, ttb.refSeen := true }).beginStep
  else m) s

/-- LULL_TIMEOUT (R79): LULL_MAX in LULL moves to SEEK with LOCK_LOST, at the next frame boundary. -/
def execLullTimeout (s : State) : Out := onMod (fun m =>
  if m.tstate = 5 ∧ m.ttb.lullTick + m.lullMax ≤ m.nowTicks then m.dropLock else m) s

/-- STEP_UPDATE_DONE (R84, R87, R101): the update of the closed step ends; READY once LEARN_MIN steps are learned. The first step of a slot
starts the divergence guard's means anew. -/
def execStepUpdateDone (s : State) : Out := onMod (fun m =>
  match m.ttb.upd with
  | none => m
  | some u =>
    let m := m.learnSome (4096 - u.next)
    let first := (m.slotRec u.slot.val).steps == 0
    let m := { m with ttb.upd := none, ttb.div := if first then [[], []] else m.ttb.div }
    let m := m.setSlot u.slot.val (fun x =>
      { x with steps := x.steps + 1, period := u.per, ready := x.ready || decide (max 1 (m.ttbField R.TTB_CFG_LEARN_MIN) ≤ x.steps + 1) })
    m.stepAverages.startFF) s

/-- A marker from the host goes round the ring from a lead, and from the acting root down the fleet tree, marked FLEET (Table 03-4, R89). -/
def Mod.spreadMarker (m : Mod) (b : List Nat) : Mod :=
  if !m.isLead then m
  else if m.is R.TIM_STAT_ROOT then m.sendFleet 2 (b.set 1 (b.getD 1 0 / 2 * 2 + 1))
  else m.sendRing 2 b

/-- MARKER_RECEIVE (R88 to R90): the marker's 32 bytes. `fromRing`: it came by a broadcast, which has gone on already (R284); else it came
from the host. -/
def execMarkerReceive (bytes : List Byte) (fromRing : Bool) (s : State) : Out := onMod (fun m =>
  let b := bytes.map (·.toNat)
  let m := m.takeInbox 2 b
  let m := if !fromRing && !markerBad b then m.spreadMarker b else m
  m.takeMarker b) s

/-- MARKER_STEP_HOLD_END (R93): MK_HOLD after a job's last step, what its steps have reached falls linearly to zero over 100 ms. -/
def execMarkerStepHoldEnd (s : State) : Out := onMod (fun m =>
  let hold := max 1 (m.ttbField R.TTB_LULL_MK_HOLD) * tickMs
  let due := fun (j : Nat) => m.ttb.mkRamps.all (fun r => r.job != j || decide (r.start + hold ≤ m.nowTicks))
  (((m.ttb.mkRamps.map (·.job)).eraseDups).filter due).foldl Mod.endHoldOf m) s

/-- TTB_CMD.DROP_LOCK (Table 03-2): any state but OFF moves to SEEK. -/
def execTtbCmdDropLock (s : State) : Out := onMod (fun m =>
  m.guarded 0x70F4 1 (fun m => m.dropLock)) s

/-- CLEAR_SLOT of a slot. -/
def Mod.ttbClearSlot (m : Mod) (n : Nat) : Mod := (if n = m.tslot then m.dropLock else m).clearSlot n

/-- TTB_CMD.CLEAR_SLOT (R98): the named slot is cleared, lock dropped first when it is active. -/
def execTtbCmdClearSlot (n : Fin 4) (s : State) : Out := onMod (fun m =>
  m.guarded 0x70F4 (2 + 4 * n.val) (fun m => m.ttbClearSlot n.val)) s

/-- The table window's address advances (Table 03-20). -/
def Mod.advanceTab (m : Mod) : Mod := m.put R.TTB_TAB_ADDR_ADDR (m.get R.TTB_TAB_ADDR_ADDR + 1)

/-- A write of TTB_TAB_DATA_HI; bits [63:57] of an entry are 0 (Table 03-3). -/
def Mod.tabWrite (m : Mod) (hi : Word) : Mod :=
  let a := m.get R.TTB_TAB_ADDR_ADDR
  if a / 4096 = m.tslot then (m.put R.TTB_TAB_ADDR_REFUSED 1).advanceTab.refuse
  else
    let v := (m.get R.TTB_TAB_DATA_LO_DATA + hi.toNat * 2 ^ 32) % 2 ^ 57
    ({ m with ttb.tab := Sparse.set (fun _ => 0) m.ttb.tab a v }).advanceTab

/-- TTB_TAB_WRITE (R98): the write of DATA_HI commits both words to an inactive slot; a write to the active slot is refused. -/
def execTtbTabWrite (hi : Word) (s : State) : Out := onMod (fun m =>
  m.guardedR 0x7108 hi.toNat (fun m => m.tabWrite hi)) s

/-- A read of TTB_TAB_DATA_HI. -/
def Mod.tabRead (m : Mod) : Nat × Mod :=
  (m.tabEntry (m.get R.TTB_TAB_ADDR_ADDR) / 2 ^ 32, m.advanceTab)

/-- TTB_TAB_READ (R462): the read of DATA_HI returns entry bits [63:32] and advances the address. -/
def execTtbTabRead (s : State) : Out := onMod (fun m =>
  m.guardedRd 0x7108 (fun m => m.tabRead)) s

/-- The loss address advances. -/
def Mod.advanceLoss (m : Mod) : Mod := m.put R.TTB_LOSS_ADDR_ADDR (m.get R.TTB_LOSS_ADDR_ADDR + 1)

/-- A read of TTB_LOSS_DATA (R99). -/
def Mod.lossRead (m : Mod) : Nat × Mod := (Sparse.get lossDflt m.ttb.loss (m.get R.TTB_LOSS_ADDR_ADDR), m.advanceLoss)

/-- A write of TTB_LOSS_DATA (R99): due at the next plan boundary. -/
def Mod.lossWrite (m : Mod) (v : Nat) : Mod :=
  ({ m with ttb.lossDue := m.ttb.lossDue ++ [(m.get R.TTB_LOSS_ADDR_ADDR, v % 2 ^ 24)] }).advanceLoss

/-- TTB_LOSS_DATA access (R99): a read returns the entry; a write takes effect at the next plan boundary; both advance. -/
def execTtbLossDataAccess (w : Option Word) (s : State) : Out := onMod (fun m =>
  match w with
  | none => m.guardedRd 0x7110 Mod.lossRead
  | some v => m.guarded 0x7110 v.toNat (fun m => m.lossWrite v.toNat)) s

/-- Loss writes take effect at the plan boundary (Table 03-20). -/
def Mod.applyLoss (m : Mod) : Mod :=
  { m with ttb.loss := m.ttb.lossDue.foldl (fun t e => Sparse.set lossDflt t e.1 e.2) m.ttb.loss, ttb.lossDue := [] }

/-- Everything of the tide table that lies in core 0's SRAM is lost (R70). -/
def Mod.ttbLost (m : Mod) : Mod :=
  let m := { m with ttb := {} }
  (List.range 4).foldl Mod.showSlot (m.puts [(R.TTB_STAT_READY, 0)])

end Sys2Proof.Machine
end

