-- ==== Sys2Proof/Machine/Trust.lean ====
section
/-!
DEFINITION. Signature blocks, roots and measurement registers (R369, R370, R375).
-/
namespace Sys2Proof.Machine

/-- A slice of a byte list. -/
def slice (b : List Nat) (o n : Nat) : List Nat := (b.drop o).take n

/-- All bytes of a slice are zero. -/
def zeroAt (b : List Nat) (o n : Nat) : Bool := (slice b o n).all (· == 0)

/-- D of an image: SHA-384 of its bytes 0 to LENGTH − 1 and block bytes 0 to 335 (R369). -/
def digestD (img blk : List Nat) : List Nat := Config.sha384 (img ++ slice blk 0 336)

/-- A signature block is delegated. -/
def delegated (blk : List Nat) : Bool := bit (le blk 6 2) 0

/-- A good block (R370): form and reserved bytes, the anchor key against the root that applies, DELEG_SIG, SIG. -/
def sigGood (img blk : List Nat) (root : Option (List Nat)) : Bool :=
  let signer := slice blk 16 97
  let rootKey := slice blk 128 97
  let anchor := if delegated blk then rootKey else signer
  blk.length == 512 && le blk 0 4 == 0x464D5301 && le blk 4 2 == 1 && decide (le blk 6 2 ≤ 1) && zeroAt blk 12 4 &&
    zeroAt blk 113 15 && zeroAt blk 225 15 && zeroAt blk 432 80 &&
    (delegated blk || (zeroAt blk 128 97 && zeroAt blk 240 96)) &&
    (match root with
     | none => true
     | some h => Config.sha384 anchor == h) &&
    (!delegated blk || Config.ecdsaOk rootKey (Config.sha384 (slice blk 0 128)) (slice blk 240 96)) &&
    Config.ecdsaOk signer (digestD img blk) (slice blk 336 96)

/-- The hash in SEC_OWNER_KEY0 to 11, as 48 bytes. -/
def Mod.ownerKey (m : Mod) : List Nat := (List.range 12).flatMap (fun i => leBytes 4 (m.get (R.SEC_OWNER_KEY_HASH i)))

/-- The owner root that applies (R370); none where no root applies. -/
def ownerRootOf (fu : Fuses) (m : Mod) : Option (List Nat) :=
  if 2 ≤ m.lc then some (pad 48 fu.ownerRoot)
  else if m.lc = 1 && m.ownerKey.any (· != 0) then some m.ownerKey
  else none

/-- Extend a measurement register by a digest (R375). -/
def Mod.extendM (m : Mod) (i : Nat) (x : List Nat) : Mod :=
  { m with sec.meas := (bank 8 m.sec.meas []).modify i (fun v => Config.sha384 (v ++ x)) }

/-- LENGTH of a container (R141), its image bytes and its signature block. -/
def imgBytes (f : Nat → Nat) : List Nat := bytesAt f 0 (rdAt f 20 4)
def imgBlock (f : Nat → Nat) : List Nat := bytesAt f (rdAt f 24 4) 512

/-- Signature check of a container under the owner root. -/
def imgSigned (fu : Fuses) (m : Mod) (f : Nat → Nat) : Bool := sigGood (imgBytes f) (imgBlock f) (ownerRootOf fu m)

/-- SIG_REFUSED (R370, Table 12-15): a block that is not good. -/
def Mod.sigRefused (m : Mod) : Mod := (m.raise 18 0 0x01 0 0).put R.SEC_EVT_SIG 1

end Sys2Proof.Machine
end

