-- ==== Sys2Proof/Machine/Weave.lean ====
section
/-!
DEFINITION. What the bundles of a frame do (R104 to R116, R120, R129, R131, R143, R144): operations of the four engines of a core on the lane
files, the core SRAM, the input snapshot and the constant pool, DMA transfers and port accesses. How formats, shifts and addresses act where the
spec gives fields and no more is in log 59.
-/
namespace Sys2Proof.Machine

/-! ## The memories of the engine -/

/-- Bytes of an engine's lane file; cells of an engine (Table 04-1). -/
def laneBytes : Nat := 16384
def cellsOf : Nat := 64

/-- A write to an output port (R135): core, port of Table 05-7, first published word, the bytes at the source. -/
structure PortW where
  core : Nat
  port : Nat
  idx : Nat
  bytes : List Nat
  deriving DecidableEq, Repr

/-- What the weave reads and changes while it runs, with the bytes of the core SRAM that fail in both copies (store, address) and those that a
narrow write met and left (R341). -/
structure Work where
  sram : Sparse Nat
  lanes : Sparse Nat
  acc : Sparse Int
  dram : Sparse Nat
  dma : List DmaOp
  sat : List Nat
  ports : List PortW
  dead : List (Nat × Nat)
  ue : List (Nat × Nat)
  deriving DecidableEq, Repr

/-- What stands fixed for the frame: build, descriptors of each core, the snapshot, halted channels with the frame's misses. -/
structure Fixed where
  build : Nat
  descs : List (List Nat)
  snap : List Nat
  halt : Nat
  missAt : List (Nat × Nat)
  deriving DecidableEq, Repr

/-- The byte an engine of a core reads at an address (R144): lane file, core SRAM, input snapshot, constant pool. -/
def Work.rd (w : Work) (g : Fixed) (c e space o : Nat) : Nat :=
  if space = 0 then Sparse.get (fun _ => 0) w.lanes ((c * 4 + e) * laneBytes + o % laneBytes)
  else if space = 1 then Sparse.get (fun _ => 0) w.sram (c * sramSize + o)
  else if space = 2 then g.snap.getD (Config.snapIndex o) 0
  else Config.constByte g.build c o % 256

/-- Bytes an engine of a core writes: to its lane file or the core's SRAM, both copies alike; failing bytes of the SRAM that are overwritten are
good again (R129, R341). -/
def Work.wr (w : Work) (c e space o : Nat) (b : List Nat) : Work :=
  if space = 0 then { w with lanes := Sparse.setMany (fun _ => 0) w.lanes ((c * 4 + e) * laneBytes + o % laneBytes) b }
  else if space = 1 then
    { w with sram := Sparse.setMany (fun _ => 0) w.sram (c * sramSize + o) b,
             dead := w.dead.filter (fun e => !(e.1 == c && decide (o ≤ e.2) && decide (e.2 < o + b.length))) }
  else w

/-- A narrow write of fewer than 8 bytes to core SRAM (R341): a failing byte of its word that it leaves is an uncorrectable read. -/
def Work.wrNarrow (w : Work) (c e space o : Nat) (b : List Nat) : Work :=
  let w := w.wr c e space o b
  if space = 1 then
    { w with ue := w.ue ++ (w.dead.filter (fun d => d.1 == c && decide (o / 8 * 8 ≤ d.2) && decide (d.2 < (o + b.length + 7) / 8 * 8))) }
  else w

/-- A core's task sets its saturation flag (R110). -/
def Work.satIf (w : Work) (c : Nat) (s : Bool) : Work := if s && !w.sat.contains c then { w with sat := w.sat ++ [c] } else w

/-! ## Elements -/

/-- Element i of a vector of a format at an address (Table 04-2): FX and ACC48 as integers, B8 and F16E6 as values. -/
def element (rd : Nat → Nat) (fmt o i : Nat) : Rat :=
  match fmt with
  | 0 => sext 16 (rdAt rd (o + 2 * i) 2)
  | 1 => sext 8 (rd (o + i))
  | 2 => sext 48 (rdAt rd (o + 6 * i) 6)
  | 3 => sext 8 (rd (o + 33 * (i / 32) + i % 32)) * (2 : Rat) ^ sext 8 (rd (o + 33 * (i / 32) + 32))
  | _ => f16Dec (rdAt rd (o + 2 * i) 2)

/-- A block of values in B8 (R114): 32 mantissas and the exponent. -/
def b8Bytes (l : List Rat) : List Nat :=
  let q := b8Quant (l ++ List.replicate (32 - l.length) 0)
  q.2.map (enc 8) ++ [enc 8 q.1]

/-- Quantising saturates a mantissa (R114). -/
def b8Over (l : List Rat) : Bool := (b8Quant l).1 == 127 && l.any (fun v => decide (127 < absQ (v / (2 : Rat) ^ (127 : Int))))

/-- One result in a destination format (R109, R110, R112): bytes and saturation. An integer result is scaled by 2^−SHIFT, an F16E6 result that
becomes an integer by 2^SHIFT. -/
def encode1 (df src mode : Nat) (s : Int) (v : Rat) : List Nat × Bool :=
  let k := if src ≤ 2 then s else -s
  match df with
  | 0 => let r := narrow 16 mode k v; (leBytes 2 (enc 16 r.1), r.2)
  | 1 => let r := narrow 8 mode k v; ([enc 8 r.1], r.2)
  | 2 => let r := narrow 48 mode k v; (leBytes 6 (enc 48 r.1), r.2)
  | _ => let y := if src ≤ 2 then v / (2 : Rat) ^ s else v; (leBytes 2 (f16Enc y), f16Over y)

/-- Blocks of 32. -/
def blocks32 (l : List Rat) : List (List Rat) := (List.range ((l.length + 31) / 32)).map (fun k => (l.drop (32 * k)).take 32)

/-- A vector of results in a destination format. -/
def encodeAll (df src mode : Nat) (s : Int) (l : List Rat) : List Nat × Bool :=
  if df = 3 then ((blocks32 l).flatMap b8Bytes, (blocks32 l).any b8Over)
  else
    let r := l.map (encode1 df src mode s)
    (r.flatMap Prod.fst, r.any Prod.snd)

/-! ## Operations (Tables 04-4 and 05-4) -/

/-- Bitwise operations on patterns of `w` bits. -/
def bitOp (op w : Nat) (x y : Rat) : Rat :=
  let a := enc w x.floor
  let b := enc w y.floor
  sext w (if op = 0x48 then a &&& b else if op = 0x49 then a ||| b else a ^^^ b)

/-- The exact result of an elementwise operation; `z` is the old value at the destination. Add, subtract, multiply, multiply-add, narrow, convert,
min, max, abs, shift, division and the F16E6 functions are given; the rest have codings the spec does not state. -/
def elemValue (op w : Nat) (x y z : Rat) : Rat :=
  match op with
  | 0x10 => x + y
  | 0x20 => x + y
  | 0x11 => x - y
  | 0x21 => x - y
  | 0x12 => x * y
  | 0x22 => x * y
  | 0x13 => x * y
  | 0x23 => x * y + z
  | 0x30 => x
  | 0x31 => x
  | 0x41 => if y < x then y else x
  | 0x42 => if x < y then y else x
  | 0x45 => absQ x
  | 0x47 => x
  | 0x48 => bitOp op w x y
  | 0x49 => bitOp op w x y
  | 0x4A => bitOp op w x y
  | 0x60 => f16Div x y
  | 0x61 => f16Recip x
  | 0x62 => f16Sqrt x
  | 0x63 => f16Exp x
  | 0x64 => f16Log x
  | _ => Config.opValue op x y z

/-- A node of the lane tree (R115): FX saturates, F16E6 rounds; the flag goes with it. -/
def sumNode (fmt : Nat) (x y : Rat × Bool) : Rat × Bool :=
  let s := x.1 + y.1
  if fmt = 4 then (f16 s, x.2 || y.2 || f16Over s)
  else
    let r := satTo (if fmt = 1 then 8 else if fmt = 2 then 48 else 16) s.floor
    ((r.1 : Rat), x.2 || y.2 || r.2)

/-- A reduction over the lanes of one group (R115): sum, least, greatest, the lane of a least value. -/
def reduce (op fmt : Nat) (l : List Rat) : Rat × Bool :=
  match op with
  | 0x50 => (laneTree (sumNode fmt) 6 ((l ++ List.replicate (64 - l.length) 0).map (fun v => (v, false)))).headD (0, false)
  | 0x51 => (l.foldl (fun a v => if v < a then v else a) (l.headD 0), false)
  | 0x52 => (l.foldl (fun a v => if a < v then v else a) (l.headD 0), false)
  | _ =>
    let lo := l.foldl (fun a v => if v < a then v else a) (l.headD 0)
    let at_ := (List.range l.length).filter (fun i => l.getD i 0 == lo)
    (((at_.getD (Config.argMin l % at_.length) 0 : Nat) : Rat), false)

/-- One row of an FX matrix-vector product (R112): exact products, an ACC48 sum that saturates at each addition. -/
def fxRow (a x : List Rat) : Rat × Bool :=
  (a.zip x).foldl (fun (s : Rat × Bool) e =>
    let r := satTo 48 (s.1 + e.1 * e.2).floor
    ((r.1 : Rat), s.2 || r.2)) (0, false)

/-- One row in F16E6: each multiply-add rounded once (Table 04-4). -/
def f16Row (a x : List Rat) : Rat × Bool :=
  (a.zip x).foldl (fun (s : Rat × Bool) e =>
    let r := s.1 + e.1 * e.2
    (f16 r, s.2 || f16Over r)) (0, false)

/-- One row in B8 (R113): block by block, each exact partial sum scaled by 2^(Ea + Eb − ACC_EXP) and added to ACC48. `pairs` holds for every
block its mantissa products' sum and the sum of the two exponents. -/
def b8Row (accExp : Int) (pairs : List (Int × Int)) : Rat × Bool :=
  let r := pairs.foldl (fun (s : Int × Bool) e =>
    let k := e.2 - accExp
    let v : Rat := (e.1 : Rat) * (2 : Rat) ^ k
    let d := satTo 48 (rne v)
    let n := satTo 48 (s.1 + d.1)
    (n.1, s.2 || d.2 || n.2)) ((0 : Int), false)
  ((r.1 : Rat), r.2)

/-- Partial sum of block `k` of a row against a vector, and the sum of their exponents. -/
def b8Pair (ra rb : Nat → Nat) (oa ob n k : Nat) : Int × Int :=
  let a := oa + 33 * k
  let b := ob + 33 * k
  ((List.range (min 32 (n - 32 * k))).foldl (fun (s : Int) i => s + sext 8 (ra (a + i)) * sext 8 (rb (b + i))) 0,
   sext 8 (ra (a + 32)) + sext 8 (rb (b + 32)))

/-- Rows of a matrix-vector product: FX and F16E6 coefficients column by column in blocks of 64 rows, B8 rows block by block. -/
def matRows (op : Nat) (ra rb : Nat → Nat) (d : Desc) : List (Rat × Bool) :=
  let oa := adrOff d.a
  let ob := adrOff d.b
  (List.range (64 * d.blocks)).map (fun r =>
    if op = 3 then
      let nb := (d.count + 31) / 32
      b8Row d.shift ((List.range nb).map (b8Pair ra rb (oa + 33 * nb * r) ob d.count))
    else
      let a := (List.range d.count).map (fun k => element ra d.src oa ((r / 64 * d.count + k) * 64 + r % 64))
      let x := (List.range d.count).map (element rb d.src ob)
      if op = 4 then f16Row a x else fxRow a x)

/-- A table lookup with linear interpolation: the position counts entries with SHIFT fraction bits; tables of up to 4,096 entries. -/
def lookup (rt : Nat → Nat) (d : Desc) (pos : Rat) : Rat :=
  let p := clampQ 0 4095 (if d.src ≤ 2 then pos / (2 : Rat) ^ d.shift else pos)
  let i := p.floor.toNat
  let a := element rt d.src (adrOff d.b) i
  let b := element rt d.src (adrOff d.b) (min 4095 (i + 1))
  a + (b - a) * (p - (i : Rat))

/-- One engine slot of a bundle: operation, descriptor index, ROUND. -/
def Work.op (w : Work) (g : Fixed) (c e : Nat) (o : Nat × Nat × Nat) : Work :=
  let op := o.1
  if op = 0 then w
  else
    let d := opDesc (g.descs.getD c []) o.2.1
    let ra := w.rd g c e (adrSpace d.a)
    let rb := w.rd g c e (adrSpace d.b)
    let rz := w.rd g c e (adrSpace d.dst)
    let store := fun (w : Work) (df src : Nat) (s : Int) (l : List Rat) =>
      let r := encodeAll df src o.2.2 s l
      (w.wr c e (adrSpace d.dst) (adrOff d.dst) r.1).satIf c r.2
    let cell := (c * 4 + e) * cellsOf
    if op ≤ 4 then
      let rows := matRows op ra rb d
      let sums := (rows.drop (64 * (d.blocks - 1))).map (fun r => r.1.floor)
      let w := if op = 4 then w else { w with acc := Sparse.setMany (fun _ => (0 : Int)) w.acc cell sums }
      store (w.satIf c (rows.any Prod.snd)) d.df (if op = 4 then 4 else 2) (if op = 3 then 0 else d.shift) (rows.map Prod.fst)
    else if op = 0x12 ∨ op = 0x13 then
      let r := (List.range d.count).foldl (fun (s : Sparse Int × List Rat × Bool) i =>
        let k := cell + i % cellsOf
        let p := element ra d.src (adrOff d.a) i * element rb d.src (adrOff d.b) i
        let n := satTo 48 ((if op = 0x13 then Sparse.get (fun _ => 0) s.1 k else 0) + p.floor)
        (Sparse.set (fun _ => 0) s.1 k n.1, s.2.1 ++ [(n.1 : Rat)], s.2.2 || n.2)) (w.acc, [], false)
      store ({ w with acc := r.1 }.satIf c r.2.2) d.df d.src d.shift r.2.1
    else if 0x50 ≤ op ∧ op ≤ 0x53 then
      let l := (List.range d.count).map (element ra d.src (adrOff d.a))
      let r := (List.range ((d.count + 63) / 64)).map (fun k => reduce op d.src ((l.drop (64 * k)).take 64))
      store (w.satIf c (r.any Prod.snd)) d.df d.src 0 (r.map Prod.fst)
    else if op = 0x58 then
      store w d.df d.src 0 ((List.range d.count).map (fun i => lookup rb d (element ra d.src (adrOff d.a) i)))
    else if op = 0x68 then store w 3 d.src 0 ((List.range d.count).map (element ra d.src (adrOff d.a)))
    else if op = 0x70 then w.wr c (Config.exchangeTo d.b % 4) (adrSpace d.dst) (adrOff d.dst) (bytesAt ra (adrOff d.a) (2 * d.count))
    else if op = 0x78 then w.wrNarrow c e (adrSpace d.dst) (adrOff d.dst) (bytesAt ra (adrOff d.a) d.count)
    else
      let logic := 0x48 ≤ op ∧ op ≤ 0x4A
      let src := if logic then (if d.src = 1 then 1 else 0) else d.src
      let df := if logic then src else d.df
      let v := (List.range d.count).map (fun i =>
        let x := element ra src (adrOff d.a) i
        let y := element rb src (adrOff d.b) i
        (elemValue op (if src = 1 then 8 else 16) x y (element rz df (adrOff d.dst) i), f16Odd op x y))
      store (w.satIf c (v.any Prod.snd)) df src (if logic then 0 else d.shift) (v.map Prod.fst)

/-! ## DMA and ports (R131, Table 04-8) -/

/-- Latency of a path for a length. -/
def dmaLatency (path n : Nat) : Nat :=
  match path with
  | 0 => 16 + n / 64
  | 1 => 48 + n / 32
  | 2 => 48 + n / 32
  | 3 => 320 + n / 32
  | 4 => 320 + n / 32
  | 5 => 64
  | _ => 128

/-- A channel cannot complete a transfer at a cycle: it is halted, by a miss of this frame no later or by an earlier one (R132). -/
def Fixed.dead (g : Fixed) (chan : Nat) (cycle : Int) : Bool :=
  bit g.halt chan && (match g.missAt.find? (fun e => e.1 == chan) with
    | none => true
    | some e => decide ((e.2 : Int) ≤ cycle))

/-- A transfer completes (Table 04-8): core SRAM to core SRAM, another core's SRAM (read, write), the DRAM tiles (read, write), a link message
buffer or the sweep block into SRAM. -/
def Work.finish1 (w : Work) (g : Fixed) (t : DmaOp) : Work :=
  if g.dead t.chan t.done then w
  else
    let c := t.chan / 8
    let q := t.path / 8 % 4
    let fr := fun (k : Nat) => bytesAt (fun o => Sparse.get (fun _ => 0) w.sram (k * sramSize + o)) t.src t.len
    match t.path % 8 with
    | 0 => w.wr c 0 1 t.dst (fr c)
    | 1 => w.wr c 0 1 t.dst (fr q)
    | 2 => w.wr q 0 1 t.dst (fr c)
    | 3 => w.wr c 0 1 t.dst (bytesAt (Sparse.get (fun _ => 0) w.dram) t.src t.len)
    | 4 => { w with dram := Sparse.setMany (fun _ => 0) w.dram t.dst (fr c) }
    | _ => w.wr c 0 1 t.dst (bytesAt (fun o => g.snap.getD (Config.snapIndex o) 0) t.src t.len)

/-- The transfers that complete by a cycle. -/
def Work.finish (w : Work) (g : Fixed) (cycle : Int) : Work :=
  let now := w.dma.filter (fun t => decide (t.done ≤ cycle))
  now.foldl (fun w t => w.finish1 g t) { w with dma := w.dma.filter (fun t => decide (cycle < t.done)) }

/-- One DMA or port operation of a bundle at a cycle: repeated REP + 1 times, its addresses advancing by COUNT (R143). -/
def Work.xfer (w : Work) (g : Fixed) (c cycle : Nat) (x : Nat × Nat × Nat) : Work :=
  let (kind, i, rep) := x
  let d := xferDesc (g.descs.getD c []) i
  (List.range (rep + 1)).foldl (fun (w : Work) k =>
    if kind = 1 then
      let p := Config.dmaPath d.b
      let ch := c * 8 + d.chan
      if bit g.halt ch && !(g.missAt.any (fun e => e.1 == ch)) then w
      else { w with dma := w.dma ++ [⟨ch, cycle + dmaLatency (p.1 % 7) d.count, p.1 % 7 + 8 * (p.2 % 4), adrOff d.a + k * d.count,
                                      adrOff d.dst + k * d.count, d.count⟩] }
    else if kind = 2 then
      w.wr c 0 (adrSpace d.dst) (adrOff d.dst + 2 * k * d.count)
        (bytesAt (w.rd g c 0 (adrSpace d.a)) (adrOff d.a + 2 * k * d.count) (2 * d.count))
    else if kind = 3 then
      let p := Config.portOf d.dst
      { w with ports := w.ports ++ [⟨c, p.1 % 8, (p.2 + k * d.count / 2) % 256,
        bytesAt (w.rd g c 0 (adrSpace d.a)) (adrOff d.a + 2 * k * d.count) (2 * d.count)⟩] }
    else w) w

/-- One bundle of a core. -/
def Work.bundle (w : Work) (g : Fixed) (e : Nat × Bundle) : Work :=
  let w := w.finish g e.2.cycle
  let w := (List.range 4).foldl (fun w k => w.op g e.1 k (e.2.ops.getD k (0, 0, 0))) w
  if e.2.xfer.1 = 0 then w else w.xfer g e.1 e.2.cycle e.2.xfer

/-- Put a bundle into its place by cycle, after those of the same cycle. -/
def byCycle (x : Nat × Bundle) : List (Nat × Bundle) → List (Nat × Bundle)
  | [] => [x]
  | y :: l => if x.2.cycle < y.2.cycle then x :: y :: l else y :: byCycle x l

/-- The bundles of a frame over the cores that run, by cycle (R120, R134). -/
def frameBundles (f : Nat → Nat) (cores : List Nat) (k : Nat) : List (Nat × Bundle) :=
  (cores.flatMap (fun c => (issued f c k).map (fun b => (c, b)))).foldl (fun l x => byCycle x l) []

/-! ## Costs (R116, Table 04-4) -/

/-- Issue cycles and result latency of an operation. -/
def opCost (op : Nat) (d : Desc) : Nat × Nat :=
  let g := (d.count + 63) / 64
  if op = 1 then (d.blocks * d.count, 6)
  else if op = 2 then (d.blocks * ((d.count + 1) / 2), 6)
  else if op = 3 then (d.blocks * ((d.count + 1) / 2) + (d.count + 31) / 32, 6)
  else if op = 4 then (2 * d.blocks * d.count, 8)
  else if op < 0x20 then (g, 4)
  else if op < 0x30 then (2 * g, 6)
  else if op < 0x40 then (g, 4)
  else if op < 0x50 then (g, 2)
  else if op < 0x58 then (7, 8)
  else if op = 0x58 then (6 * g, 10)
  else if op = 0x60 then (12 * g, 14)
  else if op < 0x68 then (10 * g, 12)
  else if op < 0x78 then (4 * g, 6)
  else (3, 3)

/-- The cycle at which a bundle has retired. -/
def retired (s : List Nat) (b : Bundle) : Nat :=
  let ops := b.ops.map (fun o => if o.1 = 0 then b.cycle else
    let k := opCost o.1 (opDesc s o.2.1)
    b.cycle + k.1 + k.2)
  let g := ((xferDesc s b.xfer.2.1).count + 63) / 64 * (b.xfer.2.2 + 1)
  (if b.xfer.1 = 2 then b.cycle + 2 * g + 4 else if b.xfer.1 = 3 then b.cycle + 4 * g else b.cycle) |> fun x => ops.foldl max x

/-! ## The frame -/

/-- The cores that run. -/
def Mod.running (m : Mod) : List Nat := (List.range 4).filter (fun c => m.get (coreSt c) == 2)

/-- What the weave of the active image works on in this frame. -/
def Mod.fixed (m : Mod) : Fixed :=
  { build := m.build, descs := (List.range 4).map (fun c => (sectionOf m.actImg 0x04 c).getD []), snap := m.cen.snap,
    halt := m.get R.CEN_DMA_STAT_HALT, missAt := m.cen.missAt }

/-- The engine's memories as the frame finds them. -/
def Mod.work (m : Mod) : Work :=
  { sram := m.cen.sram, lanes := m.cen.lanes, acc := m.cen.acc, dram := m.cen.dram, dma := m.cen.dma, sat := m.cen.sat, ports := [],
    dead := m.mem.dead, ue := [] }

/-- Put the engine's memories back. -/
def Mod.putWork (m : Mod) (w : Work) : Mod :=
  { m with cen.sram := w.sram, cen.lanes := w.lanes, cen.acc := w.acc, cen.dram := w.dram, cen.dma := w.dma, cen.sat := w.sat,
           mem.dead := w.dead }

/-- The weave of a frame: the running cores' bundles by cycle, then the transfers that complete before its end; those beyond it go on into the
next frame of 8,000 cycles (R120, R131). -/
def Mod.weave (m : Mod) : Work × Mod :=
  let g := m.fixed
  let w := (frameBundles m.actImg m.running m.frame).foldl (fun w e => w.bundle g e) m.work
  let w := w.finish g 7999
  (w, m.putWork { w with dma := w.dma.map (fun t => { t with done := t.done - 8000 }) })

/-- One bundle of a core by hand (R389): the n-th of the frame's. -/
def Mod.weaveStep (m : Mod) (c n : Nat) : Mod :=
  let l := issued m.actImg c m.frame
  match l[n % l.length]? with
  | none => m
  | some b =>
    let w := (m.work.bundle m.fixed (c, b)).finish m.fixed 7999
    m.putWork w

end Sys2Proof.Machine
end

