-- ==== Sys2Proof/Machine/Engine.lean ====
section
/-!
DEFINITION. The control engine and its programs (R104 to R172): acceptance of images, START, STOP and swaps, laws and hand-over,
set-point motion, cell observers, engine faults, windows, and the engine's commands.
-/
namespace Sys2Proof.Machine

/-! ## Cores and images -/

/-- The inactive bank, or bank A while R475 directs the window there. -/
def Mod.winBank (m : Mod) : Nat := if !m.bankOk 0 && !m.coresRun then 0 else 1 - m.actBank

/-- Identity and declared figures of the active image (Tables 04-17, 04-18). -/
def Mod.showImages (m : Mod) : Mod :=
  let f := m.actImg
  let ok := m.bankOk m.actBank
  let m := m.puts [(R.CEN_IMG_ACT_BUILD, m.build), (R.CEN_IMG_INACT_BUILD, m.buildOf (1 - m.actBank))]
  (List.range 4).foldl (fun m c => m.puts [(R.CEN_LEN_END_DECL c, if ok then rdAt f (32 + 16 * c) 2 else 0),
    (R.CEN_LEN_CMD_DECL c, if ok then rdAt f (34 + 16 * c) 2 else 0x1FFF)]) m

/-- The law member a pole uses by default: the member with the default flag (R147). -/
def Mod.dfltMember (m : Mod) (p : Nat) : Nat :=
  match (tasksOf m.actImg).find? (fun t => t.lawOf p && t.dflt) with
  | some t => t.member
  | none => 0

/-- CEN_LAW_SEL and the members in force take the active image's defaults. -/
def Mod.lawDefaults (m : Mod) : Mod :=
  let p := m.dfltMember 0
  let n := m.dfltMember 1
  m.puts [(R.CEN_LAW_SEL_SEL_P, p), (R.CEN_LAW_SEL_SEL_N, n), (R.CEN_LAW_SEL_COEF, 0), (R.CEN_PRG_STAT_LAW_P, p),
    (R.CEN_PRG_STAT_LAW_N, n), (R.CEN_PRG_STAT_COEF, 0), (R.CEN_PRG_STAT_HO_PEND, 0)]

/-- An image is refused (R125, R146): the code, EVT.REJ, IMG_REJECT. DESIGN CHOICE (log 52): Table 10-1 names no ADDR for IMG_REJECT; it is 0. -/
def Mod.rejectImg (m : Mod) (rej prej : Nat) : Mod :=
  let m := (m.puts [(R.CEN_STAT_REJ_CODE, rej), (R.CEN_EVT_REJ, 1)]).raise 8 4 7 0 0
  let m := if rej = 6 then m.sigRefused else m
  if prej = 0 then m else m.puts [(R.CEN_PRG_STAT_PREJ_CODE, prej), (R.CEN_PRG_EVT_PREJ, 1)]

/-- The locked mode as a bit of MODES: 0 component, 1 service; none while the MOD page is unlocked. -/
def Mod.lockedMode (m : Mod) : Option Nat :=
  if m.locked 1 && (m.get R.MOD_ROLE_CFG_MODE == 1 || m.get R.MOD_ROLE_CFG_MODE == 2) then some (m.get R.MOD_ROLE_CFG_MODE - 1) else none

/-- Check the weave image in a bank (R123, R125, R146, R148). Accepted: the bank holds it, M4 is extended (Table 12-6). -/
def Mod.checkWeave (m : Mod) (fu : Fuses) (b : Nat) : Mod :=
  let f := m.bankByte b
  let rej := rejCode f (m.get R.CEN_CFG_CORE_EN) (imgSigned fu m f)
  if rej ≠ 0 then m.rejectImg rej 0
  else
    let pr := prejCode f m.lockedMode (m.lockedMode == some 1 && m.is R.MOD_ROLE_CFG_LEAD_ELIGIBLE)
    if pr ≠ 0 then m.rejectImg 0 pr
    else
      let m := m.put (if b = 0 then R.CEN_STAT_IMG_A else R.CEN_STAT_IMG_B) 1
      let m := m.extendM 4 (digestD (imgBytes f) (imgBlock f))
      let m := match sectionBytes f 0x0C with
        | none => m
        | some pb => m.extendM 5 (Config.sha384 pb)
      let m := m.showImages
      if b = m.actBank ∧ !m.coresRun then m.lawDefaults else m

/-- Fill the SRAM from INITDATA: INIT regions hold their data, all else reads zero (R126, R145); the data of the boot set's coefficient
images stands over it (R170); lane files and accumulators are at rest. -/
def Mod.initSram (m : Mod) : Mod :=
  let f := m.actImg
  let d := (sectionBytes f 0x06).getD []
  let ram := (regionsOf f).foldl (fun r g =>
    if bit g.attr 0 && g.init != 0xFFFFFFFF then
      Sparse.setMany (fun _ => 0) r (g.core * sramSize + g.off) (slice d g.init g.len)
    else r) []
  let ram := m.cen.coefs.foldl (fun r c => (Config.coefData c).foldl (fun q e =>
    Sparse.set (fun _ => 0) q (e.1 * sramSize + e.2.1) e.2.2) r) ram
  let m := (List.range 4).foldl (fun m c => m.dropDead c 0 sramSize) m
  { m with cen.sram := ram, cen.winDue := [], cen.lanes := [], cen.acc := [], cen.dma := [] }

/-- Values for the loss table that bytes carry (R99, R170). -/
def Mod.loadLoss (m : Mod) (b : List Nat) : Mod :=
  { m with ttb.loss := (Config.lossOf b).foldl (fun t e => Sparse.set lossDflt t (e.1 % 1024) (e.2 % 65536)) m.ttb.loss }

/-- What the accepted images hold besides SRAM contents is taken at START: loss table values (R70, R99), a coefficient image's profile (R170). -/
def Mod.initLoss (m : Mod) : Mod :=
  let m := { m with cen.prof := (m.cen.coefs.filterMap (fun c => sectionBytes (fun o => c.getD o 0) 0x0C)).getLast? }
  { ((imgBytes m.actImg :: m.cen.coefs).foldl Mod.loadLoss m) with cen.coefs := [] }

/-- First multiple of `k` after frame `n`. -/
def nextMultiple (k n : Nat) : Nat := (n / k + 1) * k

/-- START is accepted (R126): outside RUN, with a valid active image, at the next frame that is a multiple of 2,000. -/
def Mod.startReq (m : Mod) : Mod :=
  if m.inRun || !m.bankOk m.actBank then m else { m with cen.start := some (nextMultiple 2000 m.frame) }

/-- The cores start (R126): SRAM from the image, the tide table's state lost (R70), laws at rest, DMA channels idle. -/
def Mod.startCores (m : Mod) : Mod :=
  let m := m.initSram.ttbLost.initLoss
  let m := { m with cen.start := none, cen.stop := false, cen.faulted := [], cen.laws := List.replicate 2 (List.replicate 2 {}),
                    cen.fades := List.replicate 2 {}, cen.obs := [], cen.obsTick := [none, none], cen.strSum := [0, 0], cen.strN := 0,
                    cen.unpub := false, cen.pub := [], cen.sat := [], cen.due := [], cen.sps := [], cen.lastTB := [0, 0], cen.undo := none,
                    cen.fcstNext := [], cen.schedNext := none, cen.stale := [], cen.missAt := [] }
  let m := (List.range 4).foldl (fun m c => if bit (m.get R.CEN_CFG_CORE_EN) c then m.put (coreSt c) 2 else m) m
  let m := (m.put R.CEN_DMA_STAT_HALT 0).showImages
  if m.is R.MGT_BOOT_BSET_ERR && m.get R.MGT_BOOT_STAGE == 3 then
    m.puts [(R.MGT_BOOT_STAGE, 4), (R.MGT_BOOT_BSET_ERR, 0)]
  else m

/-- The cores stop: running cores become halted, the faulted ones FAULTED (R137). -/
def Mod.stopCores (m : Mod) : Mod :=
  let f := m.cen.faulted
  let m := (List.range 4).foldl (fun m c => if m.get (coreSt c) = 2 then m.put (coreSt c) (if f.contains c then 3 else 1) else m) m
  { m with cen.stop := false, cen.faulted := [] }

/-! ## Swaps (R127, R128, R171) -/


/-- Resolve the low 32 bits of a frame number as a serial number, and round to a multiple of 200 (R127). -/
def Mod.swapFrame (m : Mod) (v : Nat) : Nat :=
  let cur := m.frame
  let d : Int := sext 32 ((v + 2 ^ 32 - cur % 2 ^ 32) % 2 ^ 32)
  let f := ((cur : Int) + d).toNat
  if f ≤ cur then nextMultiple 200 cur else if f % 200 = 0 then f else nextMultiple 200 f

/-- A swap is requested for a full frame number. -/
def Mod.requestSwap (m : Mod) (f : Nat) : Mod :=
  ({ m with cen.swap := some f }).puts [(R.CEN_SWAP_FRAME, f % 2 ^ 32), (R.CEN_STAT_SWAP_PEND, 1)]

/-- A swap request is cancelled or done. -/
def Mod.endSwap (m : Mod) : Mod := ({ m with cen.swap := none }).put R.CEN_STAT_SWAP_PEND 0

/-- A swap not made (R128, R171): SWAP_CANCEL with its cause. DESIGN CHOICE (log 52): Table 10-1 names no ADDR for it; it is 0. -/
def Mod.cancelSwap (m : Mod) (why : Nat) : Mod :=
  (m.endSwap.puts [(R.CEN_EVT_SWAP_CANCEL, 1), (R.CEN_PRG_STAT_SWAP_WHY, why)]).raise 8 4 8 0 0

/-- Fields that a swap changes and that return when an engine fault of its frame takes it back (R128). -/
def swapFields : List Fld :=
  [R.CEN_STAT_BANK, R.CEN_EVT_SWAP_DONE, R.CEN_STAGE_STAGE_OK, R.CEN_LAW_SEL_SEL_P, R.CEN_LAW_SEL_SEL_N, R.CEN_LAW_SEL_COEF,
   R.CEN_PRG_STAT_LAW_P, R.CEN_PRG_STAT_LAW_N, R.CEN_PRG_STAT_COEF, R.CEN_PRG_STAT_HO_PEND, R.CEN_PRG_STAT_HO_ACT,
   R.CEN_HO_DELTA_DELTA_P, R.CEN_HO_DELTA_DELTA_N, R.CEN_HO_CNT_COUNT]

/-- An engine fault in the frame of a swap that was made (R128): the swap does not happen, the active bank stays in force. -/
def Mod.undoSwap (m : Mod) : Mod :=
  match m.cen.undo with
  | none => m
  | some u =>
    let m := { m with cen.laws := u.laws, cen.fades := u.fades, cen.prof := u.prof, cen.undo := none }
    (m.puts u.regs).showImages.cancelSwap 3

/-- An engine fault of a core in this frame: outputs not published, all cores stop at the next boundary (R130, R132, R137), and a swap of the
frame does not happen (R128). -/
def Mod.coreFault (m : Mod) (c : Nat) : Mod :=
  ({ m with cen.faulted := if m.cen.faulted.contains c then m.cen.faulted else m.cen.faulted ++ [c], cen.unpub := true,
            cen.stop := true }).undoSwap

/-- Start a fade of a pole (R165). -/
def Mod.startFade (m : Mod) (p : Nat) (delta : Rat) : Mod :=
  let slew : Rat := (max 1 (m.get R.CEN_HO_CFG_HO_SLEW) : Nat) / (100 : Rat)
  let n := max (max 1 (m.get R.CEN_HO_CFG_HO_FADE)) (absQ delta / slew).ceil.toNat
  let m := if (m.cen.fades.getD p {}).n = 0 then m else m.bump R.CEN_HO_CNT_COUNT
  ({ m with cen.fades := m.cen.fades.set p ⟨delta, n, 0⟩ }).putQ
    (if p = 0 then R.CEN_HO_DELTA_DELTA_P else R.CEN_HO_DELTA_DELTA_N) (delta * 32) |>.put R.CEN_PRG_STAT_HO_ACT 1

/-- Offset a fade adds in the present frame. -/
def Fade.off (f : Fade) : Rat := if f.n = 0 then 0 else f.delta * ((f.n - f.j : Nat) : Rat) / (f.n : Rat)

/-- An uncorrectable read of a core's weave memory or SRAM (R130, R345): WEAVE_UE or DATA_UE with the frame of the access; a core that runs is
faulted. -/
def Mod.coreUe (m : Mod) (c : Nat) (weave : Bool) (off : Nat) : Mod :=
  let m := (((m.bump R.CEN_UE_CNT_COUNT).put R.CEN_EVT_UE 1).memUe (if weave then 4 + c else c) off).report
    { blk := 8, inst := c, kind := if weave then 4 else 5, addr := off, cls := 2, frame := some (m.frame % 2 ^ 32) }
  if m.get (coreSt c) = 2 then m.coreFault c else m

/-- An engine read of the ending frame that failed in both copies (R130, R345), of a core that runs; the bytes are known to fail. -/
def Mod.engineUe (m : Mod) (e : Nat × Bool × Nat) : Mod :=
  let (c, weave, off) := e
  if c < 4 ∧ m.get (coreSt c) = 2 then (m.markDead (if weave then 4 + c else c) off).coreUe c weave off else m

/-! ## Laws (R149, R164 to R166) -/

/-- Kind of a pole's law member: 1 native, 2 state feedback; 0 none. -/
def Mod.lawKind (m : Mod) (p k : Nat) : Nat :=
  match (tasksOf m.actImg).find? (fun t => t.lawOf p && t.member == k) with
  | some t => t.kind
  | none => 0

/-- The member has a tracking state. -/
def Mod.lawTracks (m : Mod) (p k : Nat) : Bool :=
  match (tasksOf m.actImg).find? (fun t => t.lawOf p && t.member == k) with
  | some t => t.track != 0xFFFFFFFF
  | none => false

/-- Measured inputs a ZS4 set may choose (R149): e, i_Smeas, i_L, V_STR, i_FF. -/
def Mod.zsInputs (m : Mod) (p : Nat) : List Rat := [(m.err12 p : Rat) / 4096, m.iStr p, m.iLoad p, m.vStr p, (m.bp p).iFF]

/-- Dot product of an integer row with Q fraction bits and rationals. -/
def dotQ (q : Nat) (row : List Int) (x : List Rat) : Rat := sumQ ((row.zip x).map (fun e => (e.1 : Rat) * e.2)) / (2 : Rat) ^ q

/-- Narrow a rational once, in RDN, to a 16-bit value of Q fraction bits (R149). -/
def rdn16 (q : Nat) (v : Rat) : Int := clampI (-32768) 32767 (rdn (v * (2 : Rat) ^ q))

/-- The same with its saturation (R110). -/
def rdn16S (q : Nat) (v : Rat) : Int × Bool := satTo 16 (rdn (v * (2 : Rat) ^ q))

/-- One frame of a kind-2 law (R149): each right-hand side exact and narrowed once, in RDN, every matrix at its own Q format. A saturation starts
the count of clean frames again (R164). -/
def zs4Law (z : Config.Zs4) (e : Rat) (inp : List Rat) (iFld iEbb : Rat) (st : LawSt) : LawSt :=
  let x : List Rat := (List.range z.n).map (fun i => (st.xh.getD i 0 : Rat) / (2 : Rat) ^ z.qx)
  let y : List Rat := z.sel.map (fun i => (rdn16 z.qy (inp.getD i 0) : Rat) / (2 : Rat) ^ z.qy)
  let u := rdn16S 5 (-(dotQ z.qk z.k x) + (z.kr : Rat) / (2 : Rat) ^ z.qkr * e + (st.track : Rat) / 32)
  let uq := (u.1 : Rat) / 32
  let tr := rdn16S 5 ((st.track : Rat) / 32 + (z.kz : Rat) / (2 : Rat) ^ z.qkz * e)
  let inn : List Rat := (List.range y.length).map (fun i => y.getD i 0 - dotQ z.qc (z.c.getD i []) x)
  let xh := (List.range z.n).map (fun i =>
    rdn16S z.qx (dotQ z.qa (z.a.getD i []) x + (z.b.getD i 0 : Rat) / (2 : Rat) ^ z.qb * uq + dotQ z.ql (z.l.getD i []) inn))
  { st with track := clampEnv5 iFld iEbb tr.1, xh := xh.map Prod.fst, out := u.1,
            ran := if u.2 || tr.2 || xh.any Prod.snd then 0 else st.ran + 1 }

/-- Bytes of core 0's SRAM that hold the coefficients of a copy (R145, R170): the COEF_A or COEF_B regions; in an image without such a pair the
INIT regions that no swap carries over. -/
def Mod.coefBytes (m : Mod) (copy : Nat) : List Nat :=
  let rs := m.regions.filter (fun r => r.core == 0)
  let use := if rs.any (fun r => bit r.attr 4 || bit r.attr 5) then rs.filter (fun r => bit r.attr (4 + copy))
    else rs.filter (fun r => bit r.attr 0 && !bit r.attr 3)
  use.flatMap (fun r => bytesAt (m.sramByte 0) r.off r.len)

/-- One frame of a member of a pole, with a coefficient copy. -/
def Mod.lawStep (m : Mod) (copy p k : Nat) (st : LawSt) : LawSt :=
  let b := m.bp p
  match m.lawKind p k with
  | 2 => zs4Law (Config.zs4 m.build k (m.coefBytes copy)) ((m.err12 p : Rat) / 4096) (m.zsInputs p) b.iFld b.iEbb st
  | 1 =>
    let r := nativeLaw m.kp4 m.ki8 (m.err12 p) m.vTb b.iFld b.iEbb st.track st.push
    let sat := (satTo 16 (rna ((m.vSet p - m.vBus p) * 4096))).2 || nativeSat m.kp4 m.ki8 (m.err12 p) m.vTb b.iFld b.iEbb st.track st.push
    { st with track := r.1, push := r.2.1, out := r.2.2, ran := if sat then 0 else st.ran + 1 }
  | _ => st

/-- Back-calculation of a tracking state: towards a wanted output, clamped to the envelope; the output follows and saturates (R164, R165). -/
def backCalc (iFld iEbb : Rat) (want : Int) (st : LawSt) : LawSt :=
  let t := clampEnv5 iFld iEbb (st.track + (want - st.out))
  { st with track := t, out := (satTo 16 (st.out + (t - st.track))).1 }

/-- Member in force of a pole. -/
def Mod.member (m : Mod) (p : Nat) : Nat := m.get (if p = 0 then R.CEN_PRG_STAT_LAW_P else R.CEN_PRG_STAT_LAW_N)

/-- Member selected for a pole. -/
def Mod.selMember (m : Mod) (p : Nat) : Nat := m.get (if p = 0 then R.CEN_LAW_SEL_SEL_P else R.CEN_LAW_SEL_SEL_N)

/-- Laws of a pole. -/
def Mod.lawSt (m : Mod) (p k : Nat) : LawSt := (m.cen.laws.getD p []).getD k {}

/-- Store a law state. -/
def Mod.setLaw (m : Mod) (p k : Nat) (st : LawSt) : Mod := { m with cen.laws := m.cen.laws.modify p (fun l => l.set k st) }

/-- A member is eligible (R164). -/
def Mod.eligible (m : Mod) (p k : Nat) : Bool :=
  decide (8 * max 1 (m.get R.CEN_HO_CFG_HO_SHADOW) ≤ (m.lawSt p k).ran) && m.lawKind p k != 0

/-- Every member of a pole runs one frame with a coefficient copy; a saturation sets core 0's flag (R110). -/
def Mod.stepLaws (m : Mod) (copy p : Nat) : Mod :=
  let m := [0, 1].foldl (fun m k => m.setLaw p k (m.lawStep copy p k (m.lawSt p k))) m
  if [0, 1].any (fun k => m.lawKind p k != 0 && (m.lawSt p k).ran == 0) && !m.cen.sat.contains 0 then
    { m with cen.sat := m.cen.sat ++ [0] }
  else m

/-- A swap falls due in this frame. -/
def Mod.swapNow (m : Mod) : Bool :=
  match m.cen.swap with
  | none => false
  | some f => decide (f ≤ m.frame)

/-- A pole's fade moves on by one frame; after its last frame the hand-over is done (R165, Table 05-11). -/
def Mod.fadeStep (m : Mod) (p : Nat) : Mod :=
  let f := m.cen.fades.getD p {}
  if f.n = 0 then m
  else if f.n ≤ f.j + 1 then
    let m := ({ m with cen.fades := m.cen.fades.set p {} }).bump R.CEN_HO_CNT_COUNT |>.put R.CEN_PRG_EVT_HO_DONE 1
    m.flag R.CEN_PRG_STAT_HO_ACT (m.cen.fades.any (fun g => g.n != 0))
  else { m with cen.fades := m.cen.fades.set p { f with j := f.j + 1 } }

/-- The laws of a pole in one frame of RUN: every member runs, a hand-over happens when one is due, the members not in force are
back-calculated, and i_TB is the output of the one in force with the fade's offset (R163 to R165). At a flip of the coefficient copy the
outgoing output is that of the old copy. In the frame of a swap a new selection waits (R167). -/
def Mod.lawFrame (m : Mod) (p : Nat) : Mod :=
  let b := m.bp p
  let cur := m.member p
  let old := m.get R.CEN_PRG_STAT_COEF
  let flip := m.get R.CEN_LAW_SEL_COEF ≠ old ∧ m.swapNow = false
  let uOld := (m.lawStep old p cur (m.lawSt p cur)).out
  let m := m.stepLaws (if flip then m.get R.CEN_LAW_SEL_COEF else old) p
  let sel := m.selMember p
  let change := sel ≠ cur ∧ m.eligible p sel = true ∧ m.swapNow = false
  let due := change ∨ flip
  let f := m.cen.fades.getD p {}
  let m := if due then
      let yOld : Rat := (uOld : Rat) / 32 + f.off
      let k := if change then sel else cur
      let st := m.lawSt p k
      let st := if m.lawTracks p k then backCalc b.iFld b.iEbb (rna (yOld * 32)) st else st
      let m := (m.setLaw p k st).put (if p = 0 then R.CEN_PRG_STAT_LAW_P else R.CEN_PRG_STAT_LAW_N) k
      m.startFade p (yOld - (st.out : Rat) / 32)
    else m
  let f := m.cen.fades.getD p {}
  let i := ((m.lawSt p (m.member p)).out : Rat) / 32 + f.off
  let other := 1 - m.member p
  let m := if m.lawKind p other ≠ 0 then m.setLaw p other (backCalc b.iFld b.iEbb (rna (i * 32)) (m.lawSt p other)) else m
  (m.setBp p (fun x => { x with iTB := i })).fadeStep p

/-- Pending selection of the frame (R164): HO_PEND while a selected member is not in force; the coefficient copy follows, and with it the loss
table values that it carries (R170). -/
def Mod.selFrame (m : Mod) : Mod :=
  let pend := [0, 1].any (fun p => m.selMember p != m.member p)
  let m := m.flag R.CEN_PRG_STAT_HO_PEND pend
  let m := { m with cen.selFrames := if pend then m.cen.selFrames + 1 else 0 }
  let c := m.get R.CEN_LAW_SEL_COEF
  if c = m.get R.CEN_PRG_STAT_COEF ∨ m.swapNow = true then m else (m.put R.CEN_PRG_STAT_COEF c).loadLoss (m.coefBytes c)

/-- The task of a pole's law member: its ID and kind; none without one. -/
def Mod.lawId (m : Mod) (p k : Nat) : Option (Nat × Nat) :=
  ((tasksOf m.actImg).find? (fun t => t.lawOf p && t.member == k)).map (fun t => (t.id, t.kind))

/-- A kind-2 law's state lies in a CARRY region of both images (R145, R166): the region of its tracking state. -/
def carried (old new : List Region) (o : Nat) : Bool :=
  new.any (fun r => r.core == 0 && bit r.attr 3 && decide (r.off ≤ o) && decide (o < r.off + r.len) &&
    old.any (fun q => q.core == 0 && bit q.attr 3 && q.off == r.off && q.len == r.len))

/-- The state an incoming law starts from at a swap (R166): a kind-1 law keeps x; a kind-2 law keeps what is carried, else starts from M y. -/
def Mod.swapState (m : Mod) (rs : List Region) (p k : Nat) (st : LawSt) : LawSt :=
  match (tasksOf m.actImg).find? (fun t => t.lawOf p && t.member == k) with
  | none => {}
  | some t =>
    if t.kind = 1 ∨ t.initM = 0xFFFFFFFF ∨ carried rs m.regions t.track = true then { st with ran := 0 }
    else
      let z := Config.zs4 m.build k (m.coefBytes 0)
      let y := z.sel.map (fun i => (rdn16 z.qy ((m.zsInputs p).getD i 0) : Rat) / (2 : Rat) ^ z.qy)
      { xh := z.m.map (fun row => rdn16 z.qx (dotQ z.qm row y)) }

/-- The frame k of a swap for a pole in RUN (R163, R165): the incoming law's frame, joined to i_TB,p[k − 1] where the law changes. -/
def Mod.swapPole (m : Mod) (p : Nat) (change : Bool) (y : Rat) : Mod :=
  let b := m.bp p
  let m := m.stepLaws 0 p
  let k := m.member p
  let m := if change then
      let st := m.lawSt p k
      let st := if m.lawTracks p k then backCalc b.iFld b.iEbb (rna (y * 32)) st else st
      (m.setLaw p k st).startFade p (y - (st.out : Rat) / 32)
    else m
  let f := m.cen.fades.getD p {}
  let i := ((m.lawSt p k).out : Rat) / 32 + f.off
  let m := m.setBp p (fun x => { x with iTB := i })
  (if change then m.fadeStep p else m).poleCommands p

/-- The swap of the banks (R127, R163, R167, R169, R171): no SRAM is copied, the staged data belongs to the new image, CEN_LAW_SEL takes its
defaults. While the cores run, a law that differs is handed over. -/
def Mod.makeSwap (m : Mod) (run : Bool) : Mod :=
  let m := m.endSwap
  let rs := m.regions
  let ids := [0, 1].map (fun p => m.lawId p (m.member p))
  let u : SwapUndo := ⟨m.cen.laws, m.cen.fades, swapFields.map (fun f => (f, m.get f)), m.cen.prof⟩
  let m := (m.put R.CEN_STAT_BANK (1 - m.actBank)).puts [(R.CEN_EVT_SWAP_DONE, 1), (R.CEN_STAGE_STAGE_OK, 0)]
  let m := { m.showImages.lawDefaults with cen.prof := none }
  if run then
    let m := { (m.loadLoss (imgBytes m.actImg)) with cen.undo := some u }
    let mapped := (sectionsBytes m.actImg 0x0A).any Config.trackMapped
    let old := if m.cen.laws0.isEmpty then m.cen.laws else m.cen.laws0
    let m := { m with cen.laws := [0, 1].map (fun p => [0, 1].map (fun k => m.swapState rs p k ((old.getD p []).getD k {}))) }
    let change := fun (p : Nat) => mapped || m.lawId p (m.member p) != ids.getD p none
    if m.inRun then [0, 1].foldl (fun m p => m.swapPole p (change p) (m.cen.lastTB.getD p 0)) m
    else if change 0 || change 1 then m.bump R.CEN_HO_CNT_COUNT else m
  else m

/-- A swap that falls due at a boundary (R127, R128, R171). `fault`: an engine fault of R128 in its frame. -/
def Mod.swapDue (m : Mod) (fault : Bool) : Mod :=
  let ib := 1 - m.actBank
  let ok := m.bankOk ib
  if m.coresRun then
    if fault then m.cancelSwap 3
    else if !ok || rdAt (m.bankByte ib) 12 4 != m.build then m.cancelSwap 1
    else if !m.is R.CEN_STAGE_STAGE_OK then m.cancelSwap 2
    else m.makeSwap true
  else if ok then m.makeSwap false else m.cancelSwap 1

/-! ## Set-point motion (R157 to R162) -/

/-- Ends of the band of R157. -/
def Mod.spBand (m : Mod) : Rat × Rat :=
  let w := 28 / 5 - m.kD * 250 - m.vTb
  (400 - w, 400 + w)

/-- One frame of RAMP for a pole (R159): the new V_REF. -/
def rampStep (rate tgt v : Rat) : Rat := if absQ (tgt - v) ≤ rate then tgt else if v < tgt then v + rate else v - rate

/-- One frame of SLEW (R160): new V_REF and velocity (V, V/s). -/
def slewStep (rate acc lo hi tgt vref v : Rat) : Rat × Rat :=
  let t : Rat := 5 / 1000000
  let d := tgt - vref
  if absQ d ≤ 1 / 1000 ∧ absQ v ≤ acc * t then (tgt, 0)
  else
    let stop := v * absQ v / (2 * acc)
    let sg := fun (x : Rat) => if x < 0 then (-1 : Rat) else if x = 0 then 0 else 1
    let a := if d * v < 0 ∨ absQ d ≤ absQ stop then -(sg v) * acc else sg d * acc
    let vn := clampQ (-rate) rate (v + a * t)
    let vn := if vn * v < 0 then 0 else vn
    let lo := min lo vref
    let hi := max hi vref
    let r := clampQ lo hi (vref + vn * t)
    (r, if r = lo ∨ r = hi then 0 else vn)

/-- One frame of set-point 0 of both poles in RUN. -/
def Mod.spFrame (m : Mod) : Mod :=
  let slew := m.is R.CEN_PRG_STAT_SP_MODE
  let rate : Rat := (clampN 1 200 (m.get R.CEN_SP_CFG_SS_RATE) : Nat) / (400 : Rat)
  let slr : Rat := (max 1 (m.get R.CEN_SP_CFG_SL_RATE) : Nat)
  let acc : Rat := 100 * ((max 1 (m.get R.CEN_SP_CFG_SL_ACC) : Nat) : Rat)
  let (lo, hi) := m.spBand
  let tgt := m.cen.tgt
  let new := [0, 1].map (fun p =>
    let r := m.cen.vref.getD p 0
    if slew then slewStep slr acc lo hi tgt r (m.cen.vel.getD p 0) else (rampStep rate tgt r, 0))
  let at_ := new.map (fun e => e.1 == tgt)
  let newly := (at_.zip m.cen.arrived).any (fun e => e.1 && !e.2)
  let came := (m.cen.came.zip at_).map (fun e => e.1 || e.2)
  let lagV : Rat := (clampN 1 500 (m.get R.CEN_SP_LAG_LAG_V) : Nat) / (100 : Rat)
  let far := new.any (fun e => decide (lagV < absQ (tgt - e.1)))
  let m := { m with cen.vref := new.map Prod.fst, cen.vel := new.map Prod.snd, cen.arrived := at_, cen.came := came,
                    cen.lagRun := if far && m.cen.came.all id then m.cen.lagRun + 1 else 0 }
  let m := if newly then m.put R.CEN_PRG_EVT_SP_ARRIVE 1 else m
  let m := if came.all id then m.put R.CEN_PRG_STAT_SS_DONE 1 else m
  let m := if far then m else m.put R.CEN_PRG_STAT_SP_LAG 0
  m.shows [(R.CEN_SP_REF_V_REF_P, encU 16 ((new.getD 0 (0, 0)).1 * 100)), (R.CEN_SP_REF_V_REF_N, encU 16 ((new.getD 1 (0, 0)).1 * 100))]

/-- One frame of the image set-points (R161): each moves towards its target by R159 or R160 in the mode in force, with its own rate, acceleration
and band; the target stands in the HOST region that the section names. A set-point starts at its target. -/
def Mod.spImage (m : Mod) : Mod :=
  match sectionBytes m.actImg 0x09 with
  | none => m
  | some b =>
    let slew := m.is R.CEN_PRG_STAT_SP_MODE
    let l := ((Config.setpoints b).take 7).mapIdx (fun i (c : Config.SetPoint) =>
      let t := clampQ c.lo c.hi ((sext 16 (rdAt (m.sramByte (c.core % 4)) c.off 2) : Rat) / (2 : Rat) ^ c.q)
      match m.cen.sps[i]? with
      | none => (⟨t, t, 0⟩ : SpS)
      | some s =>
        if slew then
          let r := slewStep (c.rate * 1000) (c.acc * 1000000) c.lo c.hi t s.val s.vel
          ⟨t, r.1, r.2⟩
        else ⟨t, rampStep (c.rate / 200) t s.val, 0⟩)
    { m with cen.sps := l }

/-- What RUN entry sets in the programs (R157, R158, R167): target V_NOM, V_REF from the mean of the last four frames, mode from
RACK_SIZE, laws at rest, the selection in force. -/
def Mod.programsEntry (m : Mod) : Mod :=
  let slew := m.get R.MOD_ROLE_CFG_RACK_SIZE != 1
  let m := { m with cen.tgt := m.vNom, cen.vref := m.cen.preV.map meanQ, cen.vel := [0, 0], cen.came := [false, false],
                    cen.arrived := [false, false], cen.lagRun := 0, cen.fades := List.replicate 2 {},
                    cen.laws := m.cen.laws.map (fun (l : List LawSt) => l.map (fun (st : LawSt) => { st with track := 0, push := false, out := 0 })) }
  m.puts [(R.CEN_SP_TGT_V_TGT, (rna (m.vNom * 100)).toNat), (R.CEN_PRG_STAT_SP_MODE, b2n slew), (R.CEN_PRG_STAT_SS_DONE, b2n slew),
    (R.CEN_STAT_SUPPRESS, 0), (R.CEN_PRG_STAT_LAW_P, m.selMember 0), (R.CEN_PRG_STAT_LAW_N, m.selMember 1)]

/-- A new target of set-point 0 (R157). -/
def Mod.setSpTarget (m : Mod) (v : Nat) : Mod :=
  let (lo, hi) := m.spBand
  let t : Rat := (v : Rat) / 100
  let c := clampQ lo hi t
  let m := { m with cen.tgt := c, cen.arrived := if c = m.cen.tgt then m.cen.arrived else [false, false] }
  let m := (m.putU R.CEN_SP_TGT_V_TGT (c * 100)).flag R.CEN_PRG_STAT_SP_CLAMP (c != t)
  if c = t then m else (m.put R.CEN_PRG_EVT_SP_CLAMP 1).raiseLim (10 * tickS) 8 4 0x0B 0 0

/-! ## Cell observers (R154, R155, R227, R228) -/

/-- Linear interpolation in a table with one point per bin, at bin centres (position counted in bins). -/
def tableAt (l : List Rat) (x : Rat) : Rat :=
  let n := l.length
  let y := clampQ 0 ((n - 1 : Nat) : Rat) (x - 1 / 2)
  let i := (rdn y).toNat
  let a := l.getD i 0
  let b := l.getD (min (n - 1) (i + 1)) 0
  a + (b - a) * (y - (i : Rat))

/-- OCV over s_s and ρ_0 over temperature. -/
def Profile.ocvAt (p : Profile) (s : Rat) : Rat := f16 (tableAt p.ocv (s * 64))
def Profile.rho0At (p : Profile) (t : Rat) : Rat := f16 (tableAt p.rho0 ((t + 10) / 5))

/-- A value as F16E6 takes it in. -/
def fq (q : Rat) : F16 := F16.round q false

/-- v := v e^(−Δ/τ) + ρ (1 − e^(−Δ/τ)) I of a polarisation branch, each operation rounded (R109, R154). -/
def branchStep (v rho tau dt cur : F16) : F16 :=
  let e := ((fq 0).sub dt).div tau |>.exp
  (v.mul e).add ((rho.mul ((fq 1).sub e)).mul cur)

/-- One sweep of a cell observer (R154, R227): `code` 0 VALID, 1 COARSE, 2 INVALID; voltage in use; tab temperature; current. The steps of R154
run in their order, each on what the steps before it left, and every operation is rounded; the second answer is the saturation flag. -/
def observeCell (p : Profile) (dt cur vMeas tTab : Rat) (code : Nat) (o : CellObs) : CellObs × Bool :=
  let d := fq dt
  let i := fq cur
  let sb := (fq o.sb).sub ((i.mul d).div (fq p.q))
  let ss := ((fq o.ss).sub ((i.mul d).div ((fq p.beta).mul (fq p.q)))).sub ((((fq o.ss).sub sb).mul d).div (fq p.tauD))
  let v1 := branchStep (fq o.v1) (fq p.rho1) (fq p.tau1) d i
  let v2 := branchStep (fq o.v2) (fq p.rho2) (fq p.tau2) d i
  let heat := ((i.mul i).mul (fq (p.rho0At o.tc))).sub ((fq p.gTh).mul ((fq o.tc).sub (fq tTab)))
  let tc := (fq o.tc).add ((d.mul heat).div (fq p.cTh))
  let pred := (((fq (p.ocvAt ss.v)).sub v1).sub v2).sub ((fq (p.rho0At tc.v)).mul i)
  let err := (fq vMeas).sub pred
  let g := fq (if code = 0 then 1 else if code = 1 then 1 / 16 else 0)
  let ss' := ss.add (((fq p.gS).mul g).mul err)
  let v1' := v1.add (((fq p.gV).mul g).mul err)
  ({ o with sb := sb.v, ss := ss'.v, v1 := v1'.v, v2 := v2.v, tc := tc.v }, sb.sat || ss'.sat || v1'.sat || v2.sat || tc.sat)

/-- The limits an observer publishes (R155), each operation rounded, and the saturation flag. -/
def limitsOf (p : Profile) (o : CellObs) : CellObs × Bool :=
  let h := fq p.h
  let part := fun (rho tau : Rat) => (fq rho).mul ((fq 1).sub (((fq 0).sub h).div (fq tau)).exp)
  let rh := ((fq (p.rho0At o.tc)).add (part p.rho1 p.tau1)).add (part p.rho2 p.tau2)
  let ith := (((F16.max (fq 0) ((fq p.tMax).sub (fq o.tc))).mul (fq p.cTh)).div ((fq (p.rho0At o.tc)).mul h)).sqrt
  let cap := (fq p.beta).mul (fq p.q)
  let ocv := fq (p.ocvAt o.ss)
  let lim := fun (x y z : F16) => F16.max (fq 0) (F16.min (F16.min x y) (F16.min ith z))
  let e := lim ((((ocv.sub (fq o.v1)).sub (fq o.v2)).sub (fq p.vMin)).div rh) ((((fq o.ss).sub (fq p.sLo)).mul cap).div h) (fq p.iE)
  let f := lim (((((fq p.vMax).sub ocv).add (fq o.v1)).add (fq o.v2)).div rh) ((((fq p.sHi).sub (fq o.ss)).mul cap).div h) (fq p.iF)
  ({ o with iE := e.v, iF := if o.tc < p.tMin then 0 else f.v, valid := true }, e.sat || f.sat)

/-- An observer before its first sweep: states of charge as the image's data leaves them, which the spec does not lay out
(log 15). -/
def freshObs (build i : Nat) : CellObs := { sb := (Config.freeNat (build * 4096 + 2 * i) % 1024 : Nat) / (1024 : Rat),
                                            ss := (Config.freeNat (build * 4096 + 2 * i + 1) % 1024 : Nat) / (1024 : Rat) }

/-! ## Commands -/

/-- CEN_CTL.START (R126). -/
def execCenCtlStart (s : State) : Out := onMod (fun m => m.guarded 0x8044 1 Mod.startReq) s

/-- CORES_START (R126): at the scheduled frame the cores start together. -/
def execCoresStart (s : State) : Out := onMod (fun m =>
  match m.cen.start with
  | none => m
  | some f => if f ≤ m.frame ∧ !m.inRun ∧ m.bankOk m.actBank then m.startCores else m) s

/-- STOP. -/
def Mod.cenStop (m : Mod) : Mod :=
  if m.inRun then m else { m with cen.stop := true, cen.start := none }

/-- CEN_CTL.STOP (R126, Table 04-14): outside RUN all cores stop at the next frame boundary. -/
def execCenCtlStop (s : State) : Out := onMod (fun m =>
  m.guarded 0x8044 2 (fun m => m.cenStop)) s

/-- Commit 8 bytes to the bank the window addresses (R125, R133, R475); the write that reaches the end of the signature block, or of the banks where
SIG_OFF points beyond them, ends the image and starts its check. -/
def Mod.bankWrite (m : Mod) (fu : Fuses) (c o : Nat) (b : List Nat) : Mod :=
  let k := m.winBank
  let a := c * coreBank + o
  let m := m.put (if k = 0 then R.CEN_STAT_IMG_A else R.CEN_STAT_IMG_B) 0
  let m := { m with cen.bank := Sparse.setMany (fun _ => 0) m.cen.bank (k * bankSize + a) b }.dropDead (4 + c) (k * coreBank + o) 8
  let m := m.showImages
  let f := m.bankByte k
  let last := min bankSize (rdAt f 24 4 + 512)
  if a < last ∧ last ≤ a + 8 then m.checkWeave fu k else m

/-- The window's address advances by 8. -/
def Mod.advanceWin (m : Mod) : Mod := m.put R.CEN_WIN_ADDR_ADDR (m.get R.CEN_WIN_ADDR_ADDR + 8)

/-- Whether a window write to SRAM is accepted (R133, R145, R168): HOST or STAGE regions, not the COEF copy in use. -/
def Mod.sramWritable (m : Mod) (c o : Nat) : Bool :=
  let rs := m.regions
  (regionHas rs 1 c o || regionHas rs 2 c o) && !(if m.is R.CEN_PRG_STAT_COEF then regionHas rs 5 c o else regionHas rs 4 c o)

/-- A window write of 8 bytes. -/
def Mod.winWrite (m : Mod) (fu : Fuses) (hi : Nat) : Mod :=
  let a := m.get R.CEN_WIN_ADDR_ADDR / 8 * 8
  let c := m.get R.CEN_WIN_ADDR_CORE
  let b := leBytes 4 (m.get R.CEN_WIN_DATA_LO_DATA) ++ leBytes 4 hi
  if m.is R.CEN_WIN_ADDR_SPACE then
    if a < coreBank then (m.bankWrite fu c a b).advanceWin else (m.put R.CEN_WIN_ADDR_REFUSED 1).advanceWin.refuse
  else if m.sramWritable c a then
    let m := if regionHas m.regions 2 c a then m.put R.CEN_STAGE_STAGE_OK 0 else m
    ({ m with cen.winDue := m.cen.winDue ++ (b.mapIdx (fun i v => (c * sramSize + a + i, v))) }).advanceWin
  else (m.put R.CEN_WIN_ADDR_REFUSED 1).advanceWin.refuse

/-- CEN_WIN_WRITE (R133): a DATA_HI write commits 8 bytes, or is refused. -/
def execCenWinWrite (hi : Word) (s : State) : Out := onMod (fun m =>
  m.guardedR 0x8188 hi.toNat (fun m => m.winWrite s.fuses hi.toNat)) s

/-- A word of core SRAM as a read finds it (R133): what the last frame that ran left there. -/
def Mod.sramWord (m : Mod) (c a : Nat) : Nat := rdAt (m.sramByte c) a 4

/-- A read of CEN_WIN_DATA_HI. -/
def Mod.winRead (m : Mod) : Nat × Mod :=
  let a := m.get R.CEN_WIN_ADDR_ADDR / 8 * 8
  let c := m.get R.CEN_WIN_ADDR_CORE
  if m.is R.CEN_WIN_ADDR_SPACE then (rdAt (fun o => m.bankByte m.winBank (c * coreBank + o)) (a + 4) 4, m.advanceWin)
  else (m.sramWord c (a + 4), m.advanceWin)

/-- A read of CEN_WIN_DATA_LO: bytes 0 to 3 of the addressed word; the address stays. -/
def Mod.winLow (m : Mod) : Nat × Mod :=
  let a := m.get R.CEN_WIN_ADDR_ADDR / 8 * 8
  let c := m.get R.CEN_WIN_ADDR_CORE
  if m.is R.CEN_WIN_ADDR_SPACE then (rdAt (fun o => m.bankByte m.winBank (c * coreBank + o)) a 4, m)
  else (m.sramWord c a, m)

/-- CEN_WIN_READ (R133): the DATA_HI read returns bytes 4 to 7 of the addressed word and advances. -/
def execCenWinRead (s : State) : Out := onMod (fun m =>
  m.guardedRd 0x8188 (fun m => m.winRead)) s

/-- A write of CEN_SWAP. -/
def Mod.swapWrite (m : Mod) (v : Word) : Mod :=
  if v = 0 then (m.endSwap).put R.CEN_SWAP_FRAME 0 else m.requestSwap (m.swapFrame v.toNat)

/-- CEN_SWAP write (R127): 0 cancels; another value names a frame as a serial number. -/
def execCenSwapWrite (v : Word) (s : State) : Out := onMod (fun m =>
  m.guarded 0x8100 v.toNat (fun m => m.swapWrite v)) s

/-- BANK_SWAP (R127, R128, R171): at the requested frame the banks swap or the swap is cancelled. -/
def execBankSwap (s : State) : Out := onMod (fun m =>
  match m.cen.swap with
  | none => m
  | some f => if f ≤ m.frame then m.swapDue (m.cen.unpub || m.cen.miss) else m) s

/-- The CMD frames of the running frame carry the phases' present commands (R199): same SEQ, the body formed again. -/
def Mod.remakeCmd (m : Mod) : Mod :=
  { m with phs.links := (bank 8 m.phs.links {}).mapIdx (fun l (k : PLink) =>
      { k with sent := k.sent.map (fun b => if b.headD 0 = 1 then downFrame 1 (b.getD 1 0) (m.cmdBody l) else b) }) }

/-- A frame of RUN without a phase command (R204): its CMD frame carries OFF for every phase, kept until the next RUN entry; PH_NOCMD. -/
def Mod.noCommand (m : Mod) : Mod :=
  if !m.inRun || m.phs.noCmd || !m.pageOn 9 || m.inReset 9 0 then m
  else ({ m.allOff with phs.noCmd := true }.remakeCmd.put R.PHS_EVT_NOCMD 1).raise 9 8 0x0A 0 1

/-- CMD_LATE (R137, R138): commands of a core that writes phase commands not issued by cycle 1,584; the frame carries OFF for every phase. -/
def execCmdLate (core : Fin 4) (s : State) : Out := onMod (fun m =>
  if m.get (coreSt core) = 2 ∧ m.get (R.CEN_LEN_CMD_DECL core) ≠ 0x1FFF then
    let m := ((m.bump R.CEN_LATE_CNT_COUNT).put R.CEN_EVT_LATE 1).raise 8 core 2 1584 2
    (m.coreFault core).noCommand
  else m) s

/-- OVERRUN (R137): the last bundle not retired by cycle 7,680. -/
def execOverrun (core : Fin 4) (s : State) : Out := onMod (fun m =>
  if m.get (coreSt core) = 2 then
    let m := ((m.bump R.CEN_OVR_CNT_COUNT).put R.CEN_EVT_OVR 1).raise 8 core 1 7680 2
    m.coreFault core
  else m) s

/-- DMA_MISS (R132): a window miss halts the channel, and its transfers from that cycle on leave their destinations as they were; on a critical
channel it is fatal and stops the cores, else uncorrected, and the core's outputs of the frame are stale. -/
def execDmaMiss (core : Fin 4) (ch : Fin 8) (cycle : Nat) (s : State) : Out := onMod (fun m =>
  if m.get (coreSt core) = 2 && !bit (m.get R.CEN_DMA_STAT_HALT) (core * 8 + ch) then
    let m := { (m.put R.CEN_DMA_STAT_HALT (setBit (m.get R.CEN_DMA_STAT_HALT) (core * 8 + ch) true)) with
               cen.missAt := m.cen.missAt ++ [(core.val * 8 + ch.val, cycle % 8192)] }
    let m := (m.bump R.CEN_MISS_CNT_COUNT).put R.CEN_EVT_MISS 1
    let crit := match sectionOf m.actImg 0x08 core with
      | none => false
      | some b => Config.dmaCritical b (core * 8 + ch)
    let addr := cycle % 8192 + ch * 65536
    if crit then (m.raise 8 core 3 addr 2).coreFault core else (({ m with cen.miss := true }.raise 8 core 3 addr 1).undoSwap)
  else m) s

/-- A law selection (R163, R167): a request; outside RUN it applies at once without a fade. -/
def Mod.selectLaw (m : Mod) (w : Nat) : Mod :=
  let m := m.puts [(R.CEN_LAW_SEL_SEL_P, w % 2), (R.CEN_LAW_SEL_SEL_N, w / 2 % 2), (R.CEN_LAW_SEL_COEF, w / 4 % 2)]
  if m.inRun then m
  else
    let diff := w % 2 != m.member 0 || w / 2 % 2 != m.member 1 || w / 4 % 2 != m.get R.CEN_PRG_STAT_COEF
    let m := m.puts [(R.CEN_PRG_STAT_LAW_P, w % 2), (R.CEN_PRG_STAT_LAW_N, w / 2 % 2), (R.CEN_PRG_STAT_COEF, w / 4 % 2),
      (R.CEN_PRG_STAT_HO_PEND, 0)]
    if diff then m.bump R.CEN_HO_CNT_COUNT else m

/-- CEN_LAW_SEL write (R163). -/
def execCenLawSelWrite (v : Word) (s : State) : Out := onMod (fun m =>
  m.guarded 0x8204 v.toNat (fun m => m.selectLaw v.toNat)) s

/-- HO_DEFER (R164): a selection pending for more than 100 ms. -/
def execHoDefer (s : State) : Out := onMod (fun m =>
  if m.is R.CEN_PRG_STAT_HO_PEND && decide (20000 ≤ m.cen.selFrames) then
    { ((m.put R.CEN_PRG_EVT_HO_DEFER 1).raise 8 4 9 0 0) with cen.selFrames := 0 }
  else m) s

/-- CEN_SP_TGT write (R157). -/
def execCenSpTgtWrite (v : Word) (s : State) : Out := onMod (fun m =>
  m.guarded 0x8218 v.toNat (fun m => m.setSpTarget (v.toNat % 65536))) s

/-- SP_LAG (R162): V_REF beyond LAG_V of its target for LAG_MS. -/
def execSpLag (s : State) : Out := onMod (fun m =>
  if m.inRun && decide (200 * clampN 1 10000 (m.get R.CEN_SP_LAG_LAG_MS) ≤ m.cen.lagRun) then
    let m := m.put R.CEN_PRG_STAT_SP_LAG 1
    let key := raiseKey 8 4 0x0A
    if m.mayRaise key (10 * tickS) then (m.put R.CEN_PRG_EVT_SP_LAG 1).raiseLim (10 * tickS) 8 4 0x0A 0 0 else m
  else m) s

/-- SEAL. -/
def Mod.stageSeal (m : Mod) : Mod :=
  if m.bankOk (1 - m.actBank) then m.put R.CEN_STAGE_BUSY 1
  else ((m.puts [(R.CEN_STAGE_BUSY, 0), (R.CEN_STAGE_STAGE_OK, 0)])).raise 8 4 0x0C 0 0

/-- CEN_STAGE.SEAL (R171): the CRC check starts; with no accepted inactive image it fails at once. -/
def execCenStageSeal (s : State) : Out := onMod (fun m =>
  m.guarded 0x8228 1 (fun m => m.stageSeal)) s

/-- Every staged region of the inactive image matches its CRC-64 (R171). -/
def Mod.stageOk (m : Mod) : Bool :=
  match sectionBytes (m.bankByte (1 - m.actBank)) 0x0D with
  | none => true
  | some b => (Config.stageCrcOf b).all (fun e => crc64 (bytesAt (m.sramByte e.1) e.2.1 e.2.2.1) == e.2.2.2)

/-- STAGE_CHECK_DONE (R171). -/
def execStageCheckDone (s : State) : Out := onMod (fun m =>
  if m.is R.CEN_STAGE_BUSY then
    let m := m.put R.CEN_STAGE_BUSY 0
    if m.bankOk (1 - m.actBank) && m.stageOk then m.put R.CEN_STAGE_STAGE_OK 1
    else (m.put R.CEN_STAGE_STAGE_OK 0).raise 8 4 0x0C 0 0
  else m) s

end Sys2Proof.Machine
end

