-- ==== Sys2Proof/Machine/Phases.lean ====
section
/-!
DEFINITION. Phase control (R173 to R209): references, voltage-mode loops, shedding and adding, starts, braking, phase links,
per-phase protection, and the rows of the phase controller.
-/
namespace Sys2Proof.Machine

/-! ## Parameters (Table 06-15) -/

/-- I_RAT, A. -/
def Mod.iRat (m : Mod) : Rat := (clampN 100 1000 (m.get R.PHS_CFG_I_RAT) : Nat) / (10 : Rat)

/-- I_LIM, A (R178). -/
def Mod.iLim (m : Mod) : Rat := (clampN 100 150 (m.get R.PHS_SHED_LIM_PCT) : Nat) * m.iRat / 100

/-- SHED_PCT and ADD_PCT as fractions. -/
def Mod.shedPct (m : Mod) : Rat := (clampN 10 90 (m.get R.PHS_SHED_SHED_PCT) : Nat) / (100 : Rat)
def Mod.addPct (m : Mod) : Rat :=
  (clampN (clampN 10 90 (m.get R.PHS_SHED_SHED_PCT) + 10) 100 (m.get R.PHS_SHED_ADD_PCT) : Nat) / (100 : Rat)

/-- SHED_RAMP, frames or feed periods. -/
def Mod.shedRamp (m : Mod) : Nat := clampN 1 64 (m.get R.PHS_SHED_SHED_RAMP)

/-- SHED_DWELL, frames or feed periods. -/
def Mod.shedDwell (m : Mod) : Nat := max 1 (m.get R.PHS_SHED2_SHED_DWELL)

/-- N_MIN of a converter. -/
def Mod.nMin (m : Mod) (c : Nat) : Nat :=
  if c < 2 then clampN 1 12 (m.get R.PHS_CFG_N_MIN) else clampN 1 8 (m.get R.PHS_CFG_N_MIN_F)

/-- PB_MIN, A. -/
def Mod.pbMin (m : Mod) : Rat := (max 1 (m.get R.PHS_PB_PB_MIN) : Nat) / (4 : Rat)

/-- PB_CYCLES, BRK_DI (A), BRK_MAX. -/
def Mod.pbCycles (m : Mod) : Nat := max 1 (m.get R.PHS_PB_PB_CYCLES)
def Mod.brkDi (m : Mod) : Rat := (max 1 (m.get R.PHS_PB_BRK_DI) : Nat)
def Mod.brkMax (m : Mod) : Nat := max 1 (m.get R.PHS_PB_BRK_MAX)

/-- MIN_ON and MIN_OFF with both dead times, ticks (units of 1.25 ns are 16 ticks). -/
def Mod.minOn (m : Mod) : Nat := 16 * m.get R.PHS_LOOP_MIN_ON
def Mod.minOff (m : Mod) : Nat := 16 * m.get R.PHS_LOOP_MIN_OFF + m.get R.PHS_DT_DT_RISE + m.get R.PHS_DT_DT_FALL

/-- GLIDE, ticks per period (R181). -/
def Mod.glideTicks (m : Mod) : Nat := clampN 100 32000 (m.get R.PHS_ROT_GLIDE)

/-- Shore overcurrent limit, A (Table 06-11). -/
def Mod.ocLimit (m : Mod) : Rat :=
  (clampN (clampN 100 150 (m.get R.PHS_SHED_LIM_PCT)) 200 (m.get R.PHS_PROT_OC_PCT) : Nat) * m.iRat / 100

/-- A corrected-class report of a phase, at most once per second per phase (R209). -/
def Mod.phsCorrected (m : Mod) (kind n : Nat) : Mod := m.raiseLimAt tickS 9 (phaseLink n) kind n 0

/-- START of a corrected-class condition of a phase, at most once per second per phase (R209). -/
def Mod.phsCondStart (m : Mod) (kind n : Nat) : Mod :=
  m.condStartLim ((n + 1) * 2 ^ 24 + raiseKey 9 (phaseLink n) kind) 9 (phaseLink n) kind n

/-! ## Shares, adding and shedding -/

/-- What a converter carries: the string-side reference of a storage pole (A), the commanded feed power of a feed pole (kW). -/
def Mod.convDemand (m : Mod) (c : Nat) : Rat :=
  if c < 2 then divV ((m.bp c).iCmd * m.vBus c) (m.vStr c) else (m.bp (c - 2)).pF

/-- The rating of one phase in the unit of `convDemand`: I_RAT, or 12.5 kW (R183). -/
def Mod.convUnit (m : Mod) (c : Nat) : Rat := if c < 2 then m.iRat else 25 / 2

/-- n_need of a converter (R183). -/
def Mod.nNeed (m : Mod) (c : Nat) : Nat :=
  min (m.nAct c) (max (m.nMin c) (absQ (m.convDemand c) / (m.addPct * m.convUnit c)).ceil.toNat)

/-- A pole's phases are held OFF while a fatal open channel of the pole stands (R195). -/
def Mod.poleOpen (m : Mod) (p : Nat) : Bool := [56, 58, 60, 62, 64, 66].any (fun c => m.afe.openCond.contains (c + p))

/-- The active phases outside the run, in the order they are added: circular from the place after the run's end, those under an
over-temperature warning last (R183, Table 06-11). -/
def Mod.addOrder (m : Mod) (c : Nat) : List Nat :=
  let k := m.conv c
  let from_ := match k.run.getLast? with
    | none => k.base
    | some n => (m.places c).findIdx (· == n) + 1
  let l := (m.activeFrom c from_).filter (fun n => !k.run.contains n)
  l.filter (fun n => !(m.phase n).warn) ++ l.filter (fun n => (m.phase n).warn)

/-- A phase starts (R186): zero mean volt-seconds first, integrator at 0, its target offset at once (R181). -/
def Mod.startPhase (m : Mod) (n : Nat) : Mod :=
  m.setPhase n (fun x => { x with startLeft := m.pbCycles + 1, q := 0, corr := 0, expect := 0, r := 0, value := 0, brake := none,
                                  mode := 0, fresh := true })

/-- A rotation in progress is abandoned: BASE returns to the run's first position (R182). -/
def Mod.dropRotation (m : Mod) (c : Nat) : Mod :=
  let k := m.conv c
  match k.rot with
  | none => m
  | some n => m.setConv c (fun k => { k with rot := none, shedJ := none, base := (m.places c).findIdx (· == n) })

/-- Add phases while n_need exceeds n_fire; adding cancels a shed ramp and a rotation (R183, Table 06-4). -/
def Mod.addPhases (m : Mod) (c : Nat) : Mod :=
  let need := m.nNeed c
  let k := m.conv c
  if need ≤ k.run.length then m
  else
    let m := if k.shedJ.isSome then (m.bump R.PHS_CUT_CNT_COUNT).put R.PHS_EVT_CUT 1 else m
    let m := m.dropRotation c
    let l := (m.addOrder c).take (need - k.run.length)
    let m := m.setConv c (fun k => { k with shedJ := none, dwell := 0, run := k.run ++ l })
    l.foldl (fun m n => (m.startPhase n).bump R.PHS_ADD_CNT_COUNT) m

/-- Order the run with warned phases last (Table 06-11). -/
def Mod.orderRun (m : Mod) (c : Nat) : Mod :=
  m.setConv c (fun k => { k with run := k.run.filter (fun n => !(m.phase n).warn) ++ k.run.filter (fun n => (m.phase n).warn) })

/-- The shed ramp moves on by one frame or feed period; after its end the outgoing phase is OFF (R184). -/
def Mod.shedStep (m : Mod) (c : Nat) : Mod :=
  let k := m.conv c
  match k.shedJ, k.outgoing with
  | some j, some n =>
    if j < m.shedRamp then m.setConv c (fun k => { k with shedJ := some (j + 1) })
    else
      let m := (m.phaseOff n).bump R.PHS_SHED_CNT_COUNT
      m.setConv c (fun k => { k with shedJ := none, rot := none, dwell := 0, run := k.run.filter (· != n) })
  | _, _ => m

/-- A rotation's shed begins once the added phase has left its start (R182). -/
def Mod.rotationStep (m : Mod) (c : Nat) : Mod :=
  let k := m.conv c
  if k.rot.isNone then m
  else if !m.is R.CEN_PRG_STAT_SS_DONE then m.dropRotation c
  else
    match k.run.getLast? with
    | none => m.dropRotation c
    | some n => if k.shedJ.isNone && (m.phase n).startLeft == 0 then m.setConv c (fun k => { k with shedJ := some 0 }) else m

/-- Reference of a phase of the run (R178, R184), before braking. -/
def Mod.shareOf (m : Mod) (c n : Nat) : Rat :=
  let k := m.conv c
  let d := m.convDemand c
  let nf : Rat := (k.run.length : Nat)
  let lim := if c < 2 then m.iLim else 25 / 2
  let r :=
    match k.outgoing, k.shedJ with
    | some o, some j =>
      let share := d / nf * ((m.shedRamp - j : Nat) : Rat) / (m.shedRamp : Rat)
      if o = n then share else divV (d - share) (nf - 1)
    | _, _ => d / nf
  clampQ (-lim) lim r

/-- The tide table's forecast of a pole's string current over the next `n` frames exceeds `x` somewhere (R184). -/
def Mod.forecastAbove (m : Mod) (p n : Nat) (x : Rat) : Bool :=
  (List.range (n + 1)).any (fun d =>
    let th := (m.ttb.theta + d * incOf m.ttb.t) % turn
    let i := m.forecast p th - divV ((m.bwk.star / 2 + m.bwk.pfol / 2) * 1000) (m.vBus p)
    decide (x < absQ (divV (i * m.vBus p) (m.vStr p))))

/-- An inhibit of R184 holds. -/
def Mod.shedInhibit (m : Mod) (c : Nat) : Bool :=
  let k := m.conv c
  let look := m.get R.PHS_SHED2_SHED_LOOK
  !m.is R.CEN_PRG_STAT_SS_DONE ||
  (m.ffOn && m.forecastAbove (c % 2) look (m.shedPct * m.iRat * ((k.run.length - 1 : Nat) : Rat))) ||
  m.ttb.mks.any (fun w => decide (w.disp ≤ 1) && decide (w.mrk.edgeT ≤ m.nowNs + 5000 * look))

/-- Frames (or feed periods) that qualify for a shed are counted (R184). A rotation's own ramp and its one extra phase are left out of the count;
a shed demand that falls due in a rotation abandons it (R182). -/
def Mod.dwellStep (m : Mod) (c : Nat) : Mod :=
  let k := m.conv c
  let n := if k.rot.isSome then k.run.length - 1 else k.run.length
  let ok := decide (m.nMin c < n) && (k.shedJ.isNone || k.rot.isSome) && !m.shedInhibit c &&
    decide (absQ (m.convDemand c) < m.shedPct * m.convUnit c * ((n - 1 : Nat) : Rat))
  let m := m.setConv c (fun k => { k with dwell := if ok then k.dwell + 1 else 0 })
  if k.rot.isSome && decide (m.shedDwell ≤ (m.conv c).dwell) then m.dropRotation c else m

/-! ## The loops -/

/-- MODE of a storage phase for its reference: the asynchronous mode of its sign (R186). -/
def asyncMode (r : Rat) : Nat := if 0 < r then 2 else if r < 0 then 3 else 0

/-- The braking of a phase begins (R188). -/
def Mod.beginBrake (m : Mod) (n : Nat) : Mod :=
  (m.setPhase n (fun x => { x with brake := some 0, mode := 3, value := 0 })).bump R.PHS_BRK_CNT_COUNT

/-- R178 for a firing phase: new integrator and VALUE. -/
def Mod.storageValue (m : Mod) (p n : Nat) (x : Phase) (r : Rat) : Rat × Int :=
  let eps := r - m.chanMean n
  let gp : Rat := (m.get R.PHS_LOOP_GP : Nat) / (4096 : Rat)
  let gi : Rat := (m.get R.PHS_LOOP_GI : Nat) / (65536 : Rat)
  let q := clampQ (-(1 / 4)) (1 / 4) (x.q + gi * eps)
  let d := clampQ ((m.minOn : Rat) / 64000) (1 - (m.minOff : Rat) / 64000) (divV (m.vStr p) (m.vBus p) - gp * eps - q)
  (q, rna (d * 64000))

/-- The VALUE a storage phase starts with (R186). -/
def Mod.ratioValue (m : Mod) (p : Nat) : Int := clampI 0 64000 (rna (divV (m.vStr p) (m.vBus p) * 64000))

/-- One frame of a storage phase of the run (R178, R186, R188). -/
def Mod.storagePhase (m : Mod) (c n : Nat) : Mod :=
  let x := m.phase n
  let r := m.shareOf c n
  let zeroEnv := decide ((m.bp c).iEbb = 0 ∧ (m.bp c).iFld = 0)
  match x.brake with
  | some k => m.setPhase n (fun x => { x with r := r, brake := some (k + 1), mean := m.chanMean n })
  | none =>
    if x.mode ≠ 0 ∧ x.r < 0 ∧ (x.r + m.brkDi < r ∨ zeroEnv) then
      (m.setPhase n (fun x => { x with r := r, mean := m.chanMean n })).beginBrake n
    else
      let mean := m.chanMean n
      let first := x.startLeft == m.pbCycles + 1
      let qv := if first then (0, m.ratioValue c) else m.storageValue c n x r
      let left := if x.startLeft = 0 then 0
        else if 1 < x.startLeft then x.startLeft - 1
        else if 0 < mean * r ∧ m.pbMin ≤ absQ mean then 0 else 1
      let async := 0 < x.startLeft ∧ left ≠ 0 ∨ x.startLeft > 1 ∨ absQ r < m.pbMin
      m.setPhase n (fun x => { x with r := r, q := qv.1, value := qv.2, startLeft := left, mean := mean,
                                      mode := if async then asyncMode r else 1 })

/-- One feed period of a feed phase of the run (R179). -/
def Mod.feedPhase (m : Mod) (c n : Nat) : Mod :=
  let x := m.phase n
  let share := m.shareOf c n
  let vf := m.chanMean (60 + c)
  let vb := m.vBus (c - 2)
  let first := decide (0 < x.startLeft)
  let mean := (x.mean + m.chanMean n) / 2
  let corr := if first then 0 else clampQ (-4000) 4000 (x.corr + Config.dabGain m.build * (x.expect - mean))
  let v : Int := if first then 0 else clampI (-32000) 32000 (Config.dabValue m.build vf vb share + rna corr)
  m.setPhase n (fun x => { x with r := share, corr := corr, value := v, mode := 1, startLeft := 0, mean := m.chanMean n,
                                  expect := Config.dabExpect m.build vf vb v })

/-- Offsets of a run glide to their targets by at most `g` ticks; a phase that starts takes its target at once (R180, R181). -/
def Mod.offsetStep (m : Mod) (c g : Nat) : Mod :=
  let run := (m.conv c).run
  let nf := run.length
  (run.mapIdx (fun j n => (j, n))).foldl (fun m e =>
    let t := targetOffset c e.1 nf
    m.setPhase e.2 (fun x => { x with offset := if x.fresh then t else glide (convPeriod c) x.offset t g, fresh := false })) m

/-- One frame of a converter that has commands: adding in every frame (R183), shedding, references, loops, offsets. Feed loops run in even
frames; a feed phase added in an odd frame fires with VALUE 0 until then (R186). -/
def Mod.convFrame (m : Mod) (c : Nat) : Mod :=
  if m.poleOpen (c % 2) then
    let m := (convPhases c).foldl Mod.phaseOff m
    m.setConv c (fun k => { k with run := [], shedJ := none, dwell := 0, rot := none })
  else if c < 2 || m.frame % 2 == 0 then
    let m := m.setConv c (fun k => { k with run := k.run.filter m.phaseActive })
    let m := ((m.rotationStep c).shedStep c).addPhases c
    let m := m.orderRun c
    let m := m.dwellStep c
    let run := (m.conv c).run
    let m := run.foldl (fun m n => if c < 2 then m.storagePhase c n else m.feedPhase c n) m
    m.offsetStep c m.glideTicks
  else
    let m := m.setConv c (fun k => { k with run := k.run.filter m.phaseActive })
    let m := (m.addPhases c).orderRun c
    let m := (m.conv c).run.foldl (fun m n => m.setPhase n (fun x => if x.fresh then { x with mode := 1 } else x)) m
    let m := m.offsetStep c 0
    (convPhases c).foldl (fun m n => m.setPhase n (fun x => { x with mean := m.chanMean n })) m

/-! ## Judged protections -/

/-- The engine supplied phase commands for this frame: cores 0 to 3 run, outputs published, not suppressed (R122, R137, R204). -/
def Mod.commandsGiven (m : Mod) : Bool := m.coresRun && !m.cen.unpub && !m.is R.CEN_STAT_SUPPRESS

/-- Means of the firing phases against their pole's (PH_IMB) and sums against the string current (PH_SENSE). -/
def Mod.judgeMeans (m : Mod) : Mod :=
  let imb : Rat := (m.get R.PHS_PROT2_IMB_A : Nat)
  let sum : Rat := 2 * (m.get R.PHS_PROT2_SUM_A : Nat)
  let m := (List.range 4).foldl (fun m c =>
    let run := (m.conv c).run
    let mu := meanQ (run.map m.chanMean)
    (convPhases c).foldl (fun m n =>
      let far := run.contains n && decide (imb < absQ (m.chanMean n - mu))
      let m := m.setPhase n (fun x => { x with imbRun := if far then x.imbRun + 1 else 0 })
      if far then m else m.condEnd 9 (phaseLink n) 5 n 0) m) m
  [0, 1].foldl (fun m p =>
    let far := decide (sum < absQ (sumQ ((convPhases p).map m.chanMean) - m.iStr p))
    let m := { m with phs.sumRun := m.phs.sumRun.modify p (fun k => if far then k + 1 else 0) }
    if far then m else m.condEnd 9 8 6 (12 * p) 1) m

/-- Frames in which both conditions of R190 hold for a pole. -/
def Mod.judgeShort (m : Mod) : Mod :=
  let l := m.startLim
  let soft := m.inRun && m.softStart
  let lag : Rat := (clampN 5 100 (m.get R.PHS_SC_SC_LAG_V) : Nat)
  [0, 1].foldl (fun m p =>
    let b := m.bp p
    let fr : Rat := (m.nAct (p + 2) : Rat) * (25 / 2) * l
    let atLim := decide (b.iCmd = b.iEbb * l) || decide (b.iCmd = -b.iFld * l) || decide (absQ b.pF = fr)
    let low := decide (m.vBus p < m.cen.vref.getD p 0 - lag)
    { m with phs.scRun := m.phs.scRun.modify p (fun k => if soft && atLim && low then k + 1 else 0) }) m

/-! ## The frame -/

/-- Downlink of a frame (R199, R204): on a trained link CMD in slot 0, CFG with ARM in slot 4 when due, PATCH frames that waited, KEEP elsewhere.
On a link in training one echo request per frame, up to 16 (R203). A frame of a trained link that brought no status frame left eight of them
missing. -/
def Mod.downlinkFrame (m : Mod) : Mod :=
  (List.range 8).foldl (fun m l =>
    let k := (m.phs.links.getD l {})
    let missed := if k.sent.isEmpty || k.got then k.missed else k.missed + 8
    if !m.linkUp l then
      let cfg := downFrame 3 k.seq (m.cfgBody l false true)
      { m with phs.links := (bank 8 m.phs.links {}).modify l (fun k =>
          if k.echoes < 16 then { k with sent := [cfg], seq := (k.seq + 1) % 256, echoes := k.echoes + 1, due := [], got := false }
          else { k with sent := [], due := [], got := false }) }
    else
      let m := { m with phs.links := (bank 8 m.phs.links {}).modify l (fun k =>
        { k.newFrame (m.cmdBody l) with missed := missed, got := false, armDue := false }) }
      if k.armDue then
        (m.sendDown l 3 (m.cfgBody l true false)).put R.PHS_LNK_STAT_ABORTED (setBit (m.get R.PHS_LNK_STAT_ABORTED) l false)
      else m) m

/-- The phase controller's frame. -/
def Mod.phaseFrame (m : Mod) : Mod :=
  if !m.pageOn 9 || m.inReset 9 0 then m
  else
    let arming := m.phs.links.any (·.armDue)
    let m :=
      if !m.inRun then m.allOff
      else if arming || m.phs.noCmd then m.allOff
      else if m.commandsGiven then (List.range 4).foldl Mod.convFrame m
      else m.noCommand
    let m := (m.judgeMeans.judgeShort).syncPhases
    let m : Mod := { m with
      phs.frames := m.phs.frames + 1,
      phs.ph := m.phs.ph.mapIdx (fun n x => { x with sumI := x.sumI + m.chanMean n, sumT := x.sumT + m.chanLow (96 + n) }) }
    if 2 ≤ m.pstate then m.downlinkFrame else m

/-- The 1 ms means of the phases at a plan boundary (R193), and the over-temperature judgement (Table 06-11). -/
def Mod.phasesMs (m : Mod) : Mod :=
  if !m.pageOn 9 || m.phs.frames = 0 then m
  else
    let k : Rat := (m.phs.frames : Nat)
    let w : Rat := (m.get R.PHS_PROT_OT_WARN : Nat)
    let t : Rat := (max (m.get R.PHS_PROT_OT_WARN) (m.get R.PHS_PROT_OT_TRIP) : Nat)
    let m := (List.range 40).foldl (fun m n =>
      let x := m.phase n
      let i := x.sumI / k
      let c := x.sumT / k / 100
      let m := (m.putQ (R.PHS_IAVG_I_AVG n) (i * 32)).putQ (R.PHS_IAVG_TEMP n) (c * 10)
      let m := m.setPhase n (fun x => { x with sumI := 0, sumT := 0 })
      let m :=
        if w < c then
          (if x.warn then m else (m.setPhase n (fun x => { x with warn := true })).put R.PHS_EVT_OT_WARN 1).phsCondStart 4 n
        else if c ≤ w - 5 ∧ x.warn then (m.setPhase n (fun x => { x with warn := false })).condEnd 9 (phaseLink n) 4 n 0
        else m
      if t < c ∧ !m.isolated n then (m.isolate n 3).raise 9 (phaseLink n) 3 n 1 else m) m
    { m with phs.frames := 0 }

/-- The latest 10 MS/s samples widen the peaks of the phases (R193). -/
def Mod.peaks (m : Mod) (rows : List (List Int)) : Mod :=
  if !m.pageOn 9 || rows.isEmpty then m
  else
    (List.range 40).foldl (fun m n =>
      let v := rows.map (fun r => clampI (-32768) 32767 (rna (m.calQ n (4 * r.getD n 0) * 125 * 32 / 32768)))
      let hi := v.foldl max (m.getI (R.PHS_IPK_I_MAX n))
      let lo := v.foldl min (m.getI (R.PHS_IPK_I_MIN n))
      (m.putI (R.PHS_IPK_I_MAX n) hi).putI (R.PHS_IPK_I_MIN n) lo) m

/-- What RUN entry does to the phases (R204, R206): the PH_NOCMD latch is cleared, every trained link is to be armed. -/
def Mod.phasesEntry (m : Mod) : Mod :=
  { m with phs.noCmd := false, phs.sumRun := [0, 0], phs.scRun := [0, 0],
           phs.links := m.phs.links.mapIdx (fun l k => { k with armDue := m.linkUp l }) }

/-! ## Commands -/

/-- PHASE_SHED_START (R184): after SHED_DWELL qualifying frames the run's last phase starts its ramp. -/
def execPhaseShedStart (conv : Fin 4) (s : State) : Out := onMod (fun m =>
  let k := m.conv conv
  if m.inRun && decide (m.shedDwell ≤ k.dwell) && k.shedJ.isNone && k.rot.isNone then
    m.setConv conv (fun k => { k with shedJ := some 0, dwell := 0 })
  else m) s

/-- A rotation of one converter starts (R182): BASE advances, the next active position is added, which cancels a shed ramp as every add does
(R183); with none to add the run's order rotates. -/
def Mod.rotate (m : Mod) (c : Nat) : Mod :=
  let k := m.conv c
  match k.run with
  | [] => m.setConv c (fun k => { k with base := (k.base + 1) % (m.places c).length })
  | h :: t =>
    if k.rot.isSome || !m.is R.CEN_PRG_STAT_SS_DONE then m
    else
      let m := if k.shedJ.isSome then ((m.setConv c (fun k => { k with shedJ := none })).bump R.PHS_CUT_CNT_COUNT).put R.PHS_EVT_CUT 1 else m
      let m := m.setConv c (fun k => { k with base := (k.base + 1) % (m.places c).length, dwell := 0 })
      match m.addOrder c with
      | [] => m.setConv c (fun k => { k with run := t ++ [h] })
      | n :: _ =>
        let m := (m.startPhase n).bump R.PHS_ADD_CNT_COUNT
        m.setConv c (fun k => { k with run := k.run ++ [n], rot := some h })

/-- PHASE_ROTATION (R182): the timed rotation; ROT_S = 0 disables it. -/
def execPhaseRotation (s : State) : Out := onMod (fun m =>
  if m.inRun && m.get R.PHS_ROT_ROT_S != 0 then (List.range 4).foldl Mod.rotate m else m) s

/-- ROT_NOW. -/
def Mod.rotNow (m : Mod) : Mod :=
  if m.inRun then (List.range 4).foldl Mod.rotate m else m

/-- PHS_CMD.ROT_NOW (R182). -/
def execPhsCmdRotNow (s : State) : Out := onMod (fun m =>
  m.guarded 0x908C 2 (fun m => m.rotNow)) s

/-- PK_CLR. -/
def Mod.pkClr (m : Mod) : Mod :=
  (List.range 40).foldl (fun m n => m.puts [(R.PHS_IPK_I_MAX n, 0x8000), (R.PHS_IPK_I_MIN n, 0x7FFF)]) m

/-- PHS_CMD.PK_CLR (R193): every PHS_IPKn returns to its reset value. -/
def execPhsCmdPkClr (s : State) : Out := onMod (fun m =>
  m.guarded 0x908C 1 (fun m => m.pkClr)) s

/-- The cause of a phase's isolation has cleared (R207). -/
def Mod.causeCleared (m : Mod) (n : Nat) : Bool :=
  let why := m.get (R.PHS_PSTAT_ISO_WHY n)
  if why = 1 then decide (absQ (m.chanInst n) ≤ m.ocLimit)
  else if why = 2 then ((m.phs.links.getD (phaseLink n) {}).words.getD (n % 5) 0) % 8 == 0
  else if why = 3 then decide (m.getI (R.PHS_IAVG_TEMP n) ≤ 10 * (max (m.get R.PHS_PROT_OT_WARN) (m.get R.PHS_PROT_OT_TRIP) : Nat))
  else if why = 4 then m.linkUp (phaseLink n)
  else if why = 5 then !m.trp.ph.contains n
  else if why = 6 then (phaseChannels n).all (fun c => !m.afe.openCond.contains c)
  else true

/-- Rearm a phase (R207): ignored while the cause persists. -/
def Mod.rearm (m : Mod) (n : Nat) : Mod :=
  if m.isolated n && m.causeCleared n then
    ((m.setPairBit 0x9098 0x909C n false).puts [(R.PHS_PSTAT_ISO_WHY n, 0), (R.PHS_PSTAT_DRV n, 0)]).syncPhases
  else m

/-- REARM bits of a word. -/
def Mod.rearmWord (m : Mod) (hi : Bool) (v : Word) : Mod :=
  (List.range (if hi then 8 else 32)).foldl (fun m i =>
    if bit v.toNat i then m.rearm (if hi then 32 + i else i) else m) m

/-- PHS_REARM_LO and PHS_REARM_HI (R207). -/
def execPhsRearmWrite (hi : Bool) (v : Word) (s : State) : Out := onMod (fun m =>
  m.guarded (if hi then 0x9094 else 0x9090) v.toNat (fun m => m.rearmWord hi v)) s

/-- BRAKE_END (R189): the first sample (raw code) at or above −PB_MIN ends braking, or BRK_MAX periods do, with BRK_LONG; a PATCH
restarts the phase under R186. -/
def execBrakeEnd (n : Fin 24) (sample : Int) (s : State) : Out := onMod (fun m =>
  match (m.phase n).brake with
  | none => m
  | some k =>
    let i := m.calQ n (4 * sample) * 125 / 32768
    let ended := decide (-m.pbMin ≤ i)
    if !ended && decide (k < m.brkMax) then m
    else
      let m := if ended then m else (m.put R.PHS_EVT_BRK_LONG 1).phsCorrected 0x0B n
      let c := convOf n
      let m := m.setPhase n (fun x => { x with brake := none, startLeft := m.pbCycles, q := 0, value := m.ratioValue (c % 2),
                                               mode := asyncMode x.r, fresh := true })
      (m.patch n).syncPhases) s

/-- SOFT_START_SHORT (R190): current limit and bus lag held for SC_MS before SS_DONE: every phase OFF, PH_SHORT, SAFE HOLD. -/
def execSoftStartShort (p : Fin 2) (s : State) : Out := onMod (fun m =>
  if m.inRun && m.softStart && decide (20 * clampN 1 100 (m.get R.PHS_SC_SC_MS) ≤ m.phs.scRun.getD p 0) then
    (((m.put R.PHS_EVT_SHORT 1).allOff).raise 9 8 9 (12 * p) 2).safeHold
  else m) s

/-- PH_OC_SHORE (R205): OC_N consecutive samples (raw codes, newest last) beyond ±OC_PCT × I_RAT: PATCH OFF, isolation. -/
def execPhOcShore (n : Fin 40) (samples : List Int) (s : State) : Out := onMod (fun m =>
  let k := clampN 1 15 (m.get R.PHS_PROT_OC_N)
  let l := samples.drop (samples.length - k)
  if m.pageOn 9 && !m.isolated n && decide (k ≤ samples.length) &&
      l.all (fun v => decide (m.ocLimit < absQ (m.calQ n (4 * v) * 125 / 32768))) then
    (((m.isolate n 1).patch n).pmbSet (pmbIout (phasePole n)) 32).raise 9 (phaseLink n) 1 n 1
  else m) s

/-- PH_IMB (R205): a phase mean off its pole's mean for 200 frames. -/
def execPhImb (n : Fin 40) (s : State) : Out := onMod (fun m =>
  if 200 ≤ (m.phase n).imbRun ∧ !m.condOn 9 (phaseLink n) 5 n then
    (m.put R.PHS_EVT_IMB 1).phsCondStart 5 n
  else m) s

/-- PH_SENSE (R205): the sum of a pole's storage phases off the string current for 10 frames. -/
def execPhSense (p : Fin 2) (s : State) : Out := onMod (fun m =>
  if 10 ≤ m.phs.sumRun.getD p 0 ∧ !m.condOn 9 8 6 (12 * p) then
    (m.put R.PHS_EVT_SENSE 1).condStart 9 8 6 (12 * p) 1
  else m) s

/-- A status frame's form (R201): TYPE, SEQ echoed, five words, TEMP, CRC-16; SEQ is that of one of the last 16 frames sent. -/
def Mod.statusOk (m : Mod) (l : Nat) (b : List Nat) : Bool :=
  b.length == 15 && b.getD 0 0 == 0x81 && le b 13 2 == phaseCrc (b.take 13) &&
    decide (((m.phs.links.getD l {}).seq + 256 - b.getD 1 0 % 256) % 256 ≤ 16) &&
    (m.phs.links.getD l {}).seq % 256 != b.getD 1 0

/-- One status word of a phase (R201, Table 06-11): DRV is sticky; DESAT, UVLO_HS or UVLO_LS isolates. -/
def Mod.takeStatus (m : Mod) (n w : Nat) : Mod :=
  let seen := m.get (R.PHS_PSTAT_DRV n)
  let m := m.put (R.PHS_PSTAT_DRV n) (seen ||| w % 32)
  if w % 8 != 0 && (w % 8) &&& (seen % 8) != w % 8 then
    ((m.isolate n 2).put R.PHS_EVT_DRV 1).raise 9 (phaseLink n) 2 n 1
  else m

/-- STATUS_FRAME_RECEIVE (R201): the bytes between SOF and EOF; an invalid frame is counted and otherwise ignored. -/
def execStatusFrameReceive (link : Fin 8) (bytes : List Byte) (s : State) : Out := onMod (fun m =>
  let b := bytes.map BitVec.toNat
  if !m.pageOn 9 then m
  else if !m.statusOk link b then
    let m := (m.bump (R.PHS_LERR_CNT_COUNT link)).raiseLimAt tickS 9 link 8 (5 * link) 0
    { m with phs.links := (bank 8 m.phs.links {}).modify link (fun k => { k with missed := k.missed + 1, got := true }) }
  else
    let ws := (List.range 5).map (fun i => le b (2 + 2 * i) 2)
    let m := { m with phs.links := (bank 8 m.phs.links {}).modify link (fun k => { k with missed := 0, got := true, words := ws }) }
    let m := m.put R.PHS_LNK_STAT_ARMED (setBit (m.get R.PHS_LNK_STAT_ARMED) link (ws.all (fun w => bit w 5)))
    ((List.range 5).foldl (fun m i => m.takeStatus (5 * link + i) (ws.getD i 0)) m).syncPhases) s

/-- PHASE_LINK_DOWN (R203): two missing or invalid status frames take the link down and isolate its phases. -/
def execPhaseLinkDown (link : Fin 8) (s : State) : Out := onMod (fun m =>
  if m.linkUp link && decide (2 ≤ (m.phs.links.getD link {}).missed) then
    let m := m.puts [(R.PHS_LNK_STAT_UP, setBit (m.get R.PHS_LNK_STAT_UP) link false), (R.PHS_EVT_LINK_DOWN, 1),
      (R.PHS_LNK_STAT_ARMED, setBit (m.get R.PHS_LNK_STAT_ARMED) link false)]
    let m := (List.range 5).foldl (fun m i => m.isolate (5 * link + i) 4) m
    let m := { m with phs.links := (bank 8 m.phs.links {}).modify link (fun k => { k with missed := 0, armDue := false, sent := [], due := [], echoes := 0 }) }
    m.condStart 9 link 7 (5 * link) 1
  else m) s

/-- DLY of a training in ticks (R203): half of what the median of the round trips of the echo requests (ticks) exceeds 200 ns by. -/
def linkDelay (trips : List Nat) : Nat :=
  let s := trips.foldl (fun l x => l.filter (fun y => decide (y ≤ x)) ++ x :: l.filter (fun y => decide (x < y))) []
  ((s.getD 7 0 + s.getD 8 0) / 2 - 2560) / 2

/-- PHASE_LINK_TRAINED (R203): training ends with the round trips of its echoes; with a delay above 1,280 ticks, without all 16 echoes, or when it
did not complete within 2 ms, the link stays down. -/
def execPhaseLinkTrained (link : Fin 8) (trips : List Nat) (completed : Bool) (s : State) : Out := onMod (fun m =>
  let dly := linkDelay trips
  if m.pageOn 9 && (!m.inRun || !m.linkUp link) && completed && trips.length == 16 && decide (dly ≤ 1280) then
    let m := m.puts [(R.PHS_LNK_STAT_UP, setBit (m.get R.PHS_LNK_STAT_UP) link true), (R.PHS_LDLY_DLY link, dly)]
    let m := m.sendDown link 3 (m.cfgBody link false false)
    (m.condEnd 9 link 7 (5 * link) 1).syncPhases
  else m) s

end Sys2Proof.Machine
end

