-- ==== Sys2Proof/Machine/Afe.lean ====
section
/-!
DEFINITION. The analog front end (R192 to R195) and the flight recorder (R196, R197): taking in the sample block of a frame, open inputs,
range ends, monitored channel, recording, and their rows.
-/
namespace Sys2Proof.Machine

/-! ## The sample block -/

/-- Raw code −98 % of full scale: a sample below it reads as open (R195, R474). -/
def openCode (v : Int) : Bool := decide (100 * v < -98 * 32768)

/-- OPEN_N, frames. -/
def Mod.openN (m : Mod) : Nat := max 1 (m.get R.AFE_CFG_OPEN_N)

/-- A run of frames counts on while `b` holds. -/
def runStep (b : Bool) (k : Nat) : Nat := if b then k + 1 else 0

/-- Samples of channel `c` in the rows of a frame. -/
def column (rows : List (List Int)) (c : Nat) : List Int := rows.map (fun r => r.getD c 0)

/-- Set bit `c` in a set of five packed registers from `base`. -/
def Mod.setChanBit (m : Mod) (base c : Nat) (b : Bool) : Mod :=
  let a := base + 4 * (c / 32)
  m.setWord a (BitVec.ofNat 32 (setBit (m.word a).toNat (c % 32) b))

/-- Judge the samples of one channel: open runs and range ends (R195). -/
def Mod.judgeChannel (m : Mod) (c : Nat) (v : List Int) : Mod :=
  let low := !v.isEmpty && v.all openCode
  let ok := !v.isEmpty && v.all (fun x => !openCode x)
  let m := { m with afe.lowRun := m.afe.lowRun.modify c (runStep low), afe.okRun := m.afe.okRun.modify c (runStep ok) }
  if v.any (fun x => x == 32767 || x == -32768) then
    (m.setChanBit 0xA0A0 c true).raiseLimAt tickS 10 0 2 c 0
  else m

/-- The monitored channel (R193): peak of the new samples, latest sample, sum towards the 1 ms mean; calibrated LSB. -/
def Mod.monitor (m : Mod) (rows : List (List Int)) : Mod :=
  let c := m.get R.AFE_MON_SEL_CH
  let v : List Rat := if c < 96 then (column rows c).map (fun x => m.calQ c (4 * x)) else if c < 160 then [m.chanLow c] else []
  if v.isEmpty then m
  else
    let w := v.map (fun x => clampI (-32768) 32767 (rna x))
    let m := (m.putI R.AFE_MON_PK_MAX (w.foldl max (m.getI R.AFE_MON_PK_MAX))).putI R.AFE_MON_PK_MIN
      (w.foldl min (m.getI R.AFE_MON_PK_MIN))
    let m := m.putI R.AFE_MON_MEAN_LAST (w.getLast?.getD 0)
    { m with afe.monSum := m.afe.monSum + meanQ v }

/-- The 1 ms mean of the monitored channel at a plan boundary, in 1/4 LSB (R193): `k` frames have been summed. -/
def Mod.monitorMs (m : Mod) (k : Nat) : Mod :=
  if !m.pageOn 10 || k = 0 then m
  else { (m.putQ R.AFE_MON_MEAN_MEAN (m.afe.monSum / (k : Rat) * 4)) with afe.monSum := 0 }

/-- Take in the sample block at a boundary (R192): `rows` are the 50 samples of the frame that ends, `inst` the boundary sample of the
high-speed channels, `ls` the latest samples of channels 96 to 159; raw codes. -/
def Mod.afeFrame (m : Mod) (rows : List (List Int)) (inst ls : List Int) : Mod :=
  if !m.pageOn 10 || m.inReset 10 0 then m
  else
    let n := rows.length
    let mean4 := (List.range 96).map (fun c => if n = 0 then 4 * inst.getD c 0 else rna (4 * ((column rows c).foldl (· + ·) 0 : Rat) / (n : Rat)))
    let low := m.domainOn 12
    let m := { m with afe.inst := inst.take 96, afe.mean4 := mean4, afe.ls := if low then ls.take 64 else m.afe.ls }
    let m := (List.range 96).foldl (fun m c => m.judgeChannel c (column rows c)) m
    let m := if low then (List.range 64).foldl (fun m i => m.judgeChannel (96 + i) [ls.getD i 0]) m else m
    (m.monitor rows).peaks rows

/-! ## The flight recorder -/

/-- Bytes of the frame ring and of the side area (R196). -/
def ringBytes : Nat := 4096000 * 10240
def sideBytes : Nat := 469762048

/-- The recorder is able to record: CAP and both DRAM domains on, EN = 1. -/
def Mod.capOn (m : Mod) : Bool := m.pageOn 11 && m.domainOn 8 && m.domainOn 9 && m.is R.CAP_CFG_EN && !m.inReset 11 0

/-- The recorder writes frame blocks now. -/
def Mod.capWrites (m : Mod) : Bool := m.capOn && !m.is R.CAP_STAT_FROZEN && m.cap.post != some 0

/-- A side entry (R196): 16-byte header and the bytes as delivered. -/
def Mod.capSide (m : Mod) (typ frame : Nat) (bytes : List Nat) : Mod :=
  if m.capWrites then
    let len := 16 + bytes.length
    let off := m.cap.sideNext
    let keep := m.cap.side.filter (fun e => (e.off + sideBytes - off) % sideBytes ≥ len)
    { m with cap.side := ⟨off, typ, frame, bytes⟩ :: keep, cap.sideNext := (off + len) % sideBytes }
  else m

/-- Bytes of a side entry. -/
def SideEnt.all (e : SideEnt) : List Nat := leBytes 2 e.typ ++ leBytes 2 e.bytes.length ++ leBytes 8 e.frame ++ zeros 4 ++ e.bytes

/-- Two bytes of a sample. -/
def sampleBytes (v : Int) : List Nat := leBytes 2 (enc 16 v)

/-- Bytes of a frame block (Table 06-7). -/
def FrameBlk.bytes (b : FrameBlk) : List Nat :=
  leBytes 8 b.frame ++ leBytes 8 b.fleetT ++ leBytes 4 b.flags ++ leBytes 4 b.sideOff ++ leBytes 8 b.sig ++ zeros 32 ++
    (List.range 50).flatMap (fun i => (List.range 96).flatMap (fun c => sampleBytes ((b.hs.getD i []).getD c 0))) ++
    (List.range 32).flatMap (fun i => sampleBytes (b.ls.getD i 0)) ++ pad 240 b.cmd ++ zeros 272

/-- Payload of the 8 CMD frames sent in the frame: the five phase words of each as they went out (Table 06-7); zeros for a link that sent none. -/
def Mod.cmdPayload (m : Mod) : List Nat :=
  (List.range 8).flatMap (fun l =>
    let b := (m.phs.links.getD l {}).sent.headD []
    if b.headD 0 = 1 then pad 30 (b.drop 3) else zeros 30)

/-- CAP_STAT, CAP_OLDEST follow the ring. -/
def Mod.showCap (m : Mod) : Mod :=
  m.puts [(R.CAP_STAT_RUNNING, b2n m.capWrites), (R.CAP_STAT_DEPTH, min 2048 (m.cap.held / 2000)),
    (R.CAP_OLDEST_BLOCK, (m.cap.next + capBlocks - m.cap.held) % capBlocks)]

/-- Write the block of a frame (R196); after the trigger the blocks left are counted down. -/
def Mod.capFrame (m : Mod) (b : FrameBlk) : Mod :=
  if m.pageOn 11 then
    let m := if m.capWrites then
        { m with cap.ring := Sparse.set (fun _ => {}) m.cap.ring m.cap.next b, cap.next := (m.cap.next + 1) % capBlocks,
                 cap.held := min capBlocks (m.cap.held + 1), cap.post := m.cap.post.map (· - 1) }
      else m
    m.showCap
  else m

/-- The block of the frame that ends at this boundary. -/
def Mod.frameBlock (m : Mod) (rows : List (List Int)) (ls : List Int) : FrameBlk :=
  let f := m.frame
  { frame := f, fleetT := if m.timeValid then m.fleetNs - m.fleetNs % 5000 else 0,
    flags := m.pstate % 8 + 8 * b2n m.timeValid + 16 * b2n m.cen.unpub,
    sideOff := match m.cap.side.reverse.find? (fun e => e.frame == f) with
      | none => 0xFFFFFFFF
      | some e => e.off,
    sig := m.get R.CEN_SIG_LO_SIG + 2 ^ 32 * m.get R.CEN_SIG_HI_SIG, hs := rows,
    ls := if f % 2 = 0 then ls.take 32 else (ls.drop 32).take 32, cmd := m.cmdPayload }

/-! ## Commands -/

/-- AFE_OPEN_DETECT (R195): below −98 % in every sample of OPEN_N frames. -/
def execAfeOpenDetect (c : Fin 160) (s : State) : Out := onMod (fun m =>
  if m.pageOn 10 && m.is R.AFE_CFG_OPEN_EN && decide (m.openN ≤ m.afe.lowRun.getD c 0) && !m.afe.openCond.contains c.val then
    let m := { (m.setChanBit 0xA080 c true) with afe.openCond := m.afe.openCond ++ [c.val] }
    let fatal := 56 ≤ c.val ∧ c.val < 68
    let m := m.condStart 10 0 1 c (if fatal then 2 else 1)
    match channelPhase c with
    | some n => m.isolate n 6
    | none =>
      if fatal then
        let p := c.val % 2
        let m := (convPhases p ++ convPhases (p + 2)).foldl Mod.phaseOff m
        ([p, p + 2].foldl (fun m k => m.setConv k (fun x => { x with run := [], shedJ := none, dwell := 0, rot := none })) m).syncPhases
      else m
  else m) s

/-- AFE_OPEN_END (R195): at or above −98 % in every sample of OPEN_N frames; the AFE_OPENn bit stays. -/
def execAfeOpenEnd (c : Fin 160) (s : State) : Out := onMod (fun m =>
  if m.pageOn 10 && decide (m.openN ≤ m.afe.okRun.getD c 0) && m.afe.openCond.contains c.val then
    { m with afe.openCond := m.afe.openCond.erase c.val }.condEnd 10 0 1 c (if 56 ≤ c.val ∧ c.val < 68 then 2 else 1)
  else m) s

/-- OPEN of AFE_CLR. -/
def Mod.afeClrOpen (m : Mod) : Mod :=
  (List.range 160).foldl (fun m c => if m.afe.openCond.contains c then m else m.setChanBit 0xA080 c false) m

/-- AFE_CLR.OPEN (R195): the bits of channels whose condition has ended. -/
def execAfeClrOpen (s : State) : Out := onMod (fun m =>
  m.guarded 0xA0D0 1 (fun m => m.afeClrOpen)) s

/-- A selection of the monitored channel. -/
def Mod.monSel (m : Mod) (ch : Byte) : Mod :=
  { (m.puts [(R.AFE_MON_SEL_CH, ch.toNat), (R.AFE_MON_PK_MAX, 0x8000), (R.AFE_MON_PK_MIN, 0x7FFF)]) with afe.monSum := 0 }

/-- AFE_MON_SEL (R193): selecting a channel resets AFE_MON_PK. -/
def execAfeMonSelWrite (ch : Byte) (s : State) : Out := onMod (fun m =>
  m.guarded 0xA0C0 ch.toNat (fun m => m.monSel ch)) s

/-- RECORDER_FROZEN (R197): POST_PCT % of the ring more is written: recording stops. -/
def execRecorderFrozen (s : State) : Out := onMod (fun m =>
  if m.cap.post = some 0 then ({ m with cap.post := none }).puts [(R.CAP_STAT_FROZEN, 1), (R.CAP_STAT_RUNNING, 0)] else m) s

/-- CAP_CMD.FREEZE (R197): trigger now. -/
def execCapCmdFreeze (s : State) : Out := onMod (fun m => m.guarded 0xB08C 1 Mod.capTrigger) s

/-- CAP_CMD.REARM (R197): recording resumes. -/
def execCapCmdRearm (s : State) : Out := onMod (fun m => m.guarded 0xB08C 2 (fun m => m.capRearm.showCap)) s

/-- Byte of the recorder at an offset: the frame ring, then the side area; nothing written reads 0 (log 16). -/
def Mod.capBytes (m : Mod) (o n : Nat) : List Nat :=
  if o < ringBytes then ((Sparse.get (fun _ => {}) m.cap.ring (o / 10240)).bytes.drop (o % 10240)).take n
  else
    (List.range n).map (fun i =>
      let x := o - ringBytes + i
      match m.cap.side.find? (fun e => (x + sideBytes - e.off) % sideBytes < 16 + e.bytes.length) with
      | none => 0
      | some e => e.all.getD ((x + sideBytes - e.off) % sideBytes) 0)

/-- The next word of the recorder window. -/
def Mod.capWord (m : Mod) (err : Nat) : Nat × Mod :=
  let o := m.get R.CAP_WIN_ADDR_ADDR * 64 + 4 * m.cap.rdWord
  let m := m.dramError (o / 2 ^ 31 % 20) (o % 2 ^ 31) err
  let f := m.fresh
  let v := if o < ringBytes + sideBytes then (le (m.capBytes o 4) 0 4, m) else (Config.freeNat f.1, f.2)
  let m := v.2
  (v.1, if m.cap.rdWord < 15 then { m with cap.rdWord := m.cap.rdWord + 1 }
    else ({ m with cap.rdWord := 0 }).put R.CAP_WIN_ADDR_ADDR (m.get R.CAP_WIN_ADDR_ADDR + 1))

/-- CAP_WIN_DATA read (R197, Table 06-19): the next 4 bytes at ADDR; ADDR advances after 16 reads. Beyond the side area the spec
states no value: a free one. `err` 1 or 2: the DRAM word read has a single-bit or a double-bit error (R348): the bits are returned as
stored. -/
def execCapWinRead (err : Fin 3) (s : State) : Out := onMod (fun m =>
  m.guardedRd 0xB0C4 (fun m => m.capWord err.val)) s

end Sys2Proof.Machine
end

