-- ==== Sys2Proof/Machine/Checks.lean ====
section
/-!
DEFINITION. Input checks (R417, R418, Table 13-6): activation with its CONDITION record, end without a record, the occurrence each second.
-/
namespace Sys2Proof.Machine

/-- A check with this code is active. -/
def Mod.checkActive (m : Mod) (code : Nat) : Bool := m.pwr.checks.any (fun c => c.code == code)

/-- The PMBus status bits of a check (Table 15-9). -/
def Mod.pmbCheck (m : Mod) (code addr : Nat) (limit : Int) : Mod :=
  if code = 0x0101 then m.pmbSet (pmbInput (addr - 62)) (if limit = 46000 then 64 else 16)
  else if code = 0x0301 then m.pmbSet R.PMB_STATUS_X_TEMP 64
  else m

/-- A check becomes active (R418): one CONDITION record with the filtered value and the limit crossed. -/
def Mod.checkOn (m : Mod) (code addr : Nat) (value limit : Int) : Mod :=
  if m.pwr.checks.any (fun c => c.code == code && c.addr == addr) then m
  else { ((m.logCond code addr value limit).pmbCheck code addr limit) with pwr.checks := m.pwr.checks ++ [⟨code, addr, value, limit⟩] }

/-- Checks with this code end (R417): no record. -/
def Mod.checkOff (m : Mod) (code : Nat) : Mod := { m with pwr.checks := m.pwr.checks.filter (fun c => c.code != code) }

/-- The check of one input ends. -/
def Mod.checkOffAt (m : Mod) (code addr : Nat) : Mod :=
  { m with pwr.checks := m.pwr.checks.filter (fun c => !(c.code == code && c.addr == addr)) }

/-- CHECK_OCCURRENCE (R418): each active check adds one occurrence, which folds into its record (R354). -/
def execCheckOccurrence (s : State) : Out := onMod (fun m =>
  m.pwr.checks.foldl (fun m c => m.logCond c.code c.addr c.value c.limit) m) s

end Sys2Proof.Machine
end

