-- ==== Sys2Proof/Machine/Chain.lean ====
section
/-!
DEFINITION. The withy chain (R210 to R245): bring-up, ring states, sweeps, validity, open-wire tests, cell limits, bleed control, the
observers' runs, and the chain's rows.
-/
namespace Sys2Proof.Machine

/-! ## Rings, monitors, cells -/

/-- N_MON of a ring (above 32 acts as 32). -/
def Mod.nMon (m : Mod) (r : Nat) : Nat := min 32 (m.get (if r = 0 then R.WCH_RING0_CFG_N_MON else R.WCH_RING1_CFG_N_MON))

/-- The chain is active: page on, EN = 1. -/
def Mod.chainOn (m : Mod) : Bool := m.pageOn 12 && m.is R.WCH_CFG_EN

/-- A ring's, a monitor's and a cell's record. -/
def Mod.wring (m : Mod) (r : Nat) : WRing := m.wch.rings.getD r {}
def Mod.wmon (m : Mod) (n : Nat) : WMon := Sparse.get (fun _ => {}) m.wch.mons n
def Mod.wcell (m : Mod) (i : Nat) : WCell := Sparse.get (fun _ => {}) m.wch.cells i

/-- Change a ring, a monitor, a cell. -/
def Mod.setRing (m : Mod) (r : Nat) (f : WRing → WRing) : Mod := { m with wch.rings := (bank 2 m.wch.rings {}).modify r f }
def Mod.setMon (m : Mod) (n : Nat) (f : WMon → WMon) : Mod :=
  { m with wch.mons := Sparse.set (fun _ => {}) m.wch.mons n (f (m.wmon n)) }
def Mod.setCell (m : Mod) (i : Nat) (f : WCell → WCell) : Mod :=
  { m with wch.cells := Sparse.set (fun _ => {}) m.wch.cells i (f (m.wcell i)) }

/-- Index of cell c of monitor n = ring × 32 + position (R210). -/
def cellIdx (n c : Nat) : Nat := n / 32 * 512 + n % 32 * 16 + c

/-- A cell is fitted (R211). -/
def Mod.fitted (m : Mod) (n c : Nat) : Bool :=
  decide (n % 32 < m.nMon (n / 32)) &&
    (match m.profile with
     | none => true
     | some p => decide (n % 32 * 16 + c < p.cells))

/-- R211: CELLS and N_MON do not fit each other. -/
def Mod.ringBad (m : Mod) (r : Nat) : Bool :=
  match m.profile with
  | none => false
  | some p => decide (16 * m.nMon r < p.cells) || decide (p.cells ≤ 16 * (m.nMon r - 1))

/-- Register fields of a ring. -/
def ringFld (r : Nat) (a b : Fld) : Fld := if r = 0 then a else b

/-- Ring state, READY. -/
def Mod.setRingState (m : Mod) (r st : Nat) : Mod := m.put (ringFld r R.WCH_STAT_ST0 R.WCH_STAT_ST1) st
def Mod.ringReady (m : Mod) (r : Nat) : Bool := m.is (ringFld r R.WCH_STAT_READY0 R.WCH_STAT_READY1)

/-- END_A and END_B of a ring from its broken hops; hop h lies before position h, hop N_MON before port B. -/
def Mod.showEnds (m : Mod) (r : Nat) (hops : List Nat) : Mod :=
  let lo := hops.foldl min 64
  let hi := hops.foldl max 0
  let ea := if hops.isEmpty || lo == 0 then 0x3F else lo - 1
  let eb := if hops.isEmpty || hi == m.nMon r then 0x3F else hi
  m.puts [(ringFld r R.WCH_RING0_STAT_END_A R.WCH_RING1_STAT_END_A, ea), (ringFld r R.WCH_RING0_STAT_END_B R.WCH_RING1_STAT_END_B, eb)]

/-- Position p of a ring is reached: 0 from port A, 1 from port B; none from neither (R236). -/
def Mod.reachFrom (m : Mod) (r p : Nat) : Option Nat :=
  let ea := m.get (ringFld r R.WCH_RING0_STAT_END_A R.WCH_RING1_STAT_END_A)
  let eb := m.get (ringFld r R.WCH_RING0_STAT_END_B R.WCH_RING1_STAT_END_B)
  match m.ringState r with
  | 0 => none
  | 1 => some 0
  | _ => if ea != 0x3F && decide (p ≤ ea) then some 0 else if eb != 0x3F && decide (eb ≤ p) then some 1 else none

/-- An addressed frame to monitor n, from the port that reaches it (R215, R236); answers whether it left. -/
def Mod.chainTo (m : Mod) (n cmd arg : Nat) (body : List Nat) : Bool × Mod :=
  let r := n / 32
  let p := n % 32
  match m.reachFrom r p with
  | none => (false, m)
  | some 0 => (true, m.chainTx r 0 (chainFrame cmd p arg body))
  | some _ => (true, m.chainTx r 1 (chainFrame cmd (m.nMon r - 1 - p) arg body))

/-- A corrected chain report, at most once per second per ring (R245). -/
def Mod.wchCorrected (m : Mod) (r kind addr : Nat) : Mod := m.raiseLim tickS 12 r kind addr 0

/-! ## Bring-up (R217, R218) -/

/-- Mask of fitted cells of a monitor. -/
def Mod.fitMask (m : Mod) (n : Nat) : Nat := ofBits 16 (fun c => m.fitted n c)

/-- Number of delays on the measured loop (R218). -/
def loopDelays (closed : Bool) (n cntA : Nat) : Nat := if closed then n + 1 else 2 * cntA + 1

/-- The hop delays of a mode by the measured loops, shown and sent in DHOP frames (R218, R236): one segment in CLOSED, one at each port else. DESIGN
CHOICE (log 41): WCH_RINGn_DLY shows the segment at port A, or that at port B when no monitor is reached from port A. -/
def Mod.measure (m : Mod) (r : Nat) (closed : Bool) (cntA cntB loopA loopB : Nat) : Mod :=
  let da := loopA * 16 / loopDelays closed (m.nMon r) cntA
  let db := if closed then da else loopB * 16 / loopDelays false (m.nMon r) cntB
  let onB := !closed && cntA == 0
  let m := m.puts [(ringFld r R.WCH_RING0_DLY_LOOP R.WCH_RING1_DLY_LOOP, if onB then loopB else loopA),
    (ringFld r R.WCH_RING0_DLY_DHOP R.WCH_RING1_DLY_DHOP, if onB then db else da)]
  let m := (m.setRing r (fun x => { x with dhop := [da, db] })).chainTx r 0 (chainFrame 0x0A 0xFE da [])
  if closed then m else m.chainTx r 1 (chainFrame 0x0A 0xFE db [])

/-- Bring a ring up by what ENUM and PING found (R211, R217, R218). The state it finds is entered at the next sweep (R234). -/
def Mod.bringUp (m : Mod) (r : Nat) (s : RingScan) : Mod :=
  let n := m.nMon r
  if !m.chainOn || n = 0 then m
  else
    let m := m.setRing r (fun x => { x with upTick := m.time.ticks, due := none })
    let old := m.ringState r
    let found := if s.closed then s.cntA else s.cntA + s.cntB
    let m := m.put (ringFld r R.WCH_RING0_STAT_NFOUND R.WCH_RING1_STAT_NFOUND) (min 63 found)
    let m := (m.chainTx r 0 (chainFrame 1 0xFE 0 [])).chainTx r 1 (chainFrame 1 0xFE 0 [])
    let m := m.chainTx r 0 (chainFrame 2 0xFE 0 [])
    if m.ringBad r || (s.closed && (s.cntA != n || s.cntB != n)) || decide (n < found) then
      let m := (m.setRingState r 0).puts [(ringFld r R.WCH_STAT_READY0 R.WCH_STAT_READY1, 0), (R.WCH_EVT_ENUM, 1)]
      m.condStart 12 r 3 (32 * r) 1
    else
      let hops := if s.closed then [] else if s.cntA = n - s.cntB then [s.cntA] else [s.cntA, n - s.cntB]
      let st := if s.closed then 1 else if found = n then 2 else 3
      let m := (m.setRingState r st).showEnds r hops
      let m := m.setRing r (fun x => { x with lost := hops.map (fun h => (h, 0)), hops := hops, breakTick := 0, test := none, diagd := [],
                                              due := some st })
      let m := m.measure r s.closed s.cntA s.cntB s.loop s.loopB
      let m := (List.range n).foldl (fun m p => (m.chainTo (32 * r + p) 7 1 (leBytes 2 (m.fitMask (32 * r + p)) ++ [0])).2) m
      let m := m.chainAll r (chainFrame 7 0xFE 2 (leBytes 2 (m.get R.WCH_CFG_I_BAL) ++ [0]))
      let m := (m.chainAll r (chainFrame 9 0xFE 1 [])).chainAll r (chainFrame 9 0xFE 2 [])
      let m := ((m.put (ringFld r R.WCH_STAT_READY0 R.WCH_STAT_READY1) 1).setRingState r old).condEnd 12 r 3 (32 * r) 1
      if st = 3 then (m.put R.WCH_EVT_LOST 1).condStart 12 r 2 (32 * r) 1 else m.condEnd 12 r 2 (32 * r) 1

/-! ## Ring states (R234 to R238) -/

/-- Sides that must send "restored" for hop h of a ring of n monitors. -/
def hopSides (n h : Nat) : Nat := (if 0 < h then 2 else 0) + (if h < n then 1 else 0)

/-- All broken hops have been restored from every side. -/
def Mod.allRestored (m : Mod) (r : Nat) : Bool :=
  (m.wring r).lost.all (fun e => e.2 == hopSides (m.nMon r) e.1)

/-- CHAIN_BREAK conditions of a ring end. -/
def Mod.endBreaks (m : Mod) (r : Nat) : Mod :=
  (m.flt.conds.filter (fun c => c.blk == 12 && c.inst == r && c.kind == 1 && !c.forced)).foldl
    (fun m c => m.condEnd 12 r 1 c.addr 1) m

/-- What the last service window sent on a ring may be lost with a break: the test, DIAG and the bleed state are sent again (R243). -/
def Mod.resendRing (m : Mod) (r : Nat) : Mod :=
  let x := m.wring r
  let m := (List.range (m.nMon r)).foldl (fun m p => m.setMon (32 * r + p) (fun y => { y with resend := true })) m
  let m := x.diagd.foldl (fun m n => m.setMon n (fun y => { y with diag := true })) m
  let m := match x.test with
    | none => m
    | some (p, w) => m.setMon (32 * r + p) (fun y => { y with tests := w :: y.tests })
  m.setRing r (fun x => { x with test := none, diagd := [] })

/-- The state of a ring at the start of a sweep (R234, R237, R238), with what the PINGs find. -/
def Mod.settleRing (m : Mod) (r : Nat) (ping : RingPing) : Mod :=
  let m := match (m.wring r).due with
    | none => m
    | some st => (m.setRingState r st).setRing r (fun x => { x with due := none })
  let x := m.wring r
  let old := m.ringState r
  if !m.ringReady r then m
  else if x.lost.isEmpty then m
  else if m.allRestored r && ping.reach &&
      decide (x.restTick + 10 * max 1 (m.get R.WCH_LIM_CFG_RECLOSE) * tickMs ≤ m.time.ticks) then
    let m := ((m.setRing r (fun x => { x with lost := [], hops := [] })).setRingState r 1).showEnds r []
    let m := m.measure r true (m.nMon r) (m.nMon r) ping.loopA ping.loopB
    let m := m.puts [(R.WCH_EVT_RECLOSE, 1), (ringFld r R.WCH_RING0_STAT_NFOUND R.WCH_RING1_STAT_NFOUND, m.nMon r)]
    ((m.endBreaks r).condEnd 12 r 2 (32 * r) 1).wchCorrected r 0x0E (32 * r)
  else if m.time.ticks < x.breakTick + 55 * tickUs then m
  else
    let open_ := (x.lost.filter (fun e => e.2 != hopSides (m.nMon r) e.1)).map Prod.fst
    let hops := if open_.isEmpty then x.lost.map Prod.fst else open_
    let lo := hops.foldl min 64
    let hi := hops.foldl max 0
    let st := if lo = hi then 2 else 3
    let m := if old = st ∧ x.hops = hops then m else
      let m := ((m.setRingState r st).showEnds r hops).setRing r (fun x => { x with hops := hops })
      (m.measure r false lo (m.nMon r - hi) ping.loopA ping.loopB).resendRing r
    let m := m.put (ringFld r R.WCH_RING0_STAT_NFOUND R.WCH_RING1_STAT_NFOUND) (lo + (m.nMon r - hi))
    if st = 3 then
      if old = 3 then m else (m.put R.WCH_EVT_LOST 1).condStart 12 r 2 (32 * r) 1
    else m.condEnd 12 r 2 (32 * r) 1

/-! ## Composition (R222 to R226) -/

/-- The 16 precision and coarse values of a block (Table 07-4). -/
def precOf (b : List Nat) (c : Nat) : Nat := le b (2 + 2 * c) 2
def coarseOf (b : List Nat) (c : Nat) : Nat := bits (le b 34 20) (10 * c) 10

/-- A block's CRC and SEQ. -/
def blockOk (b : List Nat) (seq : Nat) : Bool :=
  b.length == 64 && le b 62 2 == crcMsb 16 0x1021 0xFFFF (b.take 62) && b.getD 60 0 == seq % 256

/-- XC_MV and OW_MV in units of 100 µV. -/
def Mod.xc (m : Mod) : Nat := 10 * max 22 (m.get R.WCH_CFG_XC_MV)
def Mod.ow (m : Mod) : Nat := 10 * max 30 (m.get R.WCH_CFG_OW_MV)

/-- Wires of a monitor that are declared open. -/
def Mod.openWires (m : Mod) (n : Nat) : Nat := m.get (R.WCH_MON_OPEN n)

/-- The wire under test of a block, when test current was applied. -/
def testWire (b : List Nat) : Option Nat := if bit (b.getD 61 0) 7 then some (b.getD 61 0 % 32) else none

/-- The cells next to a wire. -/
def wireCells (w : Nat) : List Nat := if w = 0 then [0] else if w < 16 then [w - 1, w] else [15]

/-- d of a cell in a block, 100 µV. -/
def dOf (b : List Nat) (c : Nat) : Int := (precOf b c : Int) - 50 * (coarseOf b c : Int)

/-- The coarse reading is plausible (R224). -/
def coarsePl (b : List Nat) (c : Nat) : Bool := !bit (b.getD 1 0) 1 && coarseOf b c != 0 && coarseOf b c != 1023

/-- The precision reading is plausible (R224). -/
def precPl (b : List Nat) (c : Nat) : Bool := !bit (b.getD 1 0) 0 && decide (1000 ≤ precOf b c) && decide (precOf b c ≤ 60000)

/-- Order of Table 07-6 of a cell, before the pair signature: 6 within the cross-check, 8 beyond it. -/
def Mod.cellOrder (m : Mod) (n c : Nat) (b : Option (List Nat)) : Nat :=
  if !m.fitted n c then 1
  else
    match b with
    | none => 2
    | some b =>
      let x := m.wmon n
      let near := fun (w : Nat) => (wireCells w).contains c
      if bit (m.openWires n) c || bit (m.openWires n) (c + 1) || (match testWire b with | some w => near w | none => false) ||
          x.unconf.any near then 3
      else if !precPl b c then 4
      else if !coarsePl b c then 5
      else if (dOf b c).natAbs ≤ m.xc then 6
      else 8

/-- Pair signature on wire w (R229), both cells beyond the cross-check or taken by an unconfirmed signature. -/
def Mod.signature (m : Mod) (n w : Nat) (b : List Nat) : Bool :=
  decide (1 ≤ w) && decide (w ≤ 15) &&
    m.cellOrder n (w - 1) (some b) == 8 && m.cellOrder n w (some b) == 8 &&
    decide (dOf b (w - 1) * dOf b w < 0) && decide ((dOf b (w - 1) + dOf b w).natAbs ≤ m.xc)

/-- Final order: 7 for a cell in a signature. -/
def Mod.cellFinal (m : Mod) (n c : Nat) (b : Option (List Nat)) : Nat :=
  let o := m.cellOrder n c b
  match b with
  | none => o
  | some b => if o = 8 && (m.signature n c b || m.signature n (c + 1) b) then 7 else o

/-- Validity code of an order (Table 07-6): 0 VALID, 1 COARSE, 2 INVALID, 3 UNFITTED. -/
def orderCode (o : Nat) (cpl : Bool) : Nat :=
  match o with
  | 1 => 3
  | 2 => 2
  | 3 => if cpl then 1 else 2
  | 4 => if cpl then 1 else 2
  | 5 => 0
  | 6 => 0
  | 7 => 1
  | _ => 2

/-- The wire test that ran in this sweep (R230, R231). -/
def Mod.judgeTest (m : Mod) (n : Nat) (b : List Nat) : Mod :=
  match testWire b with
  | none => m
  | some w =>
    let r := n / 32
    let pos := (wireCells w).any (fun c => decide (m.ow ≤ (dOf b c - (m.wcell (cellIdx n c)).d).natAbs))
    let m := m.bump R.WCH_OWT_CNT_COUNT
    let k := Sparse.get (fun _ => 0) (m.wmon n).posRun w + 1
    if !pos then
      m.setMon n (fun x => { x with posRun := Sparse.set (fun _ => 0) x.posRun w 0, unconf := x.unconf.filter (· != w) })
    else
      let m := m.setMon n (fun x => { x with posRun := Sparse.set (fun _ => 0) x.posRun w k })
      if k < 2 then m
      else
        let m := m.setMon n (fun x => { x with unconf := x.unconf.filter (· != w), tests := x.tests.filter (· != w) })
        let m := m.put (R.WCH_MON_OPEN n) (setBit (m.openWires n) w true)
        (m.put R.WCH_EVT_WIRE_OPEN 1).condStart 12 r 6 (cellIdx n (min w 15)) 1

/-- Signatures of a block start unconfirmed wires and their tests (R229). -/
def Mod.judgeSignatures (m : Mod) (n : Nat) (b : List Nat) : Mod :=
  let ws := (List.range 16).filter (fun w => m.signature n w b)
  if ws.isEmpty then m
  else
    let m := m.setMon n (fun x => { x with
      unconf := x.unconf ++ ws.filter (fun w => !x.unconf.contains w),
      tests := if m.is R.WCH_OWT_CFG_SIG_TEST then x.tests ++ ws.flatMap (fun w => if x.tests.contains w then [] else [w, w]) else x.tests })
    (m.put R.WCH_EVT_WIRE_SIG 1).wchCorrected (n / 32) 5 (cellIdx n (ws.getD 0 0))

/-- The voltage in use of a cell, V (R232): PREC when VALID, COARSE when COARSE. -/
def WCell.volts (x : WCell) : Option Rat :=
  if x.valid = 0 then some ((x.prec : Rat) / 10000) else if x.valid = 1 then some ((x.coarse : Rat) / 200) else none

/-- Cell shore and limit checks of a cell (R232). `tt` is T_TAB in °C, `pp` and `cp` the plausibility of both paths. -/
def Mod.judgeLimits (m : Mod) (n c : Nat) (pp cp : Bool) (tt : Rat) : Mod :=
  match m.profile with
  | none => m
  | some p =>
    let i := cellIdx n c
    let r := n / 32
    let x := m.wcell i
    if x.valid = 3 then m
    else
      let out := match x.volts with
        | none => false
        | some v => decide (v < p.vMin) || decide (p.vMax < v)
      let cl : Rat := (clampN 1 50 (m.get R.WCH_LIM_CFG_CL_MV) : Nat) / (100 : Rat)
      let beyond := fun (v mg : Rat) => decide (p.vMax + mg < v) || decide (v < p.vMin - mg)
      let cm := if pp then cl else cl + 1 / 50
      let far := (pp || cp) && (!pp || beyond ((x.prec : Rat) / 10000) cl) && (!cp || beyond ((x.coarse : Rat) / 200) cm)
      let m := m.setCell i (fun x => { x with shoreRun := if out then x.shoreRun + 1 else 0, limRun := if far then x.limRun + 1 else 0 })
      let hot := c == 0 && (decide (tt < p.tMin) || decide (p.tMax < tt))
      let tooHot := c == 0 && decide (p.tMax + (clampN 1 30 (m.get R.WCH_LIM_CFG_CL_T) : Nat) < tt)
      let shore := decide (3 ≤ (m.wcell i).shoreRun) || hot
      let lim := decide (2 ≤ (m.wcell i).limRun) || tooHot
      let m := if shore then (m.put R.WCH_EVT_CELL_SHORE 1).condStart 12 r 0x0A i 1
        else if out then m else m.condEnd 12 r 0x0A i 1
      if lim then (m.put R.WCH_EVT_CELL_LIMIT 1).condStart 12 r 0x0B i 2
      else if far then m else m.condEnd 12 r 0x0B i 2

/-- Judge one monitor's slot: cells, reports, monitor registers. -/
def Mod.judgeMonitor (m : Mod) (n : Nat) (b : Option (List Nat)) : Mod :=
  let r := n / 32
  let blk := b.getD (zeros 64)
  let m := match b with
    | none => m
    | some b => m.judgeTest n b
  let orders := (List.range 16).map (fun c => m.cellFinal n c b)
  let m := match b with
    | none => m
    | some b => m.judgeSignatures n b
  let m := (orders.mapIdx (fun c o => (c, o))).foldl (fun m e =>
    let i := cellIdx n e.1
    let code := orderCode e.2 (coarsePl blk e.1)
    let m := m.setCell i (fun x => { x with prec := precOf blk e.1, coarse := coarseOf blk e.1, valid := code, bled := bit (le blk 58 2) e.1,
                                            d := if b.isSome then dOf blk e.1 else x.d, invRun := if code = 2 then x.invRun + 1 else 0,
                                            shoreRun := if b.isSome then x.shoreRun else 0, limRun := if b.isSome then x.limRun else 0 })
    let m := if code = 2 then m.bump R.WCH_INV_CNT_COUNT else m
    let m := if e.2 = 5 then m.wchCorrected r 7 i else m
    if e.2 = 8 then ((m.setMon n (fun x => { x with diag := true })).put R.WCH_EVT_MISMATCH 1).condStart 12 r 8 i 1
    else m.condEnd 12 r 8 i 1) m
  match b with
  | none => m.put (R.WCH_MON_PRESENT n) 0
  | some b =>
    let st := b.getD 1 0
    let x := m.wmon n
    let rose := (bit st 0 && !x.precFault) || (bit st 1 && !x.coarseFault)
    let m := if rose then (m.put (R.WCH_MON_FAULT n) 1).raise 12 r 9 n 1 else m
    let m := m.setMon n (fun x => { x with precFault := bit st 0, coarseFault := bit st 1, resend := x.resend || bit st 3,
                                           tDie := sext 16 (le b 54 2), tTab := sext 16 (le b 56 2) })
    let m := m.puts [(R.WCH_MON_PRESENT n, 1), (R.WCH_MON_T_DIE n, (clampI 0 255 (sext 16 (le b 54 2) / 16 + 40)).toNat)]
    (List.range 16).foldl (fun m c => m.judgeLimits n c (precPl b c) (coarsePl b c) ((sext 16 (le b 56 2) : Int) / (16 : Rat))) m

/-- The composed slot of a monitor (Table 07-5). -/
def Mod.slotBytes (m : Mod) (n : Nat) (b : Option Block) : List Nat :=
  let r := n / 32
  let blk := match b with
    | none => zeros 64
    | some b => b.bytes
  let st := blk.getD 1 0
  let pos := if n % 32 < m.nMon r then n % 32 else 0xFF
  let sst := b2n b.isSome + 2 * b2n (bit st 0) + 4 * b2n (bit st 1) + 8 * m.get (R.WCH_MON_INHIBIT n) + 16 * b2n (bit st 2) +
    32 * b2n (match b with | some b => b.fromB | none => false) + 64 * b2n (bit st 3)
  let val := sumN ((List.range 16).map (fun c => (m.wcell (cellIdx n c)).valid * 4 ^ c))
  [pos, sst] ++ (blk.drop 2).take 58 ++ leBytes 4 val

/-! ## String sums and observers (R227, R228, R233) -/

/-- Fitted cell indexes of a ring. -/
def Mod.fitCells (m : Mod) (r : Nat) : List Nat :=
  (List.range (16 * m.nMon r)).filterMap (fun k => if m.fitted (32 * r + k / 16) (k % 16) then some (512 * r + k) else none)

/-- SUM_MISMATCH of a ring (R233). -/
def Mod.judgeSum (m : Mod) (r : Nat) : Mod :=
  let l := (m.fitCells r).map (fun i => (m.wcell i).volts)
  if l.isEmpty || l.any Option.isNone then m
  else
    let s := sumQ (l.map (fun v => v.getD 0))
    let far := decide ((clampN 5 255 (m.get R.WCH_LIM_CFG_SUM_TOL) : Nat) / (10 : Rat) < absQ (s - (m.wring r).vF))
    let m := m.setRing r (fun x => { x with sumRun := if far then x.sumRun + 1 else 0 })
    if 10 ≤ (m.wring r).sumRun then (m.put R.WCH_EVT_SUM 1).condStart 12 r 0x0C (32 * r) 1
    else if far then m else m.condEnd 12 r 0x0C (32 * r) 1

/-- Bleed current, A. -/
def Mod.iBal (m : Mod) : Rat := (50 * (m.get R.WCH_CFG_I_BAL + 1) : Nat) / (1000 : Rat)

/-- A cell's observer, fresh before its first sweep. -/
def Mod.obsOr (m : Mod) (i : Nat) : CellObs := if m.cellObs i = {} then freshObs m.build i else m.cellObs i

/-- Store a cell's observer. -/
def Mod.setObs (m : Mod) (i : Nat) (o : CellObs) : Mod := { m with cen.obs := Sparse.set (fun _ => {}) m.cen.obs i o }

/-- The observers of a pole run on the sweep (R154, R155, R227, R228) while the cell-observer task of the image runs. -/
def Mod.observeSweep (m : Mod) (r : Nat) : Mod :=
  let satIf := fun (m : Mod) (b : Bool) => if b && !m.cen.sat.contains 2 then { m with cen.sat := m.cen.sat ++ [2] } else m
  match m.profile with
  | none => m
  | some p =>
    if !m.taskRuns 5 then m
    else
      let tsw : Rat := (m.tSw : Nat) / (1000 : Rat)
      let i0 : Rat := if m.cen.strN = 0 then m.iStr r else m.cen.strSum.getD r 0 / (m.cen.strN : Rat)
      let cells := m.fitCells r
      let m := cells.foldl (fun m i =>
        let x := m.wcell i
        let cur := i0 + (if x.bled then m.iBal * (tsw - 6 / 100000) / tsw else 0)
        let t : Rat := ((m.wmon (i / 512 * 32 + i % 512 / 16)).tTab : Rat) / 16
        let o := observeCell p tsw cur ((x.volts).getD 0) t x.valid (m.obsOr i)
        satIf (m.setObs i o.1) o.2) m
      let done := cells.all (fun i => decide ((m.wcell i).invRun ≤ m.get R.WCH_CFG_INV_MAX))
      if done && !cells.isEmpty then
        let m := cells.foldl (fun m i =>
          let o := limitsOf p (m.obsOr i)
          satIf (m.setObs i o.1) o.2) m
        { m with cen.obsTick := m.cen.obsTick.set r (some m.wch.instant), cen.envNew := true }
      else m

/-! ## Bleed control (R239 to R242) -/

/-- Bleed may run (R242). -/
def Mod.balRuns (m : Mod) : Bool := bleedState m.pstate && decide (m.get R.WCH_BAL_CFG_SRC ≤ 1)

/-- A request word for a monitor (R239). -/
def Mod.balRequest (m : Mod) (n word : Nat) : Mod :=
  let mask := word % 65536
  let timer := word / 65536 % 65536
  let x := m.wmon n
  let newer := if timer = x.reqTimer then mask &&& (65535 - x.reqMask % 65536) else mask
  let gone := x.reqMask &&& (65535 - mask)
  let m := m.setMon n (fun x => { x with reqMask := mask, reqTimer := timer, setDue := (x.setDue ||| newer) &&& (65535 - gone),
                                         stopDue := (x.stopDue ||| gone) &&& (65535 - newer) })
  (List.range 16).foldl (fun m c =>
    if bit newer c then m.setCell (cellIdx n c) (fun y => { y with timer := timer * 1000 })
    else if bit gone c then m.setCell (cellIdx n c) (fun y => { y with timer := 0 }) else m) m

/-- With SRC = 0 the balancing task's words are the requests (R239): the 64 published words that a PORTS section binds to the chain. -/
def Mod.balFromTask (m : Mod) : Mod :=
  if m.get R.WCH_BAL_CFG_SRC = 0 && m.get (coreSt 2) == 2 && (tasksOf m.actImg).any (fun t => t.kind == 8) then
    let b := Config.chainPub ((sectionOf m.actImg 0x08 2).getD [])
    (List.range 64).foldl (fun m n => m.balRequest n (Sparse.get (fun _ => 0) m.cen.pub ((b + n) % 256))) m
  else m

/-- The engine takes a delivered sweep with the snapshot of the next frame (R117): observers run, the balancing task's words are read. -/
def Mod.sweepFrame (m : Mod) : Mod :=
  if m.cen.sweepDue then
    let m := (m.observeSweep 0).observeSweep 1
    ({ m with cen.strSum := [0, 0], cen.strN := 0, cen.sweepDue := false }).balFromTask
  else m

/-- A cell may bleed (R241, first limit; Table 07-10 for the wire under test). -/
def Mod.mayBleed (m : Mod) (n c : Nat) : Bool :=
  let x := m.wcell (cellIdx n c)
  let w := m.openWires n
  let testing := match (m.wring (n / 32)).test with
    | some (p, w) => p == n % 32 && (wireCells w).contains c
    | none => false
  decide (0 < x.timer) && bit (m.wmon n).reqMask c && !bit w c && !bit w (c + 1) && !testing &&
    (match x.volts, m.profile with
     | some v, some p =>
       decide (p.vMin + (min 100 (m.get R.WCH_BAL_CFG_BAL_VMARG) : Nat) / (100 : Rat) ≤ v) &&
         decide ((m.cellObs (cellIdx n c)).tc < p.tMax - 5)
     | some _, none => true
     | none, _ => false)

/-- The cells of a monitor that bleed: larger timer first, lower cell on a tie, no two neighbours, at most `k`. -/
def Mod.bleedSet (m : Mod) (n k : Nat) : List Nat :=
  let cand := (List.range 16).filter (m.mayBleed n)
  (List.range 16).foldl (fun (acc : List Nat) _ =>
    if k ≤ acc.length then acc
    else
      let left := cand.filter (fun c => !acc.contains c && !acc.contains (c + 1) && !(decide (0 < c) && acc.contains (c - 1)))
      match left with
      | [] => acc
      | h :: t =>
        let best := t.foldl (fun a c => if (m.wcell (cellIdx n a)).timer < (m.wcell (cellIdx n c)).timer then c else a) h
        acc ++ [best]) []

/-- Thermal limits of a monitor (R241): INHIBIT with its report, and the number of cells that may bleed. -/
def Mod.balThermal (m : Mod) (n : Nat) : Mod × Nat :=
  let t : Rat := ((m.wmon n).tDie : Rat) / 16
  let hi : Nat := clampN 40 120 (m.get R.WCH_BAL_CFG_BAL_T_HI)
  let off : Nat := clampN (hi + 5) 125 (m.get R.WCH_BAL_CFG_BAL_T_OFF)
  let mx := if m.get R.WCH_BAL_CFG_BAL_MAX = 0 then 16 else m.get R.WCH_BAL_CFG_BAL_MAX
  let was := (m.wmon n).thermal
  let now := if was then decide ((hi : Rat) - 5 < t) else decide ((off : Rat) ≤ t)
  let m := (m.setMon n (fun x => { x with thermal := now })).put (R.WCH_MON_INHIBIT n) (b2n now)
  let m := if now && !was then (m.put R.WCH_EVT_THERM 1).condStartLim (raiseKey 12 (n / 32) 0x0D) 12 (n / 32) 0x0D n
    else if was && !now then m.condEnd 12 (n / 32) 0x0D n 0 else m
  (m, if now then 0 else if (hi : Rat) ≤ t then max 1 (mx / 2) else mx)

/-- One BAL frame when the budget of the service window allows. -/
def Mod.sendBal (m : Mod) (bud n op mask timer : Nat) : Nat × Mod :=
  if bud = 0 || mask = 0 then (bud, m)
  else
    let t := m.chainTo n 5 mask (leBytes 2 timer ++ [op])
    if t.1 then (bud - 1, t.2) else (bud, m)

/-- Cells of a monitor that bleed now, as a mask. -/
def Mod.bleedMask (m : Mod) (n : Nat) : Nat := ofBits 16 (fun c => (m.wcell (cellIdx n c)).bleed)

/-- Bring one monitor's bleed into line (R241): set, stop, pause, resume; a change that cannot be sent waits for the next window. -/
def Mod.balMonitor (m : Mod) (bud n : Nat) : Nat × Mod :=
  let t := m.balThermal n
  let m := t.1
  let want := if m.balRuns then ofBits 16 (fun c => (m.bleedSet n t.2).contains c) else 0
  let x := m.wmon n
  let a := m.sendBal bud n 0 x.setDue x.reqTimer
  let m := if a.1 < bud then a.2.setMon n (fun x => { x with setDue := 0 }) else a.2
  let cur := m.bleedMask n ||| (if a.1 < bud then x.setDue else 0)
  let b := m.sendBal a.1 n 3 x.stopDue 0
  let m := if b.1 < a.1 then b.2.setMon n (fun x => { x with stopDue := 0 }) else b.2
  let cur := cur &&& (65535 - (if b.1 < a.1 then x.stopDue else 0))
  let again := if x.resend then cur else 0
  let pz := (cur &&& (65535 - want))
  let c := m.sendBal b.1 n 1 pz 0
  let cur := if c.1 < b.1 then cur &&& want else cur
  let rs := (want &&& (65535 - cur)) ||| (again &&& want)
  let d := c.2.sendBal c.1 n 2 rs 0
  let cur := if d.1 < c.1 then cur ||| rs else cur
  let m := d.2.setMon n (fun x => { x with resend := x.resend && !(decide (d.1 < c.1) || again &&& want == 0) })
  (d.1, (List.range 16).foldl (fun m c => m.setCell (cellIdx n c) (fun y => { y with bleed := bit cur c })) m)

/-- Bleed timers run on for one sweep; at zero the cell stops (R240). -/
def Mod.balTimers (m : Mod) : Mod :=
  let t := m.tSw
  { m with wch.cells := Sparse.mapV (fun _ => {}) (fun x =>
      if x.bleed then { x with timer := x.timer - t, bleed := decide (t < x.timer) } else x) m.wch.cells }

/-! ## The service window (R226, R230, R241) -/

/-- The next wire test of a ring: signature and rearm tests first, in position order, then the timed cycle. -/
def Mod.nextTest (m : Mod) (r : Nat) : Option (Nat × Nat) :=
  match (List.range (m.nMon r)).find? (fun p => !(m.wmon (32 * r + p)).tests.isEmpty) with
  | some p => some (p, ((m.wmon (32 * r + p)).tests).getD 0 0)
  | none =>
    match (m.wring r).cyc with
    | some k => some (k / 17, k % 17)
    | none => none

/-- Send the test of a service window (R230): its entry in the waiting tests or in the cycle is used up. -/
def Mod.sendTest (m : Mod) (r : Nat) : Mod :=
  match m.nextTest r with
  | none => m.setRing r (fun x => { x with test := none })
  | some (p, w) =>
    let n := 32 * r + p
    let fromList := !(m.wmon n).tests.isEmpty
    let t := m.chainTo n 6 w []
    let m := if fromList then (if t.1 then t.2.setMon n (fun x => { x with tests := x.tests.drop 1 }) else t.2)
      else t.2.setRing r (fun x => { x with cyc := match x.cyc with
        | some k => if k + 1 < 17 * m.nMon r then some (k + 1) else none
        | none => none })
    let m := m.setRing r (fun x => { x with test := if t.1 then some (p, w) else none })
    m.put R.WCH_STAT_OWT_CYC (b2n (m.wch.rings.any (fun x => x.cyc.isSome)))

/-- The service window of a ring after a sweep: test, DIAG, bleed; at most 8 addressed frames, the DIAG pairs and BAL among them. -/
def Mod.serviceRing (m : Mod) (r : Nat) : Mod :=
  if !m.ringReady r || m.ringState r == 0 then m
  else
    let m := (m.sendTest r).setRing r (fun x => { x with diagd := [] })
    let bud := if (m.wring r).test.isSome then 7 else 8
    let ns := (List.range (m.nMon r)).map (fun p => 32 * r + p)
    let a := ns.foldl (fun (a : Nat × Mod) n =>
      if (a.2.wmon n).diag && decide (2 ≤ a.1) then
        let t := a.2.chainTo n 9 1 []
        let u := t.2.chainTo n 9 2 []
        if t.1 then (a.1 - 2, (u.2.setMon n (fun x => { x with diag := false })).setRing r (fun x => { x with diagd := x.diagd ++ [n] }))
        else a
      else a) (bud, m)
    (ns.foldl (fun (a : Nat × Mod) n => a.2.balMonitor a.1 n) a).2

/-! ## Commands -/

/-- CHAIN_BRINGUP (R217): the domain is on and EN = 1; a fitted ring is brought up. -/
def execChainBringup (ring : Fin 2) (scan : RingScan) (s : State) : Out := onMod (fun m => m.bringUp ring scan) s

/-- CHAIN_BRINGUP_RETRY (R217): a ring left DOWN by ENUM_MISMATCH is brought up again 1 s after the last attempt. -/
def execChainBringupRetry (ring : Fin 2) (scan : RingScan) (s : State) : Out := onMod (fun m =>
  if m.condOn 12 ring 3 (32 * ring) && !m.ringReady ring && decide ((m.wring ring).upTick + tickS ≤ m.time.ticks) then m.bringUp ring scan else m) s

/-- ENUM. -/
def Mod.enumNow (m : Mod) (scan0 scan1 : RingScan) : Mod :=
  if m.inRun then m else (m.bringUp 0 scan0).bringUp 1 scan1

/-- WCH_CMD.ENUM (R217): outside RUN both rings are brought up again. -/
def execWchCmdEnum (scan0 : RingScan) (scan1 : RingScan) (s : State) : Out := onMod (fun m =>
  m.guarded 0xC0C4 1 (fun m => m.enumNow scan0 scan1)) s

/-- Bits of one SAMPLE frame from preamble to EOF, 50 ns each, in units of 6.25 ns (R212, R214). -/
def sampleUnits : Nat := 99 * 8

/-- SAMPLE to a ring, each port with the wait of its own segment (R220, R236). -/
def Mod.sample (m : Mod) (r seq : Nat) : Mod :=
  let f := fun (i : Nat) => chainFrame 3 0xFE seq (leBytes 2 (7200 - sampleUnits - (m.wring r).dhop.getD i 0 / 16) ++ [0])
  match m.ringState r with
  | 0 => m
  | 1 => m.chainTx r 0 (f 0)
  | _ => (m.chainTx r 0 (f 0)).chainTx r 1 (f 1)

/-- SWEEP_START (R219, R234): at a sweep instant, a frame boundary whose number is a multiple of 200 × T_SW / 1 ms, the ring states are settled; SAMPLE
and READ go out. -/
def execSweepStart (ping0 ping1 : RingPing) (s : State) : Out := onMod (fun m =>
  if !m.chainOn || m.frame % (200 * m.tSw) != 0 then m
  else
    let m := { m with wch.tx := [] }
    let m := (m.settleRing 0 ping0).settleRing 1 ping1
    if !(m.ringReady 0 || m.ringReady 1) then m
    else
      let seq := (m.get R.WCH_SWEEP_CNT_COUNT + 1) % 256
      let m := (m.put R.WCH_SWEEP_FRAME_FRAME m.frame)
      let m := [0, 1].foldl (fun m r =>
        if m.ringReady r then
          let m := (m.sample r seq).chainAll r (chainFrame 4 0xFE seq [])
          m.setRing r (fun x => { x with vF := m.chanInst (58 + r) })
        else m) m
      { m with wch.inFlight := true, wch.instant := m.time.ticks }) s

/-- SWEEP_DATA_COMPOSED (R223, R225): the blocks a sweep brought; composed, delivered to core 2 and the recorder, judged; then the
service window. -/
def execSweepDataComposed (blocks : List Block) (s : State) : Out := onMod (fun m =>
  if !m.wch.inFlight then m
  else
    let seq := (m.get R.WCH_SWEEP_CNT_COUNT + 1) % 256
    let find := fun (n : Nat) => blocks.find? (fun b => b.slot == n)
    let m := m.balTimers
    let mons := (List.range 64).filter (fun n => decide (n % 32 < m.nMon (n / 32)))
    let m := mons.foldl (fun m n =>
      match find n with
      | none => m.judgeMonitor n none
      | some b =>
        if blockOk b.bytes seq then m.judgeMonitor n (some b.bytes)
        else (((m.bump R.WCH_CRC_CNT_COUNT).put R.WCH_EVT_CRC 1).wchCorrected (n / 32) 4 n).judgeMonitor n none) m
    let data := (List.range 64).flatMap (fun n =>
      m.slotBytes n ((find n).bind (fun b => if blockOk b.bytes seq then some b else none)))
    let m := { m with wch.data := data, wch.inFlight := false }
    let m := m.bump R.WCH_SWEEP_CNT_COUNT
    let m := (m.judgeSum 0).judgeSum 1
    let m := { m with cen.sweepDue := true }
    let m := (m.serviceRing 0).serviceRing 1
    m.put R.WCH_STAT_BAL_ACT (b2n (m.wch.cells.any (fun e => e.2.bleed)))) s

/-- ALARM_RECEIVE (R235, R238): ARG of the frame; a lost hop is a located break, a restored side is noted. -/
def execAlarmReceive (ring : Fin 2) (arg : Byte) (s : State) : Out := onMod (fun m =>
  let a := arg.toNat
  let p := a % 64
  let h := if bit a 6 then p + 1 else p
  let side := if bit a 6 then 2 else 1
  if !m.chainOn || decide (m.nMon ring ≤ p) then m
  else
    let r := ring.val
    let old := (m.wring r).lost.find? (fun e => e.1 == h)
    if bit a 7 then
      m.setRing r (fun x => { x with lost := x.lost.map (fun e => if e.1 == h then (h, e.2 ||| side) else e),
                                     restTick := m.time.ticks })
    else if old = some (h, 0) then m.setRing r (fun x => { x with restTick := m.time.ticks })
    else
      let m := m.setRing r (fun x => { x with lost := x.lost.filter (fun e => e.1 != h) ++ [(h, 0)], breakTick := m.time.ticks,
                                              restTick := m.time.ticks })
      let m := m.showEnds r ((m.wring r).lost.map Prod.fst)
      let m := (m.put R.WCH_EVT_BREAK 1).bump R.WCH_BRK_CNT_COUNT
      m.condStart 12 r 1 (32 * r + min h 31) 1) s

/-- A timed test cycle starts on both rings (R230). -/
def Mod.startCycle (m : Mod) : Mod :=
  let m := { m with wch.owtTick := m.time.ticks }
  let m := [0, 1].foldl (fun m r => if 0 < m.nMon r then m.setRing r (fun x => { x with cyc := some 0 }) else m) m
  m.put R.WCH_STAT_OWT_CYC (b2n (m.wch.rings.any (fun x => x.cyc.isSome)))

/-- OWT_CYCLE_START (R230): every OWT_S seconds, counted from the last start (log 41); 0 disables. -/
def execOwtCycleStart (s : State) : Out := onMod (fun m =>
  let t := m.get R.WCH_OWT_CFG_OWT_S
  if m.chainOn && t != 0 && decide (m.wch.owtTick + t * tickS ≤ m.time.ticks) then m.startCycle else m) s

/-- OWT_NOW. -/
def Mod.owtNow (m : Mod) : Mod :=
  if m.chainOn then m.startCycle else m

/-- WCH_CMD.OWT_NOW (R230). -/
def execWchCmdOwtNow (s : State) : Out := onMod (fun m =>
  m.guarded 0xC0C4 2 (fun m => m.owtNow)) s

/-- REARM of a monitor. -/
def Mod.rearmMon (m : Mod) (mon : Nat) : Mod :=
  let w := (List.range 17).filter (fun w => bit (m.openWires mon) w)
  let m := m.puts [(R.WCH_MON_OPEN mon, 0), (R.WCH_MON_FAULT mon, 0)]
  let m := w.foldl (fun m k => m.condEnd 12 (mon / 32) 6 (cellIdx mon (min k 15)) 1) m
  m.setMon mon (fun x => { x with posRun := [], tests := x.tests ++ w.flatMap (fun k => [k, k]) })

/-- WCH_CMD.REARM (R231): a monitor's open bits clear, two tests of each of those wires start. -/
def execWchCmdRearm (mon : Fin 64) (s : State) : Out := onMod (fun m =>
  m.guarded 0xC0C4 (4 + 8 * mon) (fun m => m.rearmMon mon.val)) s

/-- A write of WCH_BAL_DATA. -/
def Mod.balData (m : Mod) (v : Word) : Mod :=
  if m.get R.WCH_BAL_CFG_SRC = 1 then m.balRequest (m.get R.WCH_BAL_ADDR_MON) v.toNat else m

/-- WCH_BAL_DATA write (R239): acts only with SRC = 1. -/
def execWchBalDataWrite (v : Word) (s : State) : Out := onMod (fun m =>
  m.guarded 0xC0DC v.toNat (fun m => m.balData v)) s

/-- WCH_CELL_DATA of a cell (Table 07-14). -/
def Mod.cellWord (m : Mod) (i : Nat) : Nat :=
  let x := m.wcell i
  x.prec % 65536 + x.coarse % 1024 * 2 ^ 16 + x.valid % 4 * 2 ^ 26 + b2n x.bled * 2 ^ 28

/-- A read of WCH_CELL_DATA. -/
def Mod.cellRead (m : Mod) : Nat × Mod :=
  let i := m.get R.WCH_CELL_ADDR_CELL
  (m.cellWord i, m.put R.WCH_CELL_ADDR_CELL (i + 1))

/-- WCH_CELL_DATA read (R462): the cell's data; the index advances. -/
def execWchCellDataRead (s : State) : Out := onMod (fun m =>
  m.guardedRd 0xC0D4 (fun m => m.cellRead)) s

end Sys2Proof.Machine
end

