-- ==== Sys2Proof/Machine/LinkOps.lean ====
section
/-!
DEFINITION. Shared operations of the Nisol links: link frames and messages as bytes (R275, R283), classes and the buffer pool (R276 to
R281), sending by priority and credit (R279, R282), delivery and forwarding by scope (R284, R285, R291, R295), port states (R273,
R274), the fleet tree (R296).
-/
namespace Sys2Proof.Machine

/-- A port. -/
def Mod.port (m : Mod) (p : Nat) : Port := m.lnk.ports.getD p {}

/-- Change a port. -/
def Mod.setPort (m : Mod) (p : Nat) (f : Port → Port) : Mod := { m with lnk.ports := (bank 7 m.lnk.ports {}).modify p f }

/-- PSTATp.STATE of a port (Table 09-3). -/
def Mod.pst (m : Mod) (p : Nat) : Nat := m.get (R.LNK_PSTAT_STATE p)

/-- Set a port's state; LNK_STAT follows. -/
def Mod.setPst (m : Mod) (p v : Nat) : Mod :=
  let m := m.put (R.LNK_PSTAT_STATE p) v
  let m := if v = 4 then m.setPort p (fun q => { q with failTick := m.time.ticks }) else m
  m.puts [(R.LNK_STAT_UP, setBit (m.get R.LNK_STAT_UP) p (v == 2 || v == 3)),
    (R.LNK_STAT_ONE_LANE, setBit (m.get R.LNK_STAT_ONE_LANE) p (v == 3)), (R.LNK_STAT_FAIL, setBit (m.get R.LNK_STAT_FAIL) p (v == 4))]

/-- The class of a channel (Table 09-5, Table 09-17): class 0 acts as 1 from channel 32 on. -/
def Mod.chClass (m : Mod) (c : Nat) : Nat :=
  let k := m.get (R.LNK_CHCFG_CLASS c)
  if 32 ≤ c ∧ k = 0 then 1 else k

/-! ## Messages and frames as bytes -/

/-- The header's DST coding of a scope. -/
def scopeCode : Scope → Nat
  | .unicast => 0
  | .ring => 1
  | .fleet => 2
  | .host => 3

/-- The scope of a DST code. -/
def scopeOf : Nat → Scope
  | 1 => .ring
  | 2 => .fleet
  | 3 => .host
  | _ => .unicast

/-- A message as bytes (Table 09-7). -/
def Msg.bytes (g : Msg) : List Nat :=
  [g.chan % 256, b2n g.west + 2 * b2n g.resp] ++ leBytes 2 (g.dst % 16384 + scopeCode g.scope * 16384) ++
    leBytes 2 (g.src % 16384 + (if g.srcHost then 3 else 0) * 16384) ++ leBytes 2 g.mseq ++ [g.hops % 256, g.body.length % 256] ++
    leBytes 2 g.tag ++ [g.relay % 256] ++ zeros 3 ++ g.body

/-- A message read from bytes; none when it is shorter than its header and length name. -/
def parseMsg (b : List Nat) : Option Msg :=
  let n := b.getD 9 0
  if b.length < 16 + n ∨ 240 < n then none
  else some { chan := b.getD 0 0, west := bit (b.getD 1 0) 0, resp := bit (b.getD 1 0) 1, scope := scopeOf (le b 2 2 / 16384),
              dst := le b 2 2 % 16384, srcHost := le b 4 2 / 16384 == 3, src := le b 4 2 % 16384, mseq := le b 6 2,
              hops := b.getD 8 0, tag := le b 10 2, body := (b.drop 16).take n, relay := b.getD 12 0 }

/-- FTYPE of a link frame. -/
def ftypeCode : FType → Nat
  | .msg => 0
  | .beacon => 1
  | .idle => 2
  | .hello => 3
  | .diag => 4
  | .stopmap => 5
  | .other => 15

/-- A link frame as bytes (Table 09-4). -/
def Frame.bytes (f : Frame) : List Nat := leBytes 4 f.lh0 ++ leBytes 4 f.lh1 ++ f.body ++ leBytes 4 f.crc

/-! ## Lane coding (R272) -/

/-- `k` payload bits through the scrambler of IEEE 802.3 clause 49 (each output bit is the input bit and the outputs 39 and 58 bits before it, added
modulo 2), for k up to 39. `s` holds the last 58 output bits, the oldest in bit 0. Answers the output bits and the new `s`. -/
def scrPart (k s x : Nat) : Nat × Nat :=
  let y := (x ^^^ (s % 2 ^ k)) ^^^ (s / 2 ^ 19 % 2 ^ k)
  (y, (s + y * 2 ^ 58) / 2 ^ k)

/-- The inverse: it needs nothing but the last 58 bits received. -/
def unscrPart (k s y : Nat) : Nat × Nat := ((y ^^^ (s % 2 ^ k)) ^^^ (s / 2 ^ 19 % 2 ^ k), (s + y * 2 ^ 58) / 2 ^ k)

/-- A 64-bit payload scrambled, bit 0 first. -/
def scramble (s x : Nat) : Nat × Nat :=
  let a := scrPart 39 s (x % 2 ^ 39)
  let b := scrPart 25 a.2 (x / 2 ^ 39 % 2 ^ 25)
  (a.1 + b.1 * 2 ^ 39, b.2)

/-- A 64-bit payload descrambled. -/
def unscramble (s y : Nat) : Nat × Nat :=
  let a := unscrPart 39 s (y % 2 ^ 39)
  let b := unscrPart 25 a.2 (y / 2 ^ 39 % 2 ^ 25)
  (a.1 + b.1 * 2 ^ 39, b.2)

/-- The 8-byte blocks of a frame, the first byte lowest; the last is filled with zeros. -/
def blocks8 (b : List Nat) : List Nat := (List.range ((b.length + 7) / 8)).map (fun i => le b (8 * i) 8)

/-- One block on a lane: sync header 0b01 and the scrambled payload (64b/66b, R272). -/
def Port.putBlock (q : Port) (l x : Nat) : Port :=
  let r := scramble (q.scr.getD l 0) x
  { q with scr := (bank 2 q.scr 0).set l r.2, fibre := (bank 2 q.fibre []).modify l (fun f => f ++ [(1, r.1)]) }

/-- A frame's blocks on the lanes 0 and 1 in turn, or all on the one lane of UP_1L (R272). DESIGN CHOICE (log 62): a frame starts a block, every
block carries the sync header of data, the one lane is lane 0. -/
def Port.stripe (q : Port) (one : Bool) (bs : List Nat) : Port :=
  bs.foldl (fun q x => if one then q.putBlock 0 x else { q.putBlock q.turn x with turn := 1 - q.turn }) { q with fibre := [[], []] }

/-- Put a frame on the fibre of a port: LSEQ, LACK, the credits to return, CRC (Table 09-4), in the lane coding of R272. -/
def Mod.sendFrame (m : Mod) (p : Nat) (t : FType) (lseq cls : Nat) (body : List Nat) : Mod :=
  let q := m.port p
  let h0 := lseq % 4096 + q.rxSeq % 4096 * 2 ^ 12 + ftypeCode t * 2 ^ 24 + cls % 4 * 2 ^ 28
  let c0 := min q.ret0 15
  let c1 := min q.ret1 31
  let c2 := min q.ret2 255
  let h1 := c0 + c1 * 2 ^ 4 + c2 * 2 ^ 9
  let f : Frame := { lh0 := h0, lh1 := h1, body := body, crc := crc32 (leBytes 4 h0 ++ leBytes 4 h1 ++ body) }
  let one := m.pst p == 3
  m.setPort p (fun q => { q with lastTx := some f, ret0 := q.ret0 - c0, ret1 := q.ret1 - c1, ret2 := q.ret2 - c2 }.stripe one (blocks8 f.bytes))

/-! ## The buffer pool (R277, R278, R280) -/

/-- Every message the module holds: waiting, unacknowledged, delivered and not yet taken, held for a path change. -/
def Mod.heldMsgs (m : Mod) : List Msg :=
  m.lnk.ports.flatMap (fun q => q.txq ++ q.retry.map (·.msg)) ++ m.lnk.inbox ++ m.lnk.mailbox ++ m.lnk.heldq

/-- Buffers a channel holds (LNK_CH_DATA.USE). -/
def Mod.chUse (m : Mod) (c : Nat) : Nat := (m.heldMsgs.filter (fun g => g.chan == c)).length

/-- Free shared buffers: a channel's buffers beyond its reserve of 2 count against the shared part (R278). -/
def Mod.poolFree (m : Mod) : Nat :=
  let used := (m.heldMsgs.map (·.chan)).eraseDups
  3416 - sumN (used.map (fun c => m.chUse c - 2))

/-- CH_MAX of a channel, at least 2 (Table 09-17). -/
def Mod.chMax (m : Mod) (c : Nat) : Nat := max 2 (m.get (R.LNK_CHCFG_CH_MAX c))

/-- POOL_LOW in force. -/
def Mod.poolLow (m : Mod) : Nat := m.get R.LNK_CFG_POOL_LOW

/-- Channels of a class. -/
def Mod.classChans (m : Mod) (k : Nat) : List Nat := (List.range 256).filter (fun c => m.chClass c == k)

/-- Whether this module stops a channel. -/
def Mod.chStopped (m : Mod) (c : Nat) : Bool :=
  m.lnk.stopped.any (fun e => e.1 == c) || (m.chClass c == 3 && m.lnk.pool3.isSome) || (m.chClass c == 2 && m.lnk.pool2.isSome)

/-- CH_STALL ends for channels that are no longer stopped (R281). -/
def Mod.endStalls (m : Mod) : Mod :=
  (m.flt.conds.filter (fun c => c.blk == 13 && c.kind == 7 && !c.forced && !m.chStopped c.addr)).foldl
    (fun m c => m.condEnd 13 c.inst 7 c.addr c.cls) m

/-- STOPMAP on every UP port (R280): bit c for each channel this module stops. -/
def Mod.sendStops (m : Mod) : Mod :=
  let map := (List.range 32).map (fun i => ofBits 8 (fun j => m.chClass (8 * i + j) != 0 && m.chStopped (8 * i + j)))
  (List.range 7).foldl (fun m p => if m.portUp p then m.sendFrame p .stopmap (m.port p).txSeq 0 map else m) m

/-- The pool registers and the stops follow what is held (R280, R281): LNK_POOL, POOL_LOW with its report, stops and restarts; each
channel newly stopped counts in LNK_STOP_CNT; a change of the stops is sent at once. -/
def Mod.syncPool (m : Mod) : Mod :=
  let f := m.poolFree
  let low := decide (f < m.poolLow)
  let m := m.puts [(R.LNK_POOL_FREE, f), (R.LNK_POOL_MIN_FREE, min f (m.get R.LNK_POOL_MIN_FREE)), (R.LNK_STAT_POOL_LOW, b2n low)]
  let m := if low && !m.condOn 13 7 6 0 then (m.put R.LNK_EVT_POOL_LOW 1).condStartLim (raiseKey 13 7 6) 13 7 6 0
    else if low then m else m.condEnd 13 7 6 0 0
  let was := m.lnk.stopped
  let q3 := m.lnk.pool3.isSome
  let q2 := m.lnk.pool2.isSome
  let stay := was.filter (fun e => decide (m.chMax e.1 - 4 < m.chUse e.1))
  let cand := (m.heldMsgs.map (·.chan)).eraseDups
  let new := cand.filter (fun c => m.chClass c != 0 && decide (m.chMax c ≤ m.chUse c) && !stay.any (fun e => e.1 == c))
  let p3 := if low then some (m.lnk.pool3.getD m.time.ticks) else if m.poolLow + 64 ≤ f then none else m.lnk.pool3
  let p2 := if f < m.poolLow / 2 then some (m.lnk.pool2.getD m.time.ticks) else if m.poolLow / 2 + 64 ≤ f then none else m.lnk.pool2
  let n3 := if p3.isSome && m.lnk.pool3.isNone then (m.classChans 3).length else 0
  let n2 := if p2.isSome && m.lnk.pool2.isNone then (m.classChans 2).length else 0
  let m := { m with lnk.stopped := stay ++ new.map (fun c => (c, m.time.ticks)), lnk.pool3 := p3, lnk.pool2 := p2 }
  let m := m.endStalls
  let m := if stay == was && new.isEmpty && p3.isSome == q3 && p2.isSome == q2 then m else m.sendStops
  if new.length + n3 + n2 = 0 then m else m.bumpBy R.LNK_STOP_CNT_COUNT.addr (new.length + n3 + n2)

/-! ## Sending (R279, R280, R282) -/

/-- Send credits of a class on a port. -/
def Port.credit (q : Port) (k : Nat) : Nat := if k = 0 then q.cr0 else if k = 1 then q.cr1 else q.cr2

/-- Channels with a message that may leave now: not stopped by the peer, credit of the class held. -/
def Mod.readyChans (m : Mod) (q : Port) : List Nat :=
  ((q.txq.map (·.chan)).eraseDups).filter (fun c =>
    decide (0 < q.credit (m.chClass c)) && (m.chClass c == 0 || !q.peerStop.contains c))

/-- The channel served next: the lowest class, class 3 at least once in 16 frames; within a class channels take turns. -/
def Mod.nextChan (m : Mod) (q : Port) : Option Nat :=
  let l := m.readyChans q
  let of := fun k => l.filter (fun c => m.chClass c == k)
  let turn := fun (s : List Nat) => s.foldl (fun (a : Option Nat) c => match a with
    | none => some c
    | some b => if (c + 255 - q.lastCh) % 256 < (b + 255 - q.lastCh) % 256 then some c else some b) none
  if 15 ≤ q.since3 && (of 3) != [] then turn (of 3)
  else if of 0 != [] then turn (of 0)
  else if of 1 != [] then turn (of 1)
  else if of 2 != [] then turn (of 2)
  else turn (of 3)

/-- Send one waiting message as a MSG frame, kept in the retry store (R275). -/
def Mod.sendOne (m : Mod) (p c : Nat) : Mod :=
  let q := m.port p
  match q.txq.find? (fun g => g.chan == c) with
  | none => m
  | some g =>
    let k := m.chClass c
    let s := (q.txSeq + 1) % 4096
    let m := m.setPort p (fun q =>
      { q with txSeq := s, txq := q.txq.eraseP (fun g => g.chan == c), retry := q.retry ++ [⟨s, k, g, 1⟩], lastCh := c,
               since3 := if k = 3 then 0 else q.since3 + 1,
               cr0 := if k = 0 then q.cr0 - 1 else q.cr0, cr1 := if k = 1 then q.cr1 - 1 else q.cr1,
               cr2 := if 2 ≤ k then q.cr2 - 1 else q.cr2 })
    m.sendFrame p .msg s k g.bytes

/-- Send what credit lets a port send. -/
def Mod.pumpN (m : Mod) (p : Nat) : Nat → Mod
  | 0 => m
  | n + 1 =>
    match m.nextChan (m.port p) with
    | none => m
    | some c => (m.sendOne p c).pumpN p n

/-- Send what a trained port may send. -/
def Mod.pump (m : Mod) (p : Nat) : Mod := if m.portUp p then m.pumpN p (m.port p).txq.length else m

/-- Every port sends; the pool follows. -/
def Mod.pumpAll (m : Mod) : Mod := ((List.range 7).foldl Mod.pump m).syncPool

/-! ## Delivery and forwarding (R276, R284 to R286, R291, R295) -/

/-- Deliver a message to its consumer (Table 09-5, LNK_CHCFGc.DELIV). -/
def Mod.deliver (m : Mod) (g : Msg) : Mod :=
  if g.chan < 32 then { m with lnk.inbox := m.lnk.inbox ++ [g] }
  else
    match m.get (R.LNK_CHCFG_DELIV g.chan) with
    | 1 => { m with lnk.mailbox := m.lnk.mailbox ++ [g] }
    | 2 => m
    | _ => { m with lnk.inbox := m.lnk.inbox ++ [g] }

/-- Whether a broadcast is newer than the last delivered of its (SRC, CHAN). -/
def Mod.bcastNew (m : Mod) (g : Msg) : Bool :=
  match m.lnk.seen.find? (fun e => e.1 == g.srcHost && e.2.1 == g.src && e.2.2.1 == g.chan) with
  | none => true
  | some e => serialNewer 16 g.mseq e.2.2.2

/-- Note a broadcast's MSEQ; messages passed by count as gaps (R286). -/
def Mod.noteBcast (m : Mod) (g : Msg) : Mod :=
  let k := fun (e : Bool × Nat × Nat × Nat) => e.1 == g.srcHost && e.2.1 == g.src && e.2.2.1 == g.chan
  let gap := match m.lnk.seen.find? k with
    | none => 0
    | some e => (g.mseq + 2 ^ 16 - e.2.2.2) % 2 ^ 16 - 1
  let m := { m with lnk.seen := (g.srcHost, g.src, g.chan, g.mseq) :: m.lnk.seen.filter (fun e => !k e) }
  if gap = 0 then m
  else
    let v := min (Sparse.get (fun _ => 0) m.lnk.gaps g.chan + gap) 65535
    ({ m with lnk.gaps := Sparse.set (fun _ => 0) m.lnk.gaps g.chan v }).bumpBy R.LNK_GAP_CNT_COUNT.addr gap

/-- The ring port onward for a message that arrived on ring port `p`. -/
def onward (p : Nat) : Nat := 1 - p

/-- Forward on the ring in the direction of travel, or the other way when that port is down (R284). -/
def Mod.forwardRing (m : Mod) (p : Nat) (g : Msg) : Mod :=
  let o := onward p
  let g := { g with hops := g.hops - 1 }
  if m.portUp o then m.enqueue o { g with west := o == 1 }
  else if m.portUp p then m.enqueue p { g with west := p == 1 } else m

/-- A fleet broadcast at a lead (R284): down from the root it is delivered, sent on the ring and to the children; upward it goes to
the up link; the acting root turns it downward. `up` tells that it came from the up link. -/
def Mod.fleetAtLead (m : Mod) (up : Bool) (g : Msg) : Mod :=
  let g1 := { g with hops := g.hops - 1 }
  if up || m.is R.TIM_STAT_ROOT then
    if !m.bcastNew g then m
    else
      let m := ((m.noteBcast g).deliver g).sendChildren g1
      m.putRing { g1 with scope := .ring, dst := 0, west := false }
  else if m.get R.LNK_TREE_STAT_UP_LINK < 8 then m.sendLink (m.get R.LNK_TREE_STAT_UP_LINK) g1
  else m

/-- A message for the host at a module's address (R291, R33): out of the own HOST port, else onward. -/
def Mod.toHost (m : Mod) (g : Msg) : Mod :=
  if g.dst = m.addr then (if m.portUp 6 then m.enqueue 6 g else m) else m.routeUnicast g

/-- A message from the host (R32, R33, R291): the serving module stamps it and serves or routes it by DST; elsewhere it waits for its REDIRECT. Until
its first election a module serves requests for its own address (R407). -/
def Mod.fromHost (m : Mod) (g : Msg) : Mod :=
  let g := { g with srcHost := true, src := m.addr }
  if m.servesHost && g.scope == .fleet then
    (if m.isLead then m.fleetAtLead false g else m.ringUnicast (m.get R.MOD_ROLE_STAT_LEAD_POS) g)
  else if m.servesHost && g.scope == .ring then
    let m := if m.bcastNew g then (m.noteBcast g).deliver g else m
    m.putRing g
  else if m.servesHost || (m.get R.MOD_ROLE_STAT_LEAD_POS == 15 && g.dst == m.addr) then
    if g.dst = m.addr then m.deliver g
    else if m.isLead then m.routeUnicast g
    else
      match m.posOfAddr g.dst with
      | some p => m.ringUnicast p g
      | none => m.ringUnicast (m.get R.MOD_ROLE_STAT_LEAD_POS) g
  else { m with lnk.inbox := m.lnk.inbox ++ [g] }

/-- The tree link a fleet port is to the lead: its own ports 0 to 3. -/
def fleetLink (p : Nat) : Nat := p - 2

/-- This module carries fleet traffic between its fleet ports and the lead: the deputy or the fleet relay (R32, R33, R295). -/
def Mod.carries (m : Mod) : Bool := m.role == 2 || m.is R.MOD_ROLE_STAT_FLEET_RELAY

/-- A message of the tree at the lead, by the link it came by (R284, R285, R295): ROUTE goes one tree hop and is the lead's; a BLOCKED link carries
nothing but beacons (R296). -/
def Mod.atLead (m : Mod) (link : Nat) (g : Msg) : Mod :=
  let g1 := { g with hops := g.hops - 1 }
  if link != m.get R.LNK_TREE_STAT_UP_LINK && !bit (m.get R.LNK_TREE_STAT_CHILD) link then m
  else match g.scope with
  | .fleet => m.fleetAtLead (link == m.get R.LNK_TREE_STAT_UP_LINK) g
  | .host => if g.dst = m.addr then m.toHost g else m.routeUnicast g1
  | .unicast => if g.dst = m.addr || g.chan == 11 then m.deliver g else m.routeUnicast g1
  | .ring => m

/-- A message from the fleet port `p` (R32, R295): the lead's own link, or relayed to the lead by the module that carries; another member takes
nothing in but beacons and link maintenance. -/
def Mod.fromFleet (m : Mod) (p : Nat) (g : Msg) : Mod :=
  if m.isLead then m.atLead (fleetLink p) g
  else if m.carries then m.ringUnicast (m.get R.MOD_ROLE_STAT_LEAD_POS) { g with hops := g.hops - 1, relay := 5 + fleetLink p }
  else m

/-- A message between the lead and the module that carries its fleet links, from ring port `p` (R295). -/
def Mod.relayed (m : Mod) (p : Nat) (g : Msg) : Mod :=
  if g.relay ≤ 4 then
    if m.carries then m.enqueue (1 + g.relay) { g with relay := 0, hops := g.hops - 1 } else m.forwardRing p g
  else if m.isLead then m.atLead (g.relay - 1) { g with relay := 0 } else m.forwardRing p g

/-- A message that a port has received in sequence. -/
def Mod.acceptMsg (m : Mod) (p : Nat) (g : Msg) : Mod :=
  if g.hops = 0 then m.bump R.LNK_AGED_CNT_COUNT
  else if 14 ≤ g.chan ∧ g.chan < 32 then m
  else
  let g := { g with tick := m.time.ticks }
  if p = 6 then m.fromHost { g with relay := 0 }
  else if g.src = m.addr && !g.srcHost then m
  else if 2 ≤ p then m.fromFleet p { g with relay := 0 }
  else if 1 ≤ g.relay && decide (g.relay ≤ 8) then m.relayed p g
  else
    match g.scope with
    | .ring =>
      let m := if m.bcastNew g then (m.noteBcast g).deliver g else m
      if m.portUp (onward p) && m.get (R.LNK_PSTAT_PEER_ADDR (onward p)) != g.src then
        m.enqueue (onward p) { g with hops := g.hops - 1 } else m
    | .fleet => if m.isLead then m.fleetAtLead false g else m.forwardRing p g
    | .host =>
      if g.dst = m.addr then m.toHost g
      else if (m.posOfAddr g.dst).isSome then m.forwardRing p g
      else m.routeUnicast { g with hops := g.hops - 1 }
    | .unicast =>
      if g.dst = m.addr then m.deliver g
      else if (m.posOfAddr g.dst).isSome || !m.isLead then m.forwardRing p g
      else m.routeUnicast { g with hops := g.hops - 1 }

/-! ## Port states (R273, R274) -/

/-- A port leaves UP: its onward unicasts go out of the other ring port, in order and ahead of newer frames; broadcast copies end at
the break (R286). -/
def Mod.turnBack (m : Mod) (p : Nat) : Mod :=
  if 2 ≤ p then m
  else
    let q := m.port p
    let l := (q.retry.map (·.msg) ++ q.txq).filter (fun g => g.scope != .ring)
    let m := m.setPort p (fun q => { q with retry := [], txq := [] })
    m.setPort (onward p) (fun q => { q with txq := l.map (fun g => { g with west := onward p == 1 }) ++ q.txq })

/-- Raise a corrected kind of a port, at most once per second, with its event bit. -/
def Mod.portEvent (m : Mod) (p kind : Nat) (f : Fld) : Mod := (m.raiseLim tickS 13 p kind 0 0).put f 1

/-- A retraining (R274): counted and reported; the third within 1 s puts the port in FAIL. -/
def Mod.retrain (m : Mod) (p : Nat) : Mod :=
  let recent := m.time.ticks :: (m.port p).retrains.filter (fun t => decide (m.time.ticks < t + tickS))
  let m := m.setPort p (fun q => { q with retrains := recent, crcTicks := [] })
  let m := (m.bump (R.LNK_RTR_CNT_COUNT p)).portEvent p 3 R.LNK_EVT_RETRAIN
  if 3 ≤ recent.length then ((m.setPst p 4).put R.LNK_EVT_FAIL 1).condStart 13 p 4 0 1
  else m.setPst p 1

/-! ## The fleet tree (R295, R296) -/

/-- A fleet link as the lead sees it (Table 09-16 coding): GEN, DEPTH and whether the neighbour names this rack as its up. -/
structure TreeLink where
  link : Nat
  gen : Nat
  depth : Nat
  child : Bool
  deriving DecidableEq, Repr

/-- Addresses of the own rack. -/
def Mod.rackAddrs (m : Mod) : List Nat := m.addr :: m.roles.peers.map (·.addr)

/-- DST of a message of one tree hop: the peer of an own fleet port; 0 by a relayed link, whose peer the lead does not see (log 62). -/
def Mod.linkPeer (m : Mod) (u : Nat) : Nat := if u < 4 then m.get (R.LNK_PSTAT_PEER_ADDR (2 + u)) else 0

/-- A lead lists its ring's addresses on its up link (R285). -/
def Mod.sendRoute (m : Mod) : Mod :=
  let u := m.get R.LNK_TREE_STAT_UP_LINK
  if m.isLead && decide (u < 8) then
    let l := m.rackAddrs
    let (q, m) := m.nextMseq 11
    m.sendLink u { chan := 11, scope := .unicast, dst := m.linkPeer u, src := m.addr, mseq := q,
                   body := [0x58, l.length] ++ l.flatMap (leBytes 2) }
  else m

/-- The trained fleet links whose beacons have been heard: the lead's ports and those of the deputy or fleet relay (R295). -/
def Mod.treeLinks (m : Mod) : List TreeLink :=
  (List.range 4).filterMap (fun l =>
    let q := m.port (2 + l)
    if m.portUp (2 + l) && q.bDepth != 15 then some ⟨l, q.bGen, q.bDepth, q.bUpHere⟩ else none) ++
  m.lnk.depUp.filterMap (fun e => if e.2.2.2.2 then some ⟨e.1, e.2.1, e.2.2.1, e.2.2.2.1⟩ else none)

/-- The better of two links: higher GEN, then lower DEPTH, then the lower link number. -/
def betterLink (a b : TreeLink) : Bool :=
  decide (b.gen < a.gen) || (a.gen == b.gen && (decide (a.depth < b.depth) || (a.depth == b.depth && decide (a.link < b.link))))

/-- The best link of a list. -/
def bestLink (l : List TreeLink) : Option TreeLink :=
  l.foldl (fun a x => match a with
    | none => some x
    | some y => if betterLink x y then some x else some y) none

/-- The lead chooses its up link again (R296, R297), its own DEPTH one more than the link's and at most 8; a detached lead blocks every fleet link and raises TREE_DETACHED. A changed up link
holds new tree unicasts that go by it for 50 µs (R286). -/
def Mod.treeChoose (m : Mod) : Mod :=
  let off := m.puts [(R.LNK_TREE_STAT_DEPTH, 15), (R.LNK_TREE_STAT_UP_LINK, 15), (R.LNK_TREE_STAT_CHILD, 0),
    (R.LNK_TREE_STAT_BLOCKED, 0), (R.LNK_TREE_STAT_ROOT_RACK, 0)]
  if !m.isLead then off.condEnd 13 7 0x0B 0 1
  else
    let l := if m.is R.LNK_FLEET_CFG_TREE_EN then m.treeLinks else []
    let root := m.is R.TIM_STAT_ROOT
    let up := if root then none else bestLink l
    let ok := root || (match up with
      | none => false
      | some x => decide (x.depth ≤ 7))
    let upn := if root || !ok then 15 else (up.map (·.link)).getD 15
    let dep := if root then 0 else if ok then min 15 ((up.map (·.depth)).getD 14 + 1) else 15
    let child := if ok then ofBits 8 (fun i => l.any (fun x => x.link == i && x.child && i != upn)) else 0
    let blk := ofBits 8 (fun i => m.treeLinks.any (fun x => x.link == i) && i != upn && !bit child i)
    let old := m.get R.LNK_TREE_STAT_UP_LINK
    let m := m.puts [(R.LNK_TREE_STAT_DEPTH, dep), (R.LNK_TREE_STAT_UP_LINK, upn), (R.LNK_TREE_STAT_CHILD, child),
      (R.LNK_TREE_STAT_BLOCKED, blk), (R.LNK_TREE_STAT_ROOT_RACK, b2n root)]
    let m := if upn != old then { m with lnk.holds := m.lnk.holds ++ [(upHold, m.time.ticks)] }.sendRoute else m
    if ok || !m.is R.LNK_FLEET_CFG_TREE_EN then m.condEnd 13 7 0x0B 0 1
    else if m.condOn 13 7 0x0B 0 then m else (m.put R.LNK_EVT_DETACHED 1).condStart 13 7 0x0B 0 1

/-- The bytes of an operand as numbers. -/
def natBytes (b : List Byte) : List Nat := b.map BitVec.toNat

end Sys2Proof.Machine
end

