-- ==== Sys2Proof/Machine/Stakes.lean ====
section
/-!
DEFINITION. Stakes (R261 to R267): records, arming and refusal, firing in order and its actions, expiry, barriers with their ARRIVE and
RELEASE messages.
-/
namespace Sys2Proof.Machine

/-- A stake's record: 32 bytes. -/
def stakeDflt (_ : Nat) : List Nat := zeros 32

/-- The record of stake `n` (Table 08-5). -/
def Mod.stake (m : Mod) (n : Nat) : List Nat := Sparse.get stakeDflt m.stk.recs n

/-- Fields of a record. -/
def stMode (r : List Nat) : Nat := r.getD 0 0 % 8
def stRepeat (r : List Nat) : Bool := bit (r.getD 0 0) 3
def stLocal (r : List Nat) : Bool := bit (r.getD 0 0) 4
def stLateOk (r : List Nat) : Bool := bit (r.getD 0 0) 5
def stAuto (r : List Nat) : Bool := bit (r.getD 0 0) 6
def stAction (r : List Nat) : Nat := r.getD 1 0
def stState (r : List Nat) : Nat := r.getD 2 0 % 8
def stScope (r : List Nat) : Nat := r.getD 3 0
def stCount (r : List Nat) : Nat := le r 4 2
def stArrived (r : List Nat) : Nat := le r 6 2
def stT (r : List Nat) : Nat := le r 8 8
def stPeriod (r : List Nat) : Nat := le r 16 4
def stArg (r : List Nat) : Nat := le r 20 4
def stArg2 (r : List Nat) : Nat := le r 24 4
def stHomeAddr (r : List Nat) : Nat := le r 28 2 % 16384
def stHomeStake (r : List Nat) : Nat := le r 30 2 % 8192

/-- Replace bytes of a record from offset `o`. -/
def setBytes (r : List Nat) (o : Nat) (b : List Nat) : List Nat := pad o r ++ b ++ r.drop (o + b.length)

/-- STATE byte: state, SUPPRESSED, LATE. -/
def stateByte (st : Nat) (supp late : Bool) : Nat := st + 64 * b2n supp + 128 * b2n late

/-- Put a record in its place; STK_STAT.ARMED counts the armed ones. -/
def Mod.setStake (m : Mod) (n : Nat) (r : List Nat) : Mod :=
  let recs := Sparse.set stakeDflt m.stk.recs n r
  ({ m with stk.recs := recs }).put R.STK_STAT_ARMED ((recs.filter (fun (e : Nat × List Nat) => stState e.2 == 1)).length + m.ttb.mks.length)

/-- Give a stake a state. -/
def Mod.setStState (m : Mod) (n st : Nat) (supp : Bool := false) (late : Bool := false) : Mod :=
  m.setStake n (setBytes (m.stake n) 2 [stateByte st supp late])

/-- The instant a stake counts by (R264): local timebase or the module's time, ns. -/
def Mod.stakeNow (m : Mod) (r : List Nat) : Nat := if stLocal r then m.localNs else m.nowNs

/-- The release instant of a stake, where its barrier has completed. -/
def Mod.relOf (m : Mod) (n : Nat) : Option Nat := (m.stk.rel.find? (fun e => e.1 == n)).map (·.2)

/-- The instant at which an armed stake fires; none while it is not known. -/
def Mod.fireAt (m : Mod) (n : Nat) : Option Nat :=
  let r := m.stake n
  if stState r != 1 then none
  else if stMode r = 1 then some (stT r)
  else m.relOf n

/-- A stake expires (R264, R267): counted and reported. -/
def Mod.expireStake (m : Mod) (n : Nat) : Mod :=
  (((m.setStState n 3).bump R.STK_EXP_CNT_COUNT).put R.STK_EVT_EXPIRE 1).raiseLim tickS 5 0 1 n 0

/-- A stake message (Table 08-7). -/
def stakeMsg (typ : Nat) (cancel : Bool) (homeA homeS srcA srcS scope trel : Nat) : List Nat :=
  [typ, b2n cancel] ++ leBytes 2 homeA ++ leBytes 2 homeS ++ leBytes 2 srcA ++ leBytes 2 srcS ++ [scope] ++ zeros 5 ++
    leBytes 8 trel ++ zeros 8

/-- States in which SWAP, LAW_SEL, SP_TGT and CAP are not applied (R265). -/
def Mod.suppresses (m : Mod) : Bool := m.pstate == 4 || m.pstate == 5 || m.pstate == 1

/-- The register that an action writes (Table 08-6): SWAP, LAW_SEL, SP_TGT, CAP. -/
def Mod.stakeReg (m : Mod) (a arg : Nat) : Mod :=
  match a with
  | 2 => m.requestSwap (if m.frame % 200 = 0 then m.frame else nextMultiple 200 m.frame)
  | 3 => m.selectLaw (arg % 8)
  | 4 => m.setSpTarget (arg % 65536)
  | 5 => if m.is R.MOD_ROLE_STAT_ELECTING then { m with bwk.capWait := some (arg % 65536) } else m.acceptHostCap (arg % 65536)
  | _ => m

/-- A stake fires (R262, R263, R265): its state, registers and counters, its action now or at the next frame boundary; the LOG record
carries the firing frame (Table 11-5). `start`: the firing stands at the start of the running frame, which is then the first frame at or after it. -/
def Mod.fireStake (m : Mod) (n : Nat) (late start : Bool) : Mod :=
  let r := m.stake n
  let a := stAction r
  let supp := m.suppresses && decide (2 ≤ a) && decide (a ≤ 5)
  let m := if stMode r = 1 && stRepeat r then
      m.setStake n (setBytes (setBytes r 8 (leBytes 8 (stT r + max 1000 (stPeriod r) * 1000))) 2 [stateByte 1 supp late])
    else m.setStState n 2 supp late
  let m := { m with stk.fired := m.stk.fired + 1, stk.rel := m.stk.rel.filter (fun e => e.1 != n) }
  let m := (m.puts [(R.STK_LAST_STAKE, n), (R.STK_LAST_FRAME_FRAME, m.frame % 2 ^ 32), (R.STK_EVT_FIRE, 1)]).bump R.STK_FIRE_CNT_COUNT
  let m := if late then (m.bump R.STK_LATE_CNT_COUNT).put R.STK_EVT_LATE 1 else m
  if supp then m
  else if a = 6 then m.capTrigger
  else if a = 10 then m.log1 0x03 n (leBytes 4 (stArg r) ++ leBytes 4 (stArg2 r) ++ leBytes 4 m.frame)
  else if a = 0 ∨ a = 7 then m
  else if start && decide (2 ≤ a) && decide (a ≤ 5) then m.stakeReg a (stArg r)
  else { m with stk.acts := m.stk.acts ++ [[a, stArg r, stArg2 r, stHomeAddr r, stHomeStake r, n]] }

/-- Fire at once, or move to the next frame when 32 have taken effect in this one (R263). -/
def Mod.fireOrDefer (m : Mod) (n : Nat) (late : Bool) (start : Bool := false) : Mod :=
  if m.stk.fired < 32 then m.fireStake n late start
  else if m.stk.due.contains n then m
  else ({ m with stk.due := m.stk.due ++ [n] }).raiseLim tickS 5 0 2 n 0

/-- Send RELEASE of a home across its scope (R266, R267). -/
def Mod.sendRelease (m : Mod) (n : Nat) (cancel : Bool) (trel : Nat) : Mod :=
  let r := m.stake n
  let b := stakeMsg 0x42 cancel m.addr n m.addr n (stScope r) trel
  if stScope r = 1 then m.sendRing 3 b else if stScope r = 2 then m.sendFleet 3 b else m

/-- The own wait stakes that name a home take its RELEASE (R264, R267). -/
def Mod.takeRelease (m : Mod) (homeA homeS : Nat) (cancel : Bool) (trel : Nat) : Mod :=
  let l := (m.stk.recs.map Prod.fst).filter (fun n =>
    let r := m.stake n
    stState r == 1 && stMode r == 3 && stHomeAddr r == homeA && stHomeStake r == homeS)
  l.foldl (fun m n =>
    if cancel then m.setStState n 4
    else
      let m := m.setStake n (setBytes (m.stake n) 8 (leBytes 8 trel))
      let r := m.stake n
      if m.stakeNow r ≤ trel then { m with stk.rel := m.stk.rel.filter (fun e => e.1 != n) ++ [(n, trel)] }
      else if stLateOk r then m.fireOrDefer n true else m.expireStake n) m

/-- An ARRIVE reaches a home of this module (R267). -/
def Mod.arriveAt (m : Mod) (n : Nat) : Mod :=
  let r := m.stake n
  let home := stMode r == 2 || stMode r == 4
  if stState r = 1 && home && (m.relOf n).isNone then
    let r := setBytes r 6 (leBytes 2 (stArrived r + 1))
    let m := m.setStake n r
    if stCount r ≤ stArrived r then
      let trel := m.nowNs + stPeriod r * 1000
      let m := { m with stk.rel := m.stk.rel ++ [(n, trel)] }
      (m.sendRelease n false trel).takeRelease m.addr n false trel
    else m
  else m.bump R.STK_ARR_X_CNT_COUNT

/-- A participant's ARRIVE, sent to the home (R266). -/
def Mod.sendArrive (m : Mod) (homeA homeS srcS : Nat) : Mod :=
  if homeA = m.addr then m.arriveAt homeS
  else m.sendUnicast 3 homeA (stakeMsg 0x41 false homeA homeS m.addr srcS 0 0)

/-- Arming a record (R261, R264, R266): the release lead of a home is clamped; an instant already past fires late or expires. -/
def Mod.armStake (m : Mod) (n : Nat) (r : List Nat) : Mod :=
  let k := stMode r
  let home := k == 2 || k == 4
  let r := if home then setBytes r 16 (leBytes 4 (max (if stScope r = 2 then 500 else 50) (stPeriod r))) else r
  let r := setBytes (setBytes r 2 [stateByte 1 false false]) 6 [0, 0]
  let m := ({ m with stk.rel := m.stk.rel.filter (fun e => e.1 != n), stk.due := m.stk.due.filter (· != n) }).setStake n r
  if k = 1 && decide (stT r < m.stakeNow r) then
    if stLateOk r then m.fireOrDefer n true else m.expireStake n
  else if k = 3 && stAuto r then m.sendArrive (stHomeAddr r) (stHomeStake r) n
  else m

/-- Whether a commit is refused (R261, Table 08-6, the sentence under Table 08-13). -/
def Mod.commitRefused (m : Mod) (n : Nat) (r : List Nat) : Bool :=
  decide (8176 ≤ n) || decide (5 ≤ stMode r) || decide (0x0B ≤ stAction r) || stAction r == 7 ||
    (stMode r == 1 && !stLocal r && !m.timeValid && !stLateOk r)

/-- A refused arm (Table 08-10). -/
def Mod.refuseStake (m : Mod) (n : Nat) : Mod :=
  (m.puts [(R.STK_ADDR_REFUSED, 1), (R.STK_EVT_REFUSED, 1)]).raiseLim tickS 5 0 3 n 0

/-- The record of a stake as the window shows it: a tide-table stake that waits is a timed one with TTB_PHASE at its marker's instant (R91, R261). -/
def Mod.stakeView (m : Mod) (n : Nat) : List Nat :=
  match m.ttb.mks.find? (fun w => w.stake == n) with
  | none => m.stake n
  | some w => setBytes (setBytes (zeros 32) 0 [1, 7, 1]) 8 (leBytes 8 w.mrk.edgeT)

/-- The window shows a snapshot of the stake that STK_ADDR names. -/
def Mod.snapStake (m : Mod) : Mod :=
  let r := m.stakeView (m.get R.STK_ADDR_STAKE)
  let w := (List.range 8).map (fun i => le r (4 * i) 4)
  { m with stk.snap := w, stk.buf := w }

/-- The commit of the window's record (R261): MODE 0 cancels an armed stake. -/
def Mod.commitStake (m : Mod) : Mod :=
  let n := m.get R.STK_ADDR_STAKE
  let r := m.stk.buf.flatMap (leBytes 4)
  let m := if m.commitRefused n r then (m.refuseStake n).refuse
    else if stMode r = 0 then
      let was := stState (m.stake n) == 1
      ({ m with stk.rel := m.stk.rel.filter (fun e => e.1 != n), stk.due := m.stk.due.filter (· != n) }).setStake n
        (setBytes (setBytes r 2 [if was then 4 else 0]) 6 [0, 0])
    else m.armStake n r
  (m.put R.STK_ADDR_STAKE ((n + 1) % 8192)).snapStake

/-- An action's effect at a frame boundary (Table 08-6): action, ARG, ARG2, home address and stake, stake. -/
def Mod.stakeAct (m : Mod) (a : List Nat) : Mod :=
  let arg := a.getD 1 0
  match a.getD 0 0 with
  | 1 => m.put R.STK_NOTIFY_BIT (setBit (m.get R.STK_NOTIFY_BIT) (arg % 32) true)
  | 8 => m.sendArrive (a.getD 3 0) (a.getD 4 0) (a.getD 5 0)
  | 9 =>
    let n := arg % 8192
    let r := m.stake n
    if stMode r = 0 then m else if m.commitRefused n r then m.refuseStake n else m.armStake n r
  | k => m.stakeReg k arg

/-- The stakes at a frame boundary (R263): the actions of the ended frame take effect in order; firings that were moved fire with
LATE, at most 32. -/
def Mod.stakesFrame (m : Mod) : Mod :=
  let acts := m.stk.acts
  let m := acts.foldl Mod.stakeAct { m with stk.acts := [], stk.fired := 0 }
  let due := m.stk.due
  (due.take 32).foldl (fun m n => m.fireStake n true true) { m with stk.due := due.drop 32 }

/-- A tide-table stake expires with its marker (R264). -/
def Mod.expireMarker (m : Mod) (n : Nat) : Mod :=
  let m := ({ m with ttb.mks := m.ttb.mks.filter (fun w => w.stake != n) }).showMarkers
  ((m.bump R.STK_EXP_CNT_COUNT).put R.STK_EVT_EXPIRE 1).raiseLim tickS 5 0 1 n 0

/-- A step of time expires every armed stake that counts fleet time whose instant the step passes over (R264). -/
def Mod.stepStakes (m : Mod) (old new : Nat) : Mod :=
  let m := ((m.stk.recs.map Prod.fst).filter (fun n => stState (m.stake n) == 1 && !stLocal (m.stake n))).foldl (fun m n =>
    match m.fireAt n with
    | none => m
    | some t => if old ≤ t ∧ t < new then m.expireStake n else m) m
  (m.ttb.mks.filter (fun w => decide (old ≤ w.mrk.edgeT) && decide (w.mrk.edgeT < new))).foldl (fun m w => m.expireMarker w.stake) m

/-- The stake due next in the running frame: instant and number, lowest first (R263). -/
def Mod.nextStake (m : Mod) : Option (Nat × Nat) :=
  m.stk.recs.foldl (fun b e =>
    match m.fireAt e.1 with
    | none => b
    | some t =>
      if t < m.stakeNow e.2 + 5000 && (stLocal e.2 || m.timeValid || stMode e.2 == 2 || stMode e.2 == 4) && !m.stk.due.contains e.1 then
        match b with
        | none => some (t, e.1)
        | some c => if t < c.1 then some (t, e.1) else b
      else b) none

/-- The tide-table stake due next in the running frame; markers whose instants coincide fire in arrival order (R94). -/
def Mod.nextMarker (m : Mod) : Option (Nat × Nat) :=
  m.ttb.mks.foldl (fun b w =>
    if w.mrk.edgeT < m.nowNs + 5000 && m.timeValid then
      match b with
      | none => some (w.mrk.edgeT, w.stake)
      | some c => if w.mrk.edgeT < c.1 then some (w.mrk.edgeT, w.stake) else b
    else b) none

/-! ## Commands -/

/-- A write of STK_DATA7 (Table 08-13). -/
def Mod.stakeData7 (m : Mod) (data7 : Word) : Mod :=
  ({ m with stk.buf := (bank 8 m.stk.buf 0).set 7 data7.toNat }).commitStake

/-- STAKE_COMMIT (R261, Table 08-13): a write of STK_DATA7 commits the record and advances the window. -/
def execStakeCommit (data7 : Word) (s : State) : Out := onMod (fun m =>
  m.guardedR 0x50E0 data7.toNat (fun m => m.stakeData7 data7)) s

/-- A stake record that fails parity (R345): CANCELLED, its action is not taken; a barrier home sends RELEASE with CANCEL. -/
def Mod.stakeUe (m : Mod) (n : Nat) : Mod :=
  let r := m.stake n
  let m := m.singleUe 15 (32 * n)
  let m := ({ m with stk.rel := m.stk.rel.filter (fun e => e.1 != n), stk.due := m.stk.due.filter (· != n) }).setStState n 4
  if stState r = 1 && (stMode r == 2 || stMode r == 4) then (m.sendRelease n true 0).takeRelease m.addr n true 0 else m

/-- STAKE_FIRE (R262, R263): the stake whose instant comes next in this frame fires; the tide table's are served first. `bad`: the record
read fails parity (R345). -/
def execStakeFire (bad : Bool) (s : State) : Out := onMod (fun m =>
  match m.nextMarker with
  | some w =>
    let m := (m.puts [(R.STK_LAST_STAKE, w.2), (R.STK_LAST_FRAME_FRAME, m.frame % 2 ^ 32), (R.STK_EVT_FIRE, 1)]).bump R.STK_FIRE_CNT_COUNT
    ({ m with stk.fired := m.stk.fired + 1 }).fireMarker w.2
  | none =>
    match m.nextStake with
    | none => m
    | some n => if bad then m.stakeUe n.2 else m.fireOrDefer n.2 false (n.1 == m.stakeNow (m.stake n.2))) s

/-- STAKE_EXPIRE (R264): the instant of a timed or wait stake passes while time is not valid. -/
def execStakeExpire (n : Fin 8192) (s : State) : Out := onMod (fun m =>
  let r := m.stake n
  if m.ttb.mks.any (fun w => w.stake == n.val && decide (w.mrk.edgeT < m.nowNs + 5000)) && !m.timeValid then
    m.expireMarker n
  else match m.fireAt n with
  | none => m
  | some t =>
    if (stMode r == 1 || stMode r == 3) && !stLocal r && !m.timeValid && decide (t < m.nowNs + 5000) then m.expireStake n else m) s

/-- ARRIVE of a wait stake. -/
def Mod.stkArrive (m : Mod) (n : Nat) : Mod :=
  let r := m.stake n
  if stMode r = 3 && stState r == 1 then m.sendArrive (stHomeAddr r) (stHomeStake r) n else m

/-- STK_CMD.ARRIVE (R265, R266): sends ARRIVE for the named wait stake. -/
def execStkCmdArrive (n : Fin 8192) (s : State) : Out := onMod (fun m =>
  m.guarded 0x50A4 (1 + 2 * n.val) (fun m => m.stkArrive n.val)) s

/-- ARRIVE_RECEIVE (R267): an ARRIVE for a home of this module is counted there. -/
def execArriveReceive (bytes : List Byte) (s : State) : Out := onMod (fun m =>
  let b := natBytes bytes
  let m := m.takeInbox 3 b
  if b.getD 0 0 = 0x41 && le b 2 2 == m.addr then m.arriveAt (le b 4 2 % 8192) else m) s

/-- RELEASE_RECEIVE (R266, R267): the wait stakes that name the home take T_rel, or are cancelled. -/
def execReleaseReceive (bytes : List Byte) (s : State) : Out := onMod (fun m =>
  let b := natBytes bytes
  let m := m.takeInbox 3 b
  if b.getD 0 0 = 0x42 then m.takeRelease (le b 2 2 % 16384) (le b 4 2 % 8192) (bit (b.getD 1 0) 0) (le b 16 8) else m) s

/-- BARRIER_DEADLINE (R267): a home with deadline that is not complete at T expires and cancels its waits. -/
def execBarrierDeadline (n : Fin 8192) (s : State) : Out := onMod (fun m =>
  let r := m.stake n
  if stState r = 1 && stMode r == 4 && (m.relOf n).isNone && decide (stT r < m.stakeNow r + 5000) then
    ((m.expireStake n).sendRelease n true 0).takeRelease m.addr n true 0
  else m) s

end Sys2Proof.Machine
end

