-- ==== Sys2Proof/Machine/Clock.lean ====
section
/-!
DEFINITION. Clocks and fleet time (R246 to R260): references and the root PLL, time states and validity, beacons and time sources, the
facility inputs, the acting root.
-/
namespace Sys2Proof.Machine

/-! ## References and the PLL (R247, R248) -/

/-- A reference is good: 1 XO, 2 FAC, 3 REC. -/
def Mod.refOk (m : Mod) (r : Nat) : Bool :=
  m.is (if r = 1 then R.CLK_STAT_XO_OK else if r = 2 then R.CLK_STAT_FAC_OK else R.CLK_STAT_REC_OK)

/-- The time source is trained. -/
def Mod.srcTrained (m : Mod) : Bool :=
  match m.get R.TIM_STAT_SRC with
  | 1 => m.portUp 0
  | 2 => m.portUp 1
  | 3 => m.get R.LNK_TREE_STAT_UP_LINK < 8
  | _ => false

/-- The references in order of priority (R247): the one REF_SEL names first, else FAC for an acting root, REC with a trained source, XO. -/
def Mod.refOrder (m : Mod) : List Nat :=
  let auto := (if m.is R.TIM_STAT_ROOT then [2] else if m.srcTrained then [3] else []) ++ [1]
  let sel := m.get R.CLK_CFG_REF_SEL
  if sel = 0 then auto else sel :: auto

/-- The reference that applies. -/
def Mod.bestRef (m : Mod) : Nat := (m.refOrder.find? m.refOk).getD 1

/-- Switch to the reference that applies: counted and reported (R247); `lost` is the source concerned. -/
def Mod.chooseRef (m : Mod) (src : Nat) : Mod :=
  let b := m.bestRef
  if b = m.get R.CLK_STAT_REF_ACT then m
  else
    let m := (m.put R.CLK_STAT_REF_ACT b).bump R.CLK_SW_CNT_COUNT
    (m.raiseLim tickS 3 0 2 src 0).put R.CLK_EVT_SWITCH 1

/-- The PLL locks (R248): the divided clocks run. -/
def Mod.pllUp (m : Mod) : Mod :=
  let m := { m with time.xoFallback := false }
  let m := m.puts [(R.CLK_STAT_PLL_LOCK, 1), (R.CLK_STAT_XO_OK, 1)]
  m.put R.CLK_STAT_REF_ACT m.bestRef

/-! ## Time states (R251, R255) -/

/-- The error estimate in ns (R255). -/
def Mod.errEst (m : Mod) : Nat := 250 + 50 * m.time.holdUs / 1000000

/-- Time is valid by R251. -/
def Mod.timeOk (m : Mod) : Bool :=
  let st := m.get R.TIM_STAT_STATE
  m.is R.CLK_STAT_PLL_LOCK &&
    (st == 2 || (st == 3 && decide (m.errEst ≤ 10 * clampN 30 255 (m.get R.TIM_CFG_TOL_NS)))) &&
    (m.isLead || m.is R.TIM_STAT_ROOT || m.time.leadValid)

/-- Every condition of a TIM kind ends. -/
def Mod.endTim (m : Mod) (k : Nat) : Mod := m.endConds 4 [k]

/-- VALID follows R251; its fall counts and raises TIME_LOST, its rise ends the condition. -/
def Mod.syncValid (m : Mod) : Mod :=
  let v := m.timeOk
  if v = m.timeValid then m
  else if v then (m.put R.TIM_STAT_VALID 1).endTim 1
  else
    let m := ((m.put R.TIM_STAT_VALID 0).bump R.TIM_LOSS_CNT_COUNT).put R.TIM_EVT_LOST 1
    m.condStart 4 0 1 (m.get R.TIM_STAT_SRC) 1

/-- TIM_HOLD shows the holdover (R255). -/
def Mod.showHold (m : Mod) : Mod :=
  m.puts [(R.TIM_HOLD_AGE, min 65535 (m.time.holdUs / 10000)), (R.TIM_HOLD_ERR_EST, min 65535 m.errEst)]

/-- HOLDOVER is entered from LOCKED; ACQUIRE falls back to FREE (R253, R255). -/
def Mod.enterHoldover (m : Mod) : Mod :=
  let m := { m with time.offs := [], time.stepDue := none }
  if m.get R.TIM_STAT_STATE = 2 then
    let m := ({ m with time.holdUs := 0 }).puts [(R.TIM_STAT_STATE, 3), (R.TIM_EVT_HOLD, 1)]
    let m := (m.bump R.TIM_HOLD_CNT_COUNT).condStartLim (raiseKey 4 0 2) 4 0 2 (m.get R.TIM_STAT_SRC)
    m.showHold.syncValid
  else if m.get R.TIM_STAT_STATE = 1 then m.put R.TIM_STAT_STATE 0
  else m

/-- LOCKED is entered. -/
def Mod.enterLock (m : Mod) : Mod :=
  let m := { m with time.everLocked := true, time.far := false, time.stepDue := none, time.holdUs := 0 }
  (((m.puts [(R.TIM_STAT_STATE, 2), (R.TIM_HOLD_AGE, 0), (R.TIM_HOLD_ERR_EST, 0)]).endTim 2).endTim 3).syncValid

/-- The step of R252 and R254, at a frame boundary outside RUN: fleet time becomes the source's, with the boundary on a multiple of a
frame; stakes whose instant it passes over expire (R264). -/
def Mod.applyStep (m : Mod) : Mod :=
  match m.time.stepDue with
  | none => m
  | some d =>
    if m.inRun then m
    else
      let old := m.nowNs
      let base : Int := (m.fleetTicks : Int) + d
      let new := rna ((base : Rat) / 64000) * 64000
      let m := { m with time.ofs := new - (m.time.ticks : Int) }
      let m := m.enterLock
      m.stepStakes old m.nowNs

/-- The largest slew, ppm (Table 08-12). -/
def Mod.slewPpm (m : Mod) : Nat := clampN 10 200 (m.get R.TIM_CFG_SLEW_PPM)

/-- STEP_MAX in ticks. -/
def Mod.stepMax (m : Mod) : Int := (max 1 (m.get R.TIM_CFG_STEP_MAX) * tickUs : Nat)

/-- Steering towards the source (R254): the spec bounds it by SLEW_PPM and gives no law, so its size is a free value within the
bound (log 4). -/
def Mod.steer (m : Mod) (ofs : Int) : Mod :=
  let (i, m) := m.fresh
  let mag : Int := (Config.freeNat i % (m.slewPpm * 1000 + 1) : Nat)
  m.putI R.CLK_FREQ_PPB (if ofs < 0 then -mag else if ofs = 0 then 0 else mag)

/-- The time source expected by R253: 0 none, 1 ring east, 2 ring west, 3 fleet up, 4 facility inputs. -/
def Mod.expectSrc (m : Mod) : Nat :=
  if m.is R.TIM_STAT_ROOT then 4
  else if m.isLead then (if m.get R.LNK_TREE_STAT_UP_LINK < 8 then 3 else 0)
  else if m.get R.MOD_ROLE_STAT_LEAD_POS = 15 then 0
  else if m.time.curPort < 2 && m.portUp m.time.curPort then 1 + m.time.curPort
  else match m.ringPort (m.get R.MOD_ROLE_STAT_LEAD_POS) with
    | none => 0
    | some p => 1 + p

/-- Whether a beacon's link is the source: 0 to 6 own ports, 7 to 10 the deputy's FP0 to FP3 over the ring. -/
def Mod.isSource (m : Mod) (link : Nat) : Bool :=
  match m.expectSrc with
  | 1 => link == 0
  | 2 => link == 1
  | 3 =>
    let u := m.get R.LNK_TREE_STAT_UP_LINK
    link == (if u < 4 then 2 + u else 3 + u)
  | _ => false

/-- The last 8 measured offsets agree within ±2 ns (R252): no two are more than 51 ticks of 78.125 ps apart. -/
def offsAgree (l : List Int) : Bool := l.length == 8 && l.all (fun a => l.all (fun b => decide ((a - b).natAbs ≤ 51)))

/-- TIME_FAR (R254): an offset above STEP_MAX found in RUN is not slewed; the module stays in ACQUIRE and steps outside RUN. -/
def Mod.timeFar (m : Mod) (ofs : Int) : Mod :=
  let m := if m.time.far then m else ((m.put R.TIM_EVT_FAR 1).condStart 4 0 3 (m.get R.TIM_STAT_SRC) 1)
  ((({ m with time.far := true, time.stepDue := some ofs }).put R.TIM_STAT_STATE 1).endTim 2).syncValid

/-- A measured offset to the source (R252 to R254). -/
def Mod.takeOffset (m : Mod) (ofs : Int) : Mod :=
  let m := ({ m with time.offs := (ofs :: m.time.offs).take 8, time.lastBeacon := m.time.ticks }).putI R.TIM_OFFSET_OFS
    (clampI (-(2 ^ 31)) (2 ^ 31 - 1) ofs)
  let st := m.get R.TIM_STAT_STATE
  let m := m.put R.TIM_STAT_SRC m.expectSrc
  let farRun := m.inRun && decide (m.stepMax < (ofs.natAbs : Int))
  if st = 2 then (if farRun then m.timeFar ofs else m.steer ofs)
  else
    let m := if st = 0 then m.put R.TIM_STAT_STATE 1 else m
    if !offsAgree m.time.offs then m
    else if m.inRun then
      if farRun then m.timeFar ofs
      else m.enterLock.steer ofs
    else if st = 3 && decide ((ofs.natAbs : Int) ≤ m.stepMax) then m.enterLock.steer ofs
    else { m with time.stepDue := some ofs }

/-! ## The acting root (R258, R260) -/

/-- A change of acting root is seen (R260). -/
def Mod.rootChange (m : Mod) (gen addr : Nat) : Mod :=
  ((m.puts [(R.TIM_ROOT_GEN, gen % 65536), (R.TIM_ROOT_ADDR, addr % 16384), (R.TIM_EVT_ROOT, 1)]).raiseLim tickS 4 0 4
    (m.get R.TIM_STAT_SRC) 0)

/-- This module becomes the acting root: it keeps its time without a step (R260). -/
def Mod.becomeRoot (m : Mod) (gen : Nat) : Mod :=
  let m := (m.rootChange gen m.addr).puts [(R.TIM_STAT_ROOT, 1), (R.TIM_STAT_SRC, 4)]
  (m.treeChoose.chooseRef 2).syncValid

/-- This module is no longer the acting root. -/
def Mod.leaveRoot (m : Mod) : Mod :=
  if m.is R.TIM_STAT_ROOT then ((m.puts [(R.TIM_STAT_ROOT, 0), (R.TIM_STAT_PPS_OK, 0), (R.TIM_STAT_SRC, 0)]).treeChoose.chooseRef 2).syncValid
  else m

/-- FLEET_ROOT_ACT and ROOT_INACTIVE follow the role (R38); the configured root acts as acting root unless it has found another acting
root, whose GEN is then the higher (R260). -/
def Mod.syncRoot (m : Mod) : Mod :=
  let sel := m.get R.MOD_ROLE_CFG_FLEET_ROOT
  let want := sel == 1 || sel == 2
  let act := want && m.isLead && m.is R.MOD_STRAP_ROOT_CAP
  let m := m.puts [(R.MOD_ROLE_STAT_FLEET_ROOT_ACT, b2n act), (R.MOD_ROLE_STAT_ROOT_INACTIVE, b2n (want && !act))]
  if !act then m.leaveRoot
  else if sel = 1 && !m.is R.TIM_STAT_ROOT && (m.get R.TIM_ROOT_GEN == 0 || m.get R.TIM_ROOT_ADDR == m.addr) then
    m.becomeRoot (m.get R.TIM_ROOT_GEN)
  else m

/-- GEN and root of a beacon (R260): a module follows the highest GEN. -/
def Mod.takeGen (m : Mod) (gen addr : Nat) : Mod :=
  if m.get R.TIM_ROOT_GEN < gen ∨ (gen = m.get R.TIM_ROOT_GEN ∧ !m.is R.TIM_STAT_ROOT ∧ m.get R.TIM_ROOT_ADDR ≠ addr ∧
      m.get R.TIM_ROOT_ADDR = 0) then
    (m.rootChange gen addr).leaveRoot
  else m

/-! ## Commands -/

/-- PLL_LOCK (R248). -/
def execPllLock (s : State) : Out := onMod (fun m => if m.is R.CLK_STAT_PLL_LOCK then m else m.pllUp) s

/-- PLL_LOCK_LOSS (R248): the divided clocks stop, AON-side logic runs on XO; phase links, STO_HOLD and the Nisol links stop. -/
def execPllLockLoss (s : State) : Out := onMod (fun m =>
  if m.is R.CLK_STAT_PLL_LOCK then
    let m := { m with time.xoFallback := true, time.pllTick := m.time.ticks }
    let m := (m.puts [(R.CLK_STAT_PLL_LOCK, 0), (R.CLK_EVT_PLL, 1), (R.PHS_LNK_STAT_UP, 0)]).stoStop
    let m := (List.range 7).foldl (fun m p => if m.portUp p then (m.setPst p 1).turnBack p else m) m
    (m.raise 3 0 1 (m.get R.CLK_STAT_REF_ACT) 2).syncValid
  else m) s

/-- PLL_RELOCK_RETRY (R248): 1 s after the last attempt the lock is tried again; a failed attempt counts in CLK_SW_CNT. -/
def execPllRelockRetry (locked : Bool) (s : State) : Out := onMod (fun m =>
  if m.is R.CLK_STAT_PLL_LOCK || decide (m.time.ticks < m.time.pllTick + tickS) then m
  else if locked then m.pllUp else ({ m with time.pllTick := m.time.ticks }).bump R.CLK_SW_CNT_COUNT) s

/-- REF_LOST (R247): the source (0 XO, 1 FAC, 2 REC) is bad; the PLL holds and takes the next one. -/
def execRefLost (src : Fin 3) (s : State) : Out := onMod (fun m =>
  let r := src.val + 1
  let m := m.put (if r = 1 then R.CLK_STAT_XO_OK else if r = 2 then R.CLK_STAT_FAC_OK else R.CLK_STAT_REC_OK) 0
  let m := m.chooseRef r
  if r = 2 && m.is R.TIM_STAT_ROOT && !m.pins.ppsGood then m.enterHoldover else m) s

/-- REF_RESTORE (R247): the source has been good for 100 ms and is taken back into use. FAC exists only with ROOT_CAP. -/
def execRefRestore (src : Fin 3) (s : State) : Out := onMod (fun m =>
  let r := src.val + 1
  if r = 2 && !m.is R.MOD_STRAP_ROOT_CAP then m
  else
    (m.put (if r = 1 then R.CLK_STAT_XO_OK else if r = 2 then R.CLK_STAT_FAC_OK else R.CLK_STAT_REC_OK) 1).chooseRef r) s

/-- BEACON_SEND (R253, R296): a beacon leaves each trained ring port, or each trained fleet port; a member's fleet ports carry beacons
too. A lead in HOLDOVER that is not the acting root sends none on its fleet ports (Table 08-4: the tree below follows as beacons cease). The body's layout
is the model's (log 17). -/
def execBeaconSend (fleet : Bool) (s : State) : Out := onMod (fun m =>
  let ps := if !fleet then [0, 1] else if m.isLead && !m.is R.TIM_STAT_ROOT && m.get R.TIM_STAT_STATE == 3 then [] else [2, 3, 4, 5]
  ps.foldl (fun m p =>
    if m.portUp p then
      let up := fleet && m.get R.LNK_TREE_STAT_UP_LINK == fleetLink p
      m.sendFrame p .beacon (m.port p).txSeq 0 (leBytes 2 (m.get R.TIM_ROOT_GEN) ++ leBytes 2 (m.get R.TIM_ROOT_ADDR) ++
        [m.get R.LNK_TREE_STAT_DEPTH, m.get R.TIM_STAT_STATE, b2n m.timeValid, b2n up] ++ leBytes 8 m.nowNs)
    else m) m) s

/-- The recorded asymmetry of a port, in ticks of 78.125 ps (R257); what the deputy relays is corrected by it. -/
def Mod.asymTicks (m : Mod) (l : Nat) : Int :=
  let a : Int := if l = 0 then m.getI R.TIM_ASYM_E_ASYM else if l = 1 then m.getI R.TIM_ASYM_W_ASYM else if l = 2 then m.getI R.TIM_ASYM_UP_ASYM
    else if l < 6 then m.getI (R.LNK_PCFG_ASYM l) else 0
  rna ((a : Rat) * 32 / 25)

/-- A beacon that comes from the root (R260): at a lead by a fleet link whose neighbour does not follow this rack, elsewhere by any link. -/
def Mod.rootBeacon (m : Mod) (l : Nat) (upHere : Bool) : Bool := !m.isLead || (decide (2 ≤ l) && !upHere)

/-- BEACON_RECEIVE (R252 to R257, R260, R296): a beacon on a link (0 to 6 own ports, 7 to 10 the deputy's FP0 to FP3 relayed) with its
offset measured with half the round trip removed, the sender's validity and HOLDOVER mark, GEN, root, DEPTH, and whether it names this rack as up. -/
def execBeaconReceive (link : Fin 11) (ofs : Int) (valid holdover : Bool) (gen : Fin 65536) (root : Fin 16384) (depth : Fin 16)
    (upHere : Bool) (s : State) : Out := onMod (fun m =>
  let l := link.val
  if l < 7 && !m.portUp l then m
  else
    let m := if l < 7 then m.setPort l (fun q => { q with bGen := gen, bDepth := depth, bUpHere := upHere })
      else { m with lnk.depUp := (l - 3, gen.val, depth.val, upHere, true) :: m.lnk.depUp.filter (fun e => e.1 != l - 3) }
    let m1 := m.takeGen gen root
    let m : Mod := if m1.rootBeacon l upHere then { m1 with time.lastRoot := m1.time.ticks } else m1
    let m := if 2 ≤ l then m.treeChoose else m
    let m := if holdover then (if m.time.rootHold = 0 then { m with time.rootHold := m.time.ticks + 1 } else m)
      else { m with time.rootHold := 0 }
    if m.isSource l then
      let m := { m with time.leadValid := if m.isLead then m.time.leadValid else valid }
      (m.takeOffset (ofs - m.asymTicks l)).syncValid
    else m) s

/-- TIME_SOURCE_LOST (R253): 3 consecutive beacons are missing, one every 100 µs on a ring port and every 1 ms on a fleet port; the other ring port when it is
fit, else HOLDOVER. Instants are judged to the frame (5 µs). -/
def execTimeSourceLost (s : State) : Out := onMod (fun m =>
  let src := m.get R.TIM_STAT_SRC
  if m.time.ticks + 64000 < m.time.lastBeacon + (if src = 3 then 3 * tickMs else 300 * tickUs) then m
  else if src = 1 ∨ src = 2 then
    let other := if src = 1 then 1 else 0
    if !m.isLead && m.portUp other && m.time.curPort != 1 - other then
      ({ m with time.curPort := other, time.offs := [], time.lastBeacon := m.time.ticks }).put R.TIM_STAT_SRC (1 + other)
    else (({ m with time.curPort := 7 }).enterHoldover).put R.TIM_STAT_SRC 0
  else if src = 3 then m.enterHoldover.put R.TIM_STAT_SRC 0
  else m) s

/-- PPS_EDGE (R250, R258): a 1 PPS edge that reaches the pin `dev` ns from the expected second, PPS_DLY of it the cable's;
`falling` tells the edge, and the one IN_POL does not name marks nothing. Beyond 1 µs it is ignored with PPS_LOST; the acting root
enters LOCKED at its first accepted edge, where a written TOD becomes fleet time, and slews towards the edge after. -/
def execPpsEdge (dev : Int) (falling : Bool) (s : State) : Out := onMod (fun m =>
  let dev := dev - m.getI R.TIM_PPS_PPS_DLY
  let m := if falling == m.is R.TIM_PPS_IN_POL then { m with time.ppsTick := m.time.ticks } else m
  if !m.is R.MOD_STRAP_ROOT_CAP || falling != m.is R.TIM_PPS_IN_POL then m
  else if !m.is R.TIM_STAT_ROOT then { m with pins.ppsGood := true }
  else if m.get R.TIM_STAT_STATE != 2 && !m.time.everLocked then
    let m := { m with pins.ppsGood := true }
    let old := m.nowNs
    let m := match m.time.todPending with
      | none => { m with time.ofs := 0 }
      | some t => { m with time.ofs := ((t * tickS : Nat) : Int) - (m.time.ticks : Int), time.todPending := none }
    ((m.puts [(R.TIM_STAT_SRC, 4), (R.TIM_STAT_PPS_OK, 1)]).enterLock).stepStakes old m.nowNs
  else if 1000 < dev.natAbs then ((m.put R.TIM_STAT_PPS_OK 0).raiseLim tickS 4 0 5 4 0).put R.TIM_EVT_PPS 1
  else
    let m := ({ m with pins.ppsGood := true }).puts [(R.TIM_STAT_SRC, 4), (R.TIM_STAT_PPS_OK, 1)]
    let m := if m.get R.TIM_STAT_STATE = 2 then m else m.enterLock
    (m.putI R.TIM_OFFSET_OFS (clampI (-(2 ^ 31)) (2 ^ 31 - 1) (dev * 64 / 5))).steer dev) s

/-- PPS_LOST (R258): a 1 PPS edge missing for 1.1 s; with FAC lost too the root enters HOLDOVER. -/
def execPpsLost (s : State) : Out := onMod (fun m =>
  if m.time.ticks + 64000 < m.time.ppsTick + 1100 * tickMs then m else
  let m := { m with pins.ppsGood := false }
  if m.is R.TIM_STAT_ROOT then
    let m := ((m.put R.TIM_STAT_PPS_OK 0).raiseLim tickS 4 0 5 4 0).put R.TIM_EVT_PPS 1
    if m.is R.CLK_STAT_FAC_OK then m else m.enterHoldover
  else m) s

/-- PPS_OUT_PULSE (R259): in the frame in which a whole second of its time lies the output goes high; 20 frames later it is low again. -/
def execPpsOutPulse (s : State) : Out := onMod (fun m =>
  if m.is R.TIM_PPS_OUT_EN && decide (m.nowNs ≤ (m.nowNs + 4999) / 1000000000 * 1000000000) then { m with pins.ppsOut := true, time.ppsPulse := 20 } else m) s

/-- TIM_TOD takes no write at the acting root in LOCKED (R250). -/
def Mod.todLocked (m : Mod) : Bool := m.is R.TIM_STAT_ROOT && m.get R.TIM_STAT_STATE == 2

/-- Commit of TIM_TOD (R250). -/
def Mod.todCommit (m : Mod) (hi : Word) : Mod :=
  if m.todLocked then (m.put R.TIM_EVT_TOD_REF 1).refuse
  else
    { m.put R.TIM_TOD_HI_SEC hi.toNat with time.todPending := some (m.get R.TIM_TOD_LO_SEC + hi.toNat * 2 ^ 32) }

/-- TIM_TOD write of HI (R250): commits the seconds for the next 1 PPS edge; refused at the acting root in LOCKED. -/
def execTimTodWrite (hi : Word) (s : State) : Out := onMod (fun m =>
  m.guardedR 0x405C hi.toNat (fun m => m.todCommit hi)) s

/-- The latch of TIM_NOW (R459). -/
def Mod.nowLatch (m : Mod) : Nat × Mod :=
  (m.nowNs % 2 ^ 32, m.puts [(R.TIM_NOW_LO_NS, m.nowNs % 2 ^ 32), (R.TIM_NOW_HI_NS, m.nowNs / 2 ^ 32)])

/-- TIM_NOW_LO read (R459): latches TIM_NOW_HI. -/
def execTimNowRead (s : State) : Out := onMod (fun m =>
  m.guardedRd 0x4084 (fun m => m.nowLatch)) s

/-- This module acts as the standby root (R38, R260): configured as one, or the configured root while another is the acting root. -/
def Mod.standby (m : Mod) : Bool :=
  m.is R.MOD_ROLE_STAT_FLEET_ROOT_ACT && (m.get R.MOD_ROLE_CFG_FLEET_ROOT == 1 || m.get R.MOD_ROLE_CFG_FLEET_ROOT == 2) && !m.is R.TIM_STAT_ROOT

/-- ROOT_TIMEOUT (R260): the standby root has had no root beacon for ROOT_TMO. -/
def execRootTimeout (s : State) : Out := onMod (fun m =>
  if m.standby && decide (m.time.lastRoot + max 5 (m.get R.TIM_ROOT_CFG_ROOT_TMO) * tickMs ≤ m.time.ticks + 64000) then
    m.becomeRoot (m.get R.TIM_ROOT_GEN + 1)
  else m) s

/-- ROOT_HOLDOVER_TIMEOUT (R260): the root has been in HOLDOVER for REF_TMO while the standby's facility inputs are good. -/
def execRootHoldoverTimeout (s : State) : Out := onMod (fun m =>
  if m.standby && decide (0 < m.time.rootHold) && decide (m.time.rootHold + max 100 (m.get R.TIM_ROOT_CFG_REF_TMO) * tickMs ≤ m.time.ticks + 64001) &&
      m.pins.ppsGood && m.is R.CLK_STAT_FAC_OK then
    m.becomeRoot (m.get R.TIM_ROOT_GEN + 1)
  else m) s

/-- TIME_LOST (R251, R255): in HOLDOVER the error estimate has passed TOL_NS. -/
def execTimeLost (s : State) : Out := onMod (fun m => if m.get R.TIM_STAT_STATE = 3 then m.showHold.syncValid else m) s

end Sys2Proof.Machine
end

