-- ==== Sys2Proof/Machine/Roles.lean ====
section
/-!
DEFINITION. Rack roles (R21 to R39): health, heartbeats, ring state, election, lead and deputy, relays, redirects.
-/
namespace Sys2Proof.Machine

/-- The mode this module carries: MODE of the locked MOD page, 0 while the page is unlocked (R35, R36). -/
def Mod.ownMode (m : Mod) : Nat := if m.locked 1 then m.get R.MOD_ROLE_CFG_MODE else 0

/-- Healthy (R24); a module with STRAP_ERR takes no part in the ring's roles (R21). -/
def Mod.healthy (m : Mod) : Bool :=
  (m.pstate == 2 || m.pstate == 3) && m.get R.FLT_FATAL_BLK == 0 && (m.portUp 0 || m.portUp 1) &&
    (m.locked 1 || m.lc != 2) && !m.is R.MOD_STRAP_STRAP_ERR

/-- RACK_SIZE in force (Table 01-6). -/
def Mod.rackSize (m : Mod) : Nat :=
  let n := m.get R.MOD_ROLE_CFG_RACK_SIZE
  if n = 0 ∨ 10 < n then 10 else n

/-- The peer at a position. -/
def Mod.peer (m : Mod) (p : Nat) : Option Peer := m.roles.peers.find? (fun q => q.pos == p)

/-- The own HOST port is up, a fleet port is up (R33). -/
def Mod.hostUp (m : Mod) : Bool := m.portUp 6
def Mod.fleetUp (m : Mod) : Bool := m.portUp 2 || m.portUp 3 || m.portUp 4 || m.portUp 5

/-- The position that leads; none when there is none. -/
def Mod.leadPos (m : Mod) : Option Nat := if m.get R.MOD_ROLE_STAT_LEAD_POS = 15 then none else some (m.get R.MOD_ROLE_STAT_LEAD_POS)

/-- The mode a candidate must carry (R24): the lead's where one is known, else this module's. -/
def Mod.leadMode (m : Mod) : Nat :=
  match m.leadPos with
  | none => m.ownMode
  | some p => if p = m.pos then m.ownMode else ((m.peer p).map (·.mode)).getD m.ownMode

/-- This module is a candidate (R24, R36). A lone module leads itself (Table 01-2). -/
def Mod.selfCandidate (m : Mod) (mode : Nat) : Bool :=
  (m.healthy || (m.roles.peers == [] && !m.is R.MOD_STRAP_STRAP_ERR && (m.pstate == 2 || m.pstate == 3))) &&
    m.is R.MOD_ROLE_CFG_LEAD_ELIGIBLE && m.ownMode == mode && !m.roles.leaving && !m.is R.MOD_ROLE_STAT_MODE_MISMATCH

/-- Positions of the candidates, rising. -/
def Mod.candidates (m : Mod) (mode : Nat) : List Nat :=
  (List.range 10).filter (fun p =>
    (p == m.pos && m.selfCandidate mode) ||
      m.roles.peers.any (fun q => q.pos == p && q.healthy && q.eligible && q.mode == mode && !q.leaving))

/-- A heartbeat heard less than 300 µs ago from one direction (R25). -/
def Mod.fresh300 (m : Mod) (t : Option Nat) : Bool :=
  match t with
  | none => false
  | some x => decide (m.time.ticks < x + 300 * tickUs)

/-- A peer has been silent for 300 µs from both directions (R25, R42). -/
def Mod.peerSilent (m : Mod) (q : Peer) : Bool := !m.fresh300 q.eastT && !m.fresh300 q.westT

/-- RING_STATE (Table 01-2). -/
def Mod.ringStateOf (m : Mod) : Nat :=
  let l := m.roles.peers
  if l = [] then 3
  else if m.portUp 0 && m.portUp 1 && l.all (fun q => m.fresh300 q.eastT && m.fresh300 q.westT) then 0
  else if l.length + 1 < m.rackSize then 2
  else 1

/-- PEERS: the healthy modules reachable, this one among them. -/
def Mod.peersMask (m : Mod) : Nat :=
  ofBits 10 (fun p => (p == m.pos && m.healthy) || m.roles.peers.any (fun q => q.pos == p && q.healthy))

/-- The relay roles (R33). -/
def Mod.syncRelays (m : Mod) : Mod :=
  let lp := m.get R.MOD_ROLE_STAT_LEAD_POS
  let dp := m.get R.MOD_ROLE_STAT_DEPUTY_POS
  let up := fun (p : Nat) (own : Bool) (f : Peer → Bool) => if p = m.pos then own else ((m.peer p).map f).getD false
  let lowest := fun (own : Bool) (f : Peer → Bool) =>
    m.healthy && own && m.roles.peers.all (fun q => !(q.healthy && f q && decide (q.pos < m.pos)))
  let host := lp != 15 && !up lp m.hostUp (·.hostUp) && lowest m.hostUp (·.hostUp)
  let fleet := lp != 15 && !up lp m.fleetUp (·.fleetUp) && !up dp m.fleetUp (·.fleetUp) && lowest m.fleetUp (·.fleetUp)
  m.puts [(R.MOD_ROLE_STAT_HOST_RELAY, b2n host), (R.MOD_ROLE_STAT_FLEET_RELAY, b2n fleet)]

/-- ROLE from LEAD_POS and DEPUTY_POS (Table 01-7). -/
def Mod.roleOf (m : Mod) : Nat :=
  let lp := m.get R.MOD_ROLE_STAT_LEAD_POS
  if m.is R.MOD_STRAP_STRAP_ERR || m.is R.MOD_ROLE_STAT_MODE_MISMATCH then 0
  else if lp = m.pos then 3
  else if lp = 15 then 0
  else if m.get R.MOD_ROLE_STAT_DEPUTY_POS = m.pos then 2
  else 1

/-- The deputy the lead sets (R25, R26): the lowest candidate beside the lead; 0xF for none. -/
def Mod.deputyOf (m : Mod) (lead : Nat) : Nat := ((m.candidates m.leadMode).find? (· != lead)).getD 15

/-- Everything that follows from the peers and the role: PEERS, RING_STATE, DEGRADED (R39), relays, fleet root, tree. -/
def Mod.syncRoles (m : Mod) : Mod :=
  let m := m.puts [(R.MOD_ROLE_STAT_PEERS, m.peersMask), (R.MOD_ROLE_STAT_RING_STATE, m.ringStateOf)]
  let m := if m.get R.MOD_ROLE_STAT_LEAD_POS = m.pos then m.put R.MOD_ROLE_STAT_DEPUTY_POS (m.deputyOf m.pos) else m
  let old := m.role
  let m := m.put R.MOD_ROLE_STAT_ROLE m.roleOf
  let n := ((List.range 10).filter (fun p => bit m.peersMask p)).length
  let m := (m.flag R.MOD_ROLE_STAT_DEGRADED (m.isLead && decide (n < m.rackSize))).syncRelays
  let m := m.syncRoot
  let c := m.carrierPos
  let moved := m.lnk.depPos != c
  let m := if moved then { m with lnk.depPos := c, lnk.depUp := [] } else m
  if (old == 3) != m.isLead || (moved && m.isLead) then m.treeChoose else m

/-- ROLE_CONFLICT (R309). -/
def Mod.roleConflict (m : Mod) (pos : Nat) : Mod := m.condStart 1 0 1 pos 1

/-- An election starts (R25). -/
def Mod.startElection (m : Mod) : Mod := if m.is R.MOD_ROLE_STAT_ELECTING then m else m.setElecting true

/-- Payload of a heartbeat (Table 09-10). -/
def Mod.heartBody (m : Mod) : List Nat :=
  [0x57, m.pos, b2n m.healthy + 2 * m.get R.MOD_ROLE_CFG_LEAD_ELIGIBLE + 4 * m.ownMode + 16 * b2n m.roles.leaving + 32 * b2n m.hostUp +
    64 * b2n m.fleetUp, m.get R.MOD_ROLE_STAT_LEAD_POS, m.get R.MOD_ROLE_STAT_DEPUTY_POS, 0] ++ leBytes 2 m.addr

/-- Put a peer's heartbeat in the peer list. -/
def Mod.notePeer (m : Mod) (west : Bool) (b : List Nat) : Mod :=
  let f := b.getD 2 0
  let p := b.getD 1 0
  let old : Peer := (m.peer p).getD { pos := p }
  let q : Peer := { old with addr := le b 6 2 % 16384, healthy := bit f 0, eligible := bit f 1, mode := bits f 2 2, leaving := bit f 4,
                             hostUp := bit f 5, fleetUp := bit f 6, leadPos := b.getD 3 15, deputyPos := b.getD 4 15,
                             eastT := if west then old.eastT else some m.time.ticks,
                             westT := if west then some m.time.ticks else old.westT }
  { m with roles.peers := (m.roles.peers.filter (fun x => x.pos != p)) ++ [q] }

/-! ## What a new lead resumes from (R27, R30) -/

/-- Ten milliseconds in ns: the step of a plan's points (Table 09-9). -/
def planStep : Nat := 10000000

/-- SHARE and CAP of a position in a SHARE message (Table 09-10), 0.1 kW. -/
def shareAt (b : List Nat) (p : Nat) : Int := sext 16 (le b (16 + 4 * p) 2)
def capOf (b : List Nat) (p : Nat) : Nat := le b (18 + 4 * p) 2

/-- The rack power of the last SHARE, 0.1 kW: its shares, whose balance terms sum to zero (R30, R55). -/
def Mod.lastRack (m : Mod) : Int := ((List.range 10).map (shareAt m.plan.share)).foldl (· + ·) 0

/-- The rack cap of the last SHARE, 0.1 kW: its cap per shelf times its N_H; 0xFFFF none (R30, R55). -/
def Mod.lastCap (m : Mod) : Nat :=
  let c := capOf m.plan.share 0
  if m.plan.share.isEmpty || c == 0xFFFF then 0xFFFF else min 0xFFFE (c * m.plan.share.getD 1 0)

/-- The points of a plan's 48 bytes (Table 09-9), in rack power; none where T0 is 0. -/
def planPoints (b : List Nat) : List PlanPt :=
  let t0 := le b 8 8
  if t0 = 0 then []
  else (List.range (if bit (b.getD 1 0) 0 then 6 else 8)).map (fun i =>
    ⟨t0 + i * planStep, le b (16 + 4 * i) 2, le b (18 + 4 * i) 2⟩)

/-- A new lead resumes from the state it mirrored (R27): the last SHARE, the plan in use, P_RACK and C_RACK. Without one it plans from the
last SHARE it received (R30). -/
def Mod.resumePlan (m : Mod) : Mod :=
  let b := m.plan.mirror
  if b.length = 128 then
    let p := (b.drop 64).take 48
    let c := le b 114 2
    { m with plan.share := (b.drop 8).take 56, plan.points := planPoints p, plan.seq := le p 2 2, plan.pRack := sext 16 (le b 112 2),
             plan.cRack := c, plan.cap := if bit (p.getD 1 0) 0 then le p 40 2 else c }
  else { m with plan.pRack := m.lastRack, plan.cRack := m.lastCap, plan.cap := m.lastCap }

/-- What a peer's view of the lead does (R25, R26, R29, R36). -/
def Mod.adoptView (m : Mod) (q : Peer) : Mod :=
  if q.leadPos ≠ q.pos then m
  else
    let lp := m.get R.MOD_ROLE_STAT_LEAD_POS
    let m := m.checkOff 0x0203
    if lp = 15 then
      let m := m.puts [(R.MOD_ROLE_STAT_LEAD_POS, q.pos), (R.MOD_ROLE_STAT_DEPUTY_POS, min q.deputyPos 15)]
      if m.is R.MOD_ROLE_STAT_ELECTING then m.setElecting false else m
    else if lp = q.pos then
      let m := m.put R.MOD_ROLE_STAT_DEPUTY_POS (min q.deputyPos 15)
      if q.leaving then m.startElection else m
    else
      ({ m with roles.rejoin := some (min lp q.pos) }).startElection

/-- A locked mode that differs from the lead's (R36). A lead whose page is not locked carries no locked mode yet (log 34). -/
def Mod.judgeMode (m : Mod) : Mod :=
  match m.leadPos with
  | none => m
  | some p =>
    if p ≠ m.pos && m.locked 1 && (m.peer p).isSome && m.leadMode != 0 && m.leadMode != m.ownMode && !m.is R.MOD_ROLE_STAT_MODE_MISMATCH then
      (m.put R.MOD_ROLE_STAT_MODE_MISMATCH 1).roleConflict p
    else m

/-! ## Commands -/

/-- HEARTBEAT_SEND (R23): both directions, every 100 µs. -/
def execHeartbeatSend (s : State) : Out := onMod (fun m => m.sendRing 1 m.heartBody) s

/-- A lead that hears one address from two ring positions raises ADDR_CONFLICT (R284). -/
def Mod.judgeAddr (m : Mod) (p a : Nat) : Mod :=
  if m.isLead && (a == m.addr || m.roles.peers.any (fun q => q.pos != p && q.addr == a)) then
    (if m.condOn 13 7 0x0A a then m else (m.put R.LNK_EVT_ADDR 1).condStart 13 7 0x0A a 1)
  else m

/-- HEARTBEAT_RECEIVE (R22, R23, R25, R26, R29, R33, R36): a peer's heartbeat, heard from the east or the west. -/
def execHeartbeatReceive (west : Bool) (bytes : List Byte) (s : State) : Out := onMod (fun m =>
  let b := natBytes bytes
  let m := m.takeInbox 1 b
  if b.getD 0 0 != 0x57 || decide (9 < b.getD 1 0) then m
  else if b.getD 1 0 = m.pos then (m.put R.MOD_ROLE_STAT_POS_CONFLICT 1).roleConflict m.pos
  else if m.is R.MOD_STRAP_STRAP_ERR then m
  else
    let m := (m.notePeer west b).judgeAddr (b.getD 1 0) (le b 6 2)
    match m.peer (b.getD 1 0) with
    | none => m
    | some q => (m.adoptView q).judgeMode.syncRoles) s

/-- A peer is taken out of the list with the ROLE record of its loss (R42). -/
def Mod.dropPeer (m : Mod) (p : Nat) : Mod :=
  if (m.peer p).isSome then ({ m with roles.peers := m.roles.peers.filter (fun q => q.pos != p) }).logRole 1 p else m

/-- LEAD_HEARTBEAT_TIMEOUT (R25, R42): no lead, or no heartbeat from the lead for 300 µs: the lead is declared lost, an election starts; check
0x0203. -/
def execLeadHeartbeatTimeout (s : State) : Out := onMod (fun m =>
  match m.leadPos with
  | none => m.startElection
  | some p =>
    if p = m.pos || !((m.peer p).map m.peerSilent).getD true then m
    else
      let m := (m.checkOn 0x0203 p 300 300).dropPeer p
      (m.startElection).put R.MOD_ROLE_STAT_PEERS m.peersMask) s

/-- The position can lead after a rejoin (R29): this module or a healthy peer, neither leaving. -/
def Mod.canStay (m : Mod) (p : Nat) : Bool :=
  if p = m.pos then !m.roles.leaving else m.roles.peers.any (fun q => q.pos == p && q.healthy && !q.leaving)

/-- The lead an election chooses (R25, R29): where two segments rejoin the lower of the two leads, whatever mode it carries; else the lowest
candidate; 0xF none. -/
def Mod.electLead (m : Mod) : Nat :=
  let c := (m.candidates m.leadMode).headD 15
  match m.roles.rejoin with
  | some p => if m.canStay p then p else c
  | none => c

/-- The mode that a position carries (R23). -/
def Mod.modeAt (m : Mod) (p : Nat) : Nat := if p = m.pos then m.ownMode else ((m.peer p).map (·.mode)).getD m.ownMode

/-- ELECTION_COMPLETE (R25, R29, R30, R36): the lowest candidate is lead, the next lowest deputy; where two segments rejoin, the lower of the
two leads stays, and a module of another mode than its lead stands aside. A new lead resumes from the state it holds (R27, R30). -/
def execElectionComplete (s : State) : Out := onMod (fun m =>
  if !m.is R.MOD_ROLE_STAT_ELECTING then m
  else
    let lead := m.electLead
    let dep := ((m.candidates (m.modeAt lead)).find? (· != lead)).getD 15
    let was := m.isLead
    let m := ({ m with roles.rejoin := none }).puts [(R.MOD_ROLE_STAT_LEAD_POS, lead), (R.MOD_ROLE_STAT_DEPUTY_POS, dep)]
    let m := (m.checkOff 0x0203).bump R.MOD_ELECT_CNT_COUNT
    let m := (m.setElecting false).judgeMode.syncRoles
    let m := if m.isLead && !was then m.resumePlan else m
    m.logRole 2 lead) s

/-- PEER_LOST (R42): a peer silent for 300 µs: PEERS bit 0, ROLE record. -/
def execPeerLost (pos : Fin 10) (s : State) : Out := onMod (fun m =>
  if ((m.peer pos).map m.peerSilent).getD false then (m.dropPeer pos).syncRoles else m) s

/-- HOST_REQUEST_REDIRECT (R32, R291, R407): a module that does not serve the host answers a request at its HOST port with REDIRECT; before
the first election it names LEAD_POS 0xF and LEAD_ADDR 0. -/
def execHostRequestRedirect (tag : Fin 65536) (s : State) : Out := onMod (fun m =>
  let m := { m with lnk.inbox := m.lnk.inbox.eraseP (fun g => g.srcHost && g.tag == tag.val && g.src == m.addr) }
  if m.servesHost || !m.portUp 6 then m
  else
    let lp := m.get R.MOD_ROLE_STAT_LEAD_POS
    let leadHost := ((m.peer lp).map (·.hostUp)).getD false
    let relay := m.hostRelay
    let (p, a) : Nat × Nat :=
      if lp = 15 then (15, 0)
      else if leadHost then (lp, ((m.peer lp).map (·.addr)).getD 0)
      else match relay with
        | some q => (q.pos, q.addr)
        | none => (lp, ((m.peer lp).map (·.addr)).getD 0)
    let (q, m) := m.nextMseq 13
    (m.enqueue 6 { chan := 13, scope := .host, dst := m.addr, src := m.addr, mseq := q,
                   body := [0x71, p] ++ leBytes 2 a ++ leBytes 2 tag }).pump 6) s

end Sys2Proof.Machine
end

