-- ==== Sys2Proof/Machine/Links.lean ====
section
/-!
DEFINITION. The commands of the Nisol links (R270 to R301): port bring-up and loss, link frames, back-pressure, routes, fault messages,
optical diagnostics.
-/
namespace Sys2Proof.Machine

/-- A port is enabled and its domain is on. -/
def Mod.portOn (m : Mod) (p : Nat) : Bool :=
  bit (m.get R.LNK_CFG_PORT_EN) p && m.domainOn (if p < 2 then 14 else if p < 6 then 15 else 16)

/-- What a port may face (R273): EAST a WEST port, WEST an EAST port, a fleet port a fleet port, HOST a host. -/
def portFits (p peer : Nat) (host : Bool) : Bool :=
  if p = 6 then host else !host && (if p = 0 then peer == 1 else if p = 1 then peer == 0 else decide (2 ≤ peer) && decide (peer ≤ 5))

/-- PORT_LIGHT (R273): light on an enabled port starts training. -/
def execPortLight (p : Fin 7) (s : State) : Out := onMod (fun m =>
  if m.portOn p && decide (m.pst p ≤ 1) then (m.setPort p (fun q => { q with light := true })).setPst p 1 else m) s

/-- HELLO (R273): address, port, ring position, LEAD_ELIGIBLE, protocol version 1, RX_LSEQ. The body's layout is the model's (log 17). -/
def Mod.sendHello (m : Mod) (p : Nat) : Mod :=
  m.sendFrame p .hello (m.port p).txSeq 0 (leBytes 2 m.addr ++ [p, m.pos, m.get R.MOD_ROLE_CFG_LEAD_ELIGIBLE, 1] ++ leBytes 2 (m.port p).rxSeq)

/-- PORT_TRAINED (R273, R275, R279): the HELLO exchange names the peer and the last frame it received, the delay median and the peer's
class-2 window give DLY and credits; any other pairing is a ROLE_ERR. A ring port up with no lead known starts an election (R25). -/
def execPortTrained (p : Fin 7) (oneLane : Bool) (peerAddr : Fin 16384) (peerPort : Fin 8) (host : Bool) (rxLseq : Fin 4096)
    (dly : Fin 16777216) (win : Fin 256) (s : State) : Out := onMod (fun m =>
  if m.pst p ≠ 1 ∨ !m.portOn p ∨ !(m.port p).light then m
  else if oneLane && !m.is R.LNK_CFG_ONE_LANE_OK then m
  else
    let m := m.sendHello p
    let m := m.puts [(R.LNK_PSTAT_PEER_ADDR p, peerAddr), (R.LNK_PSTAT_PEER_PORT p, peerPort), (R.LNK_PDLY_DLY p, dly)]
    if !portFits p peerPort host then
      let m := (m.setPst p 4).puts [(R.LNK_PSTAT_ROLE_ERR p, 1), (R.LNK_EVT_ROLE, 1)]
      m.condStart 13 p 5 0 1
    else
      let m := (m.put (R.LNK_PSTAT_ROLE_ERR p) 0).setPort p (fun q =>
        let got := fun (f : Sent) => decide ((rxLseq.val + 4096 - f.lseq) % 4096 < 2048)
        let rest := q.retry.filter (fun f => !got f)
        { q with cr0 := 8 - (rest.filter (fun f => f.cls == 0)).length, cr1 := 16 - (rest.filter (fun f => f.cls == 1)).length,
                 cr2 := win - (rest.filter (fun f => decide (2 ≤ f.cls))).length, ret0 := 0, ret1 := 0, ret2 := 0,
                 retry := rest.map (fun f => { f with tries := 1 }), crcTicks := [], peerStop := [] })
      let m := m.setPst p (if oneLane then 3 else 2)
      let m := ((m.condEnd 13 p 1 0 1).condEnd 13 p 5 0 1).condEnd 13 p 4 0 1
      let m := if oneLane then m else m.condEnd 13 p 2 0 0
      let m := match (m.port p).retry with
        | [] => m
        | f :: _ => m.sendFrame p .msg f.lseq f.cls f.msg.bytes
      let m := if p.val < 2 && m.get R.MOD_ROLE_STAT_LEAD_POS == 15 then m.startElection else m
      (m.pump p).syncRelays) s

/-- PORT_DOWN (R274, R286): no valid frame for 10 µs, or both lanes lost. -/
def execPortDown (p : Fin 7) (s : State) : Out := onMod (fun m =>
  if m.portUp p then
    let m := ((m.setPst p 1).put R.LNK_EVT_DOWN 1).condStart 13 p 1 0 1
    let m := (m.turnBack p).setPort p (fun q => { q with bDepth := 15, light := false })
    let m := if 2 ≤ p.val then m.treeChoose else m
    (m.pump (onward p)).syncPool.syncRoles
  else m) s

/-- LANE_LOSS (R274): one lane lost with ONE_LANE_OK: UP_1L within 10 µs. -/
def execLaneLoss (p : Fin 7) (s : State) : Out := onMod (fun m =>
  if m.pst p = 2 && m.is R.LNK_CFG_ONE_LANE_OK then ((m.setPst p 3).put R.LNK_EVT_DEGRADED 1).condStartLim (raiseKey 13 p 2) 13 p 2 0 else m) s

/-- PORT_RETRAIN (R274): more than 16 CRC errors within 1 ms, or one frame sent 8 times without acknowledgement. -/
def execPortRetrain (p : Fin 7) (s : State) : Out := onMod (fun m =>
  let q := m.port p
  let crc := (q.crcTicks.filter (fun t => decide (m.time.ticks < t + tickMs))).length
  if m.portUp p && (decide (16 < crc) || q.retry.any (fun f => decide (8 ≤ f.tries))) then (m.retrain p).syncRelays else m) s

/-- PORT_FAIL_END (R274): after 1 s in FAIL the port trains again. -/
def execPortFailEnd (p : Fin 7) (s : State) : Out := onMod (fun m =>
  if m.pst p = 4 && decide ((m.port p).failTick + tickS ≤ m.time.ticks + 64000) then
    let m := (m.setPst p 1).put (R.LNK_PSTAT_ROLE_ERR p) 0
    ((m.setPort p (fun q => { q with retrains := [] })).condEnd 13 p 4 0 1).condEnd 13 p 5 0 1
  else m) s

/-- RETRAIN of a port. -/
def Mod.lnkRetrain (m : Mod) (p : Nat) : Mod :=
  if m.portUp p then (m.retrain p).syncRelays else m

/-- LNK_CMD.RETRAIN (R274). -/
def execLnkCmdRetrain (p : Fin 7) (s : State) : Out := onMod (fun m =>
  m.guarded 0xD0F4 (1 + 4 * p.val) (fun m => m.lnkRetrain p.val)) s

/-- IDLE_SEND (R274): a port that has sent nothing for 1 µs sends IDLE, with its acknowledgement and credits. -/
def execIdleSend (p : Fin 7) (s : State) : Out := onMod (fun m =>
  if m.portUp p then m.sendFrame p .idle (m.port p).txSeq 0 [] else m) s

/-- A cumulative LACK frees the retry store (R275). -/
def Mod.takeAck (m : Mod) (p lack : Nat) : Mod :=
  m.setPort p (fun q => { q with retry := q.retry.filter (fun f => !decide ((lack + 4096 - f.lseq) % 4096 < 2048)) })

/-- Credits returned by a frame (Table 09-4), within the windows of Table 09-6. -/
def Mod.takeCredit (m : Mod) (p h1 : Nat) : Mod :=
  m.setPort p (fun q => { q with cr0 := min 8 (q.cr0 + bits h1 0 4), cr1 := min 16 (q.cr1 + bits h1 4 5),
                                 cr2 := min 255 (q.cr2 + bits h1 9 8) })

/-- A MSG frame in sequence: acknowledged, its window refilled, its message taken in (R275, R279). -/
def Mod.takeMsgFrame (m : Mod) (p lseq cls : Nat) (body : List Nat) (bad : Bool) : Mod :=
  if lseq = ((m.port p).rxSeq + 1) % 4096 then
    let m := m.setPort p (fun q =>
      { q with rxSeq := lseq, ret0 := if cls = 0 then q.ret0 + 1 else q.ret0, ret1 := if cls = 1 then q.ret1 + 1 else q.ret1,
               ret2 := if 2 ≤ cls then q.ret2 + 1 else q.ret2 })
    match parseMsg body with
    | none => m
    | some g => if bad then m.linkUe else m.acceptMsg p g
  else m

/-- LINK_FRAME_RECEIVE (R275, R276, R279, R280, R284, R291, R298): the bytes of a frame from LH0 to CRC. `bad`: the buffer its message is stored
in fails parity, and the message is discarded before it leaves (R345). -/
def execLinkFrameReceive (p : Fin 7) (bytes : List Byte) (bad : Bool) (s : State) : Out := onMod (fun m =>
  let b := natBytes bytes
  if !m.portUp p then m
  else if b.length < 12 ∨ crc32 (b.take (b.length - 4)) ≠ le b (b.length - 4) 4 then
    (m.bump (R.LNK_CRC_CNT_COUNT p)).setPort p (fun q =>
      { q with crcTicks := m.time.ticks :: q.crcTicks.filter (fun t => decide (m.time.ticks < t + tickMs)) })
  else
    let h0 := le b 0 4
    let body := (b.drop 8).take (b.length - 12)
    let m := (m.takeAck p (bits h0 12 12)).takeCredit p (le b 4 4)
    let m := match bits h0 24 4 with
      | 0 => m.takeMsgFrame p (bits h0 0 12) (bits h0 28 2) body bad
      | 4 => m.setPort p (fun q => { q with peerTx := [sext 8 (body.getD 0 0), sext 8 (body.getD 1 0), (body.getD 2 0 : Int)] })
      | 5 => m.setPort p (fun q => { q with peerStop := (List.range 256).filter (fun c => bit (body.getD (c / 8) 0) (c % 8)) })
      | _ => m
    m.pumpAll) s

/-- RETRY_TIMEOUT (R275): no acknowledgement within the round trip plus 2 µs: resend from the oldest unacknowledged frame.
`bad`: the oldest frame in the retry store fails parity; it is not resent and counts as lost (R345). -/
def execRetryTimeout (p : Fin 7) (bad : Bool) (s : State) : Out := onMod (fun m =>
  if m.portUp p then
    match (m.port p).retry with
    | [] => m
    | f :: fs =>
      let l := if bad then fs else f :: fs
      let m := if bad then m.linkUe.bump (R.LNK_LOST_CNT_COUNT p) else m
      let m := m.bumpBy (R.LNK_RETX_CNT_COUNT p).addr l.length
      let m := m.setPort p (fun q => { q with retry := l.map (fun f => { f with tries := f.tries + 1 }) })
      l.foldl (fun m f => m.sendFrame p .msg f.lseq f.cls f.msg.bytes) m
  else m) s

/-- STOPMAP_SEND (R280): the stops of this module on every UP port. -/
def execStopmapSend (s : State) : Out := onMod (fun m =>
  m.syncPool.sendStops) s

/-- The tick since which a channel is stopped (R280). -/
def Mod.stoppedAt (m : Mod) (c : Nat) : Nat :=
  ((m.lnk.stopped.filter (fun e => e.1 == c)).map (·.2) ++ (if m.chClass c = 3 then m.lnk.pool3.toList else []) ++
    (if m.chClass c = 2 then m.lnk.pool2.toList else [])).foldl min m.time.ticks

/-- CH_STALL (R281): a channel stopped for more than 10 ms. -/
def execChStall (c : Fin 256) (s : State) : Out := onMod (fun m =>
  if m.chStopped c && m.chClass c != 0 && decide (m.stoppedAt c + 10 * tickMs ≤ m.time.ticks + 64000) then (m.put R.LNK_EVT_STALL 1).condStartLim (raiseKey 13 7 7) 13 7 7 c else m) s

/-- MESSAGE_AGED (R281): a class-2 or class-3 message held for forwarding for over 100 ms is discarded. -/
def execMessageAged (p : Fin 7) (c : Fin 256) (s : State) : Out := onMod (fun m =>
  let old := fun (g : Msg) => g.chan == c.val && g.src != m.addr && decide (g.tick + 100 * tickMs ≤ m.time.ticks + 64000)
  if decide (2 ≤ m.chClass c) && (m.port p).txq.any old then
    let m := m.setPort p (fun q => { q with txq := q.txq.eraseP old })
    (((m.bump R.LNK_AGED_CNT_COUNT).put R.LNK_EVT_LOST 1).raiseLim tickS 13 p 8 c 0).syncPool
  else m) s

/-- ROUTE_SEND (R285): every 100 ms a lead lists its ring's addresses on its up link. -/
def execRouteSend (s : State) : Out := onMod Mod.sendRoute s

/-- One address of a ROUTE message: its entry, ADDR_CONFLICT when it came by another link, the hold of a changed path (R284 to R286). -/
def Mod.setRoute (m : Mod) (link a : Nat) : Mod :=
  let old := m.route a
  let clash := (old.1 < 8 && old.1 != link) || m.rackAddrs.contains a
  let m := if clash && !m.condOn 13 7 0x0A a then (m.put R.LNK_EVT_ADDR 1).condStart 13 7 0x0A a 1 else m
  let m := if old.1 = link then m else { m with lnk.holds := m.lnk.holds.filter (fun (h : Nat × Nat) => h.1 != a) ++ [(a, m.time.ticks)] }
  { m with lnk.routes := Sparse.set routeDflt m.lnk.routes a (link, m.time.ticks) }

/-- ROUTE_RECEIVE (R285): entries of the listed addresses go to the arrival link; the message goes on upward. -/
def execRouteReceive (link : Fin 8) (bytes : List Byte) (s : State) : Out := onMod (fun m =>
  let b := natBytes bytes
  let m := m.takeInbox 11 b
  let n := b.getD 1 0
  if !m.isLead || b.getD 0 0 != 0x58 || n = 0 || decide (10 < n) then m
  else
    let m := (List.range n).foldl (fun m i => m.setRoute link (le b (2 + 2 * i) 2 % 16384)) m
    let u := m.get R.LNK_TREE_STAT_UP_LINK
    if u < 8 && u != link.val then
      let (q, m) := m.nextMseq 11
      m.sendLink u { chan := 11, scope := .unicast, dst := m.linkPeer u, src := m.addr, mseq := q, body := b }
    else m) s

/-- ROUTE_AGE_OUT (R285): an entry not refreshed for 350 ms is set to none; its ADDR_CONFLICT ends. -/
def execRouteAgeOut (a : Fin 16384) (s : State) : Out := onMod (fun m =>
  if (m.route a).1 < 8 && decide ((m.route a).2 + 350 * tickMs ≤ m.time.ticks + 64000) then
    let m := { m with lnk.routes := Sparse.set routeDflt m.lnk.routes a.val (routeDflt a),
                      lnk.holds := m.lnk.holds.filter (fun (h : Nat × Nat) => h.1 != a.val) ++ [(a.val, m.time.ticks)] }
    m.condEnd 13 7 0x0A a 1
  else m) s

/-- PATH_HOLD_END (R286): the 50 µs hold of a destination (16,384 for all that go by the up link) ends; held unicasts leave in order. -/
def execPathHoldEnd (d : Fin 16385) (s : State) : Out := onMod (fun m =>
  if m.lnk.holds.any (fun (h : Nat × Nat) => h.1 == d.val && decide (m.time.ticks + 64000 < h.2 + 50 * tickUs)) then m else
  let q := m.lnk.heldq
  let m := { m with lnk.holds := m.lnk.holds.filter (fun (h : Nat × Nat) => h.1 != d.val), lnk.heldq := [] }
  (q.foldl Mod.routeUnicast m).pumpAll) s

/-- FAULT_MESSAGE_SEND (R305): waiting records go to the lead in SEQ order; the lead hands them to the host. -/
def execFaultMessageSend (s : State) : Out := onMod (fun m =>
  match m.flt.faultTx with
  | [] => m
  | l =>
    let out := l.take 7
    let m := { m with flt.faultTx := l.drop 7 }
    let body := [0x59, out.length] ++ zeros 2 ++ out.flatMap FRec.bytes
    if m.isLead then m.sendHost 6 body
    else match m.peer (m.get R.MOD_ROLE_STAT_LEAD_POS) with
      | none => m
      | some q => m.sendUnicast 6 q.addr body) s

/-- FAULT_MESSAGE_RECEIVE (R305): the lead forwards a FAULT message to the host unchanged. -/
def execFaultMessageReceive (bytes : List Byte) (s : State) : Out := onMod (fun m =>
  let b := natBytes bytes
  let m := m.takeInbox 6 b
  if m.isLead then m.sendHost 6 b else m) s

/-- Loss of a lane in 0.1 dB: the peer's transmit power less the local receive power (R298). -/
def laneLoss (tx rx : Int) : Nat := (clampI 0 255 (tx - rx)).toNat

/-- OPTICAL_DIAG (R298, R299): powers of both lanes (0.1 dBm) and the local return loss (dB) are measured and exchanged; after 8 bad
measurements in a row the port asks for cleaning. -/
def execOpticalDiag (p : Fin 7) (tx0 tx1 rx0 rx1 : Int) (rl : Fin 256) (s : State) : Out := onMod (fun m =>
  if !m.portUp p then m
  else
    let q := m.port p
    let far := (q.peerTx.getD 2 255).toNat
    let l0 := laneLoss (q.peerTx.getD 0 0) rx0
    let l1 := laneLoss (q.peerTx.getD 1 0) rx1
    let m := m.puts [(R.LNK_OPT_PWR_TX0 p, enc 8 tx0), (R.LNK_OPT_PWR_TX1 p, enc 8 tx1), (R.LNK_OPT_PWR_RX0 p, enc 8 rx0),
      (R.LNK_OPT_PWR_RX1 p, enc 8 rx1), (R.LNK_OPT_LOSS_LOSS0 p, l0), (R.LNK_OPT_LOSS_LOSS1 p, l1), (R.LNK_OPT_LOSS_RL_LOC p, rl),
      (R.LNK_OPT_LOSS_RL_FAR p, far)]
    let m := m.sendFrame p .diag q.txSeq 0 [enc 8 tx0, enc 8 tx1, rl]
    let lim := clampN 10 40 (m.get R.LNK_DIAG_CFG_REFL_DB)
    let cl := clampN 5 50 (m.get R.LNK_DIAG_CFG_CLEAN_DB)
    let loc := decide (rl.val < lim)
    let farBad := decide (far < lim)
    let over_ := m.is (R.LNK_PSTAT_BASE_VALID p) && !loc && !farBad &&
      (decide (m.get (R.LNK_BASE_BASE0 p) + cl ≤ l0) || decide (m.get (R.LNK_BASE_BASE1 p) + cl ≤ l1))
    let marg := decide (min rx0 rx1 < -90 + (clampN 5 60 (m.get R.LNK_DIAG_CFG_MARGIN_DB) : Nat))
    let cnt := fun (b : Bool) (n : Nat) => if b then n + 1 else 0
    let good := !loc && !farBad && !over_
    let m := m.setPort p (fun q => { q with badLoc := cnt loc q.badLoc, badFar := cnt farBad q.badFar, badLoss := cnt over_ q.badLoss,
                                            badMargin := cnt marg q.badMargin, goodRun := cnt good q.goodRun })
    let q := m.port p
    let at_ := if 8 ≤ q.badLoc then 1 else if 8 ≤ q.badFar then 2 else if 8 ≤ q.badLoss then 3 else 0
    let ask := fun (m : Mod) (a : Nat) =>
      let m := m.log1 0x06 p (leBytes 4 (m.word (0xD180 + 8 * p)).toNat ++ leBytes 4 (m.word (0xD184 + 8 * p)).toNat ++ [a])
      m.sendHost 12 ([p.val, 3] ++ leBytes 4 (m.word (0xD180 + 8 * p)).toNat ++ leBytes 4 (m.word (0xD184 + 8 * p)).toNat)
    let m := if at_ ≠ 0 && (q.badLoc = 8 || q.badFar = 8 || q.badLoss = 8) && !m.condOn 13 p 0x0C 0 then
        ask ((m.puts [(R.LNK_PSTAT_CLEAN_REQ p, 1), (R.LNK_PSTAT_CLEAN_AT p, at_), (R.LNK_EVT_CLEAN, 1)]).condStartLim (raiseKey 13 p 0x0C) 13 p 0x0C 0) at_
      else m
    let m := if q.badMargin = 8 then
        ask ((m.puts [(R.LNK_PSTAT_CLEAN_REQ p, 1), (R.LNK_PSTAT_CLEAN_AT p, at_), (R.LNK_EVT_MARGIN, 1)]).condStart 13 p 0x0D 0 1) at_
      else if q.badMargin = 0 then m.condEnd 13 p 0x0D 0 1 else m
    if q.newBase && decide (8 ≤ q.goodRun) && q.badMargin == 0 then
      let m := (m.puts [(R.LNK_PSTAT_CLEAN_REQ p, 0), (R.LNK_PSTAT_CLEAN_AT p, 0)]).condEnd 13 p 0x0C 0 0
      m.setPort p (fun q => { q with newBase := false })
    else m) s

/-- BASE of a port. -/
def Mod.lnkBase (m : Mod) (p : Nat) : Mod :=
  (m.puts [(R.LNK_BASE_BASE0 p, m.get (R.LNK_OPT_LOSS_LOSS0 p)), (R.LNK_BASE_BASE1 p, m.get (R.LNK_OPT_LOSS_LOSS1 p)),
    (R.LNK_PSTAT_BASE_VALID p, 1)]).setPort p (fun q => { q with newBase := true, goodRun := 0 })

/-- LNK_CMD.BASE (R298, R299): the present loss of each lane becomes the port's baseline. -/
def execLnkCmdBase (p : Fin 7) (s : State) : Out := onMod (fun m =>
  m.guarded 0xD0F4 (2 + 4 * p.val) (fun m => m.lnkBase p.val)) s

/-- POOL_MIN_CLR. -/
def Mod.poolMinClr (m : Mod) : Mod :=
  m.put R.LNK_POOL_MIN_FREE (m.get R.LNK_POOL_FREE)

/-- LNK_CMD.POOL_MIN_CLR (Table 09-16): MIN_FREE := FREE. -/
def execLnkCmdPoolMinClr (s : State) : Out := onMod (fun m =>
  m.guarded 0xD0F4 32 (fun m => m.poolMinClr)) s

end Sys2Proof.Machine
end

