-- ==== Sys2Proof/Machine/Shares.lean ====
section
/-!
DEFINITION. Shares, plans, host commands and telemetry (R27, R37, R39, R40, R47, R52, R55, R67, R292, R293, R403, R415).
-/
namespace Sys2Proof.Machine

/-- Service mode is carried. -/
def Mod.service (m : Mod) : Bool := m.get R.MOD_ROLE_CFG_MODE == 2

/-- The rack power service runs on this lead: service mode, and the kind-6 task of the weave image runs (R34, R124). -/
def Mod.serves (m : Mod) : Bool := m.isLead && m.service && m.taskRuns 6

/-! ## The plan in use (R292) -/

/-- The points around an instant: the last at or before it, the first after it. -/
def planAround (l : List PlanPt) (t : Nat) : Option PlanPt × Option PlanPt :=
  (l.foldl (fun a p => if p.t ≤ t then some p else a) none, l.find? (fun p => decide (t < p.t)))

/-- LO and HI of the plan at an instant, interpolated linearly between points (R55); before the first point its values, after the last point
its values (R292). -/
def planAt (l : List PlanPt) (t : Nat) : Option (Rat × Rat) :=
  match planAround l t with
  | (none, none) => none
  | (some a, none) => some (a.lo, a.hi)
  | (none, some b) => some (b.lo, b.hi)
  | (some a, some b) =>
    let f : Rat := ((t - a.t : Nat) : Rat) / ((b.t - a.t : Nat) : Rat)
    some ((a.lo : Rat) + ((b.lo : Rat) - a.lo) * f, (a.hi : Rat) + ((b.hi : Rat) - a.hi) * f)

/-- The plan in use as 48 bytes (Table 09-9), from the point at or before now, its last point repeated; T0 0 when there is none. Its values are
those of the rack, of a fleet plan too. -/
def Mod.planBytes (m : Mod) : List Nat :=
  let now := m.plan.points.filter (fun p => decide (m.nowNs < p.t + planStep))
  let l := if now.isEmpty then m.plan.points.getLast?.toList else now
  let cap := m.plan.cap != 0xFFFF
  let n := if cap then 6 else 8
  let last := l.getLast?.getD ⟨0, 0, 0⟩
  let pts := (bank n l last).flatMap (fun p => leBytes 2 p.lo ++ leBytes 2 p.hi)
  [if m.is R.LNK_FLEET_CFG_PLAN_SRC then 0x52 else 0x51, b2n cap] ++ leBytes 2 m.plan.seq ++ zeros 4 ++
    leBytes 8 ((l.head?.map (·.t)).getD 0) ++ pts ++ (if cap then leBytes 2 m.plan.cap ++ zeros 6 else [])

/-! ## Share planning (R40, R55, R403) -/

/-- A shelf in share planning: position, SOC (%), P_DP (kW). -/
structure Shelf where
  pos : Nat
  soc : Rat
  pdp : Rat
  deriving DecidableEq, Repr

/-- The shelves that take a share (R36, R403): healthy, the lead's mode, DP_STATE neither OFF nor EXIT. -/
def Mod.shelves (m : Mod) : List Shelf :=
  (List.range 10).filterMap (fun p =>
    if p = m.pos then
      let d := m.get R.BWK_DP_STAT_DP_STATE
      if m.healthy && d != 0 && d != 7 then some ⟨p, m.soc, m.bwk.pdp⟩ else none
    else
      match m.peer p with
      | none => none
      | some q =>
        let d := q.telem.getD 3 0
        if q.healthy && q.mode == m.ownMode && q.telem != [] && d != 0 && d != 7 then
          some ⟨p, (q.telem.getD 15 0 : Rat) / 2, (sext 16 (le q.telem 20 2) : Rat) / 10⟩ else none)

/-- Shelves held in reserve: RESERVE 0b11 acts as 2 (Table 01-6). -/
def Mod.reserve (m : Mod) : Nat := min 2 (m.get R.MOD_ROLE_CFG_RESERVE)

/-- Power in kW that `n` shelves carry within their rating of 200 kW after the loss of RESERVE of them (R40). -/
def Mod.firmFeed (m : Mod) (n : Nat) : Rat := ((n - m.reserve : Nat) : Rat) * 200

/-- The guaranteed rack feed in kW (R40): of the healthy shelves. -/
def Mod.guaranteed (m : Mod) : Rat := m.firmFeed m.nHealthy

/-- The rack target in kW (R30, R55, R152): the plan's point; within a band SCHED; with no plan, P_RACK as it stands and the plan points of
shelves that the last SHARE gave nothing. -/
def Mod.rackTarget (m : Mod) (l : List Shelf) : Rat :=
  match planAt m.plan.points m.nowNs with
  | none => (m.plan.pRack : Rat) / 10 + sumQ ((l.filter (fun s => shareAt m.plan.share s.pos == 0)).map (·.pdp))
  | some (lo, hi) =>
    if lo = hi then lo / 10 else clampQ (lo / 10) (hi / 10) (m.cen.sched.getD ((m.plan.pRack : Rat) / 10))

/-- The part of the balance terms `bal` that keeps every shelf within 200 kW after the loss of RESERVE shelves (R40): all are scaled alike, so
that they still sum to zero. -/
def Mod.balancePart (m : Mod) (p : Rat) (n : Nat) (bal : List Rat) : Rat :=
  let mx := bal.foldl max 0
  if mx = 0 then 1 else clampQ 0 1 ((200 - p / ((n - m.reserve : Nat) : Rat)) / mx)

/-- The SHARE message (Table 09-10): shares and caps per position, effective at the next plan boundary. -/
def Mod.shareMsg (m : Mod) : List Nat × Int × Nat :=
  let l := m.shelves
  let n := l.length
  let p := min (m.rackTarget l) (min m.guaranteed (m.firmFeed n))
  let mean := meanQ (l.map (·.soc))
  let k : Rat := (m.get R.BWK_SOC_GAIN_KSOC : Nat) / (10 : Rat)
  let part := k * m.balancePart p n (l.map (fun s => k * (mean - s.soc)))
  let cap : Nat := if m.plan.cap = 0xFFFF ∨ n = 0 then 0xFFFF else min 0xFFFE ((rdn ((m.plan.cap : Rat) / (n : Rat))).toNat)
  let one := fun (q : Nat) =>
    match l.find? (fun s => s.pos == q) with
    | none => zeros 2 ++ leBytes 2 cap
    | some s => leBytes 2 (encQ 16 ((p / (n : Rat) + part * (mean - s.soc)) * 10)) ++ leBytes 2 cap
  ([0x54, n] ++ zeros 6 ++ leBytes 8 ((m.frame / 200 + 1) * 200) ++ (List.range 10).flatMap one, rna (p * 10), m.plan.cap)

/-- A SHARE message acts on this shelf (R55, R56, Table 02-4). -/
def Mod.takeShare (m : Mod) (b : List Nat) : Mod :=
  let o := 16 + 4 * m.pos
  let m := { m with plan.share := b, bwk.shareTick := m.time.ticks }
  if m.planSrc = 2 then
    let m := { m with bwk.tgt := some ((sext 16 (le b o 2) : Rat) / 10) }
    let m := (m.put R.BWK_SHARE_SHARE (le b o 2)).checkOff 0x0202
    (m.takeRackCap (le b (o + 2) 2)).endHold
  else m

/-- The lead plans and sends the shares, and takes its own (R27, R55). -/
def Mod.sendShares (m : Mod) : Mod :=
  let (b, p, c) := m.shareMsg
  let m := { m with plan.pRack := p, plan.cRack := c }
  (m.sendRing 4 b).takeShare b

/-! ## Host commands -/

/-- A valid host message (R37, R415): the silence ends. -/
def Mod.hostHeard (m : Mod) : Mod := ({ m with bwk.hostTick := m.time.ticks }).checkOff 0x0201

/-- A cap from a host message (R60, R62). -/
def Mod.takeHostCap (m : Mod) (c : Nat) : Mod :=
  if m.is R.MOD_ROLE_STAT_ELECTING then { m with bwk.capWait := some c } else m.acceptHostCap c

/-- The fields of a HOST_CMD (Table 09-10, check 0x0105 of Table 13-6). -/
def Mod.hostCmd (m : Mod) (b : List Nat) : Mod :=
  let v := b.getD 1 0
  let m := m.hostHeard
  let m := if bit v 0 then
      let t := sext 16 (le b 2 2)
      let m := if 2000 < t then m.logCond 0x0105 2 t 2000 else m
      if m.planSrc = 1 then
        let c := min t 2000
        (({ m with bwk.tgt := some ((c : Rat) / 10) }).putI R.BWK_SHARE_SHARE c).endHold
      else m
    else m
  let m := if bit v 1 then
      let c := le b 4 2
      let bad := decide (2001 ≤ c) && c != 0xFFFF
      let m := if bad then m.logCond 0x0105 4 (c : Int) 2000 else m
      m.takeHostCap (if bad then 2000 else c)
    else m
  if bit v 2 && m.get R.MOD_ROLE_CFG_MODE == 1 then m.setSpTarget (le b 6 2) else m

/-! ## Commands -/

/-- MIRROR_SEND (R27, R293): in service mode the lead sends its share, cap and plan state to the deputy. -/
def execMirrorSend (s : State) : Out := onMod (fun m =>
  if m.isLead && m.service then
    match m.peer (m.get R.MOD_ROLE_STAT_DEPUTY_POS) with
    | none => m
    | some d =>
      let g := rna (m.guaranteed * 10)
      m.sendUnicast 4 d.addr (([0x55] ++ zeros 7 ++ pad 56 m.plan.share ++ m.planBytes ++ leBytes 2 (enc 16 m.plan.pRack) ++
        leBytes 2 m.plan.cRack ++ leBytes 2 g.toNat ++ zeros 10))
  else m) s

/-- MIRROR_RECEIVE (R27): the deputy stores the mirrored state. -/
def execMirrorReceive (bytes : List Byte) (s : State) : Out := onMod (fun m =>
  let b := natBytes bytes
  let m := m.takeInbox 4 b
  if b.getD 0 0 = 0x55 && b.length == 128 && m.role == 2 then { m with plan.mirror := b } else m) s

/-- SHARE_REPLAN (R27, R29, R42): the lead plans the shares anew from current telemetry. In component mode the host plans. -/
def execShareReplan (s : State) : Out := onMod (fun m =>
  if m.serves && !m.is R.MOD_ROLE_STAT_ELECTING then m.sendShares else m) s

/-- The host is silent (R37): in RUN, with HOST_TMO not 0, nothing valid for HOST_TMO since the last host command or RUN entry. -/
def Mod.hostSilent (m : Mod) : Bool :=
  let t := m.get R.MOD_ROLE_CFG_HOST_TMO
  m.inRun && t != 0 && decide (m.bwk.hostTick + t * tickMs ≤ m.time.ticks)

/-- HOST_SILENCE_TIMEOUT (R37, R415, Table 02-2): the lead, and each module in DIRECT source, finds the host silent, check 0x0201; DIRECT
source enters HOLD. -/
def execHostSilenceTimeout (s : State) : Out := onMod (fun m =>
  if m.hostSilent then
    let t : Int := m.get R.MOD_ROLE_CFG_HOST_TMO
    let m := if m.isLead || m.planSrc == 1 then m.checkOn 0x0201 0 (t * 1000) (t * 1000) else m
    if m.planSrc = 1 then m.enterHold else m
  else m) s

/-- SHARE_SILENCE_TIMEOUT (Table 02-2, check 0x0202): no SHARE for 3 ms since the last one or RUN entry: RACK source enters HOLD. -/
def execShareSilenceTimeout (s : State) : Out := onMod (fun m =>
  if m.inRun && m.planSrc == 2 && decide (m.bwk.shareTick + 3 * tickMs ≤ m.time.ticks) then (m.checkOn 0x0202 (m.get R.MOD_ROLE_STAT_LEAD_POS) 3000 3000).enterHold else m) s

/-- TELEM_SEND (R67, Table 09-10). -/
def execTelemSend (s : State) : Out := onMod (fun m =>
  let w := fun (f : Fld) => leBytes 2 (m.get f)
  m.sendRing 5 ([0x56, m.pos, b2n m.healthy + 2 * m.get R.TTB_STAT_LOCK + 4 * b2n m.timeValid, m.get R.BWK_DP_STAT_DP_STATE] ++
    leBytes 8 m.frame ++ w R.BWK_VSET_V_NOM ++ [m.get R.BWK_DROOP_KD, m.get R.BWK_STO_SOC] ++ leBytes 2 (m.get R.BWK_VSET_V_TB) ++
    w R.BWK_FEED_FEED_MEAN ++ w R.BWK_PLAN_PLAN_PT ++ w R.BWK_DEV_DEV_LAST ++ w R.TTB_AVG_LOSS ++
    leBytes 2 (encQ 16 (m.bwk.loadMean * 10)) ++ w R.BWK_STO_STO_MEAN ++
    leBytes 2 (min 65535 (m.get R.BWK_ENV_EBB_POS + m.get R.BWK_ENV_EBB_NEG)) ++
    leBytes 2 (min 65535 (m.get R.BWK_ENV_FLOOD_POS + m.get R.BWK_ENV_FLOOD_NEG)))) s

/-- Whether a peer's droop parameters differ from the own (R47). -/
def Mod.droopDiffers (m : Mod) (q : Peer) : Bool :=
  q.telem != [] && (le q.telem 12 2 != m.get R.BWK_VSET_V_NOM || q.telem.getD 14 0 != m.get R.BWK_DROOP_KD ||
    le q.telem 16 2 != m.get R.BWK_VSET_V_TB)

/-- DROOP_MISMATCH of the lead (R47), a condition of RUN (R43). -/
def Mod.judgeDroop (m : Mod) : Mod :=
  let bad := m.inRun && m.isLead && m.roles.peers.any m.droopDiffers
  (m.flag R.BWK_DP_STAT_DROOP_MISMATCH bad).condSet bad 6 2 9 0 0

/-- TELEM_RECEIVE (R47, R67): taken in for share planning and the droop check. -/
def execTelemReceive (bytes : List Byte) (s : State) : Out := onMod (fun m =>
  let b := natBytes bytes
  let m := m.takeInbox 5 b
  if b.getD 0 0 != 0x56 || b.length != 34 then m
  else
    let p := b.getD 1 0
    ({ m with roles.peers := m.roles.peers.map (fun (q : Peer) => if q.pos == p then { q with telem := b } else q),
              bwk.worst := worseDev m.bwk.worst p ((sext 16 (le b 22 2) : Rat) / 10) }).judgeDroop) s

/-- RACK_DRAW_REPORT (R39, R67): in service mode the lead reports each shelf's FEED_MEAN, P_DP, D, DP_STATE and SOC, the rack sums, the worst
|D| since the last report, DEGRADED and the healthy count. The layout is the model's (log 17). -/
def execRackDrawReport (s : State) : Out := onMod (fun m =>
  if m.serves then
    let own := leBytes 2 (m.get R.BWK_FEED_FEED_MEAN) ++ leBytes 2 (m.get R.BWK_PLAN_PLAN_PT) ++ leBytes 2 (m.get R.BWK_DEV_DEV_LAST) ++
      [m.get R.BWK_DP_STAT_DP_STATE, m.get R.BWK_STO_SOC]
    let row := fun (p : Nat) =>
      if p = m.pos then own
      else match m.peer p with
        | none => zeros 8
        | some q => (q.telem.drop 18).take 6 ++ [q.telem.getD 3 0, q.telem.getD 15 0]
    let rows := (List.range 10).map row
    let sum := fun (o : Nat) => leBytes 4 (enc 32 ((rows.map (fun r => sext 16 (le r o 2))).foldl (· + ·) 0))
    let worst := max (absQ ((m.getI R.BWK_DEV_DEV_LAST : Rat) / 10)) (m.bwk.worst.foldl max 0)
    let body := [m.get R.MOD_ROLE_STAT_DEGRADED, m.nHealthy] ++ sum 0 ++ sum 2 ++ sum 4 ++ leBytes 2 (encU 16 (worst * 10)) ++ rows.flatten
    ({ m with bwk.worst := [] }).sendHost 10 body
  else m) s

/-- SHARE_SEND (R40, R55): in service mode the lead sends shares and caps every 1 ms. While an election runs the shares stay (R28). -/
def execShareSend (s : State) : Out := onMod (fun m =>
  if m.serves && !m.is R.MOD_ROLE_STAT_ELECTING then m.sendShares else m) s

/-- SHARE_RECEIVE (R55, R56): a SHARE message sets P_TGT and the rack cap and clears HOLD. -/
def execShareReceive (bytes : List Byte) (s : State) : Out := onMod (fun m =>
  let b := natBytes bytes
  let m := m.takeInbox 4 b
  if b.getD 0 0 = 0x54 && b.length == 56 then m.takeShare b else m) s

/-- PLAN_RECEIVE (R55, R292, check 0x0106): the lead takes a plan message in. -/
def execPlanReceive (bytes : List Byte) (s : State) : Out := onMod (fun m =>
  let b := natBytes bytes
  let m := m.takeInbox 7 b
  let fleet := b.getD 0 0 == 0x52
  let basis := m.get R.LNK_FLEET_CFG_BASIS
  if !m.isLead || b.length != 48 || !(b.getD 0 0 == 0x51 || fleet) then m
  else if fleet && basis == 0 then m
  else
    let capv := bit (b.getD 1 0) 0
    let seq := le b 2 2
    let t0 := le b 8 8
    let raw := (List.range (if capv then 6 else 8)).map (fun i => (le b (16 + 4 * i) 2, le b (18 + 4 * i) 2))
    if t0 % planStep ≠ 0 ∨ t0 < m.nowNs / planStep * planStep ∨ raw.any (fun e => decide (e.2 < e.1)) then
      m.logCond 0x0106 seq (seq : Int) 0
    else if fleet != m.is R.LNK_FLEET_CFG_PLAN_SRC then m.hostHeard
    else
      let sc := fun (v : Nat) => if fleet then (rna ((v : Rat) * (basis : Rat) / 65536)).toNat else v
      let pts := (List.range raw.length).map (fun i =>
        PlanPt.mk (t0 + i * planStep) (sc (raw.getD i (0, 0)).1) (sc (raw.getD i (0, 0)).2))
      let cap := if capv then sc (le b 40 2) else m.plan.cap
      let m := { m with plan.points := m.plan.points.filter (fun (p : PlanPt) => decide (p.t < t0)) ++ pts, plan.seq := seq, plan.cap := cap,
                        plan.ended := false }
      m.hostHeard.checkOff 0x0204) s

/-- PLAN_END (R292, R415, check 0x0204): the last point is reached and holds. -/
def execPlanEnd (s : State) : Out := onMod (fun m =>
  match m.plan.points.getLast? with
  | none => m
  | some p =>
    if p.t ≤ m.nowNs && m.isLead then ({ m with plan.ended := true }).checkOn 0x0204 m.plan.seq (m.plan.seq : Int) 0 else m) s

/-- HOST_CMD_RECEIVE (R60, R62, R157, R293, R415, check 0x0105): a message with bytes 8 to 11 not zero is refused. -/
def execHostCmdReceive (bytes : List Byte) (s : State) : Out := onMod (fun m =>
  let b := natBytes bytes
  let m := m.takeInbox 8 b
  if b.getD 0 0 != 0x53 || b.length != 12 then m
  else if le b 8 4 ≠ 0 then m.logCond 0x0105 8 (le b 8 4 : Int) 0
  else m.hostCmd b) s

end Sys2Proof.Machine
end

