-- ==== Sys2Proof/Machine/Domains.lean ====
section
/-!
DEFINITION. Power domains (R432 to R436, R449, R475): what a domain holds and what is lost with it, domains coming on and going off, and
what a level-1 reset does to its target (Table 10-5).
-/
namespace Sys2Proof.Machine

/-- The pages of a domain (Table 15-1). -/
def domainPages (d : Nat) : List Nat := (List.range 21).filter (fun p => pageDomain p == d)

/-- Words of a page that are held in the AON domain (R311, R449): MGT_PSTATE and MGT_BOOT_CNT. -/
def aonHeld (a : Nat) : Bool := a == R.MGT_PSTATE_STATE.addr || a == R.MGT_BOOT_CNT_COUNT.addr

/-- The pages of a domain return to their reset values (R449). -/
def Mod.resetPages (m : Mod) (d : Nat) : Mod := (domainPages d).foldl (fun m p => m.resetPage p aonHeld) m

/-- A core domain loses its SRAM, its lane files and its part of both weave banks; bank A is active and no image is held (R475); a swap request
stays (R127); with core 0 goes what the tide table keeps (R70). -/
def Mod.coreLost (m : Mod) (c : Nat) : Mod :=
  let m := { m with cen.sram := Sparse.keep (fun a => a / sramSize != c) m.cen.sram,
                    cen.bank := Sparse.keep (fun a => a % bankSize / coreBank != c) m.cen.bank,
                    cen.lanes := Sparse.keep (fun a => a / 65536 != c) m.cen.lanes, cen.acc := Sparse.keep (fun a => a / 256 != c) m.cen.acc,
                    cen.start := none }
  let m := (m.dropDead c 0 sramSize).dropDead (4 + c) 0 (2 * coreBank)
  let m := (m.puts [(R.CEN_STAT_BANK, 0), (R.CEN_STAT_IMG_A, 0), (R.CEN_STAT_IMG_B, 0), (coreSt c, 0)]).showImages
  if c = 0 then m.ttbLost else m

/-- Port states follow their domain and enable bit (Table 09-3): OFF without them, TRAIN with them. -/
def Mod.syncPorts (m : Mod) : Mod :=
  (List.range 7).foldl (fun m p =>
    if m.portOn p then (if m.pst p = 0 then m.setPst p 1 else m)
    else if m.pst p = 0 then m else (m.turnBack p).setPst p 0) m

/-- What the TIM domain holds is lost: time but for the local timebase, stakes, links, breakwater, tide table, engine (Table 15-1). -/
def Mod.timLost (m : Mod) : Mod :=
  { m with time := { ticks := m.time.ticks, ppsPulse := 0 }, stk := {}, lnk := {}, bwk := {}, ttb := {}, cen := {}, plan := {},
           pins.ppsOut := false }

/-- A domain's contents are lost; what its pages hold is `resetPages`. The detectors keep which of their conditions are active. -/
def Mod.domainLost (m : Mod) (d : Nat) : Mod :=
  if 4 ≤ d ∧ d < 8 then m.coreLost (d - 4)
  else
    match d with
    | 1 => { m with mgt := {} }.dropDead 12 0 (storeBytes 12) |>.dropDead 13 0 (storeBytes 13)
    | 2 => { m with sec := {} }
    | 8 | 9 => { m with cen.dram := [], cap.ring := [], cap.side := [], cap.held := 0 }
    | 10 => { m with phs := {} }
    | 11 => { m with afe := { ls := m.afe.ls, openCond := m.afe.openCond } }
    | 12 => { m with pwr.cp1 := [], pwr.cp2 := [], afe.ls := [] }
    | 13 => { m with wch := {} }
    | 17 => m.timLost
    | 18 => { m with cap := {} }
    | _ => m

/-- Set or clear the bits of a domain in PWR_ON and PWR_STAT. -/
def Mod.showDomain (m : Mod) (d : Nat) (b : Bool) : Mod :=
  m.puts [(R.PWR_ON_ON, setBit (m.get R.PWR_ON_ON) d b), (R.PWR_STAT_PG, setBit (m.get R.PWR_STAT_PG) d b)]

/-- A domain goes off (R434, R449): its pages return to reset values, what it held is lost. -/
def Mod.domainOff (m : Mod) (d : Nat) : Mod :=
  if m.domainOn d then
    let m := ((m.domainLost d).resetPages d).showDomain d false
    if 14 ≤ d ∧ d ≤ 16 then m.syncPorts.syncRoles else m
  else m

/-- A domain leaves isolation and its blocks leave reset (R434, R475): a core is halted, ports train. -/
def Mod.domainUp (m : Mod) (d : Nat) : Mod :=
  let m := m.showDomain d true
  if 4 ≤ d ∧ d < 8 then (m.coreLost (d - 4)).put (coreSt (d - 4)) 1
  else if 14 ≤ d ∧ d ≤ 16 then m.syncPorts else m

/-- Domains that a PWR_ON write can switch (Table 14-5). -/
def switchable (d : Nat) : Bool := (decide (4 ≤ d) && decide (d ≤ 16)) || d == 18

/-- Parents of a domain (Table 14-5). -/
def domainParents (d : Nat) : List Nat :=
  if d = 0 then [] else if 4 ≤ d ∧ d ≤ 7 then [17, 1] else if d = 10 then [17, 19] else if (8 ≤ d ∧ d ≤ 16) ∨ d = 18 then [17] else [0]

/-! ## Level-1 resets (Table 10-5) -/

/-- One port is retrained by the collector (R287): its retry store is lost and counted; what waits is kept. -/
def Mod.resetPort (m : Mod) (p : Nat) : Mod :=
  let n := (m.port p).retry.length
  let m := m.setPort p (fun q => { q with retry := [], crcTicks := [], peerStop := [], cr0 := 0, cr1 := 0, cr2 := 0 })
  let m := if n = 0 then m else m.bumpBy (R.LNK_LOST_CNT_COUNT p).addr n
  if m.pst p = 0 then m else m.setPst p 1

/-- Ports of a LNK reset that held unacknowledged frames, as a mask (R287). -/
def Mod.lostPorts (m : Mod) (blk inst : Nat) : Nat :=
  if blk = 13 then ofBits 7 (fun p => (p == inst || inst == 7) && !(m.port p).retry.isEmpty) else 0

/-- What a level-1 reset does to its target (Table 10-5). -/
def Mod.resetEffect (m : Mod) (blk inst : Nat) : Mod :=
  match blk with
  | 7 => m.endJob
  | 8 =>
    let m := m.stopCores
    ((List.range 4).foldl (fun m c => if m.get (coreSt c) = 3 then m.put (coreSt c) 1 else m) m).put R.CEN_DMA_STAT_HALT 0
  | 9 => m.puts [(R.PHS_LNK_STAT_UP, 0)] |>.syncPhases
  | 10 => (List.range 5).foldl (fun m i => m.setWord (0xA080 + 4 * i) 0)
      { m with afe.lowRun := List.replicate 160 0, afe.okRun := List.replicate 160 0 }
  | 11 => m.capRearm.showCap
  | 12 => if inst < 2 then (m.setRingState inst 0).put (ringFld inst R.WCH_STAT_READY0 R.WCH_STAT_READY1) 0 else m
  | 13 => ((List.range 7).foldl (fun m p => if p = inst ∨ inst = 7 then m.resetPort p else m) m).syncPool.syncRoles
  | 20 =>
    { m with pmb.resp := none, pmb.ackd := false, pmb.alertWord := 0 }.puts [(R.PMB_STAT_PAGE, 0), (R.PMB_STATUS_P_VOUT, 0),
      (R.PMB_STATUS_P_IOUT, 0), (R.PMB_STATUS_N_VOUT, 0), (R.PMB_STATUS_N_IOUT, 0), (R.PMB_STATUS_X_INPUT_P, 0),
      (R.PMB_STATUS_X_INPUT_N, 0), (R.PMB_STATUS_X_TEMP, 0), (R.PMB_STATUS_X_CML, 0)]
  | _ => m

end Sys2Proof.Machine
end

