-- ==== Sys2Proof/Machine/Trips.lean ====
section
/-!
DEFINITION. Cliff trips (R326 to R329): comparators, latches, first trip, self-test, and their clear.
-/
namespace Sys2Proof.Machine

/-- A field of the TRP page in force: its reset value until the page is locked (R432). -/
def Mod.trpField (m : Mod) (f : Fld) : Nat := if m.locked 19 then m.get f else bits (regReset f.addr).toNat f.lo f.w

/-- Threshold of a comparator in hundredths of its unit (Table 10-8), held to its range. -/
def Mod.trpLimit (m : Mod) (cmp : Nat) : Int :=
  let v :=
    if cmp < 2 then clampN 420 450 (m.trpField R.TRP_V_CFG_BUS_OV)
    else if cmp < 4 then clampN 130 400 (m.trpField R.TRP_V_CFG_STR_OV)
    else if cmp < 6 then clampN 630 950 (m.trpField R.TRP_I_CFG_STR_OC)
    else if cmp < 8 then clampN 470 495 (m.trpField R.TRP_V_CFG_FEED_OV)
    else if cmp < 10 then clampN 50 110 (m.trpField R.TRP_T_CFG_CP_OT)
    else clampN 80 124 (m.trpField R.TRP_I_CFG_PH_OC)
  (100 * v : Nat)

/-- A comparator is enabled (R327); PH_OC of a phase that is not fitted is masked. -/
def Mod.trpEnabled (m : Mod) (cmp phase : Nat) : Bool :=
  if cmp < 2 then true
  else if cmp < 6 then m.trpField R.TRP_T_CFG_STR_EN == 1
  else if cmp < 8 then m.trpField R.TRP_T_CFG_FEED_EN == 1
  else if cmp < 10 then m.trpField R.TRP_T_CFG_CP_EN == 1
  else m.is (R.PHS_PCFG_EN phase)

/-- Size of the input: the string and phase current comparators act on either sign. -/
def trpInput (cmp : Nat) (v : Int) : Int := if cmp = 4 ∨ cmp = 5 ∨ cmp = 10 then (v.natAbs : Int) else v

/-- Report kind of a comparator (Table 10-13). -/
def trpKind (cmp : Nat) : Nat := if cmp = 10 then 1 else 2 + cmp / 2

/-- The first comparator of a trip kind in TRP_STAT order (R332). -/
def trpFirst (kind : Nat) : Nat := if kind = 1 then 10 else 2 * (kind - 2)

/-- TRP_STAT bit of a comparator. -/
def trpBit (cmp : Nat) : Fld := ⟨0x13080, cmp, 1⟩

/-- The PMBus status bits of a trip (Table 15-9). -/
def Mod.pmbTrip (m : Mod) (cmp phase : Nat) : Mod :=
  if cmp < 2 then m.pmbSet (pmbVout cmp) 128
  else if cmp < 4 then m
  else if cmp < 6 then m.pmbSet (pmbIout (cmp - 4)) 128
  else if cmp < 8 then m.pmbSet (pmbInput (cmp - 6)) 128
  else if cmp < 10 then m.pmbSet R.PMB_STATUS_X_TEMP 128
  else m.pmbSet (pmbIout (phasePole phase)) 128

/-- What a trip does (R326): latches, phase bits with ISO_WHY 5, first trip, count; ABORT, STO_HOLD stopped, SAFE HOLD (Table 13-1). -/
def Mod.tripAct (m : Mod) (cmp phase : Nat) : Mod :=
  let m := if m.get R.TRP_LATCH_LATCH = 0 then
      m.puts [(R.TRP_FIRST_CMP, cmp), (R.TRP_FIRST_PHASE, if cmp = 10 then phase else 0), (R.TRP_FIRST_FRAME_FRAME, m.frame % 2 ^ 32)]
    else m
  let m := m.puts [(R.TRP_LATCH_LATCH, setBit (m.get R.TRP_LATCH_LATCH) cmp true), (R.TRP_EVT_TRIP, 1)]
  let m := if cmp = 10 then (m.setPairBit 0x13088 0x1308C phase true).isolate phase 5 else m
  (m.bump R.TRP_CNT_COUNT).safeHold.pmbTrip cmp phase

/-- ADDR of a trip report (Table 10-1). -/
def trpAddr (cmp phase : Nat) : Nat := cmp + if cmp = 10 then 256 * phase else 0

/-- CLIFF_TRIP (R326, R310): the input (hundredths of its unit) of an enabled comparator crosses its threshold. -/
def execCliffTrip (cmp : Fin 11) (phase : Fin 40) (value : Int) (s : State) : Out := onMod (fun m =>
  let on := if cmp.val = 10 then m.trp.ph.contains phase.val else m.is (trpBit cmp)
  if on || !m.trpEnabled cmp phase || decide (trpInput cmp value ≤ m.trpLimit cmp) then m
  else
    let m := m.put (trpBit cmp) 1
    let m := if cmp.val = 10 then { m with trp.ph := m.trp.ph ++ [phase.val] } else m
    (m.tripAct cmp phase).condStart 19 0 (trpKind cmp) (trpAddr cmp phase) 2) s

/-- COMPARATOR_RELEASE (R326): the input has come back by 2 % of the threshold. -/
def execComparatorRelease (cmp : Fin 11) (phase : Fin 40) (value : Int) (s : State) : Out := onMod (fun m =>
  let on := if cmp.val = 10 then m.trp.ph.contains phase.val else m.is (trpBit cmp)
  if !on || decide (98 * m.trpLimit cmp < 100 * trpInput cmp value) then m
  else
    let m := if cmp.val = 10 then { m with trp.ph := m.trp.ph.filter (· != phase.val) } else m
    let m := m.flag (trpBit cmp) (cmp.val == 10 && !m.trp.ph.isEmpty)
    m.condEnd 19 0 (trpKind cmp) (trpAddr cmp phase) 2) s

/-- COMPARATOR_SELF_TEST (R328, R402): the test of the accepted RUN request; `ok`: every enabled comparator and latch responded. -/
def execComparatorSelfTest (ok : Bool) (s : State) : Out := onMod (fun m =>
  match m.pwr.change with
  | .entry false t =>
    if ok then ({ m with pwr.change := .entry true t }).put R.TRP_STAT_ST_OK 1
    else
      let m := ({ m with pwr.change := .none }).puts [(R.TRP_STAT_ST_OK, 0), (R.TRP_EVT_ST_FAIL, 1), (R.MGT_PREQ_REFUSED, 1),
        (R.MGT_PREQ_WHY, 5)]
      m.raise 19 0 7 0 1
  | _ => m) s

/-- The latches of inactive comparators clear (R329); TRP_FIRST ends with the last of them. -/
def Mod.trpClear (m : Mod) : Mod :=
  let stat := bits (m.word 0x13080).toNat 0 11
  let latch := ofBits 11 (fun i => bit (m.get R.TRP_LATCH_LATCH) i && bit stat i)
  let m := (List.range 40).foldl (fun m n => if m.trp.ph.contains n then m else m.setPairBit 0x13088 0x1308C n false) m
  let m := m.put R.TRP_LATCH_LATCH latch
  if latch = 0 then m.puts [(R.TRP_FIRST_CMP, 15), (R.TRP_FIRST_PHASE, 0), (R.TRP_FIRST_FRAME_FRAME, 0)] else m.put R.TRP_EVT_CLR_REF 1

/-- LATCH of TRP_CLR. -/
def Mod.trpClrWrite (m : Mod) : Mod :=
  if m.inRun then (m.put R.TRP_EVT_CLR_REF 1).refuse else m.trpClear

/-- TRP_CLR.LATCH (R329): refused in RUN. -/
def execTrpClrLatch (s : State) : Out := onMod (fun m =>
  m.guardedR 0x130C4 1 (fun m => m.trpClrWrite)) s

end Sys2Proof.Machine
end

