-- ==== Sys2Proof/Machine/Faults.lean ====
section
/-!
DEFINITION. The rows of the fault collector (R303 to R333): intake, slack windows, dispositions, level-1 resets and their shadows, clears,
the record window, forced reports.
-/
namespace Sys2Proof.Machine

/-- Start of a level-1 reset (R320, R324): RESET_START, BLK_STAT.RESET, shadow; the effect on the target (Table 10-5). -/
def Mod.startReset (m : Mod) (blk inst seq : Nat) : Mod :=
  let m := m.selfRec 4 0 seq
  let m := { m with flt.resets := m.flt.resets ++ [Reset.mk blk (resetInst blk inst) true [] (m.lostPorts blk inst) seq 0],
                    flt.rstHist := (blk * 64 + inst, m.time.ticks) :: m.flt.rstHist }
  let m := m.puts [(R.BLK_STAT_RESET blk, 1), (R.FLT_STAT_SHADOW, 1)]
  m.resetEffect blk inst

/-- Level 1 for a record (R312, R313, R317, R324, R334). -/
def Mod.level1 (m : Mod) (blk inst seq : Nat) : Mod :=
  if m.pstate = 1 then m
  else if !m.pageOn blk then m.setAction seq 0
  else if max 1 (m.get R.FLT_REP_CFG_RST_MAX) ≤ m.recentResets blk inst then m.level2 blk seq true
  else
    let l2 := resetTarget blk == 2 && m.inRun
    let m := if l2 then m.level2 blk seq else m
    let m := if l2 then m else m.setAction seq 1
    let m := (m.selfRec 1 0 seq).bump R.FLT_L1_CNT_COUNT
    let m := m.puts [(R.FLT_EVT_ESC1, 1), (R.FLT_STAT_LEVEL, max (m.get R.FLT_STAT_LEVEL) 1)]
    if m.inReset blk inst then m else m.startReset blk inst seq

/-- Post-slack action of a fatal kind (Table 10-7): 1 level 1 of CEN, 3 level 3, 0 none. -/
def postSlack (blk : Nat) : Nat :=
  if blk = 8 then 1 else if [2, 3, 15, 16, 17, 18, 20].contains blk then 3 else 0

/-- Take the next level for a record whose window has ended (R312, R313, R318). -/
def Mod.escalate (m : Mod) (blk inst cls seq : Nat) : Mod :=
  if cls = 2 then
    if postSlack blk = 3 then m.level3 seq
    else if postSlack blk = 1 && m.l1Allowed blk then m.level1 blk inst seq
    else m.setAction seq 2
  else if m.l1Allowed blk then m.level1 blk inst seq
  else m.setAction seq 0

/-- Open the slack window of a record (R313, R318), or escalate the 33rd (R315). A window of 0 expires at intake. -/
def Mod.openWindow (m : Mod) (r : FRec) (cond noCancel : Bool) : Mod :=
  if 32 ≤ m.flt.pend.length then
    ((m.put R.FLT_STAT_SLACK_FULL 1).escalate r.blk r.inst r.cls r.seq).raise 14 0 0x08 r.seq 0
  else if m.get R.FLT_CFG_SLACK = 0 then m.escalate r.blk r.inst r.cls r.seq
  else
    let m := m.setAction r.seq 0xFF
    ({ m with flt.pend := m.flt.pend ++ [Pend.mk r.seq r.blk r.inst r.kind r.addr r.cls cond
        (m.time.ticks + m.get R.FLT_CFG_SLACK * tickUs) false noCancel r.forced] }).syncPend

/-- The pending uncorrected record of a SRC and KIND (R315). -/
def Mod.pendOf (m : Mod) (blk inst kind : Nat) : Option Pend :=
  m.flt.pend.find? (fun p => p.cls == 1 && p.blk == blk && p.inst == inst && p.kind == kind)

/-- Take a pending record out of the list. -/
def Mod.dropPend (m : Mod) (seq : Nat) : Mod :=
  ({ m with flt.pend := m.flt.pend.filter (fun p => p.seq != seq) }).syncPend

/-- Self-clears of a SRC and KIND within FLAP_WIN (R316). -/
def Mod.recentFlaps (m : Mod) (key : Nat) : Nat :=
  let win := max 1 (m.get R.FLT_REP_CFG_FLAP_WIN) * tickS
  (m.flt.flapHist.filter (fun e => e.1 == key && decide (m.time.ticks < e.2 + win))).length

/-- A CLR cancels the pending window of its condition (R316). -/
def Mod.cancelOnClr (m : Mod) (blk inst kind : Nat) : Mod :=
  match m.pendOf blk inst kind with
  | none => m
  | some p =>
    if m.is R.FLT_CFG_ESC_ON_CLR || p.noCancel then m
    else
      let m := (m.dropPend p.seq).editRec p.seq (fun r => { r with action := 0, disp := 5 })
      { m with flt.flapHist := (raiseKey blk inst kind, m.time.ticks) :: m.flt.flapHist }

/-- Whether some running shadow lists the report (R320); fatal and forced reports and cliff trips are never shadowed. -/
def Mod.shadowed (m : Mod) (r : Rep) : Bool :=
  r.cls != 2 && !r.forced && r.blk != 19 && m.flt.resets.any (fun t => shadowedBy t.blk t.inst r.blk r.inst r.kind)

/-- The record of a report that the collector takes in, with its flags. -/
def Mod.recordOf (m : Mod) (r : Rep) : FRec :=
  let key := raiseKey r.blk r.inst r.kind
  { seq := 0, blk := r.blk, inst := r.inst, cls := r.cls, tvalid := false, kind := r.kind, clr := r.ind == .clr, forced := r.forced,
    shadow := m.shadowed r && r.ind != .clr, persist := r.persist,
    restart := m.flt.restartDue.any (fun e => e.1 == r.blk && (e.2 == 64 || e.2 == r.inst)),
    joined := r.ind != .clr && r.cls == 1 && !m.shadowed r && (m.pendOf r.blk r.inst r.kind).isSome,
    rept := r.ind == .start && r.cls == 1 && !m.shadowed r &&
      decide (max 1 (m.get R.FLT_REP_CFG_FLAP_MAX) ≤ m.recentFlaps key),
    addr := r.addr, frame := 0, time := 0 }

/-- Take a report in (R303 to R323). -/
def Mod.takeIn (m : Mod) (r : Rep) : Mod :=
  let fr := m.recordOf r
  let seq := m.get R.FLT_SEQ_NEXT
  let m := if r.ind = .clr then m.cancelOnClr r.blk r.inst r.kind else m
  let m := m.intake fr r.frame
  let m := { m with flt.restartDue := m.flt.restartDue.filter (fun e => !(e.1 == r.blk && (e.2 == 64 || e.2 == r.inst))) }
  let fr := { fr with seq := seq }
  if r.ind = .clr then m
  else if fr.shadow then
    if r.ind = .start then
      { m with flt.resets := m.flt.resets.map (fun t =>
          if shadowedBy t.blk t.inst r.blk r.inst r.kind then
            { t with shadowed := t.shadowed ++ [⟨r.blk, r.inst, r.kind, r.addr, r.cls, r.forced⟩] } else t) }
    else m
  else if r.cls = 0 then m
  else if r.cls = 2 then
    let m := m.level2 r.blk seq
    m.openWindow fr (r.ind == .start) true
  else if fr.joined then m
  else m.openWindow fr (r.ind == .start) fr.rept

/-! ## Intake -/

/-- REPORT_INTAKE (R303, R323): the oldest report of the fatal lane, else of the queue. `bad`: its entry fails parity, and the record leaves
with KIND 0 and ADDR 0xFFFF_FFFF (Table 11-2); where it lies in the store is a free value. -/
def execReportIntake (bad : Bool) (s : State) : Out := onMod (fun m =>
  let dam := fun (m : Mod) (r : Rep) =>
    if bad then
      let f := m.fresh
      ((f.2.singleUe 16 (Config.freeNat f.1 % 26624)), { r with kind := 0, addr := 2 ^ 32 - 1 })
    else (m, r)
  match m.flt.lane with
  | r :: rs => let x := dam { m with flt.lane := rs } r
               x.1.takeIn x.2
  | [] =>
    match m.flt.queue with
    | r :: rs => let x := dam { m with flt.queue := rs } r
                 x.1.takeIn x.2
    | [] => m) s

/-- QUEUE_OVF (R330): raised once the queue has drained below 256. -/
def execQueueOvf (s : State) : Out := onMod (fun m =>
  if m.flt.ovfDue && decide (m.flt.queue.length < 256) then
    (({ m with flt.ovfDue := false }).raise 14 0 7 0 1).put R.FLT_EVT_QUEUE_OVF 1
  else m) s

/-! ## Slack windows and dispositions (R313, R314, R318) -/

/-- The pending record whose window ends first; equal ends in SEQ order (R324). -/
def firstPend (l : List Pend) : Option Pend :=
  l.foldl (fun a p => match a with
    | none => some p
    | some q => if p.deadline < q.deadline ∨ (p.deadline = q.deadline ∧ p.seq < q.seq) then some p else some q) none

/-- SLACK_EXPIRY (R313, R318): the window that ends next, within the running frame, ends without a disposition. -/
def execSlackExpiry (s : State) : Out := onMod (fun m =>
  match firstPend m.flt.pend with
  | none => m
  | some p => if p.deadline < m.time.ticks + 64000 then (m.dropPend p.seq).escalate p.blk p.inst p.cls p.seq else m) s

/-- A refused disposition (R314). -/
def Mod.dispRefused (m : Mod) : Mod := (m.put R.FLT_EVT_DISP_REF 1).refuse

/-- The pending record that FLT_DISP_SEQ names; a disposition after the microsecond in which the window ends names none (R314). -/
def Mod.dispPend (m : Mod) : Option Pend :=
  m.flt.pend.find? (fun p => p.seq == m.get R.FLT_DISP_SEQ_SEQ && decide (m.time.ticks < (p.deadline / tickUs + 1) * tickUs))

/-- HANDLED (Table 10-6): no escalation of an uncorrected record. -/
def Mod.dispHandled (m : Mod) : Mod :=
  match m.dispPend with
  | some p => if p.cls = 1 then (m.dropPend p.seq).editRec p.seq (fun r => { r with action := 0, disp := 1 }) else m.dispRefused
  | none => m.dispRefused

/-- ESCALATE: the next level, or the post-slack action, at once. -/
def Mod.dispEscalate (m : Mod) : Mod :=
  match m.dispPend with
  | some p => ((m.dropPend p.seq).editRec p.seq (fun r => { r with disp := 2 })).escalate p.blk p.inst p.cls p.seq
  | none => m.dispRefused

/-- EXTEND: the window restarts once. -/
def Mod.dispExtend (m : Mod) : Mod :=
  match m.dispPend with
  | some p =>
    if p.extended then m.dispRefused
    else
      let l := m.flt.pend.map (fun q => if q.seq == p.seq then
        { q with extended := true, deadline := m.time.ticks + m.get R.FLT_CFG_SLACK * tickUs } else q)
      (({ m with flt.pend := l }).editRec p.seq (fun r => { r with disp := 3 })).syncPend
  | none => m.dispRefused

/-- HOLD: a fatal record takes no post-slack action. -/
def Mod.dispHold (m : Mod) : Mod :=
  match m.dispPend with
  | some p => if p.cls = 2 then (m.dropPend p.seq).editRec p.seq (fun r => { r with action := 2, disp := 4 }) else m.dispRefused
  | none => m.dispRefused

/-- DISP_HANDLED: FLT_DISP.CODE 1. -/
def execDispHandled (s : State) : Out := onMod (fun m => m.guardedR 0xE0D4 1 Mod.dispHandled) s

/-- DISP_ESCALATE: FLT_DISP.CODE 2. -/
def execDispEscalate (s : State) : Out := onMod (fun m => m.guardedR 0xE0D4 2 Mod.dispEscalate) s

/-- DISP_EXTEND: FLT_DISP.CODE 3. -/
def execDispExtend (s : State) : Out := onMod (fun m => m.guardedR 0xE0D4 3 Mod.dispExtend) s

/-- DISP_HOLD: FLT_DISP.CODE 4. -/
def execDispHold (s : State) : Out := onMod (fun m => m.guardedR 0xE0D4 4 Mod.dispHold) s

/-! ## Release and shadow end (R320 to R324) -/

/-- LEVEL1_RESET_DONE (R322, R324): the target is released; its first report carries RESTART; frames lost with a retry store are reported
(R287). -/
def execLevel1ResetDone (blk : Fin 21) (inst : Fin 64) (s : State) : Out := onMod (fun m =>
  match m.flt.resets.find? (fun t => t.held && t.blk == blk.val && t.inst == inst.val) with
  | none => m
  | some t =>
    let m := m.selfRec 5 0 t.seq
    let m := { m with flt.resets := m.flt.resets.map (fun (u : Reset) => if u == t then { u with held := false, relTick := m.time.ticks } else u),
                      flt.restartDue := m.flt.restartDue ++ [(t.blk, if t.blk = 12 ∨ (t.blk = 13 ∧ t.inst ≠ 7) then t.inst else 64)] }
    let m := m.flag (R.BLK_STAT_RESET t.blk) (m.flt.resets.any (fun u => u.held && u.blk == t.blk))
    (List.range 7).foldl (fun m p => if bit t.lost p then (m.raiseLim tickS 13 p 8 0 0).put R.LNK_EVT_LOST 1 else m) m) s

/-- Active conditions that a shadow covered, in block and then kind order (R321). -/
def Mod.persisting (m : Mod) (t : Reset) : List Cond :=
  let l := t.shadowed.filter (fun c => m.flt.conds.contains c)
  (List.range 21).flatMap (fun b => (List.range 16).flatMap (fun k => (l.filter (fun c => c.blk == b && c.kind == k)).eraseDups))

/-- The shadow of a released reset is over: SHADOW_MS milliseconds, above 10 as 10, have passed since its release (R320, Table 10-18). -/
def Mod.shadowOver (m : Mod) (t : Reset) : Bool :=
  decide (t.relTick + min 10 (m.get R.FLT_CFG_SHADOW_MS) * 1000 * tickUs ≤ m.time.ticks + 64000)

/-- SHADOW_END (R321): SHADOW_END is written and each shadowed condition that is still active is raised again with PERSIST. -/
def execShadowEnd (blk : Fin 21) (inst : Fin 64) (s : State) : Out := onMod (fun m =>
  match m.flt.resets.find? (fun t => !t.held && m.shadowOver t && t.blk == blk.val && t.inst == inst.val) with
  | none => m
  | some t =>
    let l := m.persisting t
    let m := { m with flt.resets := m.flt.resets.erase t }
    let m := (m.flag R.FLT_STAT_SHADOW (!m.flt.resets.isEmpty)).put R.FLT_EVT_SHADOW_END 1
    l.foldl (fun m c => m.report { blk := c.blk, inst := c.inst, kind := c.kind, addr := c.addr, cls := c.cls, ind := .start,
                                   forced := c.forced, persist := true }) (m.selfRec 6 0 t.seq)) s

/-! ## Clears (R308, R319) -/

/-- Latch bits of blocks with no active condition clear, with LATCHED and WORST of those blocks. -/
def Mod.clrLatch (m : Mod) : Mod :=
  let act := m.get R.FLT_ACTIVE_BLK
  let m := m.put R.FLT_LATCH_BLK (m.get R.FLT_LATCH_BLK &&& act)
  (List.range 21).foldl (fun m b => if bit act b then m else m.puts [(R.BLK_FLT_LATCHED b, 0), (R.BLK_FLT_WORST b, 0)]) m

/-- FLT_FATAL bits of blocks with no fatal condition active clear (R319). -/
def Mod.clrFatal (m : Mod) : Mod :=
  let f := ofBits 21 (fun b => bit (m.get R.FLT_FATAL_BLK) b && m.flt.conds.any (fun c => c.blk == b && c.cls == 2))
  m.puts [(R.FLT_FATAL_BLK, f), (R.FLT_STAT_SAFE_REQ, b2n (f != 0))]

/-- The first-fatal registers clear. -/
def Mod.clrFirst (m : Mod) : Mod := ((m.setWord 0xE090 0).setWord 0xE094 0).setWord 0xE098 0

/-- The sticky fields of FLT_STAT clear. -/
def Mod.clrStat (m : Mod) : Mod := m.puts [(R.FLT_STAT_LEVEL, 0), (R.FLT_STAT_QUEUE_OVF, 0), (R.FLT_STAT_SLACK_FULL, 0)]

/-- FLT_CLR.LATCH. -/
def execFltClrLatch (s : State) : Out := onMod (fun m => m.guarded 0xE0E0 1 Mod.clrLatch) s

/-- FLT_CLR.FATAL. -/
def execFltClrFatal (s : State) : Out := onMod (fun m => m.guarded 0xE0E0 2 Mod.clrFatal) s

/-- FLT_CLR.FIRST. -/
def execFltClrFirst (s : State) : Out := onMod (fun m => m.guarded 0xE0E0 4 Mod.clrFirst) s

/-- FLT_CLR.STAT. -/
def execFltClrStat (s : State) : Out := onMod (fun m => m.guarded 0xE0E0 8 Mod.clrStat) s

/-! ## The record window (Table 10-17) -/

/-- The snapshot of a record by its SEQ. -/
def Mod.selectRec (m : Mod) (seq : Nat) : Mod :=
  let r := m.flt.window.find? (fun r => r.seq == seq)
  let b := match r with
    | none => zeros 32
    | some r => r.bytes
  let m := m.puts [(R.FLT_REC_SEQ_SEQ, seq), (R.FLT_REC_STAT_HELD, b2n r.isSome)]
  (List.range 8).foldl (fun m i => m.put (R.FLT_REC_DATA_DATA i) (le b (4 * i) 4)) m

/-- FLT_REC_SEQ_WRITE (R304). -/
def execFltRecSeqWrite (v : Word) (s : State) : Out := onMod (fun m => m.guarded 0xE100 v.toNat (fun m => m.selectRec v.toNat)) s

/-! ## Force bits (R332, R333) -/

/-- Table 10-9 permits a force of a page. -/
def Mod.forceAllowed (m : Mod) (p : Nat) : Bool := if p = 19 then m.capFT else m.capF

/-- A refused force (R333). -/
def Mod.forceRefused (m : Mod) (p : Nat) : Mod :=
  let m := if m.pageOn p then m.put (R.BLK_FORCE_REFUSED p) 1 else m
  m.raise 14 0 10 (p * 4096 + 0x18) 0

/-- A kind that a force may inject: in the block's table, not SELF. -/
def forceKind (p kind : Nat) : Bool := (kindClass p kind).isSome && !selfKind p kind

/-- ADDR of a forced report: 0, and on the TRP page the comparator and phase 0 (R332). -/
def forceAddr (p kind : Nat) : Nat := if p = 19 ∧ kind ≤ 6 then trpFirst kind else 0

/-- A forced report is injected (R332); a forced trip acts as a real one does. -/
def Mod.forceGo (m : Mod) (p kind inst : Nat) (cond : Bool) : Mod :=
  let m := if p = 19 ∧ kind ≤ 6 then m.tripAct (trpFirst kind) 0 else m
  m.report { blk := p, inst := inst, kind := kind, addr := forceAddr p kind, cls := (kindClass p kind).getD 0,
             ind := if cond then .start else .event, forced := true }

/-- GO of a BLK_FORCE word. -/
def Mod.forceWord (m : Mod) (p v : Nat) : Mod :=
  let k := bits v 0 8
  if !m.pageOn p || !forceKind p k || m.is (R.BLK_STAT_RESET p) || !m.forceAllowed p then (m.forceRefused p).refuse
  else m.forceGo p k (bits v 8 6) (bit v 14)

/-- CLEAR of a BLK_FORCE word: the forced condition of the KIND and INST ends. -/
def Mod.forceEnd (m : Mod) (p v : Nat) : Mod :=
  let k := bits v 0 8
  match m.flt.conds.find? (fun c => c.forced && c.blk == p && c.kind == k && c.inst == bits v 8 6) with
  | none => m
  | some c => m.report { blk := p, inst := c.inst, kind := k, addr := c.addr, cls := c.cls, ind := .clr, forced := true }

/-- A write of BLK_FORCE: KIND, INST and COND take their values, REFUSED clears by 1, CLEAR acts before GO. -/
def Mod.forceWrite (m : Mod) (p v : Nat) : Mod :=
  let m := m.puts [(R.BLK_FORCE_KIND p, bits v 0 8), (R.BLK_FORCE_INST p, bits v 8 6), (R.BLK_FORCE_COND p, bits v 14 1)]
  let m := if bit v 17 then m.put (R.BLK_FORCE_REFUSED p) 0 else m
  let m := if bit v 15 then m.forceEnd p v else m
  if bit v 16 then m.forceWord p v else m

/-- FORCE_INJECT (R332, R333): a write of BLK_FORCE with GO = 1. A page whose domain is off has no register, but the refusal is reported. -/
def execForceInject (p : Fin 21) (kind : Fin 256) (inst : Fin 64) (cond : Bool) (s : State) : Out := onMod (fun m =>
  let v := kind.val + 256 * inst.val + 2 ^ 14 * b2n cond + 2 ^ 16
  if !m.pageOn p then { (m.forceRefused p) with resp := 2 }
  else m.guardedR (p.val * 4096 + 0x18) v (fun m => m.forceWrite p v)) s

/-- FORCE_CLEAR (R332): a write of BLK_FORCE with CLEAR = 1. -/
def execForceClear (p : Fin 21) (kind : Fin 256) (inst : Fin 64) (s : State) : Out := onMod (fun m =>
  let v := kind.val + 256 * inst.val + 2 ^ 15
  m.guardedR (p.val * 4096 + 0x18) v (fun m => m.forceWrite p v)) s

end Sys2Proof.Machine
end

