-- ==== Sys2Proof/Machine/EventLog.lean ====
section
/-!
DEFINITION. The event recorder (R349 to R360): the log queue with folding and rate limits, writing and retiring slots, the power-up check,
erasure, readout, NOTE records.
-/
namespace Sys2Proof.Machine

/-- Slots of the log (R349). -/
def logSlots : Nat := 524288

/-- A slot that is not written reads all 0xFF. -/
def slotDflt (_ : Nat) : List Nat := List.replicate 64 0xFF

/-- The bytes of a slot. -/
def Mod.logSlot (m : Mod) (i : Nat) : List Nat := Sparse.get slotDflt m.nv.slots i

/-- Store the bytes of a slot. -/
def Mod.setSlotBytes (m : Mod) (i : Nat) (b : List Nat) : Mod := { m with nv.slots := Sparse.set slotDflt m.nv.slots i b }

/-- Bytes 0 to 59 of a record (Table 11-4) with a VALID byte. -/
def LogRec.head (r : LogRec) (valid : Nat) : List Nat :=
  [valid, r.typ] ++ leBytes 2 r.code ++ leBytes 4 r.rept ++ leBytes 4 r.pcyc ++ leBytes 4 r.hours ++ leBytes 4 r.usec ++
    leBytes 4 r.lastDt ++ leBytes 8 r.fleetT ++ pad 28 r.body

/-- The CRC of a record: bytes 1 to 3, 8 to 19 and 24 to 59 (R350). -/
def recCrc (b : List Nat) : Nat := crc32 ((b.drop 1).take 3 ++ (b.drop 8).take 12 ++ (b.drop 24).take 36)

/-- The 64 bytes of a record. -/
def LogRec.bytes (r : LogRec) (valid : Nat) : List Nat := r.head valid ++ leBytes 4 (recCrc (r.head valid))

/-- Operating time of a record in µs (R352). -/
def LogRec.opUs (r : LogRec) : Nat := r.hours * 3600000000 + r.usec

/-- LOG_HEAD, in its register and in the counter area. -/
def Mod.setHead (m : Mod) (h : Nat) : Mod := { (m.put R.LOG_HEAD_HEAD h) with nv.head := h }

/-- The counters of the LOG page that live in the counter area follow their registers. -/
def Mod.syncNv (m : Mod) : Mod :=
  { m with nv.drop := m.get R.LOG_DROP_CNT_COUNT, nv.limit := m.get R.LOG_LIMIT_CNT_COUNT,
           nv.retired := m.get R.LOG_RETIRED_CNT_COUNT, nv.torn := m.get R.LOG_TORN_CNT_COUNT }

/-- LOG_STAT.QDEPTH follows the queue. -/
def Mod.showQueue (m : Mod) : Mod := m.put R.LOG_STAT_QDEPTH m.log.queue.length

/-- BURST in force (R355). -/
def Mod.logBurst (m : Mod) : Nat := max 1 (m.get R.LOG_CFG_BURST)

/-- Write the live REPEAT and LAST_DT of the fold into its record, in the store or in the queue (R354). -/
def Mod.writeFold (m : Mod) : Mod :=
  match m.log.fold with
  | none => m
  | some f =>
    match f.slot with
    | some i => m.setSlotBytes i (setBytes (setBytes (m.logSlot i) 4 (leBytes 4 f.rept)) 20 (leBytes 4 f.lastDt))
    | none => { m with log.queue := m.log.queue.modify (m.log.queue.length - 1) (fun (r : LogRec) => { r with rept := f.rept, lastDt := f.lastDt }) }

/-- The condition of a FAULT record: block, instance, kind, ADDR (Table 10-2). -/
def faultKey (b : List Nat) : Nat × Nat × Nat × Nat := (le b 4 2 / 64 % 64, le b 4 2 % 64, b.getD 6 0, le b 8 4)

/-- A record enters the queue: the fold ends or begins with it; the START records that are written are kept for their CLR (R354, R355). -/
def Mod.pushLog (m : Mod) (r : LogRec) : Mod :=
  let m := m.writeFold
  let fold := if r.typ = 2 then some (Fold.mk r.code (le r.body 0 4) 0 0 r.opUs none) else none
  let key := faultKey r.body
  let sw := if r.typ ≠ 1 then m.log.startWritten
    else if bit (r.body.getD 7 0) 0 then m.log.startWritten.erase key
    else if m.log.startWritten.contains key then m.log.startWritten else m.log.startWritten ++ [key]
  ({ m with log.queue := m.log.queue ++ [r], log.fold := fold, log.startWritten := sw }).showQueue

/-- A record that no rate limit holds back: discarded when the log is full (R356) or the queue is (R353). -/
def Mod.admitLog (m : Mod) (r : LogRec) : Mod :=
  if m.is R.LOG_STAT_FULL && !m.is R.LOG_STAT_ERASING then (m.bump R.LOG_DROP_CNT_COUNT).syncNv
  else if 1024 ≤ m.log.queue.length then
    ((m.bump R.LOG_QOVF_CNT_COUNT).raiseLim tickS 16 0 3 0 0).put R.LOG_EVT_QOVF 1
  else m.pushLog r

/-- A CONDITION record folds into the newest one (R354). -/
def Mod.foldInto (m : Mod) (r : LogRec) : Option Fold :=
  match m.log.fold with
  | none => none
  | some f =>
    let dt := r.opUs - f.firstUs
    if r.typ = 2 ∧ f.code = r.code ∧ f.addr = le r.body 0 4 ∧ f.rept + 1 < 2 ^ 32 ∧ dt < 2 ^ 32 then
      some { f with rept := f.rept + 1, lastDt := dt } else none

/-- The oldest arrival folds, is omitted for want of a token, is discarded, or enters the queue (R353, R354, R355). -/
def Mod.logEnqueue (m : Mod) : Mod :=
  match m.log.arr with
  | [] => m
  | a :: as =>
    let m := { m with log.arr := as }
    let r := a.entry
    match m.foldInto r with
    | some f => { m with log.fold := some f }
    | none =>
      if r.typ ≠ 1 then m.admitLog r
      else
        let used := Sparse.get (fun _ => 0) m.log.used r.code
        let free := a.free || (bit (r.body.getD 7 0) 0 && m.log.startWritten.contains (faultKey r.body))
        if !free && decide (m.logBurst ≤ used) then
          let o := Sparse.get (fun _ => 0) m.log.omitted r.code
          (({ m with log.omitted := Sparse.set (fun _ => 0) m.log.omitted r.code (min (2 ^ 32 - 1) (o + 1)) }).bump
            R.LOG_LIMIT_CNT_COUNT).syncNv
        else
          let full := (m.is R.LOG_STAT_FULL && !m.is R.LOG_STAT_ERASING) || decide (1024 ≤ m.log.queue.length)
          let r := { r with rept := Sparse.get (fun _ => 0) m.log.omitted r.code }
          let m := if full then m
            else
              let m := { m with log.omitted := Sparse.erase r.code m.log.omitted }
              if free then m else { m with log.used := Sparse.set (fun _ => 0) m.log.used r.code (used + 1) }
          m.admitLog r

/-- LOG_ENQUEUE (R353). -/
def execLogEnqueue (s : State) : Out := onMod Mod.logEnqueue s

/-- HEAD moves on past a slot (R356): LOG_NEAR_FULL and LOG_FULL. -/
def Mod.advanceHead (m : Mod) : Mod :=
  let h := m.get R.LOG_HEAD_HEAD + 1
  let m := m.setHead h
  let warn := logSlots * clampN 50 99 (m.get R.LOG_CFG_WARN_PCT) / 100
  let m := if decide (warn ≤ h) && !m.is R.LOG_STAT_NEAR_FULL then
      (m.puts [(R.LOG_STAT_NEAR_FULL, 1), (R.LOG_EVT_NEAR_FULL, 1)]).raise 16 0 1 h 0
    else m
  if h = logSlots then (m.puts [(R.LOG_STAT_FULL, 1), (R.LOG_EVT_FULL, 1)]).raise 16 0 2 h 1 else m

/-- The front of the queue goes to the slot at HEAD (R351). `ok`: the read-back verifies. -/
def Mod.writeFront (m : Mod) (r : LogRec) (rest : List LogRec) (ok : Bool) : Mod :=
  let h := m.get R.LOG_HEAD_HEAD
  if !ok then
    let m := (m.setSlotBytes h (r.bytes 0)).bump R.LOG_RETIRED_CNT_COUNT
    ((m.syncNv.raise 16 0 5 h 1).put R.LOG_EVT_WR_FAIL 1).advanceHead
  else
    let fold := match m.log.fold with
      | some f => if rest.isEmpty && f.slot.isNone then some { f with slot := some h } else some f
      | none => none
    (({ (m.setSlotBytes h (r.bytes 0xA5)) with log.queue := rest, log.fold := fold }).showQueue).advanceHead

/-- The log takes records now: its check is done, no erase runs, it is not held in reset (R357, R359, R361). -/
def Mod.logWrites (m : Mod) : Bool := m.is R.LOG_STAT_READY && !m.is R.LOG_STAT_ERASING && !m.inReset 16 0

/-- LOG_RECORD_WRITE (R350, R351): the record at the front of the queue. `ok`: verification succeeds. `bad`: its queue entry fails parity and
it is written as DAMAGED (Table 11-2). Once the log is full the record is discarded and counted (R356). -/
def execLogRecordWrite (ok bad : Bool) (s : State) : Out := onMod (fun m =>
  match m.log.queue with
  | [] => m
  | r :: rest =>
    if !m.logWrites then m
    else if m.is R.LOG_STAT_FULL then (({ m with log.queue := rest }).bump R.LOG_DROP_CNT_COUNT).syncNv.showQueue
    else if bad then
      let f := m.fresh
      let m := f.2.singleUe 17 (Config.freeNat f.1 % 65536)
      m.writeFront { r with typ := 0xFE, code := 0, rept := 0, body := zeros 28 } rest ok
    else m.writeFront r rest ok) s

/-- FOLD_FLUSH (R354). -/
def execFoldFlush (s : State) : Out := onMod Mod.writeFold s

/-- TOKEN_REFILL (R355): every CODE gains one token, up to BURST. -/
def execTokenRefill (s : State) : Out := onMod (fun m =>
  { m with log.used := Sparse.mapV (fun _ => 0) (fun u => u - 1) m.log.used }) s

/-- OPERATING_TIME_SAVE (R352). -/
def execOperatingTimeSave (s : State) : Out := onMod (fun m =>
  { m with nv.hours := m.get R.LOG_HOURS_HOURS, nv.usec := m.get R.LOG_USEC_USEC }) s

/-- The POWER record of power-on reset (R357), with TORN. -/
def Mod.powerOnRec (m : Mod) (torn : Nat) : LogRec :=
  m.stamp 0x04 2 ([4, 0] ++ leBytes 2 torn ++ leBytes 4 (m.get R.LOG_DROP_CNT_COUNT))

/-- A slot is torn (R357). -/
def slotTorn (b : List Nat) : Bool := b != slotDflt 0 && b.getD 0 0 != 0xA5

/-- LOG_POWERUP_CHECK (R357): a torn slot at HEAD is retired; READY; the POWER record with CAUSE 4 stands first. -/
def execLogPowerupCheck (s : State) : Out := onMod (fun m =>
  if m.is R.LOG_STAT_READY then m
  else
    let h := m.get R.LOG_HEAD_HEAD
    let torn := decide (h < logSlots) && slotTorn (m.logSlot h)
    let m := if torn then
        let m := (m.setSlotBytes h (setBytes (m.logSlot h) 0 [0])).bump R.LOG_TORN_CNT_COUNT
        ((m.syncNv.raise 16 0 4 h 0).put R.LOG_EVT_TORN 1).advanceHead
      else m
    ({ m with log.queue := m.powerOnRec (b2n torn) :: m.log.queue }).put R.LOG_STAT_READY 1 |>.showQueue) s

/-! ## Erasure (R359) -/

/-- An erase begins. -/
def Mod.eraseLog (m : Mod) : Mod :=
  ({ m with log.eraseHead := m.get R.LOG_HEAD_HEAD, log.eraseDrop := m.get R.LOG_DROP_CNT_COUNT }).put R.LOG_STAT_ERASING 1

/-- ERASE of LOG_CMD (R359, R391): refused in RUN; a grant is used up (R391). -/
def Mod.eraseCmd (m : Mod) : Mod :=
  if m.inRun then (m.put R.LOG_EVT_ERASE_REF 1).refuse
  else if m.is R.LOG_STAT_ERASING then m
  else (m.put R.SEC_ERASE_GRANT 0).eraseLog

/-- LOG_CMD.ERASE. -/
def execLogCmdErase (s : State) : Out := onMod (fun m => m.guardedR 0x100C4 1 Mod.eraseCmd) s

/-- The erased log: every slot 0xFF, HEAD and the counters 0, the ERASED record first. -/
def Mod.erased (m : Mod) : Mod :=
  let m := ({ m with nv.slots := [], log.fold := none }).setHead 0
  let m := m.puts [(R.LOG_DROP_CNT_COUNT, 0), (R.LOG_LIMIT_CNT_COUNT, 0), (R.LOG_RETIRED_CNT_COUNT, 0), (R.LOG_TORN_CNT_COUNT, 0),
    (R.LOG_STAT_FULL, 0), (R.LOG_STAT_NEAR_FULL, 0), (R.LOG_STAT_ERASING, 0)]
  let r := m.stamp 0x09 0 (leBytes 4 m.log.eraseHead ++ leBytes 4 m.log.eraseDrop)
  ({ m.syncNv with log.queue := r :: m.log.queue }).showQueue

/-- LOG_ERASE_DONE. -/
def execLogEraseDone (s : State) : Out := onMod (fun m => if m.is R.LOG_STAT_ERASING then m.erased else m) s

/-! ## Readout (R360) and NOTE records (R355) -/

/-- The bytes of a slot as readout shows them: the live REPEAT and LAST_DT of the fold. -/
def Mod.slotShown (m : Mod) (i : Nat) : List Nat :=
  match m.log.fold with
  | some f => if f.slot = some i then setBytes (setBytes (m.logSlot i) 4 (leBytes 4 f.rept)) 20 (leBytes 4 f.lastDt) else m.logSlot i
  | none => m.logSlot i

/-- The snapshot of a slot: LOG_RD_DATA, LOG_RD_STAT. -/
def Mod.snapSlot (m : Mod) (i : Nat) : Mod :=
  let b := m.slotShown i
  let v := b.getD 0 0
  let st := if v = 0xA5 then 1 else if v = 0 then 2 else 0
  let m := { m with log.snap := (List.range 16).map (fun k => le b (4 * k) 4), log.rdWord := 0 }
  let m := m.puts [(R.LOG_RD_IDX_IDX, i), (R.LOG_RD_STAT_STATE, st), (R.LOG_RD_STAT_CRC_OK, b2n (st == 1 && le b 60 4 == recCrc b))]
  (List.range 16).foldl (fun m k => m.put (R.LOG_RD_DATA_DATA k) (le b (4 * k) 4)) m

/-- LOG_RD_IDX_WRITE. -/
def execLogRdIdxWrite (v : Word) (s : State) : Out := onMod (fun m => m.guarded 0x10100 v.toNat (fun m => m.snapSlot (v.toNat % logSlots))) s

/-- The next word of the snapshot; after the sixteenth the next slot's snapshot is taken. -/
def Mod.streamWord (m : Mod) : Nat × Mod :=
  (m.log.snap.getD m.log.rdWord 0,
   if m.log.rdWord < 15 then { m with log.rdWord := m.log.rdWord + 1 } else m.snapSlot ((m.get R.LOG_RD_IDX_IDX + 1) % logSlots))

/-- LOG_RD_STREAM_READ. -/
def execLogRdStreamRead (s : State) : Out := onMod (fun m => m.guardedRd 0x10148 Mod.streamWord) s

/-- A write of LOG_NOTE6 (R355): refused beyond 16 in a second. -/
def Mod.noteWrite (m : Mod) (v : Nat) : Mod :=
  let recent := m.log.noteTicks.filter (fun t => decide (m.time.ticks < t + tickS))
  let m := m.put (R.LOG_NOTE_DATA 6) v
  if 16 ≤ recent.length then (m.put R.LOG_EVT_NOTE_REF 1).refuse
  else
    ({ m with log.noteTicks := m.time.ticks :: recent }).log1 0x08 (m.get R.LOG_NOTE_CODE_CODE)
      ((List.range 7).flatMap (fun i => leBytes 4 (m.get (R.LOG_NOTE_DATA i))))

/-- LOG_NOTE_WRITE. -/
def execLogNoteWrite (v : Word) (s : State) : Out := onMod (fun m => m.guardedR 0x100EC v.toNat (fun m => m.noteWrite v.toNat)) s

end Sys2Proof.Machine
end

