-- ==== Sys2Proof/Machine/StoredData.lean ====
section
/-!
DEFINITION. Stored-data protection (R338 to R348): scrubbing, fetch traps, management DMA halts.
-/
namespace Sys2Proof.Machine

/-- How a byte of a twin store reads (R339, R344): 0 good, 1 corrected in copy A, 2 corrected in copy B, 3 uncorrectable. A fenced row is
read from the other copy alone. -/
def Mod.byteResult (m : Mod) (st row : Nat) (f : Nat × Bool × Bool) : Nat :=
  let fa := m.fenced st 0 row
  let fb := m.fenced st 1 row
  if fa && !fb then (if f.2.2 then 3 else 0)
  else if fb && !fa then (if f.2.1 then 3 else 0)
  else if f.2.1 && f.2.2 then 3 else if f.2.1 then 1 else if f.2.2 then 2 else 0

/-- One word of a scrubbed row of a twin store (R339, R340, R342): corrected, TWIN_UE where a byte cannot be. -/
def Mod.scrubWord (m : Mod) (st row w : Nat) (fail : List (Nat × Bool × Bool)) : Mod :=
  let l := fail.filter (fun f => f.1 / 8 == w)
  let res := l.map (fun f => (f.1, m.byteResult st row f))
  let cop := (if res.any (fun e => e.2 == 1) then [0] else []) ++ (if res.any (fun e => e.2 == 2) then [1] else [])
  let at_ := fun (o : Nat) => 128 * row + o
  let m := match res.find? (fun e => e.2 == 1 || e.2 == 2) with
    | none => m
    | some e => m.correctWord st (at_ e.1) cop
  match res.find? (fun e => e.2 == 3) with
  | none => m
  | some e =>
    let m := (res.filter (fun e => e.2 == 3)).foldl (fun m e => m.markDead st (at_ e.1)) m
    (m.memUe st (at_ e.1)).memReport st 5 (at_ e.1) 1

/-- SCRUB_READ (R342): the scrubber reads the next row of a twin store or of the stake store; `fail` names the bytes of the row that fail
parity, in copy A and in copy B. -/
def execScrubRead (st : Fin 18) (fail : List (Nat × Bool × Bool)) (s : State) : Out := onMod (fun m =>
  let n := st.val
  if !m.is R.MEM_CFG_SCRUB_EN || !m.storeOn n || !(twinStore n || n == 15) then m
  else
    let row := m.mem.scrubRow.getD n 0
    let m := m.put R.MEM_STAT_SCRUB_ACT 1
    let m := { m with mem.scrubRow := (bank 18 m.mem.scrubRow 0).set n ((row + 1) % (storeBytes n / 128)) }
    let fail := fail.filter (fun f => decide (f.1 < 128))
    if n = 15 then
      (List.range 4).foldl (fun m i => if fail.any (fun f => f.2.1 && f.1 / 32 == i) then m.stakeUe (4 * row + i) else m) m
    else (List.range 16).foldl (fun m w => m.scrubWord n row w fail) m) s

/-- DRAM_SCRUB_READ (R348): the next word of a tile; `err` 1 a single-bit error, 2 a double-bit error. -/
def execDramScrubRead (tile : Fin 20) (err : Fin 3) (s : State) : Out := onMod (fun m =>
  if !m.is R.MEM_CFG_SCRUB_EN || !m.storeOn (32 + tile) then m
  else
    let w := m.mem.dramWord.getD tile 0
    let m := m.put R.MEM_STAT_DRAM_SCRUB_ACT 1
    ({ m with mem.dramWord := (bank 20 m.mem.dramWord 0).set tile ((w + 1) % 2 ^ 28) }).dramError tile (8 * w) err) s

/-- SCRUB_NOW. -/
def Mod.scrubNow (m : Mod) : Mod :=
  { m with mem.scrubRow := List.replicate 18 0, mem.dramWord := List.replicate 20 0 }

/-- MEM_CMD.SCRUB_NOW (R342): every pass starts again from row 0. -/
def execMemCmdScrubNow (s : State) : Out := onMod (fun m =>
  m.guarded 0xF0C4 0x10 (fun m => m.scrubNow)) s

/-- The pair meets an uncorrectable instruction at an address of the instruction RAM (R346): it traps; a page that traps again within 1 s raises
FW_UE. -/
def Mod.fetchUe (m : Mod) (addr : Nat) : Mod :=
  let page := addr / 4096
  let again := m.mem.trapHist.any (fun e => e.1 == page && decide (m.time.ticks < e.2 + tickS))
  let m := ((m.markDead 12 addr).memUe 12 addr).memReport 12 6 addr 1
  let hist := (page, m.time.ticks) :: m.mem.trapHist.filter (fun e => decide (m.time.ticks < e.2 + tickS))
  let m := { m with mem.trapHist := hist }
  if again then m.memReport 12 7 addr 2 else { m with mem.trap := some page }

/-- FETCH_TRAP (R346): an uncorrectable instruction fetch. -/
def execFetchTrap (addr : Fin 2097152) (s : State) : Out := onMod (fun m =>
  if m.storeOn 12 then m.fetchUe addr.val else m) s

/-- An access of the management side meets a byte of a twin store that fails in both copies (R341, Tables 11-1 and 11-2): DATA_UE of a core's
SRAM, the fetch trap of the instruction RAM, MGT_DATA_UE of the data RAM. -/
def Mod.storeUe (m : Mod) (st addr : Nat) : Mod :=
  if st < 4 then m.coreUe st false addr
  else if st = 12 then m.fetchUe addr
  else if st = 13 then (m.memUe 13 addr).memReport 13 8 addr 2
  else m

/-- A write of `n` bytes to a twin store (R341): the bytes it covers are good in both copies. Where it does not cover whole words and leaves a
failing byte of one, it is made and the access is an uncorrectable read of the store. -/
def Mod.twinWrite (m : Mod) (st a n : Nat) : Mod :=
  let kept := m.keptDead st a n
  let m := m.dropDead st a n
  match kept with
  | [] => m
  | o :: _ => m.storeUe st o

/-- Bytes of a page of the code of a firmware slot, and its entry in the page digest table (R371). -/
def pageBytes (f : Nat → Nat) (p : Nat) : List Nat := bytesAt f (rdAt f 32 4 + 4096 * p) 4096
def pageDigest (f : Nat → Nat) (p : Nat) : List Nat := bytesAt f (rdAt f 48 4 + 48 * p) 48

/-- The slot that MGT_BOOT.SLOT names, as a byte function; an erased byte reads 0xFF. -/
def Mod.slotOf (m : Mod) (b : Bool) : SlotImg := if b then m.nv.slotB else m.nv.slotA
def SlotImg.byte (x : SlotImg) (o : Nat) : Nat := Sparse.get (fun _ => 0xFF) x.bytes o
def Mod.activeSlot (m : Mod) : Nat → Nat := (m.slotOf (m.is R.MGT_BOOT_SLOT)).byte

/-- FETCH_TRAP_DONE (R346): the page is reloaded from the active slot and checked against its digest; it is written back and the pair
resumes, or FW_UE is raised. -/
def execFetchTrapDone (s : State) : Out := onMod (fun m =>
  match m.mem.trap with
  | none => m
  | some p =>
    let b := pageBytes m.activeSlot p
    let m := { m with mem.trap := none }
    if Config.sha384 b == pageDigest m.activeSlot p then
      { m with mgt.iram := Sparse.setMany (fun _ => 0) m.mgt.iram (4096 * p) b }.dropDead 12 (4096 * p) 4096
    else m.memReport 12 7 (4096 * p) 2) s

/-- MGT_DMA_HALT (R347): a management DMA channel meets its first uncorrectable word, in a store at an address. -/
def execMgtDmaHalt (ch : Fin 8) (st : Fin 52) (addr : Fin 2147483648) (s : State) : Out := onMod (fun m =>
  if bit (m.get R.MEM_DMA_HALT_HALT) ch || !m.domainOn 1 || !(twinStore st || decide (32 ≤ st.val)) then m
  else
    let m := m.puts [(R.MEM_DMA_HALT_HALT, setBit (m.get R.MEM_DMA_HALT_HALT) ch true), (R.MEM_DMA_ADDR_ADDR, addr)]
    ((m.markDead st addr).memUe st addr).memReport st 9 addr 1) s

/-- DMA_RESUME of a channel. -/
def Mod.dmaResume (m : Mod) (ch : Nat) : Mod :=
  m.put R.MEM_DMA_HALT_HALT (setBit (m.get R.MEM_DMA_HALT_HALT) ch false)

/-- MEM_CMD.DMA_RESUME (R347): the channel returns to idle. -/
def execMemCmdDmaResume (ch : Fin 8) (s : State) : Out := onMod (fun m =>
  m.guarded 0xF0C4 (1 + 2 * ch.val) (fun m => m.dmaResume ch.val)) s

end Sys2Proof.Machine
end

