-- ==== Sys2Proof/Machine/Firmware.lean ====
section
/-!
DEFINITION. The firmware store (R368 to R373, R384 to R387): the check of a slot, the boot set, the firmware window, erase, verify, activate,
confirm and cancel.
-/
namespace Sys2Proof.Machine

/-! ## Slots -/

/-- Change a slot. -/
def Mod.setFwSlot (m : Mod) (b : Bool) (f : SlotImg → SlotImg) : Mod :=
  if b then { m with nv.slotB := f m.nv.slotB } else { m with nv.slotA := f m.nv.slotA }

/-- The slot not in use (R384). -/
def Mod.idleSlot (m : Mod) : Bool := !m.is R.MGT_BOOT_SLOT

/-- MGT_SLOTA, MGT_SLOTB, MGT_BUILDA, MGT_BUILDB show the store (Table 12-17). -/
def Mod.showSlots (m : Mod) : Mod :=
  let a := m.nv.slotA
  let b := m.nv.slotB
  m.puts [(R.MGT_SLOTA_SVN, a.svn), (R.MGT_SLOTA_VALID, b2n a.valid), (R.MGT_SLOTA_CONFIRMED, b2n a.confirmed),
    (R.MGT_SLOTA_PREFERRED, b2n a.preferred), (R.MGT_BUILDA_BUILD, a.build), (R.MGT_SLOTB_SVN, b.svn), (R.MGT_SLOTB_VALID, b2n b.valid),
    (R.MGT_SLOTB_CONFIRMED, b2n b.confirmed), (R.MGT_SLOTB_PREFERRED, b2n b.preferred), (R.MGT_BUILDB_BUILD, b.build)]

/-- The form of a firmware image header (Table 12-4): MAGIC, FORMAT, BUILD never 0, page multiples and limits, zero bytes. -/
def fwForm (f : Nat → Nat) : Bool :=
  rdAt f 0 4 == 0x464D4601 && rdAt f 4 2 == 1 && rdAt f 8 4 != 0 && rdAt f 36 4 % 4096 == 0 && rdAt f 44 4 % 4096 == 0 &&
    decide (rdAt f 36 4 ≤ 0x200000) && decide (rdAt f 44 4 ≤ 0x100000) && decide (rdAt f 28 4 ≤ 0x40000) &&
    decide (rdAt f 16 4 ≤ 0x2000000) && (bytesAt f 56 72).all (· == 0)

/-- The bytes that a firmware image's D covers, and its signature block (R369, Table 12-4). -/
def fwBytes (f : Nat → Nat) : List Nat := bytesAt f 0 (rdAt f 16 4)
def fwBlock (f : Nat → Nat) : List Nat := bytesAt f (rdAt f 20 4) 512
def fwD (f : Nat → Nat) : List Nat := digestD (fwBytes f) (fwBlock f)

/-- The firmware's signature under the vendor root, with equal SVN in header and block, at most 64 (R370, Table 12-4). -/
def fwSigned (fu : Fuses) (f : Nat → Nat) : Bool :=
  sigGood (fwBytes f) (fwBlock f) (some (pad 48 fu.vendorRoot)) && le (fwBlock f) 8 4 == rdAt f 12 4 && decide (rdAt f 12 4 ≤ 64)

/-- Every page of CODE has the digest of the page digest table (R371). -/
def pagesGood (f : Nat → Nat) : Bool := (List.range (rdAt f 36 4 / 4096)).all (fun p => Config.sha384 (pageBytes f p) == pageDigest f p)

/-- Why a slot fails (R373, the codes of Table 12-8); 0 it does not. `readErr`: it cannot be read. -/
def Mod.slotCode (m : Mod) (fu : Fuses) (b readErr : Bool) : Nat :=
  let x := m.slotOf b
  let f := x.byte
  if x.broken || !fwForm f then 1
  else if rdAt f 6 2 ≠ 0x00B0 then 2
  else if rdAt f 12 4 < m.get R.SEC_SVN_FUSE_CNT then 4
  else if readErr then 6
  else if !fwSigned fu f then 3
  else if !pagesGood f then 5
  else 0

/-! ## The boot set (R368) -/

/-- The images a slot's directory names, as byte functions: entries with a LENGTH that lie in the slot. OFFSET counts from the start of
the slot (log 17). -/
def bootSet (f : Nat → Nat) : List (Nat → Nat) :=
  (List.range 8).filterMap (fun i =>
    let o := 0x400000 + 12 * i
    let off := rdAt f (o + 4) 4
    let len := rdAt f (o + 8) 4
    if len = 0 ∨ 0x2000000 < off + len then none else some (fun k => f (off + k)))

/-- The images of a boot set with a MAGIC. -/
def bootImages (f : Nat → Nat) (magic : Nat) : List (Nat → Nat) := (bootSet f).filter (fun g => rdAt g 0 4 == magic)

/-- Every boot-set image has a good block under the owner root (R370, R384). -/
def Mod.bootSigned (m : Mod) (fu : Fuses) (f : Nat → Nat) : Bool :=
  ([0x464D5701, 0x464D4301, 0x464D5201].flatMap (bootImages f)).all (imgSigned fu m)

/-! ## The window (R384) -/

/-- Words of the staging buffer of 256 KiB. -/
def stagingWords : Nat := 65536

/-- BUSY and FULL of MGT_FW_STAT. -/
def Mod.showFw (m : Mod) : Mod :=
  m.puts [(R.MGT_FW_STAT_BUSY, b2n (m.mgt.fwOp != 0 || !m.mgt.staging.isEmpty)),
    (R.MGT_FW_STAT_FULL, b2n (decide (stagingWords ≤ m.mgt.staging.length)))]

/-- The oldest `n` staged words go to the slot not in use. -/
def Mod.drainStaging (m : Mod) (n : Nat) : Mod :=
  let d := m.mgt.staging.take n
  let m := m.setFwSlot m.idleSlot (fun x =>
    { x with bytes := d.foldl (fun b (e : Nat × Nat) => Sparse.setMany (fun _ => 0xFF) b e.1 (leBytes 4 e.2)) x.bytes })
  ({ m with mgt.staging := m.mgt.staging.drop n }).showFw

/-- A write of MGT_FW_DATA (R384): refused while the buffer is full, in HOLD-UP, and on a slot that needs an ERASE. What the slot held
is no longer a checked image. -/
def Mod.fwData (m : Mod) (v : Nat) : Mod :=
  if m.pstate = 1 || decide (stagingWords ≤ m.mgt.staging.length) || (m.slotOf m.idleSlot).broken then m.refuse
  else
    let a := m.get R.MGT_FW_ADDR_ADDR
    let m := { m with mgt.staging := m.mgt.staging ++ [(a / 4 * 4, v)] }
    let m := m.puts [(R.MGT_FW_ADDR_ADDR, (a + 4) % 2 ^ 25), (R.MGT_FW_STAT_VERIFIED, 0)]
    (m.setFwSlot m.idleSlot (fun x => { x with valid := false })).showSlots.showFw

/-- MGT_FW_DATA_WRITE (R384). -/
def execMgtFwDataWrite (v : Word) (s : State) : Out := onMod (fun m => m.guardedR 0x110A4 v.toNat (fun m => m.fwData v.toNat)) s

/-- ERASE (R384): begins; a word refused in HOLD-UP and while an erase or a check runs. Words still staged go with the slot. -/
def Mod.fwErase (m : Mod) : Mod :=
  if m.pstate = 1 || m.mgt.fwOp != 0 then m.refuse
  else ({ m with mgt.fwOp := 1, mgt.staging := [] }).put R.MGT_FW_STAT_VERIFIED 0 |>.showFw

/-- MGT_FW_ERASE: MGT_FW_CMD.ERASE. -/
def execMgtFwErase (s : State) : Out := onMod (fun m => m.guardedR 0x110A8 1 Mod.fwErase) s

/-- FW_ERASE_DONE (R384): the slot not in use is blank. -/
def execFwEraseDone (s : State) : Out := onMod (fun m =>
  if m.mgt.fwOp = 1 then
    let m := { m with mgt.fwOp := 0 }
    (m.setFwSlot m.idleSlot (fun x => { preferred := x.preferred })).showSlots.showFw
  else m) s

/-- VERIFY (R384): the staged words are written, then the check begins. -/
def Mod.fwVerify (m : Mod) : Mod :=
  if m.pstate = 1 || m.mgt.fwOp != 0 then m.refuse
  else { (m.drainStaging m.mgt.staging.length) with mgt.fwOp := 2 } |>.showFw

/-- MGT_FW_VERIFY: MGT_FW_CMD.VERIFY. -/
def execMgtFwVerify (s : State) : Out := onMod (fun m => m.guardedR 0x110A8 2 Mod.fwVerify) s

/-- The end of the check (R384): VERIFIED with a TRUST record, or RESULT and FW_CHECK. -/
def Mod.fwVerified (m : Mod) (fu : Fuses) (readErr : Bool) : Mod :=
  let b := m.idleSlot
  let f := (m.slotOf b).byte
  let c := m.slotCode fu b readErr
  let c := if c = 0 && !m.bootSigned fu f then 3 else c
  let m := ({ m with mgt.fwOp := 0 }).put R.MGT_FW_STAT_RESULT c
  if c = 0 then
    let m := m.setFwSlot b (fun x => { x with valid := true, svn := rdAt f 12 4, build := rdAt f 8 4 })
    ((m.put R.MGT_FW_STAT_VERIFIED (b2n m.mgt.staging.isEmpty)).logTrust 4 (rdAt f 8 4) (rdAt f 12 4) (fwD f)).showSlots.showFw
  else
    let m := if c = 3 then m.sigRefused else m
    ((m.put R.MGT_EVT_FW_CHECK 1).raise 17 0 9 0 0).showFw

/-- FW_VERIFY_DONE (R384). `readErr`: the slot cannot be read. -/
def execFwVerifyDone (readErr : Bool) (s : State) : Out := onMod (fun m =>
  if m.mgt.fwOp = 2 then m.fwVerified s.fuses readErr else m) s

/-! ## Activation (R385 to R387) -/

/-- ACTIVATE (R385): VERIFIED, in STANDBY, SAFE HOLD or SERVICE; the warm reset is the command LEVEL3_RESET. -/
def Mod.fwActivate (m : Mod) : Mod :=
  if !m.is R.MGT_FW_STAT_VERIFIED || !m.quiet then m.refuse
  else
    let b := m.idleSlot
    let f := (m.slotOf b).byte
    let m := (m.put R.MGT_FW_STAT_ACT_PEND 1).logTrust 5 (b2n b) (rdAt f 8 4) (fwD f)
    { m.stoStop with nv.trial := some b, flt.l3Sys := true }

/-- MGT_FW_ACTIVATE: MGT_FW_CMD.ACTIVATE. -/
def execMgtFwActivate (s : State) : Out := onMod (fun m => m.guardedR 0x110A8 4 Mod.fwActivate) s

/-- Burn anti-rollback fuses up to a count, never beyond 64 nor above the SVN of the running firmware (R387). `ok`: the readback agrees. -/
def burnSvn (x : Fuses × Mod) (target : Nat) (ok : Bool) : Fuses × Mod :=
  let old := x.2.get R.SEC_SVN_FUSE_CNT
  let t := min target (min 64 (x.2.get R.SEC_SVN_FW_SVN))
  if t ≤ old then x
  else if ok then ({ x.1 with svn := max x.1.svn t }, (x.2.put R.SEC_SVN_FUSE_CNT t).logTrust 7 old t)
  else (x.1, (x.2.raise 18 0 4 0 2).put R.SEC_EVT_FUSE 1)

/-- CONFIRM (R386, R387): the slot in trial becomes preferred and confirmed; AUTO_SVN burns fuses, which HOLD-UP does not take
(R383). -/
def fwConfirm (x : Fuses × Mod) (fuseOk : Bool) : Fuses × Mod :=
  let m := x.2
  if !m.is R.MGT_BOOT_TRIAL || m.pstate = 1 then (x.1, m.refuse)
  else
    let b := m.is R.MGT_BOOT_SLOT
    let m := (m.setFwSlot b (fun y => { y with preferred := true, confirmed := true })).setFwSlot (!b) (fun y => { y with preferred := false })
    let m := ({ m with nv.trial := none, mgt.confirmTmo := false }).puts [(R.MGT_BOOT_TRIAL, 0), (R.MGT_FW_STAT_ACT_PEND, 0)]
    let m := (m.logTrust 6 (b2n b) (m.slotOf b).build).showSlots
    if m.is R.MGT_FW_CFG_AUTO_SVN then burnSvn (x.1, m) (m.slotOf b).svn fuseOk else (x.1, m)

/-- A guarded write with a rule that also burns fuses. -/
def guardedF (a v : Nat) (f : Fuses × Mod → Fuses × Mod) (x : Fuses × Mod) : Fuses × Mod :=
  match x.2.wrStatus a v with
  | 0 => f (x.1, { x.2 with resp := 0 })
  | 3 => (x.1, { x.2.authRefused with resp := 3 })
  | k => (x.1, { x.2 with resp := k })

/-- MGT_FW_CONFIRM: MGT_FW_CMD.CONFIRM. `fuseOk`: the fuses read back as burnt. -/
def execMgtFwConfirm (fuseOk : Bool) (s : State) : Out := onBoth (guardedF 0x110A8 8 (fun x => fwConfirm x fuseOk)) s

/-- CANCEL (R386): the trial ends; the slot keeps running and the confirmed slot boots next. -/
def Mod.fwCancel (m : Mod) : Mod :=
  if !m.is R.MGT_BOOT_TRIAL || m.pstate = 1 then m.refuse
  else ({ m with nv.trial := none, mgt.confirmTmo := false }).puts [(R.MGT_BOOT_TRIAL, 0), (R.MGT_FW_STAT_ACT_PEND, 0)]

/-- MGT_FW_CANCEL: MGT_FW_CMD.CANCEL. -/
def execMgtFwCancel (s : State) : Out := onMod (fun m => m.guardedR 0x110A8 16 Mod.fwCancel) s

/-- CONFIRM_TMO (R386): CONFIRM_S seconds since the slot was taken in trial, without CONFIRM; the slot keeps running in trial and the confirmed slot boots next. -/
def execConfirmTmo (s : State) : Out := onMod (fun m =>
  if m.is R.MGT_BOOT_TRIAL && !m.mgt.confirmTmo &&
      decide (m.mgt.trialTick + clampN 10 65535 (m.get R.MGT_FW_CFG_CONFIRM_S) * tickS ≤ m.time.ticks + 64000) then
    (({ m with nv.trial := none, mgt.confirmTmo := true }).puts [(R.MGT_FW_STAT_ACT_PEND, 0), (R.MGT_EVT_CONFIRM_TMO, 1)]).raise 17 0 8 0 1
  else m) s

end Sys2Proof.Machine
end

