-- ==== Sys2Proof/Machine/Security.lean ====
section
/-!
DEFINITION. Trust (R375 to R398): fuses and what they show, debug levels, trust commands, attestation, measurement and certificate windows.
-/
namespace Sys2Proof.Machine

/-! ## Fuses and identity -/

/-- Lifecycle of the fuses (R382). -/
def Fuses.lc (fu : Fuses) : Nat := if fu.returned then 3 else if fu.field then 2 else if fu.provisioned then 1 else 0

/-- Default debug level of a lifecycle (R388): open in BLANK. -/
def lcDebug (lc : Nat) : Nat := if lc = 0 then 2 else 0

/-- ID_VALID (R377): entry 1 is stored and carries the DIK's public key. -/
def Mod.idValid (m : Mod) : Bool :=
  let c := (m.nv.certs.getD 1 {}).bytes
  !c.isEmpty && !m.sec.dik.isEmpty && Config.certKey c == Config.publicKey m.sec.dik

/-- The registers that show the fuses: lifecycle, owner root, fuse count, default level, serial number (Tables 12-18, 15-6). -/
def Mod.showFuses (m : Mod) (fu : Fuses) : Mod :=
  let m := m.puts [(R.SEC_LIFE_LC, fu.lc), (R.SEC_LIFE_OWNER_FUSED, b2n (!fu.ownerRoot.isEmpty && !fu.ownerPart)),
    (R.SEC_LIFE_OWNER_PART, b2n fu.ownerPart), (R.SEC_LIFE_KEEP_LOG, b2n fu.keepLog), (R.SEC_SVN_FUSE_CNT, fu.svn),
    (R.SEC_DBG_DEFAULT, lcDebug fu.lc), (R.MOD_SERIAL_LO_SERIAL, fu.serial % 2 ^ 32), (R.MOD_SERIAL_HI_SERIAL, fu.serial / 2 ^ 32),
    (R.MOD_MFG_YEAR, fu.year), (R.MOD_MFG_WEEK, fu.week), (R.SEC_LIFE_ID_VALID, b2n m.idValid)]
  if fu.lc < 2 then m
  else (List.range 12).foldl (fun m i => m.put (R.SEC_OWNER_KEY_HASH i) (le (pad 48 fu.ownerRoot) (4 * i) 4)) m

/-- FUSE_ERR (R383). -/
def Mod.fuseErr (m : Mod) : Mod := (m.raise 18 0 4 0 2).put R.SEC_EVT_FUSE 1

/-- A fresh challenge (R381). -/
def Mod.newChal (m : Mod) : Mod :=
  let f := m.fresh
  (List.range 4).foldl (fun m i => m.put (R.SEC_CHAL_CHAL i) (le (Config.entropy f.1) (4 * i) 4)) f.2

/-! ## Debug levels (R388) -/

/-- The pair resumes (R389). -/
def Mod.pairGo (m : Mod) : Mod := m.put R.MGT_DBG_CTL_HALTED 0

/-- A change of debug level: M6, DEBUG_CHANGE, TRUST record. `dig` is D of the token, 48 zero bytes without one. -/
def Mod.setLevel (m : Mod) (new dur : Nat) (dig : List Nat) : Mod :=
  let old := m.dbgLevel
  if new = old then m
  else
    let m := (m.put R.SEC_DBG_LEVEL new).extendM 6 (Config.sha384 ([old, new] ++ pad 48 dig))
    ((m.raise 18 0 3 0 0).put R.SEC_EVT_DEBUG 1).logTrust 8 old (new + dur * 65536) dig

/-- A level by the DEBUG command: granted for DURATION_S seconds; 0 until reset. -/
def Mod.grantLevel (m : Mod) (new dur : Nat) (dig : List Nat) : Mod :=
  { ((m.setLevel new dur dig).puts [(R.SEC_DBG_GRANTED, 1), (R.SEC_DBG_LEFT_S, dur)]) with
    sec.grantEnd := if dur = 0 then 0 else m.time.ticks + dur * tickS }

/-- A level that no grant holds. -/
def Mod.plainLevel (m : Mod) (new : Nat) : Mod :=
  { ((m.setLevel new 0 []).puts [(R.SEC_DBG_GRANTED, 0), (R.SEC_DBG_LEFT_S, 0)]) with sec.grantEnd := 0 }

/-- A write of SEC_DBG_CMD with GO (R388): lowering at any time, raising where it needs no signature. -/
def Mod.dbgCmd (m : Mod) (v : Nat) : Mod :=
  let new := v % 4
  if !bit v 2 then m
  else if new = 3 then m.refuse
  else if new ≤ m.dbgLevel || m.lc == 0 || (m.lc == 1 && m.ownerKey.all (· == 0)) then m.plainLevel new
  else m.refuse

/-- SEC_DBG_CMD_WRITE (R388). -/
def execSecDbgCmdWrite (v : Word) (s : State) : Out := onMod (fun m => m.guardedR 0x12088 v.toNat (fun m => m.dbgCmd v.toNat)) s

/-- DEBUG_GRANT_EXPIRY (R388, Table 12-13): the grant ends within the running frame; a pair that it halted resumes. -/
def execDebugGrantExpiry (s : State) : Out := onMod (fun m =>
  if m.is R.SEC_DBG_GRANTED && m.sec.grantEnd != 0 && decide (m.sec.grantEnd < m.time.ticks + 64000) then
    let m := m.plainLevel (m.get R.SEC_DBG_DEFAULT)
    if m.dbgLevel = 2 then m else m.pairGo
  else m) s

/-! ## The command window (R380, R381) -/

/-- SEC_CMD_DATA_WRITE (R380): four bytes at SEC_CMD_ADDR, which advances by 4. -/
def Mod.cmdData (m : Mod) (v : Nat) : Mod :=
  let a := m.get R.SEC_CMD_ADDR_ADDR
  let m := if a + 4 ≤ 576 then { m with sec.cmd := setBytes m.sec.cmd a (leBytes 4 v) } else m
  m.put R.SEC_CMD_ADDR_ADDR ((a + 4) % 1024)

/-- SEC_CMD_DATA_WRITE (R380). -/
def execSecCmdDataWrite (v : Word) (s : State) : Out := onMod (fun m => m.guarded 0x120A4 v.toNat (fun m => m.cmdData v.toNat)) s

/-- CMD, its ARGS, the 64 bytes, the signature block and the token's D of the command in the window. -/
def Mod.cmdCode (m : Mod) : Nat := le m.sec.cmd 0 2
def Mod.cmdArgs (m : Mod) : List Nat := slice m.sec.cmd 36 28
def Mod.cmdImg (m : Mod) : List Nat := slice m.sec.cmd 0 64
def Mod.cmdBlk (m : Mod) : List Nat := slice m.sec.cmd 64 512
def Mod.cmdD (m : Mod) : List Nat := digestD m.cmdImg m.cmdBlk

/-- The challenge as it stands. -/
def Mod.chal (m : Mod) : List Nat := (List.range 4).flatMap (fun i => leBytes 4 (m.get (R.SEC_CHAL_CHAL i)))

/-- DEV (R380): the first 16 bytes of SHA-384 of the DIK public key, zero in BLANK. -/
def Mod.devOk (m : Mod) : Bool :=
  let d := slice m.sec.cmd 20 16
  (m.lc == 0 && d.all (· == 0)) ||
    (!m.sec.dik.isEmpty && d == slice (Config.sha384 (Config.publicKey m.sec.dik)) 0 16)

/-- The ceiling of R387. -/
def Mod.svnCeil (m : Mod) : Nat := min 64 (m.get R.SEC_SVN_FW_SVN)

/-- Malformed (RESULT 1): unknown CMD, bytes that must be zero, arguments outside their ranges, a TARGET above the ceiling. -/
def Mod.cmdBad (m : Mod) : Bool :=
  let a := m.cmdArgs
  decide (le m.sec.cmd 2 2 ≠ 0) ||
    (match m.cmdCode with
     | 1 | 3 | 5 => false
     | 2 => decide (a.getD 0 0 = 0 ∨ 3 < a.getD 0 0) || (List.range (a.getD 0 0)).any (fun i => decide (4096 < m.sec.certLen.getD (i + 1) 0))
     | 4 => decide (2 < a.getD 0 0 ∨ a.getD 1 0 ≠ 0)
     | 6 => decide (m.svnCeil < a.getD 0 0)
     | 7 => decide (3 < a.getD 0 0)
     | _ => true)

/-- The certificate that CERT_STORE would store as entry `i`. -/
def Mod.newCert (m : Mod) (i : Nat) : List Nat := pad (m.sec.certLen.getD i 0) (m.sec.certBuf.getD i [])

/-- The command needs a signature (Table 12-8). -/
def Mod.cmdSigned (m : Mod) : Bool :=
  match m.cmdCode with
  | 1 => false
  | 2 => m.lc == 2
  | 6 => m.lc != 0
  | _ => true

/-- Lifecycle column of Table 12-8. -/
def Mod.cmdLife (m : Mod) : Bool :=
  match m.cmdCode with
  | 1 => m.lc == 0
  | 2 => m.lc == 1 || m.lc == 2
  | 3 => m.lc == 1 && m.is R.SEC_LIFE_ID_VALID && m.ownerKey.any (· != 0) && m.locked 18
  | 4 => m.lc != 0
  | 5 => m.lc == 2 || m.lc == 3
  | 6 => m.lc != 3
  | _ => m.lc == 1 || m.lc == 2

/-- Power state column of Table 12-8. -/
def Mod.cmdState (m : Mod) : Bool :=
  match m.cmdCode with
  | 1 | 3 => m.pstate == 2 || m.pstate == 5
  | 2 | 6 => m.quiet
  | 4 => m.pstate != 1 && !(m.lc == 2 && m.inRun && m.cmdArgs.getD 0 0 == 2)
  | 5 => m.pstate != 1
  | _ => m.pstate == 5

/-- RESULT of the checks of R381; 0 to carry the command out. -/
def Mod.cmdResult (m : Mod) (fu : Fuses) : Nat :=
  if m.is R.SEC_CMD_STAT_BUSY then 7
  else if m.cmdBad then 1
  else if slice m.sec.cmd 4 16 ≠ m.chal || !m.devOk then 2
  else if m.cmdCode = 2 && (m.sec.dik.isEmpty || Config.certKey (m.newCert 1) != Config.publicKey m.sec.dik) then 2
  else if m.cmdSigned && !sigGood m.cmdImg m.cmdBlk (ownerRootOf fu m) then 3
  else if !m.cmdLife then 4
  else if !m.cmdState then 5
  else if m.cmdCode = 3 && fu.ownerPart && fu.ownerRoot != m.ownerKey then 6
  else 0

/-- PROVISION (R376, R382): the device secret is drawn and burnt, then the PROVISIONED fuse. -/
def doProvision (fuseOk entropyOk : Bool) (x : Fuses × Mod) : Nat × Fuses × Mod :=
  let f := x.2.fresh
  if !entropyOk then (6, x.1, (f.2.raise 18 0 5 0 1).put R.SEC_EVT_ENTROPY 1)
  else if !fuseOk then (6, x.1, f.2.fuseErr)
  else
    let fu := { x.1 with secret := if x.1.secret = [] then Config.entropy f.1 else x.1.secret, provisioned := true }
    (0, fu, (f.2.showFuses fu).logTrust 9 0 1)

/-- CERT_STORE (R377): entries 1 to COUNT. -/
def doCertStore (x : Fuses × Mod) : Nat × Fuses × Mod :=
  let m := x.2
  let n := m.cmdArgs.getD 0 0
  let c := (List.range 4).map (fun i => if 1 ≤ i ∧ i ≤ n then Cert.mk (m.newCert i) else m.nv.certs.getD i {})
  let m := { m with nv.certs := c }
  (0, x.1, (m.put R.SEC_LIFE_ID_VALID (b2n m.idValid)).logTrust 0x0B n 0 (Config.sha384 ((c.getD 1 {}).bytes)))

/-- ENTER_FIELD (R382, R383): the owner root is burnt and read back, then the FIELD fuse. -/
def doEnterField (fuseOk : Bool) (x : Fuses × Mod) : Nat × Fuses × Mod :=
  let root := x.2.ownerKey
  if !fuseOk then (6, { x.1 with ownerRoot := root, ownerPart := true }, x.2.fuseErr)
  else
    let fu := { x.1 with ownerRoot := root, ownerPart := false, field := true }
    (0, fu, (x.2.showFuses fu).logTrust 9 1 2)

/-- DEBUG (R388). -/
def doDebug (x : Fuses × Mod) : Nat × Fuses × Mod :=
  (0, x.1, x.2.grantLevel (x.2.cmdArgs.getD 0 0) (le x.2.cmdArgs 2 2) x.2.cmdD)

/-- ERASE_GRANT (R391). -/
def doEraseGrant (x : Fuses × Mod) : Nat × Fuses × Mod := (0, x.1, (x.2.put R.SEC_ERASE_GRANT 1).logTrust 0x0C 0 0)

/-- SVN_ADVANCE (R387). -/
def doSvnAdvance (fuseOk : Bool) (x : Fuses × Mod) : Nat × Fuses × Mod :=
  let t := x.2.cmdArgs.getD 0 0
  let bad := !fuseOk && decide (x.2.get R.SEC_SVN_FUSE_CNT < t)
  (if bad then 6 else 0, burnSvn x t fuseOk)

/-- A slot without its boot set (R394). -/
def SlotImg.noBoot (x : SlotImg) : SlotImg := { x with bytes := Sparse.keep (fun a => decide (a < 0x400000)) x.bytes }

/-- RETURN (R394): the erasures in order, then the RETURNED fuse. -/
def doReturn (fuseOk : Bool) (x : Fuses × Mod) : Nat × Fuses × Mod :=
  let m := x.2
  let fl := m.cmdArgs.getD 0 0
  let old := m.lc
  let m := if bit fl 1 then m else { m with nv.slotA := m.nv.slotA.noBoot, nv.slotB := m.nv.slotB.noBoot }
  let m := if bit fl 0 then m else m.eraseLog.erased
  let m := (List.range 12).foldl (fun m i => m.put (R.SEC_OWNER_KEY_HASH i) 0) m
  if !fuseOk then (6, x.1, m.fuseErr)
  else
    let fu := { x.1 with returned := true, keepLog := x.1.keepLog || bit fl 0 }
    (0, fu, (m.showFuses fu).logTrust 9 old 3)

/-- The command ends: RESULT, DONE, a new challenge; a refusal is counted, reported and recorded (R381). -/
def Mod.cmdEnd (m : Mod) (cmd res : Nat) : Mod :=
  let m := if res = 0 then m
    else ((m.bump R.SEC_REF_CNT_COUNT).raise 18 0 2 0 0).put R.SEC_EVT_CMD 1 |>.logTrust 0x0A cmd res
  (m.puts [(R.SEC_CMD_STAT_RESULT, res), (R.SEC_CMD_STAT_DONE, 1), (R.SEC_CMD_STAT_LAST_CMD, cmd)]).newChal

/-- What a command does once its checks pass. -/
def doCommand (fuseOk entropyOk : Bool) (x : Fuses × Mod) : Nat × Fuses × Mod :=
  match x.2.cmdCode with
  | 1 => doProvision fuseOk entropyOk x
  | 2 => doCertStore x
  | 3 => doEnterField fuseOk x
  | 4 => doDebug x
  | 5 => doEraseGrant x
  | 6 => doSvnAdvance fuseOk x
  | _ => doReturn fuseOk x

/-- A command is submitted by SEC_CMD_GO and carried out or refused (R381). -/
def trustGo (fuseOk entropyOk : Bool) (x : Fuses × Mod) : Fuses × Mod :=
  let cmd := x.2.cmdCode
  let r := x.2.cmdResult x.1
  if r ≠ 0 then (x.1, x.2.cmdEnd cmd r)
  else
    let y := doCommand fuseOk entropyOk x
    (y.2.1, y.2.2.cmdEnd cmd y.1)

/-- A submission that is the command `k`: nothing when the window spells another one. -/
def submitCmd (k : Nat) (fuseOk entropyOk : Bool) (s : State) : Out :=
  onBoth (fun x => if x.2.cmdCode = k then guardedF 0x120A8 1 (trustGo fuseOk entropyOk) x else x) s

/-- PROVISION is submitted (R376). `fuseOk`: the fuses read back as burnt; `entropyOk`: the entropy source passes its health test. -/
def execProvision (fuseOk entropyOk : Bool) (s : State) : Out := submitCmd 1 fuseOk entropyOk s

/-- CERT_STORE is submitted (R377). -/
def execCertStore (s : State) : Out := submitCmd 2 true true s

/-- ENTER_FIELD is submitted (R382). -/
def execEnterField (fuseOk : Bool) (s : State) : Out := submitCmd 3 fuseOk true s

/-- DEBUG is submitted (R388). -/
def execDebug (s : State) : Out := submitCmd 4 true true s

/-- ERASE_GRANT is submitted (R391). -/
def execEraseGrant (s : State) : Out := submitCmd 5 true true s

/-- SVN_ADVANCE is submitted (R387). -/
def execSvnAdvance (fuseOk : Bool) (s : State) : Out := submitCmd 6 fuseOk true s

/-- RETURN is submitted (R394). -/
def execReturnCmd (fuseOk : Bool) (s : State) : Out := submitCmd 7 fuseOk true s

/-! ## Attestation (R379) -/

/-- Bytes 0 to 479 of the report (Table 12-7). -/
def Mod.reportHead (m : Mod) (nonce : List Nat) : List Nat :=
  leBytes 4 0x464D4101 ++ leBytes 2 1 ++ leBytes 2 (b2n m.timeValid + 2 * b2n (m.get R.MGT_BOOT_STAGE == 7)) ++ pad 48 nonce ++
    m.sec.meas.flatMap (pad 48) ++ [m.lc, m.dbgLevel, m.pstate, m.get R.MGT_BOOT_SLOT + 128 * m.get R.MGT_BOOT_TRIAL,
      m.get R.SEC_SVN_FUSE_CNT, m.get R.SEC_SVN_FW_SVN, 0, 0] ++
    leBytes 4 (m.slotOf (m.is R.MGT_BOOT_SLOT)).build ++ leBytes 4 (m.get R.CEN_IMG_ACT_BUILD) ++ leBytes 4 (m.get R.LOG_PCYC_COUNT) ++
    leBytes 4 (m.get R.LOG_HOURS_HOURS) ++ leBytes 8 (if m.timeValid then m.fleetNs else 0) ++ leBytes 2 m.addr ++ [m.pos, m.role] ++ zeros 4

/-- A write of SEC_NONCE11 (R379): refused while a report is made, below stage 2 and in HOLD-UP (Table 12-12). -/
def Mod.nonceGo (m : Mod) (v : Nat) : Mod :=
  let m := { m with sec.nonce := (bank 12 m.sec.nonce 0).set 11 v }
  if m.is R.SEC_ATT_STAT_BUSY || decide (m.get R.MGT_BOOT_STAGE < 2) || m.pstate == 1 then (m.put R.SEC_ATT_STAT_REFUSED 1).refuse
  else
    let f := m.fresh
    let h := m.reportHead (m.sec.nonce.flatMap (leBytes 4))
    ({ f.2 with sec.reportNext := h ++ pad 96 (Config.ecdsaSign m.sec.bak (Config.sha384 h) f.1) }).puts
      [(R.SEC_ATT_STAT_BUSY, 1), (R.SEC_ATT_STAT_READY, 0)]

/-- ATTESTATION_REQUEST: a write of SEC_NONCE11. -/
def execAttestationRequest (v : Word) (s : State) : Out := onMod (fun m => m.guardedR 0x121AC v.toNat (fun m => m.nonceGo v.toNat)) s

/-- ATTESTATION_READY (R379). -/
def execAttestationReady (s : State) : Out := onMod (fun m =>
  if m.is R.SEC_ATT_STAT_BUSY then
    ({ m with sec.report := m.sec.reportNext }).puts [(R.SEC_ATT_STAT_BUSY, 0), (R.SEC_ATT_STAT_READY, 1)]
  else m) s

/-- A write of SEC_MR_EXT11 (R375): M7 is extended by the 48 bytes; not in HOLD-UP (Table 12-12). -/
def Mod.mrExtend (m : Mod) (v : Nat) : Mod :=
  if m.pstate = 1 then m.refuse
  else
    let m := { m with sec.ext := (bank 12 m.sec.ext 0).set 11 v }
    m.extendM 7 (m.sec.ext.flatMap (leBytes 4))

/-- SEC_MR_EXTEND: a write of SEC_MR_EXT11. -/
def execSecMrExtend (v : Word) (s : State) : Out := onMod (fun m => m.guardedR 0x1216C v.toNat (fun m => m.mrExtend v.toNat)) s

/-- A write of SEC_MR_SEL (R375): a snapshot of the register. -/
def Mod.mrSel (m : Mod) (v : Nat) : Mod :=
  let b := m.sec.meas.getD (v % 8) []
  (List.range 12).foldl (fun m i => m.put (R.SEC_MR_DATA_DATA i) (le b (4 * i) 4)) (m.put R.SEC_MR_SEL_SEL v)

/-- SEC_MR_SEL_WRITE (R375). -/
def execSecMrSelWrite (v : Word) (s : State) : Out := onMod (fun m => m.guarded 0x12100 v.toNat (fun m => m.mrSel v.toNat)) s

/-- The report word at SEC_ATT_ADDR; the address advances by 4. -/
def Mod.attWord (m : Mod) : Nat × Mod :=
  let a := m.get R.SEC_ATT_ADDR_ADDR
  (le m.sec.report a 4, m.put R.SEC_ATT_ADDR_ADDR ((a + 4) % 1024))

/-- SEC_ATT_DATA_READ (R379). -/
def execSecAttDataRead (s : State) : Out := onMod (fun m => m.guardedRd 0x121B8 Mod.attWord) s

/-! ## Certificates (R377) -/

/-- The certificate address advances by 4. -/
def Mod.certStep (m : Mod) : Mod := m.put R.SEC_CERT_ADDR_ADDR ((m.get R.SEC_CERT_ADDR_ADDR + 4) % 4096)

/-- The stored certificate word at SEC_CERT_ADDR. -/
def Mod.certWord (m : Mod) : Nat × Mod :=
  (le (m.nv.certs.getD (m.get R.SEC_CERT_SEL_ENTRY) {}).bytes (m.get R.SEC_CERT_ADDR_ADDR) 4, m.certStep)

/-- A certificate word is written: entries 1 to 3, to take effect at CERT_STORE; not in HOLD-UP. -/
def Mod.certWrite (m : Mod) (v : Nat) : Mod :=
  let e := m.get R.SEC_CERT_SEL_ENTRY
  if m.pstate = 1 then m.refuse
  else if e = 0 then m.certStep
  else
    let b := pad 4096 (m.sec.certBuf.getD e [])
    ({ m with sec.certBuf := (bank 4 m.sec.certBuf []).set e (pad 4096 (setBytes b (m.get R.SEC_CERT_ADDR_ADDR) (leBytes 4 v))) }).certStep

/-- SEC_CERT_DATA_ACCESS (R377): a read, or a write of a word. -/
def execSecCertDataAccess (wr : Bool) (v : Word) (s : State) : Out := onMod (fun m =>
  if wr then m.guardedR 0x121CC v.toNat (fun m => m.certWrite v.toNat) else m.guardedRd 0x121CC Mod.certWord) s

/-- A write of SEC_CERT_SEL: SEC_CERT_LEN shows the length of the entry. -/
def Mod.certSel (m : Mod) (v : Nat) : Mod :=
  m.puts [(R.SEC_CERT_SEL_ENTRY, v % 4), (R.SEC_CERT_LEN_LEN, m.sec.certLen.getD (v % 4) 0)]

/-- A write of SEC_CERT_LEN: entries 1 to 3. -/
def Mod.certLenWrite (m : Mod) (v : Nat) : Mod :=
  let e := m.get R.SEC_CERT_SEL_ENTRY
  if e = 0 then m else ({ m with sec.certLen := (bank 4 m.sec.certLen 0).set e (v % 8192) }).put R.SEC_CERT_LEN_LEN v

end Sys2Proof.Machine
end

