-- ==== Sys2Proof/Machine/Manage.lean ====
section
/-!
DEFINITION. The management pair, its watchdog, the sensors and the debug registers (R364 to R366, R389, R390).
-/
namespace Sys2Proof.Machine

/-! ## The pair -/

/-- LOCKSTEP (R364): a mismatch at an address halts both cores; fatal. -/
def execLockstep (addr : Word) (s : State) : Out := onMod (fun m =>
  if m.mgt.lockstep || !m.domainOn 1 then m
  else (({ m with mgt.lockstep := true }).raise 17 0 1 addr.toNat 2).put R.MGT_EVT_LOCKSTEP 1) s

/-- PERIOD_MS in ticks (R365). -/
def Mod.wdogPeriod (m : Mod) : Nat := clampN 10 10000 (m.get R.MGT_WDOG_PERIOD_MS) * tickMs

/-- WDOG_EXPIRY (R365): no KICK within PERIOD_MS, which ends in the running frame; not in HOLD-UP nor while debug halts the pair. -/
def execWdogExpiry (s : State) : Out := onMod (fun m =>
  if m.mgt.wdogOn && m.pstate != 1 && !m.is R.MGT_DBG_CTL_HALTED && decide (m.mgt.wdogKick + m.wdogPeriod < m.time.ticks + 64000) then
    (({ m with mgt.wdogKick := m.time.ticks }).raise 17 0 2 0 2).put R.MGT_EVT_WDOG 1
  else m) s

/-- The watchdog starts again. -/
def Mod.kick (m : Mod) : Mod := { m with mgt.wdogKick := m.time.ticks }

/-- MGT_WDOG_KICK (R365): the firmware's own write of KICK. -/
def execMgtWdogKick (s : State) : Out := onMod (fun m => if m.domainOn 1 then m.kick else m) s

/-! ## Sensors (R366, Table 12-1) -/

/-- One temperature condition of sensor n: at its threshold on, 5 °C below it off; tenths of a degree. -/
def Mod.tempCond (m : Mod) (n kind cls : Nat) (limit v : Int) (ev : Fld) : Mod :=
  if 10 * limit ≤ v then
    if m.condOn 17 0 kind n then m
    else ((if kind = 3 then m.pmbSet R.PMB_STATUS_X_TEMP 64 else m).condStart 17 0 kind n cls).put ev 1
  else if v ≤ 10 * (limit - 5) then m.condEnd 17 0 kind n cls
  else m

/-- The temperature conditions of sensors 0 to 9. -/
def Mod.tempConds (m : Mod) (n : Nat) (v : Int) : Mod :=
  let m := m.tempCond n 3 0 (m.get R.MGT_TLIM_WARN) v R.MGT_EVT_TEMP_WARN
  let m := m.tempCond n 4 1 (m.get R.MGT_TLIM_HIGH) v R.MGT_EVT_TEMP_HIGH
  m.tempCond n 5 2 (m.get R.MGT_TLIM_CRIT) v R.MGT_EVT_TEMP_CRIT

/-- RAIL of sensor 14 or 15: outside ±5 % of nominal. -/
def Mod.railCond (m : Mod) (n : Nat) (v : Int) : Mod :=
  let nom : Int := Config.railNominal n
  if nom < 20 * ((v - nom).natAbs : Int) then
    if m.condOn 17 0 6 n then m else (m.condStart 17 0 6 n 1).put R.MGT_EVT_RAIL 1
  else m.condEnd 17 0 6 n 1

/-- VALUE and MAX of a sensor. -/
def Mod.sensor (m : Mod) (n : Nat) (v : Int) : Mod :=
  let m := m.putI (R.MGT_SENS_VALUE n) v
  if m.getI (R.MGT_SENS_MAX n) < m.getI (R.MGT_SENS_VALUE n) then m.put (R.MGT_SENS_MAX n) (m.get (R.MGT_SENS_VALUE n)) else m

/-- The auxiliary supply's check 0x0104 (R417): outside 10.8 V to 13.2 V for 10 samples; ends inside by 2 % of the limit. -/
def Mod.auxCheck (m : Mod) (v : Int) : Mod :=
  let out := decide (v < 1080 ∨ 1320 < v)
  let m := { m with pwr.auxCnt := if out then m.pwr.auxCnt + 1 else 0 }
  if m.pstate = 0 || m.pstate = 1 then m.checkOff 0x0104
  else
    let m := if 10 ≤ m.pwr.auxCnt then m.checkOn 0x0104 11 v (if v < 1080 then 1080 else 1320) else m
    match m.pwr.checks.find? (fun c => c.code == 0x0104) with
    | none => m
    | some c =>
      if (c.limit = 1080 ∧ 10800 + 216 ≤ 10 * v ∧ v ≤ 1320) ∨ (c.limit = 1320 ∧ 10 * v ≤ 13200 - 264 ∧ 1080 ≤ v) then m.checkOff 0x0104 else m

/-- The hold-up store (R439, R417): STORE_V, CHARGED at 45.0 V, CHARGING up to 48.0 V and again below 47.0 V; check 0x0305; HU_CHARGE
clears at 45.0 V. -/
def Mod.storeVolts (m : Mod) (v : Int) : Mod :=
  let m := (m.putI R.PWR_HU_STORE_V v).flag R.PWR_STAT_CHARGED (decide (4500 ≤ v))
  let m : Mod := if v < 4700 ∧ !m.is R.PWR_STAT_CHARGING then { m.put R.PWR_STAT_CHARGING 1 with pwr.chgTick := m.time.ticks }
    else if 4800 ≤ v then m.put R.PWR_STAT_CHARGING 0 else m
  let m := if 4500 ≤ v then m.condEnd 2 0 5 0 1 else m
  let m := { m with pwr.huCnt := if v < 4500 then m.pwr.huCnt + 1 else 0 }
  if m.pstate = 0 || m.pstate = 1 then m.checkOff 0x0305
  else
    let m := if 10 ≤ m.pwr.huCnt then m.checkOn 0x0305 13 v 4500 else m
    if 4590 ≤ v then m.checkOff 0x0305 else m

/-- SENSOR_SAMPLE (R366): the values of the 16 sensors. -/
def execSensorSample (v : List Int) (s : State) : Out := onMod (fun m =>
  if !m.domainOn 1 then m
  else
    let val := fun n => v.getD n 0
    let m := (List.range 16).foldl (fun m n => m.sensor n (val n)) m
    let m := (List.range 10).foldl (fun m n => m.tempConds n (val n)) m
    let m := m.puts [(R.PWR_AUX_AUX_V, enc 16 (val 11)), (R.PWR_AUX_AUX_I, enc 16 (val 12))]
    (((m.auxCheck (val 11)).storeVolts (val 13)).railCond 14 (val 14)).railCond 15 (val 15)) s

/-- MAX := VALUE of every sensor. -/
def Mod.sensClr (m : Mod) : Mod := (List.range 16).foldl (fun m n => m.put (R.MGT_SENS_MAX n) (m.get (R.MGT_SENS_VALUE n))) m

/-- MGT_CMD.SENS_CLR. -/
def execMgtCmdSensClr (s : State) : Out := onMod (fun m => m.guarded 0x110F4 1 Mod.sensClr) s

/-! ## Debug (R389, R390) -/

/-- A refused debug access shows in REFUSED. -/
def Mod.dbgRefuse (m : Mod) : Mod := (m.put R.MGT_DBG_CTL_REFUSED 1).refuse

/-- REFUSED follows an access that the access rules turned away. -/
def Mod.dbgAfter (m : Mod) : Mod := if m.resp = 3 then m.put R.MGT_DBG_CTL_REFUSED 1 else m

/-- What the pair wrote while it ran is not known any more. -/
def Mod.pairRan (m : Mod) : Mod := { m with mgt.dram := [], mgt.cregs := [] }

/-- HALT of a target: the pair, or an engine core that runs. -/
def Mod.dbgHalt (m : Mod) (t : Nat) : Mod :=
  if t = 0 then m.put R.MGT_DBG_CTL_HALTED 1
  else if 4 < t then m.dbgRefuse
  else if m.get (coreSt (t - 1)) = 2 then
    { (m.put (coreSt (t - 1)) 1) with mgt.coresHalted := m.mgt.coresHalted ++ [t - 1], mgt.stepPos := (bank 4 m.mgt.stepPos 0).set (t - 1) 0 }
  else m

/-- STEP of a halted target: one instruction of the pair, one bundle of an engine core. -/
def Mod.dbgStep (m : Mod) (t : Nat) : Mod :=
  if t = 0 then (if m.is R.MGT_DBG_CTL_HALTED then m.pairRan else m.dbgRefuse)
  else if m.mgt.coresHalted.contains (t - 1) then
    let n := m.mgt.stepPos.getD (t - 1) 0
    { (m.weaveStep (t - 1) n) with mgt.stepPos := (bank 4 m.mgt.stepPos 0).set (t - 1) (n + 1) }
  else m.dbgRefuse

/-- RESUME of a halted target; the pair's watchdog starts again. -/
def Mod.dbgResume (m : Mod) (t : Nat) : Mod :=
  if t = 0 then (if m.is R.MGT_DBG_CTL_HALTED then m.pairGo.pairRan.kick else m)
  else if 4 < t then m.dbgRefuse
  else if m.mgt.coresHalted.contains (t - 1) then
    { (m.put (coreSt (t - 1)) 2) with mgt.coresHalted := m.mgt.coresHalted.filter (· != t - 1) }
  else m

/-- A write of MGT_DBG_CTL: REFUSED clears by 1; HALT, STEP and RESUME in that order. -/
def Mod.dbgCtl (m : Mod) (v : Nat) : Mod :=
  let t := bits v 5 3
  let m := if bit v 9 then m.put R.MGT_DBG_CTL_REFUSED 0 else m
  let m := if bit v 0 then m.dbgHalt t else m
  let m := if bit v 1 then m.dbgStep t else m
  if bit v 2 then m.dbgResume t else m

/-- MGT_DBG_HALT: HALT of TARGET 0 to 7. -/
def execMgtDbgHalt (target : Fin 8) (s : State) : Out := onMod (fun m =>
  (m.guardedR 0x11180 (1 + 32 * target.val) (fun m => m.dbgCtl (1 + 32 * target.val))).dbgAfter) s

/-- MGT_DBG_STEP: STEP of a target. -/
def execMgtDbgStep (target : Fin 8) (s : State) : Out := onMod (fun m =>
  (m.guardedR 0x11180 (2 + 32 * target.val) (fun m => m.dbgCtl (2 + 32 * target.val))).dbgAfter) s

/-- MGT_DBG_RESUME: RESUME of a target. -/
def execMgtDbgResume (target : Fin 8) (s : State) : Out := onMod (fun m =>
  (m.guardedR 0x11180 (4 + 32 * target.val) (fun m => m.dbgCtl (4 + 32 * target.val))).dbgAfter) s

/-- Size in bytes of a debug space (Tables 12-17 and 11-1); 0 where accesses are refused. The core registers have no size in the spec. -/
def dbgSize (sp : Nat) : Nat :=
  if sp = 0 then 0x200000 else if sp = 1 then 0x100000 else if 3 ≤ sp ∧ sp ≤ 6 then sramSize else if sp = 7 then 262144 else if sp = 2 then 2 ^ 28 else 0

/-- The debug address advances by 4. -/
def Mod.dbgNext (m : Mod) : Mod := m.put R.MGT_DBG_ADDR_OFFSET (m.get R.MGT_DBG_ADDR_OFFSET + 4)

/-- A word a running owner may have left there: what debug wrote since, else a free value. -/
def Mod.dbgCell (m : Mod) (c : Sparse Nat) (a : Nat) : Nat × Mod :=
  match Sparse.get (fun _ => 0) c a with
  | 0 =>
    let f := m.fresh
    (Config.freeNat f.1 % 2 ^ 32, f.2)
  | n + 1 => (n, m)

/-- The twin store of a debug space (Table 11-1); 99 for the register and lane files. -/
def dbgStore (sp : Nat) : Nat := if sp = 0 then 12 else if sp = 1 then 13 else if 3 ≤ sp ∧ sp ≤ 6 then sp - 3 else 99

/-- A read of the debug window; a byte that fails in both copies is an uncorrectable read (R345). -/
def Mod.dbgRead (m : Mod) : Nat × Mod :=
  let a := m.get R.MGT_DBG_ADDR_OFFSET / 4 * 4
  let sp := m.get R.MGT_DBG_ADDR_SPACE
  let x :=
    if sp = 0 then (rdAt (fun o => Sparse.get (fun _ => 0) m.mgt.iram o) a 4, m)
    else if sp = 1 then m.dbgCell m.mgt.dram a
    else if sp = 2 then m.dbgCell m.mgt.cregs a
    else if sp = 7 then (rdAt (fun o => Sparse.get (fun _ => 0) m.cen.lanes o) a 4, m)
    else (m.sramWord (sp - 3) a, m)
  let m := x.2.dbgNext
  match m.deadAt (dbgStore sp) a 4 with
  | [] => (x.1, m)
  | o :: _ => (x.1, m.storeUe (dbgStore sp) o)

/-- A debug access finds its space: one of Table 12-17, inside it, in a domain that is on. -/
def Mod.dbgThere (m : Mod) : Bool :=
  let sp := m.get R.MGT_DBG_ADDR_SPACE
  decide (m.get R.MGT_DBG_ADDR_OFFSET < dbgSize sp) && (!(decide (3 ≤ sp) && decide (sp ≤ 6)) || m.storeOn (sp - 3)) &&
    (sp != 7 || m.storeOn (8 + m.get R.MGT_DBG_ADDR_OFFSET / 65536))

/-- A write of the debug window: a narrow write of four bytes (R341). What a running pair may change at once is not kept. -/
def Mod.dbgWrite (m : Mod) (v : Nat) : Mod :=
  let a := m.get R.MGT_DBG_ADDR_OFFSET / 4 * 4
  let sp := m.get R.MGT_DBG_ADDR_SPACE
  if !m.dbgThere then m.dbgRefuse
  else
    let m :=
      if sp = 0 then { m with mgt.iram := Sparse.setMany (fun _ => 0) m.mgt.iram a (leBytes 4 v) }
      else if sp ≤ 2 && !m.is R.MGT_DBG_CTL_HALTED then m
      else if sp = 1 then { m with mgt.dram := Sparse.set (fun _ => 0) m.mgt.dram a (v + 1) }
      else if sp = 2 then { m with mgt.cregs := Sparse.set (fun _ => 0) m.mgt.cregs a (v + 1) }
      else if sp = 7 then { m with cen.lanes := Sparse.setMany (fun _ => 0) m.cen.lanes a (leBytes 4 v) }
      else { m with cen.sram := Sparse.setMany (fun _ => 0) m.cen.sram ((sp - 3) * sramSize + a) (leBytes 4 v) }
    (m.twinWrite (dbgStore sp) a 4).dbgNext

/-- MGT_DBG_DATA_ACCESS (R389): a read, or a write of a word. -/
def execMgtDbgDataAccess (wr : Bool) (v : Word) (s : State) : Out := onMod (fun m =>
  if wr then (m.guardedR 0x11188 v.toNat (fun m => m.dbgWrite v.toNat)).dbgAfter
  else if m.rdStatus 0x11188 = 0 && !m.dbgThere then m.dbgRefuse
  else (m.guardedRd 0x11188 Mod.dbgRead).dbgAfter) s

end Sys2Proof.Machine
end

