-- ==== Sys2Proof/Machine/Power.lean ====
section
/-!
DEFINITION. Power states and their requests (R399 to R404), hold-up (R411, R412, R438 to R440), domain switching (R433 to R437) and the
auxiliary supply (R442).
-/
namespace Sys2Proof.Machine

/-! ## Requests (R400, R401) -/

/-- A fatal bit, a trip latch or an active fatal condition (R319). -/
def Mod.fatalHeld (m : Mod) : Bool :=
  m.get R.FLT_FATAL_BLK != 0 || m.get R.TRP_LATCH_LATCH != 0 || m.flt.conds.any (fun c => c.cls == 2)

/-- SRC fits the locked mode (R54): LOCAL either, DIRECT component, RACK service. -/
def Mod.srcFits (m : Mod) : Bool :=
  m.planSrc == 0 || (m.planSrc == 1 && m.get R.MOD_ROLE_CFG_MODE == 1) || (m.planSrc == 2 && m.get R.MOD_ROLE_CFG_MODE == 2)

/-- A fitted ring (R211). -/
def Mod.ringFitted (m : Mod) (r : Nat) : Bool := m.nMon r != 0

/-- Why RUN is refused (R392, Table 13-2), codes 1 to 14 in order; 0 it is not. -/
def Mod.runWhy (m : Mod) : Nat :=
  let mode := m.get R.MOD_ROLE_CFG_MODE
  if m.lc = 3 then 1
  else if m.lc = 2 ∧ m.dbgLevel = 2 then 2
  else if m.is R.MGT_DBG_CTL_HALTED then 3
  else if m.get R.MGT_BOOT_STAGE ≠ 4 then 4
  else if !m.locked 19 then 5
  else if mode = 0 || mode = 3 || m.is R.MOD_STRAP_STRAP_ERR || m.is R.MOD_ROLE_STAT_POS_CONFLICT ||
      m.is R.MOD_ROLE_STAT_MODE_MISMATCH || (m.lc == 2 && !m.locked 1) then 6
  else if !m.locked 6 || m.is (R.BLK_LOCK_REFUSED 6) || (m.locked 1 && !m.srcFits) then 7
  else if !m.bankOk m.actBank || (List.range 4).any (fun c => bit (m.get R.CEN_CFG_CORE_EN) c && m.get (coreSt c) != 2) then 8
  else if m.fatalHeld then 9
  else if 1 < m.get R.MOD_ROLE_CFG_RACK_SIZE ∧ !m.timeValid then 10
  else if [0, 1].any (fun r => m.ringFitted r && (!m.ringReady r || m.bwk.stale.getD r false || m.bwk.off.getD r false)) then 11
  else if [0, 1].any (fun p => decide (m.nAct p < m.get R.PHS_CFG_N_MIN) || decide (m.nAct (p + 2) < m.get R.PHS_CFG_N_MIN_F)) then 12
  else if [0x0101, 0x0102, 0x0103].any m.checkActive then 13
  else if [0x0104, 0x0301, 0x0303, 0x0305].any m.checkActive then 14
  else 0

/-- A change of Table 13-1 is in progress. -/
def Mod.changing (m : Mod) : Bool := m.pwr.change != .none

/-- RUN has been accepted and not entered. -/
def Mod.entering (m : Mod) : Bool :=
  match m.pwr.change with
  | .entry _ _ => true
  | _ => false

/-- The target can be reached from the present state by Table 13-1 and no change forbids it (R400, Table 13-8). -/
def Mod.reachable (m : Mod) (t : Nat) : Bool :=
  let st := m.pstate
  if m.changing then m.entering && t != 3
  else t == st || (st == 2 && t != 2) || (st == 3 && t != 3) || (st == 4 && t != 3) || (st == 5 && t == 2)

/-- WHY of a request (R400); 0 it is accepted. A request for the present state meets no other condition. -/
def Mod.preqWhy (m : Mod) (t : Nat) : Nat :=
  if !m.reachable t then 15
  else if t = m.pstate then 0
  else if t = 3 then m.runWhy
  else if m.pstate = 4 && m.fatalHeld then 9
  else 0

/-- OVERFLOW ends at once, without the clearing of Table 02-4 (R403). -/
def Mod.dropOverflow (m : Mod) : Mod :=
  if m.bwk.ovf then
    ({ m with bwk.ovf := false }).puts [(R.BWK_DP_STAT_OVF_EBB, 0), (R.BWK_DP_STAT_OVF_FLOOD, 0)] |>.condEnd 6 2 4 0 0
  else m

/-- The first step of an exit from RUN (R403): P_DP goes to zero at S_CAP, and so DP_STATE reads EXIT. -/
def Mod.startExit (m : Mod) (t : Nat) : Mod :=
  let m := m.dropOverflow
  ({ m with pwr.change := .exit t 0, bwk.pdp := 0, bwk.starFrom := m.bwk.star, bwk.capDown := true }).syncDp

/-- An accepted request for SERVICE from STANDBY or RUN is announced in the heartbeats (R403); a lead's announcement starts an election
(R25). -/
def Mod.announce (m : Mod) (t : Nat) : Mod :=
  if t = 5 && (m.pstate == 2 || m.pstate == 3) then
    let m := { m with roles.leaving := true }
    if m.isLead then m.startElection else m
  else m

/-- An accepted request. -/
def Mod.preqGo (m : Mod) (t : Nat) : Mod :=
  let m := m.announce t
  if m.entering then { m with pwr.change := if t = m.pstate then .none else .toState t }
  else if t = m.pstate then m
  else if t = 3 then { m with pwr.change := .entry false m.time.ticks }
  else if m.inRun then m.startExit t
  else { m with pwr.change := .toState t }

/-- A request of MGT_PREQ with GO = 1 (R400): TARGET 2, 3 or 5, others ignored. -/
def Mod.preq (m : Mod) (t : Nat) : Mod :=
  if t = 2 ∨ t = 3 ∨ t = 5 then
    match m.preqWhy t with
    | 0 => (m.preqGo t).put R.MGT_PREQ_WHY 0
    | w => m.puts [(R.MGT_PREQ_REFUSED, 1), (R.MGT_PREQ_WHY, w)]
  else m

/-- REQUEST_RUN (R401). -/
def execRequestRun (s : State) : Out := onMod (fun m => m.guarded 0x11044 11 (fun m => m.preq 3)) s

/-- REQUEST_STANDBY (R400). -/
def execRequestStandby (s : State) : Out := onMod (fun m => m.guarded 0x11044 10 (fun m => m.preq 2)) s

/-- REQUEST_SERVICE (R400). -/
def execRequestService (s : State) : Out := onMod (fun m => m.guarded 0x11044 13 (fun m => m.preq 5)) s

/-- RUN is entered (R402): what the breakwater, the programs and the phases set, and the checks that stop applying. -/
def Mod.enterRun (m : Mod) : Mod :=
  let m := ({ m with pwr.change := .none }).setPState 3 0
  (m.breakwaterEntry.programsEntry.phasesEntry).checkOff 0x0103

/-- RUN_ENTRY (R401, R402): at a plan boundary at least 500 µs after acceptance, with the self-test passed, the conditions are checked
again. -/
def execRunEntry (s : State) : Out := onMod (fun m =>
  match m.pwr.change with
  | .entry true t =>
    if m.frame % 200 ≠ 0 ∨ m.time.ticks < t + 500 * tickUs then m
    else
      match m.runWhy with
      | 0 => m.enterRun
      | w => ({ m with pwr.change := .none }).puts [(R.MGT_PREQ_REFUSED, 1), (R.MGT_PREQ_WHY, w)]
  | _ => m) s

/-- Both commands of both poles are zero. -/
def Mod.atRest (m : Mod) : Bool := m.bwk.pole.all (fun x => x.iCmd == 0 && x.pF == 0)

/-- RUN_EXIT_DONE (R403): every command zero, or 8 ms since acceptance; every phase OFF, the new state takes effect. -/
def execRunExitDone (s : State) : Out := onMod (fun m =>
  match m.pwr.change with
  | .exit t j =>
    if m.inRun && decide (0 < j) && (m.atRest || decide (1600 ≤ j)) then
      ({ m.leaveRun with pwr.change := .none }).setPState t 0
    else m
  | _ => m) s

/-- A one-frame change falls due (Table 13-1). -/
def Mod.stateDue (m : Mod) : Mod :=
  match m.pwr.change with
  | .toState t => { (m.setPState t 0) with pwr.change := .none }
  | _ => m

/-! ## Hold-up (R411, R412, R358) -/

/-- The slot not in use becomes invalid when a slot operation runs (R384). -/
def Mod.breakSlot (m : Mod) : Mod :=
  if m.mgt.fwOp = 0 && m.mgt.staging.isEmpty then m
  else
    let m := m.setFwSlot m.idleSlot (fun x => { x with broken := true, valid := false })
    (({ m with mgt.fwOp := 0, mgt.staging := [] }).put R.MGT_FW_STAT_VERIFIED 0).showSlots.showFw

/-- HOLDUP_ENTRY (R411, Table 13-4): the auxiliary input below 10.0 V for 20 µs. -/
def execHoldupEntry (s : State) : Out := onMod (fun m =>
  if m.pstate = 1 then m
  else
    let m := m.stoStop.leaveRun
    let m := m.setPState 1 3 false
    let m := { m with pwr.change := .none, pwr.flushed := false, pwr.auxBack := false, pwr.switches := m.pwr.switches.take 1,
                      pwr.checks := [] }
    (m.puts [(R.PHS_LNK_STAT_ARMED, 0)]).breakSlot) s

/-- Write a queued record; `fails` attempts do not verify and retire their slots. -/
def Mod.flushOne (m : Mod) (fails : Nat) : Mod :=
  match m.log.queue with
  | [] => m
  | r :: rest =>
    let m := Nat.repeat (fun (m : Mod) => if m.is R.LOG_STAT_FULL then m else m.writeFront r rest false) fails m
    if m.is R.LOG_STAT_FULL then (({ m with log.queue := rest }).bump R.LOG_DROP_CNT_COUNT).syncNv.showQueue
    else m.writeFront r rest true

/-- Every queued record is written; `fails` gives the failed attempts of each in order. -/
def Mod.flushAll (m : Mod) : List Nat → Nat → Mod
  | _, 0 => m
  | [], n + 1 => (m.flushOne 0).flushAll [] n
  | f :: fs, n + 1 => (m.flushOne f).flushAll fs n

/-- HOLDUP_FLUSH_DONE (R358): the fold's values, the operating time, every record taken, then the POWER record with CAUSE 3; the
HOLD-UP count. -/
def execHoldupFlushDone (fails : List Nat) (s : State) : Out := onMod (fun m =>
  if m.pstate != 1 || m.pwr.flushed then m
  else
    let m := m.logPower 1 (m.get R.MGT_PSTATE_PREV) 3 0
    let m := Nat.repeat Mod.logEnqueue m.log.arr.length m
    let m := (m.flushAll fails m.log.queue.length).writeFold
    let m := m.bump R.PWR_HU_CNT_COUNT
    { m with pwr.flushed := true, nv.hours := m.get R.LOG_HOURS_HOURS, nv.usec := m.get R.LOG_USEC_USEC,
             nv.huCnt := m.get R.PWR_HU_CNT_COUNT }) s

/-- HOLDUP_DOMAINS_OFF (R411): at 1 ms the core, DRAM, AFE, PWM, WCH and CAP domains, at 12 ms the links. -/
def execHoldupDomainsOff (links : Bool) (s : State) : Out := onMod (fun m =>
  if m.pstate != 1 then m
  else if links then [16, 15, 14].foldl Mod.domainOff m
  else [18, 13, 12, 11, 10, 9, 8, 7, 6, 5, 4].foldl Mod.domainOff m) s

/-- AUX_RETURN (R412): the supply is back in range for 100 ms; the power-on reset follows the flush. -/
def execAuxReturn (s : State) : Out := onMod (fun m => if m.pstate = 1 then { m with pwr.auxBack := true } else m) s

/-- OFF: every domain off, only what is not volatile is left. -/
def Mod.powerOff (m : Mod) : Mod :=
  ({ freeCtr := m.freeCtr, nv := m.nv, mgt := {}, rdata := 0, resp := 0 : Mod }).puts
    [(R.PWR_ON_ON, 0), (R.PWR_STAT_PG, 0), (R.PWR_STAT_CHARGING, 0), (R.MGT_PSTATE_STATE, 0)]

/-- HOLDUP_EXHAUSTED (R399): the store is exhausted. -/
def execHoldupExhausted (s : State) : Out := onMod (fun m => if m.pstate = 1 then m.powerOff else m) s

/-! ## Domain switching (R433 to R435) -/

/-- A switch of a domain is refused (R433). -/
def Mod.switchRefused (m : Mod) (d : Nat) (b : Bool) : Bool :=
  !switchable d || (b && (domainParents d).any (fun p => !m.domainOn p)) ||
    (!b && (List.range 20).any (fun c => m.domainOn c && (domainParents c).contains d)) || (!b && m.inRun && d != 18) ||
    (!b && decide (4 ≤ d) && decide (d < 8) && m.get (coreSt (d - 4)) == 2) || m.pstate == 1 || m.flt.l3 || m.flt.l3Sys

/-- Switches-off whose turn has come are made at once; BUSY falls after the last switch. -/
def Mod.runOffs (m : Mod) : List (Nat × Bool) → Mod
  | [] => ({ m with pwr.switches := [] }).put R.PWR_STAT_BUSY 0
  | (d, true) :: l => ({ m with pwr.switches := (d, true) :: l }).put R.PWR_STAT_BUSY 1
  | (d, false) :: l => ((m.domainOff d).bump R.PWR_SW_CNT_COUNT).runOffs l

/-- SWITCH_REFUSED (R433), for a set of domains; ADDR is the lowest of them. -/
def Mod.refuseSwitches (m : Mod) (l : List Nat) : Mod :=
  match l with
  | [] => m
  | d :: _ =>
    let m := m.puts [(R.PWR_REFUSED_DOM, l.foldl (fun v i => setBit v i true) (m.get R.PWR_REFUSED_DOM)), (R.PWR_EVT_REFUSED, 1)]
    m.raise 2 0 3 d 0

/-- A write of PWR_ON (R433, R434). -/
def Mod.pwrOn (m : Mod) (v : Nat) : Mod :=
  let diff := (List.range 20).filter (fun d => bit v d != bit (m.get R.PWR_ON_ON) d)
  if m.is R.PWR_STAT_BUSY then (m.refuseSwitches (diff.take 1)).refuse
  else
    let bad := diff.filter (fun d => m.switchRefused d (bit v d))
    let ok := diff.filter (fun d => !m.switchRefused d (bit v d))
    let ups := ok.filter (bit v)
    let downs := (ok.filter (fun d => !bit v d)).reverse
    let m := m.refuseSwitches bad
    let m := m.put R.PWR_ON_ON (ups.foldl (fun w d => setBit w d true) (m.get R.PWR_ON_ON))
    m.runOffs (ups.map (fun d => (d, true)) ++ downs.map (fun d => (d, false)))

/-- PWR_ON_WRITE (R433). -/
def execPwrOnWrite (v : Word) (s : State) : Out := onMod (fun m => m.guardedR 0x2044 v.toNat (fun m => m.pwrOn v.toNat)) s

/-- DOMAIN_POWER_GOOD (R434): the domain whose turn it is comes on. -/
def execDomainPowerGood (d : Fin 20) (s : State) : Out := onMod (fun m =>
  match m.pwr.switches with
  | (e, true) :: l => if e = d.val then ((m.domainUp e).bump R.PWR_SW_CNT_COUNT).runOffs l else m
  | _ => m) s

/-- ON_FAIL (R434): no power-good within 100 µs; the domain is switched off again. -/
def execOnFail (d : Fin 20) (s : State) : Out := onMod (fun m =>
  match m.pwr.switches with
  | (e, true) :: l =>
    if e = d.val then
      let m := m.put R.PWR_ON_ON (setBit (m.get R.PWR_ON_ON) e false)
      ((m.raise 2 0 2 e 1).put R.PWR_EVT_ON_FAIL 1).runOffs l
    else m
  | _ => m) s

/-- PG_LOST (R435): power-good of a domain that is on falls; what it held is lost. PWM and TRP leave every phase off (R202). -/
def execPgLost (d : Fin 20) (s : State) : Out := onMod (fun m =>
  if !m.domainOn d then m
  else
    let m := ((m.bump R.PWR_PG_CNT_COUNT).raise 2 0 1 d 2).put R.PWR_EVT_PG_LOST 1
    let m := if d.val = 10 ∨ d.val = 19 then m.allOff else m
    let on := m.get R.PWR_ON_ON
    (m.domainOff d).put R.PWR_ON_ON on) s

/-! ## The auxiliary input and the store (R439, R442) -/

/-- AUX_OV (R442): above 14.0 V for 100 µs. -/
def execAuxOv (s : State) : Out := onMod (fun m => if m.condOn 2 0 4 0 then m else (m.put R.PWR_EVT_AUX_OV 1).condStart 2 0 4 0 1) s

/-- AUX_OV_CLEAR (R442): below 13.7 V. -/
def execAuxOvClear (s : State) : Out := onMod (fun m => m.condEnd 2 0 4 0 1) s

/-- HU_CHARGE (R439): the store has been charging for 1 s and is below 45.0 V. -/
def execHuCharge (s : State) : Out := onMod (fun m =>
  if m.is R.PWR_STAT_CHARGING && decide (m.get R.PWR_HU_STORE_V < 4500) && decide (m.pwr.chgTick + tickS ≤ m.time.ticks + 64000) &&
      !m.condOn 2 0 5 0 then
    (m.put R.PWR_EVT_HU_CHARGE 1).condStart 2 0 5 0 1
  else m) s

/-- HU_CAP_MEASURE (R439): the capacitance in µF that the charge delivered from 40 V to 45 V shows. -/
def execHuCapMeasure (cap : Fin 4096) (s : State) : Out := onMod (fun m =>
  let m := m.put R.PWR_HU_CAP_EST cap
  if cap.val < 800 then (m.put R.PWR_EVT_HU_CAP 1).raise 2 0 6 0 1 else m) s

end Sys2Proof.Machine
end

