-- ==== Sys2Proof/Machine/Pmbus.lean ====
section
/-!
DEFINITION. The PMBus compatibility port (R466 to R471): its status bits and alert, the mirror of published values, transfers, the
commands of Table 15-8 and the time-outs of the bus.
-/
namespace Sys2Proof.Machine

/-! ## Status and alert (R469, R470) -/

/-- A value read from a pole's register fields. -/
def Mod.pmbV (m : Mod) (p : Nat) : Nat := m.get (pmbVout p)
def Mod.pmbI (m : Mod) (p : Nat) : Nat := m.get (pmbIout p)
def Mod.pmbIn (m : Mod) (p : Nat) : Nat := m.get (pmbInput p)

/-- STATUS_BYTE of a pole (Table 15-9). Bit 0 counts the latched high-byte bits only; bit 11 is live and enters no alert (R470). -/
def Mod.pmbByte (m : Mod) (p : Nat) : Nat :=
  let v := m.pmbV p
  let i := m.pmbI p
  let n := m.pmbIn p
  let rest := (v != 0 && !bit v 7) || (i != 0 && !bit i 7) || (n != 0 && !bit n 4)
  b2n rest + 2 * b2n (m.get R.PMB_STATUS_X_CML != 0) + 4 * b2n (m.get R.PMB_STATUS_X_TEMP != 0) + 8 * b2n (bit n 4) +
    16 * b2n (bit i 7) + 32 * b2n (bit v 7) + 64 * b2n (!m.inRun)

/-- The pole lay outside 394 V to 406 V in the last frame. -/
def Mod.pmbOutside (m : Mod) (p : Nat) : Bool := m.afe.mean4 != [] && decide (m.vBus p < 394 ∨ 406 < m.vBus p)

/-- STATUS_WORD of a pole. -/
def Mod.pmbWord (m : Mod) (p : Nat) : Nat :=
  m.pmbByte p + 2048 * b2n (m.pmbOutside p) + 8192 * b2n (m.pmbIn p != 0) + 16384 * b2n (m.pmbI p != 0) + 32768 * b2n (m.pmbV p != 0)

/-- The bits that assert the alert: STATUS_BYTE bits 0 to 5 that are not masked, high-byte bits other than bit 11, of both pages. -/
def Mod.alertBits (m : Mod) : Nat :=
  let one := fun (p : Nat) => (m.pmbByte p &&& 63 &&& (255 - m.get R.PMB_CFG_ALERT_MASK)) + (m.pmbWord p &&& 0xE000)
  one 0 + 65536 * one 1

/-- PM_ALERT_L is driven low: some alert bit is set that was not released (R470). -/
def Mod.alertLow (m : Mod) : Bool := (List.range 32).any (fun i => bit m.alertBits i && !bit m.pmb.alertWord i)

/-- Status bits whose cause holds now: STATUS_VOUT of both poles, STATUS_IOUT, STATUS_INPUT, STATUS_TEMPERATURE, STATUS_CML. -/
def Mod.pmbCauses (m : Mod) : List (Fld × Nat) :=
  let lat := fun (k : Nat) => bit (m.get R.TRP_LATCH_LATCH) k
  let chk := fun (code addr : Nat) (lim : Int) => m.pwr.checks.any (fun c => c.code == code && c.addr == addr && c.limit == lim)
  let one := fun (p : Nat) =>
    let shore := m.condOn 6 p 1 0
    let hot := (List.range 40).any (fun n => phasePole n == p && m.pairBit 0x13088 0x1308C n)
    [(pmbVout p, 128 * b2n (lat p) + 64 * b2n (shore && decide ((m.bwk.shoreHi : Rat) / 100 < m.vBus p)) +
        32 * b2n (shore && decide (m.vBus p < (m.bwk.shoreLo : Rat) / 100)) + 16 * b2n (m.condOn 6 p 2 0)),
     (pmbIout p, 128 * b2n (hot || lat (4 + p))),
     (pmbInput p, 128 * b2n (lat (6 + p)) + 64 * b2n (chk 0x0101 (62 + p) 46000) + 16 * b2n (chk 0x0101 (62 + p) 34000))]
  let warm := m.pwr.checks.any (fun c => c.code == 0x0301) || m.flt.conds.any (fun c => c.blk == 17 && c.kind == 3 && !c.forced)
  one 0 ++ one 1 ++ [(R.PMB_STATUS_X_TEMP, 128 * b2n (lat 8 || lat 9) + 64 * b2n warm), (R.PMB_STATUS_X_CML, 2 * b2n m.pins.sclLow)]

/-- CLEAR_FAULTS (R469, R470): latched bits whose cause has ended clear; the alert is released. -/
def Mod.pmbClear (m : Mod) : Mod :=
  let m := m.pmbCauses.foldl (fun m e => m.put e.1 (m.get e.1 &&& e.2)) m
  { m with pmb.alertWord := m.alertBits, pmb.cleared := true }

/-! ## The mirror (R467) -/

/-- LINEAR11 (R467): the smallest exponent from −8 to 15 whose mantissa fits, the mantissa rounded RNA. -/
def linear11 (q : Rat) : Nat :=
  let man := fun (k : Nat) => rna (q * 256 / ((2 ^ k : Nat) : Rat))
  let k := ((List.range 24).find? (fun k => decide (-1024 ≤ man k ∧ man k ≤ 1023))).getD 23
  enc 5 ((k : Int) - 8) * 2048 + enc 11 (clampI (-1024) 1023 (man k))

/-- LINEAR16 with exponent −7: 1/128 V. -/
def linear16 (q : Rat) : Nat := encU 16 (q * 128)

/-- The mean of a channel of 62 to 67 over the running millisecond. -/
def Mod.pmbMean (m : Mod) (c : Nat) : Rat := if m.pmb.sumN = 0 then 0 else m.pmb.sums.getD (c - 62) 0 / (m.pmb.sumN : Rat)

/-- Cold-plate temperature, °C: the higher of channels 138 and 139 (R420). -/
def Mod.coldPlate (m : Mod) : Rat := max (m.chanLow 138) (m.chanLow 139) / 100

/-- A frame enters the sums of the 1 ms means. -/
def Mod.pmbFrame (m : Mod) : Mod :=
  { m with pmb.sums := m.pmb.sums.mapIdx (fun i x => x + m.chanMean (62 + i)), pmb.sumN := m.pmb.sumN + 1 }

/-- The refresh of a plan boundary (R467, R469): mirror values, causes that persist set their bits again. -/
def Mod.pmbRefresh (m : Mod) : Mod :=
  let pole := fun (p : Nat) => [(0x88 * 2 + p, linear11 (m.pmbMean (62 + p))), (0x89 * 2 + p, linear11 (m.pmbMean (64 + p))),
    (0x8B * 2 + p, linear16 ((m.get (if p = 0 then R.BWK_BUS_POS_V_BUS else R.BWK_BUS_NEG_V_BUS) : Rat) / 100)),
    (0x8C * 2 + p, linear11 (m.pmbMean (66 + p))), (0x96 * 2 + p, linear11 ((m.bp p).poutMean * 1000))]
  let hot := (List.range 8).foldl (fun a n => max a (m.getI (R.MGT_SENS_VALUE n))) (m.getI (R.MGT_SENS_VALUE 0))
  let rest := [(0x8D * 2, linear11 m.coldPlate), (0x8E * 2, linear11 ((hot : Rat) / 10)), (0x8F * 2, linear11 (m.chanLow 136 / 100)),
    (0x97 * 2, linear11 ((m.getI R.BWK_FEED_FEED_MEAN : Rat) * 100)), (0xD0 * 2, linear11 ((m.get R.BWK_STO_SOC : Rat) / 2)),
    (0xD1 * 2, linear11 ((m.getI R.BWK_STO_STO_MEAN : Rat) * 100)), (0xD2 * 2, linear11 ((m.getI R.BWK_PLAN_PLAN_PT : Rat) * 100)),
    (0xD3 * 2, m.pstate % 8 + 8 * (m.get R.BWK_DP_STAT_DP_STATE % 8) + 64 * (m.role % 4)), (0xD4 * 2, m.get R.FLT_SEQ_NEXT)]
  let m := { m with pmb.mirror := pole 0 ++ pole 1 ++ rest, pmb.sums := List.replicate 6 0, pmb.sumN := 0 }
  let m := m.pmbCauses.foldl (fun m e => m.pmbSet e.1 e.2) m
  if m.pmb.cleared then { m with pmb.alertWord := 0, pmb.cleared := false } else m

/-- A mirrored value: per pole by PAGE, else page 0. -/
def Mod.mirrored (m : Mod) (cmd : Nat) : Nat :=
  let pg := if [0x88, 0x89, 0x8B, 0x8C, 0x96].contains cmd then m.get R.PMB_STAT_PAGE else 0
  ((m.pmb.mirror.find? (fun e => e.1 == cmd * 2 + pg)).map Prod.snd).getD 0

/-! ## Transfers (R466, R468) -/

/-- The port answers its address (R466): EN, no strap error, and not in a level-1 reset. -/
def Mod.pmbOn (m : Mod) : Bool := m.is R.PMB_CFG_EN && !m.is R.PMB_STAT_SILENT && !m.inReset 20 0

/-- No acknowledgement. -/
def Mod.pmbNack (m : Mod) : Mod := { m with pmb.resp := none, pmb.ackd := false }

/-- The port answers a command with bytes. -/
def Mod.pmbAnswer (m : Mod) (b : List Nat) : Mod := { m.bump R.PMB_CMD_CNT_COUNT with pmb.resp := some b, pmb.ackd := true }

/-- A refused command (bit 7) or refused data (bit 6) (R468); ADDR is the command code (Table 10-1). -/
def Mod.pmbRefuse (m : Mod) (cmlBit cmd : Nat) : Mod :=
  ((((m.pmbNack).bump R.PMB_ERR_CNT_COUNT).pmbSet R.PMB_STATUS_X_CML cmlBit).put R.PMB_EVT_CMD 1).raiseLim tickS 20 0 2 cmd 0

/-- A PEC failure (R466): a bad PEC discards the transfer and sets bit 5; a write without PEC under PEC_REQ is refused. -/
def Mod.pmbPec (m : Mod) (bad : Bool) (cmd : Nat) : Mod :=
  let m := if bad then m.pmbSet R.PMB_STATUS_X_CML 32 else m
  ((m.pmbNack.bump R.PMB_ERR_CNT_COUNT).put R.PMB_EVT_PEC 1).raiseLim tickS 20 0 1 cmd 0

/-- Little-endian bytes of a word, and a block read with its byte count. -/
def pmbW (v : Nat) : List Nat := leBytes 2 v
def pmbBlock (b : List Nat) : List Nat := b.length :: b

/-- What the port answers to a read (Table 15-8); none for a command that cannot be read. -/
def Mod.pmbData (m : Mod) (cmd : Nat) : Option (List Nat) :=
  let p := m.get R.PMB_STAT_PAGE
  if cmd = 0x00 then some [p]
  else if cmd = 0x19 then some [0xD0]
  else if cmd = 0x20 then some [0x19]
  else if cmd = 0x78 then some [m.pmbByte p]
  else if cmd = 0x79 then some (pmbW (m.pmbWord p))
  else if cmd = 0x7A then some [m.pmbV p]
  else if cmd = 0x7B then some [m.pmbI p]
  else if cmd = 0x7C then some [m.pmbIn p]
  else if cmd = 0x7D then some [m.get R.PMB_STATUS_X_TEMP]
  else if cmd = 0x7E then some [m.get R.PMB_STATUS_X_CML]
  else if [0x88, 0x89, 0x8B, 0x8C, 0x8D, 0x8E, 0x8F, 0x96, 0x97, 0xD0, 0xD1, 0xD2].contains cmd then some (pmbW (m.mirrored cmd))
  else if cmd = 0x98 then some [0x44]
  else if cmd = 0x99 then some (pmbBlock [0x56, 0x4F, 0x4C, 0x47, 0x49, 0x4C])
  else if cmd = 0x9A then some (pmbBlock [0x46, 0x53, 0x38, 0x2D, 0x4D, 0x31])
  else if cmd = 0x9B then some (pmbBlock [0x4D, 0x31, 0x42, 0x30])
  else if cmd = 0xD3 then some [m.mirrored cmd % 256]
  else if cmd = 0xD4 then some (pmbBlock (leBytes 4 (m.mirrored cmd)))
  else none

/-- A read of a command. -/
def Mod.pmbRead (m : Mod) (cmd : Nat) : Mod :=
  if !m.pmbOn then m.pmbNack
  else
    match m.pmbData cmd with
    | some b => m.pmbAnswer b
    | none => m.pmbRefuse 128 cmd

/-- A write: PEC first, then the command, then its data. -/
def Mod.pmbWrite (m : Mod) (cmd : Nat) (data : List Nat) (pec : Option Bool) : Mod :=
  if !m.pmbOn then m.pmbNack
  else if pec = some false then m.pmbPec true cmd
  else if pec = none ∧ m.is R.PMB_CFG_PEC_REQ then m.pmbPec false cmd
  else if cmd = 0x00 then
    if data = [0] ∨ data = [1] then (m.put R.PMB_STAT_PAGE (data.getD 0 0)).pmbAnswer [] else m.pmbRefuse 64 cmd
  else if cmd = 0x03 then (if data = [] then m.pmbClear.pmbAnswer [] else m.pmbRefuse 64 cmd)
  else m.pmbRefuse 128 cmd

/-! ## Commands -/

/-- PMB_TRANSACTION (R466, R468): a transfer to a 7-bit address: a read of a command or a write of data, `pec` telling whether it
carries a PEC and whether that is good. -/
def execPmbTransaction (addr : Fin 128) (rd : Bool) (cmd : Byte) (data : List Byte) (pec : Option Bool) (s : State) : Out :=
  onMod (fun m =>
    if addr.val ≠ m.get R.PMB_STAT_ADDR then m.pmbNack
    else if rd then m.pmbRead cmd.toNat else m.pmbWrite cmd.toNat (natBytes data) pec) s

/-- PMB_SCL_TIMEOUT (R466): SCL low for 25 ms releases SDA, resets the interface and sets STATUS_CML bit 1. -/
def execPmbSclTimeout (s : State) : Out := onMod (fun m =>
  { ((m.pmbNack.bump R.PMB_TMO_CNT_COUNT).pmbSet R.PMB_STATUS_X_CML 2) with pins.sclLow := true }) s

/-- PM_STUCK (R466, R471): SCL low for 35 ms. -/
def execPmStuck (s : State) : Out := onMod (fun m =>
  if m.pins.sclLow && !m.condOn 20 0 3 0 then (m.put R.PMB_EVT_STUCK 1).condStart 20 0 3 0 1 else m) s

/-- SCL_RELEASED (R471): the end of PM_STUCK. -/
def execSclReleased (s : State) : Out := onMod (fun m => ({ m with pins.sclLow := false }).condEnd 20 0 3 0 1) s

/-- SMBUS_ALERT_RESPONSE (R470): the port answers 0x0C with its own address and releases the alert. -/
def execSmbusAlertResponse (s : State) : Out := onMod (fun m =>
  if m.pmbOn && m.alertLow then
    { m with pmb.resp := some [2 * m.get R.PMB_STAT_ADDR], pmb.ackd := true, pmb.alertWord := m.alertBits, pmb.cleared := false }
  else m.pmbNack) s

/-- PAGE (R467): a read, or a write with its PEC. -/
def execPage (w : Option Byte) (pec : Option Bool) (s : State) : Out := onMod (fun m =>
  match w with
  | none => m.pmbRead 0x00
  | some v => m.pmbWrite 0x00 [v.toNat] pec) s

/-- CLEAR_FAULTS (R469): a send byte. -/
def execClearFaults (pec : Option Bool) (s : State) : Out := onMod (fun m => m.pmbWrite 0x03 [] pec) s

/-- PMB_CLR.FAULTS (R469). -/
def execPmbClrFaults (s : State) : Out := onMod (fun m => m.guarded 0x140C4 1 Mod.pmbClear) s

/-- CAPABILITY. -/
def execCapability (s : State) : Out := onMod (fun m => m.pmbRead 0x19) s

/-- VOUT_MODE. -/
def execVoutMode (s : State) : Out := onMod (fun m => m.pmbRead 0x20) s

/-- STATUS_BYTE (R469). -/
def execStatusByte (s : State) : Out := onMod (fun m => m.pmbRead 0x78) s

/-- STATUS_WORD (R469). -/
def execStatusWord (s : State) : Out := onMod (fun m => m.pmbRead 0x79) s

/-- STATUS_VOUT (R469). -/
def execStatusVout (s : State) : Out := onMod (fun m => m.pmbRead 0x7A) s

/-- STATUS_IOUT (R469). -/
def execStatusIout (s : State) : Out := onMod (fun m => m.pmbRead 0x7B) s

/-- STATUS_INPUT (R469). -/
def execStatusInput (s : State) : Out := onMod (fun m => m.pmbRead 0x7C) s

/-- STATUS_TEMPERATURE (R469). -/
def execStatusTemperature (s : State) : Out := onMod (fun m => m.pmbRead 0x7D) s

/-- STATUS_CML (R469). -/
def execStatusCml (s : State) : Out := onMod (fun m => m.pmbRead 0x7E) s

/-- READ_VIN (R467): the pole's feed voltage. -/
def execReadVin (s : State) : Out := onMod (fun m => m.pmbRead 0x88) s

/-- READ_IIN (R467): the pole's feed current. -/
def execReadIin (s : State) : Out := onMod (fun m => m.pmbRead 0x89) s

/-- READ_VOUT (R467): the pole's bus voltage. -/
def execReadVout (s : State) : Out := onMod (fun m => m.pmbRead 0x8B) s

/-- READ_IOUT (R467): the pole's load current. -/
def execReadIout (s : State) : Out := onMod (fun m => m.pmbRead 0x8C) s

/-- READ_TEMPERATURE_1 (R467): the cold plate. -/
def execReadTemperature1 (s : State) : Out := onMod (fun m => m.pmbRead 0x8D) s

/-- READ_TEMPERATURE_2 (R467): the hottest die site. -/
def execReadTemperature2 (s : State) : Out := onMod (fun m => m.pmbRead 0x8E) s

/-- READ_TEMPERATURE_3 (R467): the coolant inlet. -/
def execReadTemperature3 (s : State) : Out := onMod (fun m => m.pmbRead 0x8F) s

/-- READ_POUT (R467): the pole's output power. -/
def execReadPout (s : State) : Out := onMod (fun m => m.pmbRead 0x96) s

/-- READ_PIN (R467): the feed draw. -/
def execReadPin (s : State) : Out := onMod (fun m => m.pmbRead 0x97) s

/-- PMBUS_REVISION. -/
def execPmbusRevision (s : State) : Out := onMod (fun m => m.pmbRead 0x98) s

/-- MFR_ID: "VOLGIL". -/
def execMfrId (s : State) : Out := onMod (fun m => m.pmbRead 0x99) s

/-- MFR_MODEL: "FS8-M1". -/
def execMfrModel (s : State) : Out := onMod (fun m => m.pmbRead 0x9A) s

/-- MFR_REVISION: "M1B0". -/
def execMfrRevision (s : State) : Out := onMod (fun m => m.pmbRead 0x9B) s

/-- MFR_READ_SOC. -/
def execMfrReadSoc (s : State) : Out := onMod (fun m => m.pmbRead 0xD0) s

/-- MFR_READ_PSTO. -/
def execMfrReadPsto (s : State) : Out := onMod (fun m => m.pmbRead 0xD1) s

/-- MFR_READ_PLAN. -/
def execMfrReadPlan (s : State) : Out := onMod (fun m => m.pmbRead 0xD2) s

/-- MFR_STATE. -/
def execMfrState (s : State) : Out := onMod (fun m => m.pmbRead 0xD3) s

/-- MFR_FLT_SEQ. -/
def execMfrFltSeq (s : State) : Out := onMod (fun m => m.pmbRead 0xD4) s

end Sys2Proof.Machine
end

