-- ==== Sys2Proof/Machine/RegAccess.lean ====
section
/-!
DEFINITION. Register access (R447 to R464): what a word written to or read from any address does, the lock of a page (R453 to R455), the
counter clear (R457), and register transactions over channel REG (R288 to R290, R460).
-/
namespace Sys2Proof.Machine

/-! ## Plain words (R451 to R453) -/

/-- Access type of a field; CLASS and DELIV of LNK_CHCFGc are RO for c < 32 (Table 09-17). -/
def fieldAcc (a : Nat) (f : FieldRow) : Acc := if 0xD400 ≤ a ∧ a < 0xD480 ∧ f.lo ≠ 2 then .ro else f.acc

/-- A field of this type takes writes (Table 15-3). -/
def takesWrites : Acc → Bool
  | .ro => false
  | .rs => false
  | .rw => true
  | .rw1c => true
  | .rw1s => true
  | .wo => true
  | .rl => true

/-- What a written word makes of one field. -/
def writeField (a v : Nat) (w : Word) (f : FieldRow) : Word :=
  let fld : Fld := ⟨a, f.lo, f.w⟩
  let old := bits w.toNat f.lo f.w
  let new := bits v f.lo f.w
  match fieldAcc a f with
  | .rw => insertField w fld new
  | .rl => insertField w fld new
  | .rw1c => insertField w fld (old &&& (2 ^ f.w - 1 - new))
  | .rw1s => insertField w fld (old ||| new)
  | .ro => w
  | .rs => w
  | .wo => w

/-- The word would change an RL field. -/
def changesRl (a v : Nat) (w : Word) (fs : List FieldRow) : Bool :=
  fs.any (fun f => fieldAcc a f == .rl && bits w.toNat f.lo f.w != bits v f.lo f.w)

/-- A word written to a register without a rule of its own (R452, R453). -/
def Mod.plainWrite (m : Mod) (a v : Nat) : Mod :=
  match rowOf a with
  | none => m.refuse
  | some (r, _) =>
    if !r.fields.any (fun f => takesWrites (fieldAcc a f)) then m.refuse
    else if m.locked (a / 4096) && changesRl a v (m.word a) r.fields then m.refuse
    else m.setWord a (r.fields.foldl (writeField a v) (m.word a))

/-- A plain write and, unless it is refused, what follows from it. -/
def Mod.plainThen (m : Mod) (a v : Nat) (f : Mod → Mod) : Mod :=
  let m := m.plainWrite a v
  if m.resp = 0 then f m else m

/-! ## Locks (R453 to R455) -/

/-- Hold a field to its stated range. -/
def Mod.hold (m : Mod) (f : Fld) (lo hi : Nat) : Mod := m.put f (clampN lo hi (m.get f))

/-- Hold several fields. -/
def Mod.holds (m : Mod) (l : List (Fld × Nat × Nat)) : Mod := l.foldl (fun m e => m.hold e.1 e.2.1 e.2.2) m

/-- The range clamps of a page (R453): the ranges its chapter states for its RL fields. -/
def Mod.clampPage (m : Mod) (p : Nat) : Mod :=
  match p with
  | 2 => m.hold R.PWR_CFG_CHG_W 2 12
  | 4 => m.holds [(R.TIM_CFG_SLEW_PPM, 10, 200), (R.TIM_CFG_TOL_NS, 30, 255), (R.TIM_CFG_STEP_MAX, 1, 65535),
      (R.TIM_ROOT_CFG_ROOT_TMO, 5, 255), (R.TIM_ROOT_CFG_REF_TMO, 100, 65535)]
  | 6 => m.holds [(R.BWK_VSET_V_NOM, 39400, 40600), (R.BWK_VSET_V_TB, 40, 400), (R.BWK_ENV_CFG_STALE_MS, 2, 20),
      (R.BWK_ENV_CFG_OFF_MS, 10, 1000)]
  | 7 => m.holds [(R.TTB_CFG_FORGET, 2, 10), (R.TTB_CFG_OUT_K, 2, 15), (R.TTB_CFG_OUT_FRAC, 5, 100), (R.TTB_PLL_CFG_PER_TOL, 10, 200),
      (R.TTB_PLL_CFG_KA, 0, 8), (R.TTB_PLL_CFG_KB, 1, 12), (R.TTB_PLL_CFG_BLANK_PCT, 50, 90)]
  | 8 => m.holds [(R.CEN_HO_CFG_HO_FADE, 1, 65535), (R.CEN_HO_CFG_HO_SLEW, 1, 255), (R.CEN_HO_CFG_HO_SHADOW, 1, 255),
      (R.CEN_SP_CFG_SS_RATE, 1, 200), (R.CEN_SP_CFG_SS_ILIM, 5, 100), (R.CEN_SP_CFG_SL_RATE, 1, 255), (R.CEN_SP_CFG_SL_ACC, 1, 255),
      (R.CEN_SP_LAG_LAG_V, 1, 500), (R.CEN_SP_LAG_LAG_MS, 1, 10000)]
  | 9 =>
    let m := m.holds [(R.PHS_CFG_I_RAT, 100, 1000), (R.PHS_CFG_N_MIN, 1, 12), (R.PHS_CFG_N_MIN_F, 1, 8), (R.PHS_SHED_SHED_PCT, 10, 90),
      (R.PHS_SHED_LIM_PCT, 100, 150), (R.PHS_SHED_SHED_RAMP, 1, 64), (R.PHS_SHED2_SHED_DWELL, 1, 65535), (R.PHS_ROT_GLIDE, 100, 32000),
      (R.PHS_PB_PB_CYCLES, 1, 255), (R.PHS_PB_PB_MIN, 1, 255), (R.PHS_PB_BRK_DI, 1, 255), (R.PHS_PB_BRK_MAX, 1, 255),
      (R.PHS_PROT_OC_N, 1, 15), (R.PHS_SC_SC_LAG_V, 5, 100), (R.PHS_SC_SC_MS, 1, 100)]
    m.holds [(R.PHS_SHED_ADD_PCT, m.get R.PHS_SHED_SHED_PCT + 10, 100), (R.PHS_PROT_OC_PCT, m.get R.PHS_SHED_LIM_PCT, 200),
      (R.PHS_PROT_OT_TRIP, m.get R.PHS_PROT_OT_WARN, 255)]
  | 10 => (List.range 160).foldl (fun m n => m.hold (R.AFE_CAL_GAIN n) 0x4000 0xFFFF) (m.hold R.AFE_CFG_OPEN_N 1 15)
  | 12 =>
    let m := m.holds [(R.WCH_CFG_XC_MV, 22, 255), (R.WCH_CFG_OW_MV, 30, 255), (R.WCH_BAL_CFG_BAL_T_HI, 40, 120),
      (R.WCH_BAL_CFG_BAL_VMARG, 0, 100), (R.WCH_LIM_CFG_CL_MV, 1, 50), (R.WCH_LIM_CFG_CL_T, 1, 30), (R.WCH_LIM_CFG_SUM_TOL, 5, 255),
      (R.WCH_LIM_CFG_RECLOSE, 1, 255)]
    m.hold R.WCH_BAL_CFG_BAL_T_OFF (m.get R.WCH_BAL_CFG_BAL_T_HI + 5) 125
  | 13 =>
    let m := m.holds [(R.LNK_CFG_PORT_WIN, 16, 255), (R.LNK_CFG_POOL_LOW, 0, 3000), (R.LNK_DIAG_CFG_CLEAN_DB, 5, 50),
      (R.LNK_DIAG_CFG_MARGIN_DB, 5, 60), (R.LNK_DIAG_CFG_REFL_DB, 10, 40), (R.LNK_DIAG_CFG_DIAG_S, 1, 255)]
    (List.range 256).foldl (fun m c => m.hold (R.LNK_CHCFG_CH_MAX c) 2 255) m
  | 15 => m.holds [(R.MEM_CFG_DRAM_SCRUB_H, 1, 255), (R.MEM_CFG_SCRUB_MS, 50, 10000)]
  | 16 => m.holds [(R.LOG_CFG_BURST, 1, 255), (R.LOG_CFG_RATE_MS, 10, 65535), (R.LOG_CFG_WARN_PCT, 50, 99)]
  | 17 =>
    let m := m.holds [(R.MGT_FW_CFG_CONFIRM_S, 10, 65535), (R.MGT_WDOG_PERIOD_MS, 10, 10000), (R.MGT_TLIM_WARN, 60, 120)]
    let m := m.hold R.MGT_TLIM_HIGH (m.get R.MGT_TLIM_WARN + 5) 125
    m.hold R.MGT_TLIM_CRIT (m.get R.MGT_TLIM_HIGH + 5) 130
  | 19 => m.holds [(R.TRP_V_CFG_BUS_OV, 420, 450), (R.TRP_V_CFG_STR_OV, 130, 400), (R.TRP_V_CFG_FEED_OV, 470, 495),
      (R.TRP_I_CFG_PH_OC, 80, 124), (R.TRP_I_CFG_PH_DG, 0, 16), (R.TRP_I_CFG_STR_OC, 630, 950), (R.TRP_T_CFG_CP_OT, 50, 110)]
  | _ => m

/-- The checks of a page's lock hold, on clamped values (R454): R46 with SOC_MIN < SOC_SET < SOC_MAX for BWK, R281 for LNK. -/
def Mod.lockOk (c : Mod) (p : Nat) : Bool :=
  if p = 6 then
    let v : Rat := (c.get R.BWK_VSET_V_NOM : Rat) / 100 - 400
    decide (absQ v + c.kD * 250 + (c.get R.BWK_VSET_V_TB : Rat) / 100 ≤ 28 / 5) &&
      decide (c.get R.BWK_SOC_CFG_SOC_MIN < c.get R.BWK_SOC_CFG_SOC_SET ∧ c.get R.BWK_SOC_CFG_SOC_SET < c.get R.BWK_SOC_CFG_SOC_MAX)
  else if p = 13 then decide (7 * c.get R.LNK_CFG_PORT_WIN + 64 ≤ c.get R.LNK_CFG_POOL_LOW)
  else true

/-- The report of a refused lock. -/
def Mod.lockReport (m : Mod) (p : Nat) : Mod :=
  if p = 6 then (m.put R.BWK_DP_STAT_CFG_ERR 1).raise 6 2 8 0 0
  else if p = 13 then (m.put R.LNK_EVT_CFG 1).raise 13 7 0x0E 0 0
  else m

/-- The bytes 0x040 to 0xFFF of a page, RL fields as locked and every other field 0 (R375). -/
def Mod.rlBytes (m : Mod) (p : Nat) : List Nat :=
  (List.range 1008).flatMap (fun i =>
    let a := p * 4096 + 0x40 + 4 * i
    leBytes 4 (match rowOf a with
      | none => 0
      | some (r, _) => r.fields.foldl (fun v f => if fieldAcc a f = .rl then v + bits (m.word a).toNat f.lo f.w * 2 ^ f.lo else v) 0))

/-- SRC does not fit the mode at the second of the two locks (R54): reported, the lock stands. -/
def Mod.judgeSrc (m : Mod) (p : Nat) : Mod :=
  if p = 6 || p = 1 then
    if m.locked 1 && m.locked 6 && !m.srcFits then (m.put R.BWK_DP_STAT_CFG_ERR 1).raise 6 2 8 0 0
    else if p = 6 then m.put R.BWK_DP_STAT_CFG_ERR 0 else m
  else m

/-- LOCK = 1 is written to BLK_LOCK of a page (R454, R455). -/
def Mod.lockPage (m : Mod) (p : Nat) : Mod :=
  if m.locked p then m
  else
    let c := m.clampPage p
    if c.lockOk p then
      let m := c.puts [(R.BLK_LOCK_LOCK p, 1), (R.BLK_STAT_LOCKED p, 1)]
      let m := m.extendM 3 (Config.sha384 (leBytes 2 p ++ m.rlBytes p))
      let m := m.judgeSrc p
      if p = 1 then (if m.inRun then m else m.put R.CEN_PRG_STAT_SP_MODE (b2n (m.get R.MOD_ROLE_CFG_RACK_SIZE != 1))).syncRoles else if p = 13 then m.syncPool else m
    else ((m.put (R.BLK_LOCK_REFUSED p) 1).lockReport p).refuse

/-- A write of BLK_LOCK: REFUSED clears by 1, then LOCK = 1 asks for the lock. -/
def Mod.lockWrite (m : Mod) (p v : Nat) : Mod :=
  let m := if bit v 1 then m.put (R.BLK_LOCK_REFUSED p) 0 else m
  if bit v 0 then m.lockPage p else m

/-! ## Counter clear (R457) -/

/-- Addresses of a page's counters whose reset entry is 0. -/
def counterAddrs (p : Nat) : List Nat :=
  (pageRows p).flatMap (fun r => if r.cnt then (List.range r.count).map (fun i => p * 4096 + r.off + r.stride * i) else [])

/-- CNT_CLR of a page. -/
def Mod.clearCounters (m : Mod) (p : Nat) : Mod :=
  let m := (counterAddrs p).foldl (fun m a => m.setWord a 0) m
  { m.puts [(R.BLK_STAT_SAT p, 0), (R.BLK_STAT_SAT_OFF p, 0), (R.BLK_FLT_COUNT p, 0)] with
    flt.satDone := m.flt.satDone.filter (fun a => a / 4096 != p) }

/-! ## Words with a rule of their own -/

/-- A free truth value: what the environment answers to a command that a register word starts (log 4). -/
def Mod.freeBool (m : Mod) : Bool × Mod := (Config.freeNat m.fresh.1 % 2 == 1, m.fresh.2)

/-- What a ring scan that a register word starts finds: free values (log 4). -/
def Mod.freeScan (m : Mod) : RingScan × Mod :=
  let f1 := m.fresh
  let f2 := f1.2.fresh
  let f3 := f2.2.fresh
  let f4 := f3.2.fresh
  let f5 := f4.2.fresh
  (⟨Config.freeNat f1.1 % 33, Config.freeNat f2.1 % 33, Config.freeNat f3.1 % 2 == 1, Config.freeNat f4.1, Config.freeNat f5.1⟩, f5.2)

/-- WCH_CMD: ENUM, OWT_NOW, REARM. -/
def Mod.wchCmd (m : Mod) (v : Nat) : Mod :=
  let m := if bit v 0 then
      let s0 := m.freeScan
      let s1 := s0.2.freeScan
      s1.2.enumNow s0.1 s1.1
    else m
  let m := if bit v 1 then m.owtNow else m
  if bit v 2 then m.rearmMon (bits v 3 6) else m

/-- LNK_CMD: RETRAIN and BASE of PORT (7 names none), POOL_MIN_CLR. -/
def Mod.lnkCmd (m : Mod) (v : Nat) : Mod :=
  let p := bits v 2 3
  let m := if bit v 0 && p != 7 then m.lnkRetrain p else m
  let m := if bit v 1 && p != 7 then m.lnkBase p else m
  if bit v 5 then m.poolMinClr else m

/-- Words of pages 0 to 5 and 7. -/
def Mod.wordTim (m : Mod) (a v : Nat) : Mod :=
  if a = 0x1104 then m.plainThen a v Mod.syncRoles
  else if a = 0x2044 then m.pwrOn v
  else if a = 0x3040 then m.plainThen a v (fun m => m.chooseRef (m.get R.CLK_STAT_REF_ACT))
  else if a = 0x4058 && m.todLocked then (m.put R.TIM_EVT_TOD_REF 1).refuse
  else if a = 0x405C then m.todCommit (BitVec.ofNat 32 v)
  else if a = 0x50A4 then (if bit v 0 then m.stkArrive (bits v 1 13) else m)
  else if a = 0x50C0 then m.plainThen a v Mod.snapStake
  else if 0x50C4 ≤ a ∧ a < 0x50E0 then { m with stk.buf := (bank 8 m.stk.buf 0).set ((a - 0x50C4) / 4) v }
  else if a = 0x50E0 then m.stakeData7 (BitVec.ofNat 32 v)
  else if a = 0x70F4 then
    let m := if bit v 0 then m.dropLock else m
    if bit v 1 then m.ttbClearSlot (bits v 2 2) else m
  else if a = 0x7108 then m.tabWrite (BitVec.ofNat 32 v)
  else if a = 0x7110 then m.lossWrite v
  else m.plainWrite a v

/-- Words of pages 6 and 8 to 13. -/
def Mod.wordCtl (m : Mod) (a v : Nat) : Mod :=
  if a = 0x6064 then m.hostCapWrite (BitVec.ofNat 32 v)
  else if a = 0x60C4 then m.clrDev (bit v 0)
  else if a = 0x8044 then
    let m := if bit v 0 then m.startReq else m
    if bit v 1 then m.cenStop else m
  else if a = 0x8100 then m.swapWrite (BitVec.ofNat 32 v)
  else if a = 0x8204 then m.selectLaw v
  else if a = 0x8218 then m.setSpTarget (v % 65536)
  else if a = 0x8228 then (if bit v 0 then m.stageSeal else m)
  else if a = 0x908C then
    let m := if bit v 0 then m.pkClr else m
    if bit v 1 then m.rotNow else m
  else if a = 0x9090 ∨ a = 0x9094 then m.rearmWord (a == 0x9094) (BitVec.ofNat 32 v)
  else if 0x9100 ≤ a ∧ a < 0x91A0 then m.plainThen a v Mod.syncPhases
  else if a = 0xA0C0 then m.monSel (BitVec.ofNat 8 v)
  else if a = 0xA0D0 then (if bit v 0 then m.afeClrOpen else m)
  else if a = 0xB040 then m.plainThen a v Mod.showCap
  else if a = 0xB08C then
    let m := if bit v 0 then m.capTrigger else m
    if bit v 1 then m.capRearm.showCap else m
  else if a = 0xC050 then m.plainThen a v (fun m => if 2 ≤ m.get R.WCH_BAL_CFG_SRC then m.balPause else m)
  else if a = 0xC0C4 then m.wchCmd v
  else if a = 0xC0DC then m.balData (BitVec.ofNat 32 v)
  else if a = 0xD0F4 then m.lnkCmd v
  else if 0xD480 ≤ a ∧ a < 0xD800 ∧ v % 4 = 0 then m.refuse
  else if 0xD040 ≤ a ∧ a < 0xD800 then m.plainThen a v (fun m => (m.syncPorts.treeChoose).syncPool)
  else m.plainWrite a v

/-- Words of pages 14 to 17, 19 and 20. -/
def Mod.wordSys (m : Mod) (a v : Nat) : Mod :=
  if a = 0xE0D4 then
    let c := v % 8
    if c = 1 then m.dispHandled else if c = 2 then m.dispEscalate else if c = 3 then m.dispExtend else if c = 4 then m.dispHold
    else m.dispRefused
  else if a = 0xE0E0 then
    let m := if bit v 0 then m.clrLatch else m
    let m := if bit v 1 then m.clrFatal else m
    let m := if bit v 2 then m.clrFirst else m
    if bit v 3 then m.clrStat else m
  else if a = 0xE100 then m.selectRec v
  else if a = 0xF0C4 then
    let m := if bit v 0 then m.dmaResume (bits v 1 3) else m
    if bit v 4 then m.scrubNow else m
  else if a = 0x100C4 then (if bit v 0 then m.eraseCmd else m)
  else if a = 0x100EC then m.noteWrite v
  else if a = 0x10100 then m.snapSlot (v % logSlots)
  else if a = 0x11044 then
    let m := if bit v 4 then m.put R.MGT_PREQ_REFUSED 0 else m
    if bit v 3 then m.preq (v % 8) else m
  else if a = 0x110A4 then m.fwData v
  else if a = 0x110C0 then m.plainThen a v (fun m => if bit v 16 then m.kick else m)
  else if a = 0x110F4 then (if bit v 0 then m.sensClr else m)
  else if a = 0x11180 then m.dbgCtl v
  else if a = 0x11188 then m.dbgWrite v
  else if a = 0x130C4 then (if bit v 0 then m.trpClrWrite else m)
  else if a = 0x140C4 then (if bit v 0 then m.pmbClear else m)
  else m.plainWrite a v

/-- Words of the SEC page but SEC_CMD_GO. -/
def Mod.wordSec (m : Mod) (a v : Nat) : Mod :=
  if a = 0x12088 then m.dbgCmd v
  else if a = 0x120A4 then m.cmdData v
  else if a = 0x12100 then m.mrSel v
  else if 0x12140 ≤ a ∧ a < 0x1216C then { m with sec.ext := (bank 12 m.sec.ext 0).set ((a - 0x12140) / 4) v }
  else if a = 0x1216C then m.mrExtend v
  else if 0x12180 ≤ a ∧ a < 0x121AC then { m with sec.nonce := (bank 12 m.sec.nonce 0).set ((a - 0x12180) / 4) v }
  else if a = 0x121AC then m.nonceGo v
  else if a = 0x121C0 then m.certSel v
  else if a = 0x121C4 then m.certLenWrite v
  else if a = 0x121CC then m.certWrite v
  else m.plainWrite a v

/-- MGT_FW_CMD: its bits act in bit order. -/
def fwCmd (v : Nat) (x : Fuses × Mod) : Fuses × Mod :=
  let m := x.2
  let m := if bit v 0 then m.fwErase else m
  let m := if bit v 1 then m.fwVerify else m
  let m := if bit v 2 then m.fwActivate else m
  let x := if bit v 3 then
      let f := m.freeBool
      fwConfirm (x.1, f.2) f.1
    else (x.1, m)
  if bit v 4 then (x.1, x.2.fwCancel) else x

/-- The effect of a word that the access rules let through. -/
def wordEffect (a v : Nat) (x : Fuses × Mod) : Fuses × Mod :=
  let p := a / 4096
  let o := a % 4096
  if o = 0x0C then (x.1, if bit v 0 then x.2.clearCounters p else x.2)
  else if o = 0x18 then (x.1, x.2.forceWrite p v)
  else if o = 0x1C then (x.1, x.2.lockWrite p v)
  else if a = 0x8188 then (x.1, x.2.winWrite x.1 v)
  else if a = 0x110A8 then fwCmd v x
  else if a = 0x120A8 then
    if bit v 0 then
      let f := x.2.freeBool
      let g := f.2.freeBool
      trustGo f.1 g.1 (x.1, g.2)
    else x
  else if p = 18 then (x.1, x.2.wordSec a v)
  else if p ≤ 5 ∨ p = 7 then (x.1, x.2.wordTim a v)
  else if p ≤ 13 then (x.1, x.2.wordCtl a v)
  else (x.1, x.2.wordSys a v)

/-- A word of the debug registers that was turned away sets their REFUSED. -/
def dbgNote (a : Nat) (m : Mod) : Mod := if a = 0x11180 ∨ a = 0x11184 ∨ a = 0x11188 then m.dbgAfter else m

/-- Apply one word (R452, R460): `fw` for the firmware's writes of the configuration image. STATUS goes to `resp`. -/
def applyWord (fw : Bool) (a v : Nat) (x : Fuses × Mod) : Fuses × Mod :=
  match x.2.wrStatus a v fw with
  | 0 =>
    let y := wordEffect a v (x.1, { x.2 with resp := 0 })
    (y.1, dbgNote a y.2)
  | 3 => (x.1, dbgNote a { x.2.authRefused with resp := 3 })
  | k => (x.1, { x.2 with resp := k })

/-! ## Reads -/

/-- Letters of a page in ASCII (Table 15-1), first letter lowest. -/
def pageLetters (p : Nat) : Nat :=
  [0x524944, 0x444F4D, 0x525750, 0x4B4C43, 0x4D4954, 0x4B5453, 0x4B5742, 0x425454, 0x4E4543, 0x534850, 0x454641, 0x504143, 0x484357,
   0x4B4E4C, 0x544C46, 0x4D454D, 0x474F4C, 0x54474D, 0x434553, 0x505254, 0x424D50].getD p 0

/-- Number of blocks of a page (Table 15-1). -/
def pageInst (p : Nat) : Nat := [1, 1, 1, 1, 1, 1, 3, 1, 5, 9, 1, 1, 2, 8, 1, 38, 1, 2, 1, 1, 1].getD p 0

/-- A page is lockable: it has RL fields (Table 15-1). -/
def pageLockable (p : Nat) : Bool := decide (p < 21) && p != 0 && p != 5

/-- A word of the common header (Table 15-2). -/
def Mod.headerWord (m : Mod) (p o : Nat) : Nat :=
  if o = 0x00 then p + 256 * pageLetters p
  else if o = 0x04 then 0x00B00100
  else if o = 0x08 then pageInst p + 256 * b2n (pageLockable p) + 512 * b2n (p != 0 && p != 11)
  else if o = 0x10 then
    1 + 2 * b2n (m.locked p) + 4 * m.get (R.BLK_STAT_SAT p) + 8 * m.get (R.BLK_STAT_RESET p) + 65536 * m.get (R.BLK_STAT_SAT_OFF p)
  else (m.word (p * 4096 + o)).toNat

/-- A directory entry (Table 15-6). -/
def Mod.dirEntry (m : Mod) (p : Nat) : Nat :=
  if p < 21 then
    p + 256 * pageDomain p + 8192 + 16384 * b2n (m.pageOn p) + 32768 * b2n (m.locked p) + 65536 * pageInst p + 2 ^ 24 * b2n (pageLockable p)
  else 0x1FFF

/-- LNK_CH_DATA (Table 09-17). -/
def Mod.chData (m : Mod) : Nat :=
  let c := m.get R.LNK_CH_ADDR_CH
  min 8191 (m.chUse c) + 8192 * b2n (m.chStopped c) + 16384 * b2n (m.lnk.ports.any (fun q => q.peerStop.contains c)) +
    65536 * Sparse.get (fun _ => 0) m.lnk.gaps c

/-- LNK_ROUTE_DATA (Table 09-17): 0xE for a module of the own rack. -/
def Mod.routeData (m : Mod) : Nat :=
  let a := m.get R.LNK_ROUTE_ADDR_ADDR
  let r := m.route a
  if a = m.addr ∨ (m.posOfAddr a).isSome then 0xE + 16 * 0xFFF
  else if r.1 = 0xF then 0xFFFF
  else r.1 + 16 * min 0xFFF ((m.time.ticks - r.2) / tickMs)

/-- Seconds left of a debug grant, rounded up. -/
def Mod.grantLeft (m : Mod) : Nat := (m.sec.grantEnd - m.time.ticks + tickS - 1) / tickS

/-- What a read of an address returns, with its side effects (R462). -/
def Mod.readValue (m : Mod) (a : Nat) : Nat × Mod :=
  let o := a % 4096
  if o < 0x40 then (m.headerWord (a / 4096) o, m)
  else if a = 0x80 then (ofBits 21 (fun p => m.pageOn p), m)
  else if a = 0x84 then (ofBits 21 (fun p => m.locked p), m)
  else if 0x100 ≤ a ∧ a < 0x500 then (m.dirEntry ((a - 0x100) / 4), m)
  else if a = 0x4084 then m.nowLatch
  else if 0x50C4 ≤ a ∧ a < 0x50E4 then (m.stk.snap.getD ((a - 0x50C4) / 4) 0, m)
  else if a = 0x7104 then (m.tabEntry (m.get R.TTB_TAB_ADDR_ADDR) % 2 ^ 32, m)
  else if a = 0x7108 then m.tabRead
  else if a = 0x7110 then m.lossRead
  else if a = 0x8184 then m.winLow
  else if a = 0x8188 then m.winRead
  else if a = 0xB0C4 then
    let f := m.fresh
    f.2.capWord (Config.freeNat f.1 % 3)
  else if a = 0xC0D4 then m.cellRead
  else if a = 0xC0DC then
    let x := m.wmon (m.get R.WCH_BAL_ADDR_MON)
    (x.reqMask % 65536 + 65536 * (x.reqTimer % 65536), m)
  else if a = 0xD204 then (m.chData, m)
  else if a = 0xD214 then (m.routeData, m)
  else if a / 4096 = 14 then ((m.syncPend.word a).toNat, m)
  else if a = 0x10148 then m.streamWord
  else if a = 0x11188 then m.dbgRead
  else if a = 0x12084 then (m.put R.SEC_DBG_LEFT_S (min 65535 m.grantLeft)).word a |>.toNat |> fun w => (w, m)
  else if a = 0x121B8 then m.attWord
  else if a = 0x121CC then m.certWord
  else if a = 0x14080 then ((m.flag R.PMB_STAT_ALERT m.alertLow).word a |>.toNat, m)
  else if a = 0x14084 then ((m.put R.PMB_STATUS_P_WORD (m.pmbWord 0)).word a |>.toNat, m)
  else if a = 0x14088 then ((m.put R.PMB_STATUS_N_WORD (m.pmbWord 1)).word a |>.toNat, m)
  else ((m.word a).toNat, m)

/-- Read one word: the value to `rdata`, STATUS to `resp`. -/
def Mod.readWord (m : Mod) (a : Nat) : Mod := dbgNote a (m.guardedRd a (fun m => m.readValue a))

/-! ## Commands on single words -/

/-- REGISTER_WRITE (R452): one word to any register. -/
def execRegisterWrite (a : Word) (v : Word) (s : State) : Out := onBoth (fun x =>
  if a.toNat % 4 ≠ 0 then (x.1, { x.2 with resp := 4 }) else applyWord false a.toNat v.toNat x) s

/-- BLK_LOCK_WRITE (R453, R454). -/
def execBlkLockWrite (p : Fin 21) (v : Word) (s : State) : Out := onMod (fun m =>
  m.guardedR (p.val * 4096 + 0x1C) v.toNat (fun m => m.lockWrite p v.toNat)) s

/-- BLK_CTL_CNT_CLR (R457). -/
def execBlkCtlCntClr (p : Fin 21) (s : State) : Out := onMod (fun m =>
  m.guarded (p.val * 4096 + 0x0C) 1 (fun m => m.clearCounters p)) s

/-! ## Register transactions (R288 to R290, R460) -/

/-- Addresses of the words of a transaction: MODE 0 increment, 1 fixed, 2 alternate. -/
def txAddr (mode a i : Nat) : Nat := if mode = 0 then a + 4 * i else if mode = 1 then a else a + 4 * (i % 2)

/-- Channel REG (Table 09-5). -/
def chReg : Nat := 9

/-- Malformed (R460): MODE 3, COUNT out of range, wrong length, unaligned, or words beyond the first page. -/
def txBad (b : List Nat) (wr : Bool) : Bool :=
  let mode := b.getD 1 0 % 4
  let n := b.getD 2 0
  let a := le b 4 4
  mode == 3 || n == 0 || decide (56 < n) || b.length != (if wr then 8 + 4 * n else 8) || a % 4 != 0 ||
    (List.range n).any (fun i => txAddr mode a i / 4096 != a / 4096)

/-- Apply words in order until the first refusal: words done and its STATUS. -/
def writeWords : List (Nat × Nat) → Nat → Fuses × Mod → Nat × Nat × Fuses × Mod
  | [], n, x => (n, 0, x.1, x.2)
  | (a, v) :: l, n, x =>
    let y := applyWord false a v x
    if y.2.resp = 0 then writeWords l (n + 1) y else (n, y.2.resp, y.1, y.2)

/-- Read words in order until the first refusal. -/
def readWords : List Nat → List Nat → Mod → List Nat × Nat × Mod
  | [], d, m => (d, 0, m)
  | a :: l, d, m =>
    let m := m.readWord a
    if m.resp = 0 then readWords l (d ++ [m.rdata]) m else (d, m.resp, m)

/-- Payload of a response (Table 09-8). -/
def txResp (b : List Nat) (count status : Nat) (data : List Nat) : List Nat :=
  [0x63, b.getD 1 0, count, status] ++ slice b 4 4 ++ data.flatMap (leBytes 4)

/-- Send a response to its requester: to the host at a module's address, or to a module (R291). -/
def Mod.sendResp (m : Mod) (host : Bool) (src tag : Nat) (body : List Nat) : Mod :=
  if host then
    let (q, m) := m.nextMseq chReg
    m.toHost { chan := chReg, resp := true, scope := .host, dst := src, src := m.addr, mseq := q, tag := tag, body := body }
  else m.sendUnicast chReg src body tag true

/-- Keep a response; the last 64 of each source stay (R290). -/
def Mod.keepResp (m : Mod) (host : Bool) (src tag : Nat) (body : List Nat) : Mod :=
  let mine := fun (e : Bool × Nat × Nat × Msg) => e.1 == host && e.2.1 == src
  let g : Msg := { chan := chReg, resp := true, scope := if host then .host else .unicast, dst := src, src := m.addr, mseq := 0, tag := tag,
                   body := body }
  { m with lnk.responses := (host, src, tag, g) :: (m.lnk.responses.filter mine).take 63 ++ m.lnk.responses.filter (fun e => !mine e) }

/-- A transaction is completed: kept and sent. -/
def Mod.endTx (m : Mod) (host : Bool) (src tag : Nat) (body : List Nat) (status : Nat) : Mod :=
  (({ m with resp := status }).keepResp host src tag body).sendResp host src tag body

/-- The response stored for a request (R290). -/
def Mod.storedResp (m : Mod) (host : Bool) (src tag : Nat) : Option Msg :=
  (m.lnk.responses.find? (fun e => e.1 == host && e.2.1 == src && e.2.2.1 == tag)).map (·.2.2.2)

/-- The words of a WRITE request. -/
def txWords (b : List Nat) : List (Nat × Nat) :=
  (List.range (b.getD 2 0)).map (fun i => (txAddr (b.getD 1 0 % 4) (le b 4 4) i, le b (8 + 4 * i) 4))

/-- STATUS of a WRITE before its words are applied (R460): 4, 2, 3 in this order; 0 when they are to be applied. -/
def Mod.txWriteStatus (m : Mod) (host : Bool) (b : List Nat) : Nat :=
  if txBad b true then 4
  else if !m.pageServes (le b 4 4 / 4096) then 2
  else if !host || (txWords b).any (fun e => m.unauthWrite e.1 e.2) then 3
  else 0

/-- The addresses of a READ request. -/
def txReads (b : List Nat) : List Nat := (List.range (b.getD 2 0)).map (fun i => txAddr (b.getD 1 0 % 4) (le b 4 4) i)

/-- STATUS of a READ before its words are read. -/
def Mod.txReadStatus (m : Mod) (b : List Nat) : Nat :=
  if txBad b false then 4
  else if !m.pageServes (le b 4 4 / 4096) then 2
  else if (txReads b).any (fun a => m.rdStatus a == 3) then 3
  else 0

/-- A transaction touches the debug registers. -/
def txDbg (b : List Nat) : Nat := if (txReads b).any (fun a => 0x11180 ≤ a && a ≤ 0x11188) then 0x11180 else 0

/-- REG_READ_REQUEST (R289, R290, R459, R460): a READ request on channel REG from the host or a module. -/
def execRegReadRequest (host : Bool) (src : Fin 16384) (tag : Fin 65536) (bytes : List Byte) (s : State) : Out := onMod (fun m =>
  let b := natBytes bytes
  let m := m.takeInbox chReg b
  match m.storedResp host src tag with
  | some g => m.sendResp host src tag g.body
  | none =>
    match m.txReadStatus b with
    | 0 =>
      let r := readWords (txReads b) [] m
      r.2.2.endTx host src tag (txResp b r.1.length r.2.1 r.1) r.2.1
    | 3 => (dbgNote (txDbg b) { m.authRefused with resp := 3 }).endTx host src tag (txResp b 0 3 []) 3
    | k => m.endTx host src tag (txResp b 0 k []) k) s

/-- REG_WRITE_REQUEST (R289, R290, R460): a WRITE request on channel REG. -/
def execRegWriteRequest (host : Bool) (src : Fin 16384) (tag : Fin 65536) (bytes : List Byte) (s : State) : Out := onBoth (fun x =>
  let b := natBytes bytes
  let m := x.2.takeInbox chReg b
  match m.storedResp host src tag with
  | some g => (x.1, m.sendResp host src tag g.body)
  | none =>
    match m.txWriteStatus host b with
    | 0 =>
      let r := writeWords (txWords b) 0 (x.1, m)
      (r.2.2.1, r.2.2.2.endTx host src tag (txResp b r.1 r.2.1 []) r.2.1)
    | 3 => (x.1, (dbgNote (txDbg b) { m.authRefused with resp := 3 }).endTx host src tag (txResp b 0 3 []) 3)
    | k => (x.1, m.endTx host src tag (txResp b 0 k []) k)) s

end Sys2Proof.Machine
end

