-- ==== Sys2Proof/Machine/Boot.lean ====
section
/-!
DEFINITION. Resets and boot (R311, R343, R372 to R378, R405, R425, R472, R473): power-on reset, level-3 reset, the boot stages of
Table 12-5.
-/
namespace Sys2Proof.Machine

/-! ## Power-on reset -/

/-- What the counter area gives the LOG and PWR pages (Tables 11-10, 14-9). -/
def Mod.showCounters (m : Mod) : Mod :=
  let warn := logSlots * clampN 50 99 (m.get R.LOG_CFG_WARN_PCT) / 100
  m.puts [(R.LOG_HEAD_HEAD, m.nv.head), (R.LOG_PCYC_COUNT, m.nv.pcyc), (R.LOG_HOURS_HOURS, m.nv.hours), (R.LOG_USEC_USEC, m.nv.usec),
    (R.LOG_DROP_CNT_COUNT, m.nv.drop), (R.LOG_LIMIT_CNT_COUNT, m.nv.limit), (R.LOG_RETIRED_CNT_COUNT, m.nv.retired),
    (R.LOG_TORN_CNT_COUNT, m.nv.torn), (R.PWR_HU_CNT_COUNT, m.nv.huCnt), (R.LOG_STAT_FULL, b2n (decide (logSlots ≤ m.nv.head))),
    (R.LOG_STAT_NEAR_FULL, b2n (decide (warn ≤ m.nv.head)))]

/-- The straps as the module samples them (R21, R425, R466): position, STRAP_ERR for 10 to 15, ROOT_CAP, the PMBus address. -/
def Mod.readStraps (m : Mod) (strap : Nat) (rootCap : Bool) : Mod :=
  m.puts [(R.MOD_STRAP_RING_POS, strap), (R.MOD_STRAP_STRAP_ERR, b2n (decide (10 ≤ strap))), (R.MOD_STRAP_ROOT_CAP, b2n rootCap),
    (R.PMB_STAT_ADDR, 0x40 + strap), (R.PMB_STAT_SILENT, b2n (decide (10 ≤ strap)))]

/-- What fuses and stores show at a reset: lifecycle, repairs, slots, the level's default, a new challenge. -/
def Mod.showStores (m : Mod) (fu : Fuses) : Mod :=
  let m := { m with sec.certLen := m.nv.certs.map (fun (c : Cert) => c.bytes.length) }
  ((m.showFuses fu).put R.SEC_DBG_LEVEL (lcDebug fu.lc)).showSlots.newChal

/-- Power-on reset is due: from OFF, from HOLD-UP with the supply back and the log flushed (R412), or for the first time. -/
def Mod.resetDue (m : Mod) : Bool := m.pstate == 0 || (m.pstate == 1 && m.pwr.auxBack && m.pwr.flushed) || m.nv.pcyc == 0

/-- Everything but fuses, non-volatile contents and what is wired to the pins starts again; PCYC counts on (R352, R456), and pending repairs
are burnt (R344). -/
def Mod.powerOn (m : Mod) (fu : Fuses) (strap : Nat) (rootCap : Bool) : Fuses × Mod :=
  let n : Mod := { freeCtr := m.freeCtr, nv := m.nv, pins := { m.pins with stoHold := false, ppsOut := false } }
  let n := n.showCounters.bump R.LOG_PCYC_COUNT
  let n := { n with nv.pcyc := n.get R.LOG_PCYC_COUNT }
  let x := burnRepairs fu (n.readStraps strap rootCap)
  (x.1, x.2.showStores x.1)

/-- POWER_ON_RESET (R405): the straps read as position `strap` and ROOT_CAP_L as tied or open. -/
def execPowerOnReset (strap : Fin 16) (rootCap : Bool) (s : State) : Out :=
  if s.m.resetDue then
    .next { s with fuses := (s.m.powerOn s.fuses strap rootCap).1, m := (s.m.powerOn s.fuses strap rootCap).2 }
  else .next s

/-! ## Level-3 reset (R311, R472, R473) -/

/-- Blocks whose domains a level-3 reset keeps (R472): DIR, MOD, PWR, FLT, MEM, LOG, TRP, PMB. -/
def keptBlock (b : Nat) : Bool := [0, 1, 2, 14, 15, 16, 19, 20].contains b

/-- The conditions that end, in block-code and then kind order. -/
def Mod.endingConds (m : Mod) : List Cond :=
  (List.range 21).flatMap (fun b => if keptBlock b then [] else
    (List.range 256).flatMap (fun k => m.flt.conds.filter (fun c => c.blk == b && c.kind == k)))

/-- The collector writes the CLR of a condition itself (R472). -/
def Mod.selfClr (m : Mod) (c : Cond) : Mod :=
  let m := m.intake { seq := 0, blk := c.blk, inst := c.inst, cls := c.cls, tvalid := false, kind := c.kind, clr := true, self := true,
                      forced := c.forced, addr := c.addr, frame := 0, time := 0 }
  ({ m with flt.conds := m.flt.conds.erase c }).syncActive c.blk

/-- Windows close with ACTION 3, level-1 resets and shadows end, conditions of the reset blocks end (R472). -/
def Mod.collectorL3 (m : Mod) : Mod :=
  let m := m.flt.pend.foldl (fun m p => m.setAction p.seq 3) m
  let m := ({ m with flt.pend := [] }).syncPend
  let m := (List.range 21).foldl (fun m b => m.put (R.BLK_STAT_RESET b) 0) m
  let m := ({ m with flt.resets := [] }).put R.FLT_STAT_SHADOW 0
  let m := m.endingConds.foldl Mod.selfClr m
  { m with flt.restartDue := ((List.range 21).filter (fun b => !keptBlock b)).map (fun b => (b, 64)), flt.l3 := false, flt.l3Sys := false }

/-- MOD_ROLE_STAT at its power-on values but for POS_CONFLICT and MODE_MISMATCH (R473). -/
def Mod.rolesL3 (m : Mod) : Mod :=
  let a := R.MOD_ROLE_STAT_ROLE.addr
  let c := m.get R.MOD_ROLE_STAT_POS_CONFLICT
  let d := m.get R.MOD_ROLE_STAT_MODE_MISMATCH
  ({ m.setWord a (regReset a) with roles := {} }).puts [(R.MOD_ROLE_STAT_POS_CONFLICT, c), (R.MOD_ROLE_STAT_MODE_MISMATCH, d)]

/-- Every domain but AON, TRP and NVL goes off; MGT, SEC and TIM come back (R311, R436). The frames sent to the chain stay sent. -/
def Mod.domainsL3 (m : Mod) : Mod :=
  let tx := m.wch.tx
  let m := [18, 16, 15, 14, 13, 12, 11, 10, 9, 8, 7, 6, 5, 4, 17, 2, 1].foldl Mod.domainOff m
  let m := [1, 2, 17].foldl Mod.domainUp m
  { m.put R.PWR_STAT_BUSY 0 with
    pwr := { auxCnt := m.pwr.auxCnt, huCnt := m.pwr.huCnt, auxBack := m.pwr.auxBack, chgTick := m.pwr.chgTick }, afe.openCond := [], mem.trap := none, wch.tx := tx }

/-- The warm reset of the module (R311): a slot in trial fails (R373); the module restarts in STANDBY with CAUSE 2. -/
def Mod.levelThree (m : Mod) (fu : Fuses) : Mod :=
  let old := m.pstate
  let m := if m.is R.MGT_BOOT_TRIAL && m.is R.MGT_FW_STAT_ACT_PEND then { m with nv.trialFail := some (m.is R.MGT_BOOT_SLOT) } else m
  let m := m.stoStop.collectorL3
  let m := if old = 3 then m.leaveRun else m
  let m := if bleedState old then m.balPause else m
  let m := m.domainsL3.rolesL3.setPState 2 2
  (m.bump R.MGT_BOOT_CNT_COUNT |>.showRepairs fu).showStores fu

/-- The level-3 escalation record is in the log, the log is full (R356), or 2 ms have passed since the escalation (R311). -/
def Mod.l3Logged (m : Mod) : Bool := m.is R.LOG_STAT_FULL ||
  !(m.log.arr.any (fun a => a.entry.typ == 1 && a.entry.code == 14 * 256 + 3) ||
    m.log.queue.any (fun r => r.typ == 1 && r.code == 14 * 256 + 3)) || decide (m.flt.l3Tick + 2000 * tickUs ≤ m.time.ticks + 64000)

/-- LEVEL3_RESET (R311): a level-3 reset is due, by escalation once its record is logged or by ACTIVATE; not in HOLD-UP (R334). -/
def execLevel3Reset (s : State) : Out := onMod (fun m =>
  if ((m.flt.l3 && m.l3Logged) || m.flt.l3Sys) && m.pstate != 1 then m.levelThree s.fuses else m) s

/-! ## Boot stages (Table 12-5) -/

/-- FAIL field of a slot. -/
def failFld (b : Bool) : Fld := if b then R.MGT_BOOT_FAIL_B else R.MGT_BOOT_FAIL_A

/-- A slot fails at boot: its code, BOOT_FAIL, SIG_REFUSED for a block that is not good. -/
def Mod.slotFails (m : Mod) (b : Bool) (c : Nat) : Mod :=
  let m := (m.put (failFld b) c).logTrust 2 (b2n b) c
  if c = 3 then m.sigRefused else m

/-- Why a slot does not boot (R373); 7 for one whose trial a level-3 reset ended. -/
def Mod.bootCode (m : Mod) (fu : Fuses) (b readErr : Bool) : Nat :=
  if m.nv.trialFail = some b then 7 else m.slotCode fu b readErr

/-- Stage 0 measures the ROM, the lifecycle and the roots (Table 12-6) and derives the DIK from a burnt secret (R376). -/
def Mod.romMeasure (m : Mod) (fu : Fuses) : Mod :=
  let m := m.showFuses fu
  let m := m.extendM 0 (Config.sha384 (leBytes 4 Config.romVersion ++ [m.lc, fu.svn, m.get R.SEC_DBG_DEFAULT] ++ pad 48 fu.vendorRoot ++
    pad 48 fu.ownerRoot))
  let m := { m with sec.dik := if fu.secret.isEmpty then [] else Config.derive fu.secret [] }
  m.flag R.SEC_LIFE_ID_VALID m.idValid

/-- A slot is taken. -/
def Mod.takeSlot (m : Mod) (b : Bool) : Mod :=
  let t := m.nv.trial == some b
  ({ m with mgt.romDone := true, mgt.trialTick := m.time.ticks, nv.trialFail := none, nv.trial := if t then m.nv.trial else none }).puts
    [(R.MGT_BOOT_SLOT, b2n b), (R.MGT_BOOT_TRIAL, b2n t), (R.MGT_FW_STAT_ACT_PEND, b2n t)]

/-- Recovery (R374): STAGE 7, SERVICE; the ROM brings up the host and ring ports. -/
def Mod.recovery (m : Mod) : Mod :=
  let m := { m with mgt.romDone := true, nv.trialFail := none, nv.trial := none, pwr.switches := [(14, true), (16, true)] }
  let on := setBit (setBit (m.get R.PWR_ON_ON) 14 true) 16 true
  let m := m.puts [(R.MGT_BOOT_STAGE, 7), (R.PWR_STAT_BUSY, 1), (R.PWR_ON_ON, on)]
  if m.pstate = 2 then m.puts [(R.MGT_PSTATE_PREV, 2), (R.MGT_PSTATE_STATE, 5)] else m

/-- The slot stage 0 tries first (R373): the one in trial, else the preferred one. -/
def Mod.chosenSlot (m : Mod) : Bool := m.nv.trial.getD (m.nv.slotB.preferred && !m.nv.slotA.preferred)

/-- Stage 0 (R373, R374): the trial or the preferred slot, the other one on failure, recovery when both fail. -/
def Mod.romStage (m : Mod) (fu : Fuses) (errA errB : Bool) : Mod :=
  let m := m.romMeasure fu
  let b := m.chosenSlot
  let c := m.bootCode fu b (if b then errB else errA)
  if c = 0 then m.takeSlot b
  else
    let m := m.slotFails b c
    let d := m.bootCode fu (!b) (if b then errA else errB)
    if d = 0 then
      let m := ((m.takeSlot (!b)).bump R.MGT_FALLBACK_CNT_COUNT).puts [(R.MGT_BOOT_FALLBACK, 1), (R.MGT_EVT_FALLBACK, 1)]
      (m.raise 17 0 7 0 1).logTrust 3 (b2n (!b)) 0
    else (m.slotFails (!b) d).recovery

/-- BOOT_ROM_STAGE (R372 to R376): stage 0. `errA`, `errB`: the slot cannot be read. -/
def execBootRomStage (errA errB : Bool) (s : State) : Out := onMod (fun m =>
  if m.get R.MGT_BOOT_STAGE = 0 && !m.mgt.romDone then m.romStage s.fuses errA errB else m) s

/-- BOOT_LOADER_STAGE (R372, R365): the loader of the chosen slot is measured, and stage 2 starts with the watchdog. -/
def execBootLoaderStage (s : State) : Out := onMod (fun m =>
  if m.get R.MGT_BOOT_STAGE = 0 && m.mgt.romDone then
    let f := m.activeSlot
    let m := m.extendM 1 (digestD (bytesAt f (rdAt f 24 4) (rdAt f 28 4)) (fwBlock f))
    ({ m with mgt.wdogOn := true, mgt.wdogKick := m.time.ticks }).put R.MGT_BOOT_STAGE 1
  else m) s

/-- Bytes from address 0 of a RAM. -/
def ramOf (b : List Nat) : Sparse Nat := Sparse.setMany (fun _ => 0) [] 0 b

/-- Stage 2 (R371, R378): code and data in their RAMs, M2, the BAK certified as entry 0, the DIK closed. -/
def Mod.firmwareStage (m : Mod) (fu : Fuses) : Mod :=
  let f := m.activeSlot
  let m := m.extendM 2 (fwD f)
  let bak := Config.derive fu.secret (m.sec.meas.take 3).flatten
  let fr := m.fresh
  let m := fr.2
  let cert := Config.makeCert bak m.sec.dik fr.1
  let m := { m with mgt.iram := ramOf (bytesAt f (rdAt f 32 4) (rdAt f 36 4)), mgt.dram := ramOf (bytesAt f (rdAt f 40 4) (rdAt f 44 4)),
                    sec.bak := bak, sec.dikClosed := true, nv.certs := (bank 4 m.nv.certs {}).set 0 ⟨cert⟩,
                    sec.certLen := (bank 4 m.sec.certLen 0).set 0 cert.length }
  let m := m.puts [(R.MGT_BOOT_STAGE, 2), (R.SEC_SVN_FW_SVN, rdAt f 12 4)]
  m.logTrust 1 (m.get R.MGT_BOOT_SLOT + 256 * m.get R.MGT_BOOT_TRIAL) (rdAt f 8 4) (m.sec.meas.getD 2 [])

/-- BOOT_FIRMWARE_STAGE (R372, R378): stage 2 is complete. -/
def execBootFirmwareStage (s : State) : Out := onMod (fun m =>
  if m.get R.MGT_BOOT_STAGE = 1 then m.firmwareStage s.fuses else m) s

/-- Domains that firmware switches on at stage 3, in the order of Table 13-3. -/
def bootDomains : List Nat := [14, 16, 15, 10, 13, 11, 12, 18, 8, 9, 4, 5, 6, 7]

/-- Stage 3: the watchdog runs, the domains wait for their turn. In HOLD-UP no domain is switched on. -/
def Mod.stage3 (m : Mod) : Mod :=
  let m := (m.kick).put R.MGT_BOOT_STAGE 3
  let l := if m.pstate = 1 then [] else bootDomains.filter (fun d => !m.domainOn d)
  let m := m.put R.PWR_ON_ON (l.foldl (fun w d => setBit w d true) (m.get R.PWR_ON_ON))
  m.runOffs (l.map (fun d => (d, true)))

/-- BOOT_STAGE3 (R405). -/
def execBootStage3 (s : State) : Out := onMod (fun m => if m.get R.MGT_BOOT_STAGE = 2 then m.stage3 else m) s

/-! ## The boot set (R368, R373) -/

/-- A container's MAGIC, FORMAT and STEPPING. -/
def headOk (f : Nat → Nat) (magic : Nat) : Bool := rdAt f 0 4 == magic && rdAt f 4 2 == 1 && rdAt f 6 2 == 0x00B0

/-- The boot set's weave image lands in bank A (R475) and is checked as one the host writes. -/
def Mod.bootWeave (m : Mod) (fu : Fuses) (f : Nat → Nat) : Mod :=
  let k := m.winBank
  let n := min bankSize (rdAt f 24 4 + 512)
  let m := { m with cen.bank := Sparse.setMany (fun _ => 0) (Sparse.keep (fun a => a / bankSize != k) m.cen.bank) (k * bankSize) (bytesAt f 0 n) }
  m.checkWeave fu k

/-- Why a coefficient image is refused: REJ_CODE and PREJ_CODE (R141, R142, R146, R156, R370); none it is accepted. -/
def Mod.coefRefusal (m : Mod) (fu : Fuses) (f : Nat → Nat) : Option (Nat × Nat) :=
  if !headOk f 0x464D4301 then some (1, 0)
  else if !imgSigned fu m f then some (6, 0)
  else if (sections f).any (fun s => s.1 != 0x06 && s.1 != 0x0C && s.1 != 0x0D) then some (0, 1)
  else if (match sectionBytes f 0x0C with
      | none => false
      | some b => !(profileOf b).ok) then some (0, 7)
  else if !m.bankOk m.actBank || rdAt f 12 4 != m.build then some (m.get R.CEN_STAT_REJ_CODE, 0)
  else none

/-- A coefficient image of the boot set (R170, R373): its data joins what START puts into the SRAM. -/
def Mod.bootCoef (m : Mod) (fu : Fuses) (f : Nat → Nat) : Mod × Bool :=
  match m.coefRefusal fu f with
  | some (r, p) => (m.rejectImg r p, false)
  | none => (({ m with cen.coefs := m.cen.coefs ++ [imgBytes f] }).extendM 5 (digestD (imgBytes f) (imgBlock f)), true)

/-- ADDR and VALUE pairs of a configuration image. -/
def configPairs (f : Nat → Nat) : List (Nat × Nat) :=
  match (sections f)[0]? with
  | none => []
  | some s => (List.range (s.2.2.2 / 8)).map (fun i => (rdAt f (s.2.2.1 + 8 * i) 4, rdAt f (s.2.2.1 + 8 * i + 4) 4))

/-- The configuration image (R368): its pairs in order as the firmware's own writes. -/
def bootConfig (x : Fuses × Mod) (f : Nat → Nat) : Fuses × Mod :=
  (configPairs f).foldl (fun y e => if e.1 % 4 = 0 then applyWord true e.1 e.2 y else y) x

/-- Stage 4 (R373): weave, coefficient and configuration images, each judged on its own. -/
def bootSetStage (x : Fuses × Mod) : Fuses × Mod :=
  let f := x.2.activeSlot
  let weaves := (bootImages f 0x464D5701).take 1
  let m := weaves.foldl (fun (m : Mod) g => m.bootWeave x.1 g) x.2
  let ok := m.bankOk m.actBank
  let y := ((bootImages f 0x464D4301).take 4).foldl (fun (e : Mod × Bool) g =>
    let r := e.1.bootCoef x.1 g
    (r.1, e.2 && r.2)) (m, ok)
  let z := ((bootImages f 0x464D5201).take 1).foldl (fun (e : (Fuses × Mod) × Bool) g =>
    if headOk g 0x464D5201 && imgSigned e.1.1 e.1.2 g then (bootConfig e.1 g, e.2)
    else ((e.1.1, if headOk g 0x464D5201 then e.1.2.sigRefused else e.1.2), false)) ((x.1, y.1), y.2)
  let m := z.1.2
  let m := if ok then m.startReq else m
  (z.1.1, if z.2 then m.put R.MGT_BOOT_STAGE 4 else m.put R.MGT_BOOT_BSET_ERR 1)

/-- BOOT_SET_STAGE (R372, R373): the boot set is taken once the domains of stage 3 are on. -/
def execBootSetStage (s : State) : Out := onBoth (fun x =>
  if x.2.get R.MGT_BOOT_STAGE = 3 && !x.2.is R.MGT_BOOT_BSET_ERR && !x.2.is R.PWR_STAT_BUSY && x.2.pstate != 1 then bootSetStage x else x) s

end Sys2Proof.Machine
end

