-- ==== Sys2Proof/Machine/Frame.lean ====
section
/-!
DEFINITION. The frame boundary and the plan boundary (R7, R8, R52, R117 to R122, R135, R192, R196, R199, R408, R417): everything that
happens each 5 µs and each 1 ms whatever is commanded.
-/
namespace Sys2Proof.Machine

/-! ## The ending frame -/

/-- Words of the frame's reads that failed in one copy (R339, R340); a word failing in both copies at different bytes counts once. -/
def Mod.engineCorr (m : Mod) (l : List (Nat × Nat × Nat)) : Mod :=
  ((l.map (fun e => (e.1, e.2.2))).eraseDups).foldl (fun m w =>
    m.correctWord w.1 w.2 ((l.filter (fun e => e.1 == w.1 && e.2.2 == w.2)).map (fun e => e.2.1)).eraseDups) m

/-- i_TB of a pole as its port carries it: in RUN the joined value, else what the member in force gives. -/
def Mod.portTB (m : Mod) (p : Nat) : Int := if m.inRun then rna ((m.bp p).iTB * 32) else (m.lawSt p (m.member p)).out

/-- Bytes of a port write (Table 05-7, R135): i_TB at Q5; the phase words of the core's phases; the observers' limits, states of charge and
temperatures in F16E6; of the other ports the bytes at the source. -/
def Mod.portBytes (m : Mod) (w : PortW) : List Nat :=
  match w.port with
  | 0 => sampleBytes (m.portTB 0)
  | 1 => sampleBytes (m.portTB 1)
  | 2 => ((List.range 40).filter (fun n => isStorage n == (w.core == 0))).flatMap m.wordOfPhase
  | 3 => (List.range 1024).flatMap (fun i =>
      let o := m.cellObs i
      [o.iE, o.iF, o.sb, o.tc].flatMap (fun v => leBytes 2 (f16Enc v)))
  | _ => w.bytes

/-- A published port write takes effect: the schedule's P_1 and the forecast wait for ring-B slot 0, published words stand at once. -/
def Mod.takePort (m : Mod) (w : PortW) : Mod :=
  match w.port with
  | 4 => { m with cen.schedNext := some (f16Dec (le w.bytes 0 2)) }
  | 5 => { m with cen.fcstNext := w.bytes }
  | 7 => { m with cen.pub := (List.range (w.bytes.length / 4)).foldl (fun l i =>
      Sparse.set (fun _ => 0) l ((w.idx + i) % 256) (le w.bytes (4 * i) 4)) m.cen.pub }
  | _ => m

/-- One core's figures of a published frame: the cycle its last bundle retired and the cycle of its last phase-command write (R119, R143). -/
def Mod.publishCore (m : Mod) (c : Nat) : Mod :=
  let l := issued m.actImg c m.frame
  let d := (sectionOf m.actImg 0x04 c).getD []
  m.puts [(R.CEN_END_END_LAST c, min 7680 (l.foldl (fun a b => max a (retired d b)) 0)), (R.CEN_END_CMD_LAST c, cmdCycle l)]

/-- The ending frame is published (R119, R135): the registers of its outputs, its port writes, the signature over them in issue order with core 0
first, the cores' figures. Outputs of a core that missed a window are stale (R132). -/
def Mod.publish (m : Mod) (ports : List PortW) : Mod :=
  let m := { m.puts m.cen.due with cen.stale := (m.cen.missAt.map (fun e => e.1 / 8)).eraseDups }
  let own := (List.range 4).flatMap (fun c => ports.filter (fun w => w.core == c))
  let sig := crc64 (own.flatMap m.portBytes)
  let m := own.foldl Mod.takePort m
  let m := m.puts [(R.CEN_SIG_LO_SIG, sig), (R.CEN_SIG_HI_SIG, sig / 2 ^ 32), (R.CEN_SIG_FRAME_FRAME, m.frame)]
  m.running.foldl Mod.publishCore m

/-- A frame in which a core's task set its saturation flag (R110, R139), published or not: counted, reported at most once per second. DESIGN CHOICE
(log 52): Table 10-1 names no ADDR for SAT; it is 0. -/
def Mod.countSat (m : Mod) (c : Nat) : Mod :=
  let m := (m.bump (R.CEN_SAT_CNT_COUNT c)).put R.CEN_EVT_SAT 1
  if m.is R.CEN_CFG_SAT_RPT then m.raiseLim tickS 8 c 6 0 0 else m

/-- The weave of the ending frame ran (R120); its outputs are published unless an engine fault stands (R130, R132, R137). -/
def Mod.endWeave (m : Mod) : Mod :=
  if !m.coresRun then m
  else
    let r := if m.cen.unpub then (m.work, m) else m.weave
    let m := r.1.ue.foldl (fun m e => m.engineUe (e.1, false, e.2)) r.2
    let m := if m.cen.unpub then m else m.publish r.1.ports
    m.cen.sat.eraseDups.foldl Mod.countSat m

/-- The ending frame closes: engine reads, the weave and its publication, its recorder block (not in HOLD-UP), cores that stop at its end. -/
def Mod.closeFrame (m : Mod) (x : Snap) : Mod :=
  let m := (x.ue.foldl Mod.engineUe m).engineCorr x.corr
  let m := m.endWeave
  let m := if 2 ≤ m.pstate then m.capFrame (m.frameBlock x.rows x.ls) else m
  let m := if m.cen.stop then m.stopCores else m
  { m with cen.unpub := false, cen.miss := false, cen.sat := [], cen.due := [], cen.missAt := [], cen.undo := none }

/-! ## Time -/

/-- Operating time runs in the AON domain (R352). -/
def Mod.operate (m : Mod) : Mod :=
  let u := m.get R.LOG_USEC_USEC + 5
  if u < 3600000000 then m.put R.LOG_USEC_USEC u
  else m.puts [(R.LOG_USEC_USEC, u - 3600000000), (R.LOG_HOURS_HOURS, min (m.get R.LOG_HOURS_HOURS + 1) (2 ^ 32 - 1))]

/-- One frame of 64,000 ticks passes: the local timebase, operating time, holdover's age (R255), the PPS output (R259). -/
def Mod.passTime (m : Mod) : Mod :=
  let m := ({ m with time.ticks := m.time.ticks + 64000 }).operate
  if !m.domainOn 17 then m
  else
    let m := if m.get R.TIM_STAT_STATE = 3 then ({ m with time.holdUs := m.time.holdUs + 5 }).showHold.syncValid else m
    if m.time.ppsPulse = 0 then m
    else { m with time.ppsPulse := m.time.ppsPulse - 1, pins.ppsOut := decide (1 < m.time.ppsPulse) }

/-! ## Input checks (R417, R418) -/

/-- A check inside limits, on a channel's frame mean over ten frames in a row; 10 mV. -/
def Mod.rangeCheck (m : Mod) (code ch : Nat) (applies : Bool) (v lo hi : Int) : Mod :=
  let key := code * 256 + ch
  let out := decide (v < lo ∨ hi < v)
  let n : Int := if applies && out then Sparse.get (fun _ => 0) m.pwr.filt key + 1 else 0
  let m := { m with pwr.filt := Sparse.set (fun _ => 0) m.pwr.filt key (min n 10) }
  if !applies then m.checkOffAt code ch
  else if out then (if 10 ≤ n then m.checkOn code ch v (if v < lo then lo else hi) else m)
  else if 102 * lo ≤ 100 * v ∧ 100 * v ≤ 98 * hi then m.checkOffAt code ch
  else m

/-- A check above a limit, on a mean; it ends `back` below the limit. -/
def Mod.levelCheck (m : Mod) (code ch : Nat) (v lim back : Int) : Mod :=
  if lim < v then m.checkOn code ch v lim else if v ≤ lim - back then m.checkOffAt code ch else m

/-- An upper limit that no input reaches. -/
def noLimit : Int := 2 ^ 31

/-- FEED_RANGE, STR_RANGE, BUS_PRE of a frame (Table 13-6). -/
def Mod.voltChecks (m : Mod) : Mod :=
  let v := fun (c : Nat) => rna (m.chanMean c * 100)
  let on := m.pageOn 10 && !m.inReset 10 0
  [0, 1].foldl (fun m p =>
    let m := m.rangeCheck 0x0101 (62 + p) on (v (62 + p)) 34000 46000
    let m := m.rangeCheck 0x0102 (58 + p) (on && m.ringFitted p) (v (58 + p)) 12000 34000
    m.rangeCheck 0x0103 (56 + p) (on && !m.inRun && m.get R.MOD_ROLE_CFG_RACK_SIZE != 1) (v (56 + p)) 39000 noLimit) m

/-- CP_WARM, CP_RISE, INLET_HOT, FLOW_DT on the means of 100 ms and of 1 s, in 0.1 °C and 0.1 K (Table 13-6). -/
def Mod.coolChecks (m : Mod) : Mod :=
  if !m.domainOn 12 then { m with pwr.cpSum := List.replicate 4 0, pwr.cpN := 0 }
  else
    let x := [m.chanLow 138, m.chanLow 139, m.chanLow 136, m.chanLow 137 - m.chanLow 136]
    let m := { m with pwr.cpSum := (m.pwr.cpSum.zip x).map (fun e => e.1 + e.2), pwr.cpN := m.pwr.cpN + 1 }
    if m.pwr.cpN < 20000 then m
    else
      let mean := fun (i : Nat) => rna (m.pwr.cpSum.getD i 0 / (m.pwr.cpN : Rat) / 10)
      let d := (mean 3 :: m.pwr.dts).take 10
      let m := { m with pwr.cp1 := (mean 0 :: m.pwr.cp1).take 51, pwr.cp2 := (mean 1 :: m.pwr.cp2).take 51,
                        pwr.dts := if d.length = 10 then [] else d, pwr.cpSum := List.replicate 4 0, pwr.cpN := 0 }
      let warm : Int := m.trpLimit 8 / 10 - 200
      let m := (m.levelCheck 0x0301 138 (mean 0) warm 10).levelCheck 0x0301 139 (mean 1) warm 10
      let rise := fun (l : List Int) => if l.length = 51 then l.getD 0 0 - l.getD 50 0 else 0
      let m := (m.levelCheck 0x0302 138 (rise m.pwr.cp1) 10 10).levelCheck 0x0302 139 (rise m.pwr.cp2) 10 10
      let m := m.levelCheck 0x0303 136 (mean 2) 500 10
      if d.length = 10 then m.levelCheck 0x0304 137 (rna (meanQ (d.map (fun (i : Int) => (i : Rat))))) 150 10 else m

/-- The checks of a frame, in every state but HOLD-UP and OFF. -/
def Mod.inputChecks (m : Mod) : Mod := if 2 ≤ m.pstate then m.voltChecks.coolChecks else m

/-! ## The new frame -/

/-- CEN_FRAME, CEN_SLOT, BWK_BUS (Tables 04-16, 02-26), the sums of string currents between sweeps, the bus voltages that RUN entry
starts from (R158). -/
def Mod.frameNumbers (m : Mod) : Mod :=
  let f := m.frame
  let m := m.puts [(R.CEN_FRAME_FRAME, f % 2 ^ 32), (R.CEN_SLOT_SLOT_A, f % 200), (R.CEN_SLOT_SLOT_B, f % 2000)]
  let m := m.shows [(R.BWK_BUS_POS_V_BUS, encU 16 (m.vBus 0 * 100)), (R.BWK_BUS_NEG_V_BUS, encU 16 (m.vBus 1 * 100)),
    (R.BWK_BUS_POS_V_SET, encU 16 (m.vSet 0 * 100)), (R.BWK_BUS_NEG_V_SET, encU 16 (m.vSet 1 * 100))]
  { m with cen.strSum := m.cen.strSum.mapIdx (fun p x => x + m.iStr p), cen.strN := m.cen.strN + 1,
           cen.preV := m.cen.preV.mapIdx (fun p l => (m.vBus p :: l).take 4) }

/-- Envelopes are formed at the first frame after observer outputs complete (R49); their age counts on. -/
def Mod.envFrame (m : Mod) : Mod :=
  let m := if m.cen.envNew then ({ m with cen.envNew := false }.formEnv 0).formEnv 1 else m
  m.envFresh.showEnv

/-- Ring-B slot 0 (R120, R151, R153): the forecast and the schedule that the last ring brought are published. -/
def Mod.ringB (m : Mod) : Mod :=
  if m.frame % 2000 ≠ 0 then m
  else { m with cen.fcst := if m.taskRuns 4 then m.cen.fcstNext else [], cen.sched := if m.taskRuns 3 then m.cen.schedNext else none }

/-- The configuration words of the pages whose fields the engine reads (BWK, TTB, CEN, PHS). -/
def Mod.cfgWords (m : Mod) : List Nat := [6, 7, 8, 9].flatMap (fun p => (List.range 16).map (fun i => (m.word (4096 * p + 64 + 4 * i)).toNat))

/-- The configuration words that differ from those of the last snapshot, as address and word. -/
def Mod.cfgChanges (m : Mod) : List Nat :=
  ((m.cfgWords.zip m.cen.regSeen).mapIdx (fun i e =>
    if e.1 = e.2 then [] else leBytes 4 (4096 * (6 + i / 16) + 64 + 4 * (i % 16)) ++ leBytes 4 e.1)).flatten

/-- The part of the snapshot that does not come from the AFE goes to the recorder's side area (R196): the sweep block, each received message,
register fields that take effect. -/
def Mod.sideSnap (m : Mod) : Mod :=
  let f := m.frame
  let m := if m.cen.sweepDue then m.capSide 2 f m.wch.data else m
  let m := (m.lnk.mailbox.take 16).foldl (fun m g => m.capSide 1 f g.body) m
  let c := m.cfgChanges
  let m := if c.isEmpty then m else m.capSide 3 f c
  { m with cen.regSeen := m.cfgWords }

/-- The input snapshot of the frame (R117): the AFE sample block, the frame number, the sweep block last delivered, the messages of the mailbox,
the register fields. The engine's copy is taken while a core runs. -/
def Mod.takeSnap (m : Mod) (x : Snap) : Mod :=
  let m := m.sideSnap
  if !m.coresRun then m
  else
    let afe := (x.rows.flatMap (fun r => r.flatMap sampleBytes)) ++ x.ls.flatMap sampleBytes
    let msgs := (m.lnk.mailbox.take 16).flatMap (fun g => leBytes 2 g.body.length ++ g.body)
    { m with cen.snap := afe ++ leBytes 8 m.frame ++ m.wch.data ++ msgs ++ m.cfgWords.flatMap (leBytes 4) }

/-- Window writes to core SRAM take effect at the boundary (R133); they are full writes of 8 bytes. -/
def Mod.applyWin (m : Mod) : Mod :=
  let m := m.cen.winDue.foldl (fun m e => m.dropDead (e.1 / sramSize) (e.1 % sramSize) 1) m
  { m with cen.sram := m.cen.winDue.foldl (fun r e => Sparse.set (fun _ => 0) r e.1 e.2) m.cen.sram, cen.winDue := [] }

/-- The laws outside RUN (R122): every member runs on, nothing is commanded. -/
def Mod.idleLaws (m : Mod) : Mod :=
  let c := m.get R.CEN_PRG_STAT_COEF
  (((m.envCurrents 0).envCurrents 1).stepLaws c 0).stepLaws c 1

/-- The breakwater, the tide table and the laws of a frame (R44 to R48, R70, R122, R163, R403): they run while core 0 runs, in RUN with their
commands. -/
def Mod.runFrame (m : Mod) : Mod :=
  let m := { m with cen.laws0 := m.cen.laws, cen.lastTB := m.bwk.pole.map (·.iTB) }
  let m := if m.get (coreSt 0) = 2 then m.spImage else m
  if !m.inRun then (if m.get (coreSt 0) = 2 then m.tideFrame.idleLaws else m.tideFrame)
  else if m.get (coreSt 0) ≠ 2 then m
  else
    let m : Mod := { m with pwr.change := match m.pwr.change with
      | .exit t j => .exit t (j + 1)
      | c => c }
    let m := ((m.spFrame.envCurrents 0).envCurrents 1).tideFrame
    let m := ((m.lawFrame 0).lawFrame 1).selFrame
    let m := (m.poleCommands 0).poleCommands 1
    let m := if m.exitJ.isSome then m else m.overflowFrame
    m.busFrame.moveStar

/-- STO_HOLD starts toggling (R408): STANDBY, RUN or SERVICE, the TRP page locked, no latch, no fatal bit. -/
def Mod.stoFrame (m : Mod) : Mod :=
  if (m.pstate == 2 || m.pstate == 3 || m.pstate == 5) && m.locked 19 && m.get R.TRP_LATCH_LATCH == 0 && m.get R.FLT_FATAL_BLK == 0 then
    { m with pins.stoHold := true }
  else m

/-- The engine takes in the messages of its mailbox, at most 16 a frame; staged firmware words go to the store. -/
def Mod.queuesFrame (m : Mod) : Mod :=
  let m := { m with lnk.mailbox := m.lnk.mailbox.drop 16 }
  let m := if m.mgt.fwOp = 0 && !m.mgt.staging.isEmpty then m.drainStaging 6 else m
  m.pumpAll

/-- What a frame of running clocks does after its boundary. -/
def Mod.openFrame (m : Mod) (x : Snap) : Mod :=
  let m := (m.applyStep.stateDue.applyWin.takeSnap x).sweepFrame
  let m := (m.afeFrame x.rows x.inst x.ls).stakesFrame
  let m := m.frameNumbers.envFrame
  let m := m.runFrame.sumFrame.pmbFrame
  let m := m.phaseFrame.ringB
  (m.stoFrame.inputChecks.judgeDroop).queuesFrame

/-- The divided clocks run: TIM on and the root PLL locked (R248). -/
def Mod.clocked (m : Mod) : Bool := m.domainOn 17 && m.is R.CLK_STAT_PLL_LOCK

/-- A frame boundary: with clocks stopped only time passes. -/
def Mod.boundary (m : Mod) (x : Snap) : Mod :=
  if m.clocked then ((m.closeFrame x).passTime).openFrame x else m.passTime

/-- FRAME_BOUNDARY (R117): the snapshot of the inputs that the boundary latches. -/
def execFrameBoundary (snap : Snap) (s : State) : Out := onMod (fun m => m.boundary snap) s

/-- PLAN_BOUNDARY (R52, R193, R467): the 1 ms boundary of the breakwater, the phases, the monitored channel and the PMBus mirror. -/
def execPlanBoundary (s : State) : Out := onMod (fun m =>
  if m.clocked then
    let k := m.bwk.sumN
    (((m.applyLoss.planBoundary).phasesMs).monitorMs k).pmbRefresh
  else m) s

end Sys2Proof.Machine
end

