-- ==== Sys2Proof/Machine/Dispatch.lean ====
section
/-!
DEFINITION. One arm per command: a direct call of its meaning.
-/
namespace Sys2Proof.Machine

/-- The effect of a command on everything but the queue of waiting commands. -/
def exec (i : Instr) (s : State) : Host.Outcome State Fault Refusal :=
  match i with
  | .powerOnReset strap rootCap => Sys2Proof.Machine.execPowerOnReset strap rootCap s
  | .level3Reset => Sys2Proof.Machine.execLevel3Reset s
  | .bootRomStage errA errB => Sys2Proof.Machine.execBootRomStage errA errB s
  | .bootLoaderStage => Sys2Proof.Machine.execBootLoaderStage s
  | .bootFirmwareStage => Sys2Proof.Machine.execBootFirmwareStage s
  | .bootStage3 => Sys2Proof.Machine.execBootStage3 s
  | .bootSetStage => Sys2Proof.Machine.execBootSetStage s
  | .heartbeatSend => Sys2Proof.Machine.execHeartbeatSend s
  | .heartbeatReceive west bytes => Sys2Proof.Machine.execHeartbeatReceive west bytes s
  | .leadHeartbeatTimeout => Sys2Proof.Machine.execLeadHeartbeatTimeout s
  | .electionComplete => Sys2Proof.Machine.execElectionComplete s
  | .peerLost pos => Sys2Proof.Machine.execPeerLost pos s
  | .mirrorSend => Sys2Proof.Machine.execMirrorSend s
  | .mirrorReceive bytes => Sys2Proof.Machine.execMirrorReceive bytes s
  | .shareReplan => Sys2Proof.Machine.execShareReplan s
  | .hostRequestRedirect tag => Sys2Proof.Machine.execHostRequestRedirect tag s
  | .hostSilenceTimeout => Sys2Proof.Machine.execHostSilenceTimeout s
  | .shareSilenceTimeout => Sys2Proof.Machine.execShareSilenceTimeout s
  | .frameBoundary snap => Sys2Proof.Machine.execFrameBoundary snap s
  | .overflowClear => Sys2Proof.Machine.execOverflowClear s
  | .busShore p => Sys2Proof.Machine.execBusShore p s
  | .envStaleTimeout p => Sys2Proof.Machine.execEnvStaleTimeout p s
  | .stoOffTimeout p => Sys2Proof.Machine.execStoOffTimeout p s
  | .planBoundary => Sys2Proof.Machine.execPlanBoundary s
  | .telemSend => Sys2Proof.Machine.execTelemSend s
  | .telemReceive bytes => Sys2Proof.Machine.execTelemReceive bytes s
  | .rackDrawReport => Sys2Proof.Machine.execRackDrawReport s
  | .shareSend => Sys2Proof.Machine.execShareSend s
  | .shareReceive bytes => Sys2Proof.Machine.execShareReceive bytes s
  | .bwkCapHostWrite v => Sys2Proof.Machine.execBwkCapHostWrite v s
  | .bwkClrDev dev => Sys2Proof.Machine.execBwkClrDev dev s
  | .missedEdge => Sys2Proof.Machine.execMissedEdge s
  | .lullTimeout => Sys2Proof.Machine.execLullTimeout s
  | .stepUpdateDone => Sys2Proof.Machine.execStepUpdateDone s
  | .markerReceive bytes fromRing => Sys2Proof.Machine.execMarkerReceive bytes fromRing s
  | .markerStepHoldEnd => Sys2Proof.Machine.execMarkerStepHoldEnd s
  | .ttbCmdDropLock => Sys2Proof.Machine.execTtbCmdDropLock s
  | .ttbCmdClearSlot n => Sys2Proof.Machine.execTtbCmdClearSlot n s
  | .ttbTabWrite hi => Sys2Proof.Machine.execTtbTabWrite hi s
  | .ttbTabRead => Sys2Proof.Machine.execTtbTabRead s
  | .ttbLossDataAccess w => Sys2Proof.Machine.execTtbLossDataAccess w s
  | .cenCtlStart => Sys2Proof.Machine.execCenCtlStart s
  | .coresStart => Sys2Proof.Machine.execCoresStart s
  | .cenCtlStop => Sys2Proof.Machine.execCenCtlStop s
  | .cenWinWrite hi => Sys2Proof.Machine.execCenWinWrite hi s
  | .cenWinRead => Sys2Proof.Machine.execCenWinRead s
  | .cenSwapWrite v => Sys2Proof.Machine.execCenSwapWrite v s
  | .bankSwap => Sys2Proof.Machine.execBankSwap s
  | .cmdLate core => Sys2Proof.Machine.execCmdLate core s
  | .overrun core => Sys2Proof.Machine.execOverrun core s
  | .dmaMiss core ch cycle => Sys2Proof.Machine.execDmaMiss core ch cycle s
  | .cenLawSelWrite v => Sys2Proof.Machine.execCenLawSelWrite v s
  | .hoDefer => Sys2Proof.Machine.execHoDefer s
  | .cenSpTgtWrite v => Sys2Proof.Machine.execCenSpTgtWrite v s
  | .spLag => Sys2Proof.Machine.execSpLag s
  | .cenStageSeal => Sys2Proof.Machine.execCenStageSeal s
  | .stageCheckDone => Sys2Proof.Machine.execStageCheckDone s
  | .phaseShedStart conv => Sys2Proof.Machine.execPhaseShedStart conv s
  | .phaseRotation => Sys2Proof.Machine.execPhaseRotation s
  | .phsCmdRotNow => Sys2Proof.Machine.execPhsCmdRotNow s
  | .phsCmdPkClr => Sys2Proof.Machine.execPhsCmdPkClr s
  | .phsRearmWrite hi v => Sys2Proof.Machine.execPhsRearmWrite hi v s
  | .brakeEnd n sample => Sys2Proof.Machine.execBrakeEnd n sample s
  | .softStartShort p => Sys2Proof.Machine.execSoftStartShort p s
  | .phOcShore n samples => Sys2Proof.Machine.execPhOcShore n samples s
  | .phImb n => Sys2Proof.Machine.execPhImb n s
  | .phSense p => Sys2Proof.Machine.execPhSense p s
  | .statusFrameReceive link bytes => Sys2Proof.Machine.execStatusFrameReceive link bytes s
  | .phaseLinkDown link => Sys2Proof.Machine.execPhaseLinkDown link s
  | .phaseLinkTrained link trips completed => Sys2Proof.Machine.execPhaseLinkTrained link trips completed s
  | .afeOpenDetect c => Sys2Proof.Machine.execAfeOpenDetect c s
  | .afeOpenEnd c => Sys2Proof.Machine.execAfeOpenEnd c s
  | .afeClrOpen => Sys2Proof.Machine.execAfeClrOpen s
  | .afeMonSelWrite ch => Sys2Proof.Machine.execAfeMonSelWrite ch s
  | .recorderFrozen => Sys2Proof.Machine.execRecorderFrozen s
  | .capCmdFreeze => Sys2Proof.Machine.execCapCmdFreeze s
  | .capCmdRearm => Sys2Proof.Machine.execCapCmdRearm s
  | .capWinRead err => Sys2Proof.Machine.execCapWinRead err s
  | .cliffTrip cmp phase value => Sys2Proof.Machine.execCliffTrip cmp phase value s
  | .comparatorRelease cmp phase value => Sys2Proof.Machine.execComparatorRelease cmp phase value s
  | .comparatorSelfTest ok => Sys2Proof.Machine.execComparatorSelfTest ok s
  | .trpClrLatch => Sys2Proof.Machine.execTrpClrLatch s
  | .chainBringup ring scan => Sys2Proof.Machine.execChainBringup ring scan s
  | .chainBringupRetry ring scan => Sys2Proof.Machine.execChainBringupRetry ring scan s
  | .wchCmdEnum scan0 scan1 => Sys2Proof.Machine.execWchCmdEnum scan0 scan1 s
  | .sweepStart ping0 ping1 => Sys2Proof.Machine.execSweepStart ping0 ping1 s
  | .sweepDataComposed blocks => Sys2Proof.Machine.execSweepDataComposed blocks s
  | .alarmReceive ring arg => Sys2Proof.Machine.execAlarmReceive ring arg s
  | .owtCycleStart => Sys2Proof.Machine.execOwtCycleStart s
  | .wchCmdOwtNow => Sys2Proof.Machine.execWchCmdOwtNow s
  | .wchCmdRearm mon => Sys2Proof.Machine.execWchCmdRearm mon s
  | .wchBalDataWrite v => Sys2Proof.Machine.execWchBalDataWrite v s
  | .wchCellDataRead => Sys2Proof.Machine.execWchCellDataRead s
  | .pllLock => Sys2Proof.Machine.execPllLock s
  | .pllLockLoss => Sys2Proof.Machine.execPllLockLoss s
  | .pllRelockRetry locked => Sys2Proof.Machine.execPllRelockRetry locked s
  | .refLost src => Sys2Proof.Machine.execRefLost src s
  | .refRestore src => Sys2Proof.Machine.execRefRestore src s
  | .beaconSend fleet => Sys2Proof.Machine.execBeaconSend fleet s
  | .beaconReceive link ofs valid holdover gen root depth upHere => Sys2Proof.Machine.execBeaconReceive link ofs valid holdover gen root depth upHere s
  | .timeSourceLost => Sys2Proof.Machine.execTimeSourceLost s
  | .ppsEdge dev falling => Sys2Proof.Machine.execPpsEdge dev falling s
  | .ppsLost => Sys2Proof.Machine.execPpsLost s
  | .ppsOutPulse => Sys2Proof.Machine.execPpsOutPulse s
  | .timTodWrite hi => Sys2Proof.Machine.execTimTodWrite hi s
  | .timNowRead => Sys2Proof.Machine.execTimNowRead s
  | .rootTimeout => Sys2Proof.Machine.execRootTimeout s
  | .rootHoldoverTimeout => Sys2Proof.Machine.execRootHoldoverTimeout s
  | .stakeCommit data7 => Sys2Proof.Machine.execStakeCommit data7 s
  | .stakeFire bad => Sys2Proof.Machine.execStakeFire bad s
  | .stakeExpire n => Sys2Proof.Machine.execStakeExpire n s
  | .stkCmdArrive n => Sys2Proof.Machine.execStkCmdArrive n s
  | .arriveReceive bytes => Sys2Proof.Machine.execArriveReceive bytes s
  | .releaseReceive bytes => Sys2Proof.Machine.execReleaseReceive bytes s
  | .barrierDeadline n => Sys2Proof.Machine.execBarrierDeadline n s
  | .portLight p => Sys2Proof.Machine.execPortLight p s
  | .portTrained p oneLane peerAddr peerPort host rxLseq dly win => Sys2Proof.Machine.execPortTrained p oneLane peerAddr peerPort host rxLseq dly win s
  | .portDown p => Sys2Proof.Machine.execPortDown p s
  | .laneLoss p => Sys2Proof.Machine.execLaneLoss p s
  | .portRetrain p => Sys2Proof.Machine.execPortRetrain p s
  | .portFailEnd p => Sys2Proof.Machine.execPortFailEnd p s
  | .lnkCmdRetrain p => Sys2Proof.Machine.execLnkCmdRetrain p s
  | .idleSend p => Sys2Proof.Machine.execIdleSend p s
  | .linkFrameReceive p bytes bad => Sys2Proof.Machine.execLinkFrameReceive p bytes bad s
  | .retryTimeout p bad => Sys2Proof.Machine.execRetryTimeout p bad s
  | .stopmapSend => Sys2Proof.Machine.execStopmapSend s
  | .chStall c => Sys2Proof.Machine.execChStall c s
  | .messageAged p c => Sys2Proof.Machine.execMessageAged p c s
  | .routeSend => Sys2Proof.Machine.execRouteSend s
  | .routeReceive link bytes => Sys2Proof.Machine.execRouteReceive link bytes s
  | .routeAgeOut a => Sys2Proof.Machine.execRouteAgeOut a s
  | .pathHoldEnd d => Sys2Proof.Machine.execPathHoldEnd d s
  | .regReadRequest host src tag bytes => Sys2Proof.Machine.execRegReadRequest host src tag bytes s
  | .regWriteRequest host src tag bytes => Sys2Proof.Machine.execRegWriteRequest host src tag bytes s
  | .planReceive bytes => Sys2Proof.Machine.execPlanReceive bytes s
  | .planEnd => Sys2Proof.Machine.execPlanEnd s
  | .hostCmdReceive bytes => Sys2Proof.Machine.execHostCmdReceive bytes s
  | .faultMessageSend => Sys2Proof.Machine.execFaultMessageSend s
  | .faultMessageReceive bytes => Sys2Proof.Machine.execFaultMessageReceive bytes s
  | .opticalDiag p tx0 tx1 rx0 rx1 rl => Sys2Proof.Machine.execOpticalDiag p tx0 tx1 rx0 rx1 rl s
  | .lnkCmdBase p => Sys2Proof.Machine.execLnkCmdBase p s
  | .lnkCmdPoolMinClr => Sys2Proof.Machine.execLnkCmdPoolMinClr s
  | .reportIntake bad => Sys2Proof.Machine.execReportIntake bad s
  | .slackExpiry => Sys2Proof.Machine.execSlackExpiry s
  | .level1ResetDone blk inst => Sys2Proof.Machine.execLevel1ResetDone blk inst s
  | .shadowEnd blk inst => Sys2Proof.Machine.execShadowEnd blk inst s
  | .dispHandled => Sys2Proof.Machine.execDispHandled s
  | .dispEscalate => Sys2Proof.Machine.execDispEscalate s
  | .dispExtend => Sys2Proof.Machine.execDispExtend s
  | .dispHold => Sys2Proof.Machine.execDispHold s
  | .fltClrLatch => Sys2Proof.Machine.execFltClrLatch s
  | .fltClrFatal => Sys2Proof.Machine.execFltClrFatal s
  | .fltClrFirst => Sys2Proof.Machine.execFltClrFirst s
  | .fltClrStat => Sys2Proof.Machine.execFltClrStat s
  | .fltRecSeqWrite v => Sys2Proof.Machine.execFltRecSeqWrite v s
  | .forceInject p kind inst cond => Sys2Proof.Machine.execForceInject p kind inst cond s
  | .forceClear p kind inst => Sys2Proof.Machine.execForceClear p kind inst s
  | .queueOvf => Sys2Proof.Machine.execQueueOvf s
  | .scrubRead st fail => Sys2Proof.Machine.execScrubRead st fail s
  | .dramScrubRead tile err => Sys2Proof.Machine.execDramScrubRead tile err s
  | .memCmdScrubNow => Sys2Proof.Machine.execMemCmdScrubNow s
  | .fetchTrap addr => Sys2Proof.Machine.execFetchTrap addr s
  | .fetchTrapDone => Sys2Proof.Machine.execFetchTrapDone s
  | .mgtDmaHalt ch st addr => Sys2Proof.Machine.execMgtDmaHalt ch st addr s
  | .memCmdDmaResume ch => Sys2Proof.Machine.execMemCmdDmaResume ch s
  | .logEnqueue => Sys2Proof.Machine.execLogEnqueue s
  | .logRecordWrite ok bad => Sys2Proof.Machine.execLogRecordWrite ok bad s
  | .foldFlush => Sys2Proof.Machine.execFoldFlush s
  | .tokenRefill => Sys2Proof.Machine.execTokenRefill s
  | .operatingTimeSave => Sys2Proof.Machine.execOperatingTimeSave s
  | .logPowerupCheck => Sys2Proof.Machine.execLogPowerupCheck s
  | .logCmdErase => Sys2Proof.Machine.execLogCmdErase s
  | .logEraseDone => Sys2Proof.Machine.execLogEraseDone s
  | .logRdIdxWrite v => Sys2Proof.Machine.execLogRdIdxWrite v s
  | .logRdStreamRead => Sys2Proof.Machine.execLogRdStreamRead s
  | .logNoteWrite v => Sys2Proof.Machine.execLogNoteWrite v s
  | .lockstep addr => Sys2Proof.Machine.execLockstep addr s
  | .wdogExpiry => Sys2Proof.Machine.execWdogExpiry s
  | .mgtWdogKick => Sys2Proof.Machine.execMgtWdogKick s
  | .sensorSample v => Sys2Proof.Machine.execSensorSample v s
  | .mgtCmdSensClr => Sys2Proof.Machine.execMgtCmdSensClr s
  | .secCmdDataWrite v => Sys2Proof.Machine.execSecCmdDataWrite v s
  | .provision fuseOk entropyOk => Sys2Proof.Machine.execProvision fuseOk entropyOk s
  | .certStore => Sys2Proof.Machine.execCertStore s
  | .enterField fuseOk => Sys2Proof.Machine.execEnterField fuseOk s
  | .debug => Sys2Proof.Machine.execDebug s
  | .eraseGrant => Sys2Proof.Machine.execEraseGrant s
  | .svnAdvance fuseOk => Sys2Proof.Machine.execSvnAdvance fuseOk s
  | .returnCmd fuseOk => Sys2Proof.Machine.execReturnCmd fuseOk s
  | .secDbgCmdWrite v => Sys2Proof.Machine.execSecDbgCmdWrite v s
  | .debugGrantExpiry => Sys2Proof.Machine.execDebugGrantExpiry s
  | .attestationRequest v => Sys2Proof.Machine.execAttestationRequest v s
  | .attestationReady => Sys2Proof.Machine.execAttestationReady s
  | .secMrExtend v => Sys2Proof.Machine.execSecMrExtend v s
  | .secMrSelWrite v => Sys2Proof.Machine.execSecMrSelWrite v s
  | .secAttDataRead => Sys2Proof.Machine.execSecAttDataRead s
  | .secCertDataAccess wr v => Sys2Proof.Machine.execSecCertDataAccess wr v s
  | .mgtFwDataWrite v => Sys2Proof.Machine.execMgtFwDataWrite v s
  | .mgtFwErase => Sys2Proof.Machine.execMgtFwErase s
  | .fwEraseDone => Sys2Proof.Machine.execFwEraseDone s
  | .mgtFwVerify => Sys2Proof.Machine.execMgtFwVerify s
  | .fwVerifyDone readErr => Sys2Proof.Machine.execFwVerifyDone readErr s
  | .mgtFwActivate => Sys2Proof.Machine.execMgtFwActivate s
  | .mgtFwConfirm fuseOk => Sys2Proof.Machine.execMgtFwConfirm fuseOk s
  | .mgtFwCancel => Sys2Proof.Machine.execMgtFwCancel s
  | .confirmTmo => Sys2Proof.Machine.execConfirmTmo s
  | .mgtDbgHalt target => Sys2Proof.Machine.execMgtDbgHalt target s
  | .mgtDbgStep target => Sys2Proof.Machine.execMgtDbgStep target s
  | .mgtDbgResume target => Sys2Proof.Machine.execMgtDbgResume target s
  | .mgtDbgDataAccess wr v => Sys2Proof.Machine.execMgtDbgDataAccess wr v s
  | .requestRun => Sys2Proof.Machine.execRequestRun s
  | .requestStandby => Sys2Proof.Machine.execRequestStandby s
  | .requestService => Sys2Proof.Machine.execRequestService s
  | .runEntry => Sys2Proof.Machine.execRunEntry s
  | .runExitDone => Sys2Proof.Machine.execRunExitDone s
  | .holdupEntry => Sys2Proof.Machine.execHoldupEntry s
  | .holdupFlushDone fails => Sys2Proof.Machine.execHoldupFlushDone fails s
  | .holdupDomainsOff links => Sys2Proof.Machine.execHoldupDomainsOff links s
  | .auxReturn => Sys2Proof.Machine.execAuxReturn s
  | .holdupExhausted => Sys2Proof.Machine.execHoldupExhausted s
  | .checkOccurrence => Sys2Proof.Machine.execCheckOccurrence s
  | .pwrOnWrite v => Sys2Proof.Machine.execPwrOnWrite v s
  | .domainPowerGood d => Sys2Proof.Machine.execDomainPowerGood d s
  | .onFail d => Sys2Proof.Machine.execOnFail d s
  | .pgLost d => Sys2Proof.Machine.execPgLost d s
  | .auxOv => Sys2Proof.Machine.execAuxOv s
  | .huCharge => Sys2Proof.Machine.execHuCharge s
  | .huCapMeasure cap => Sys2Proof.Machine.execHuCapMeasure cap s
  | .registerWrite a v => Sys2Proof.Machine.execRegisterWrite a v s
  | .blkLockWrite p v => Sys2Proof.Machine.execBlkLockWrite p v s
  | .blkCtlCntClr p => Sys2Proof.Machine.execBlkCtlCntClr p s
  | .pmbTransaction addr rd cmd data pec => Sys2Proof.Machine.execPmbTransaction addr rd cmd data pec s
  | .pmbSclTimeout => Sys2Proof.Machine.execPmbSclTimeout s
  | .pmStuck => Sys2Proof.Machine.execPmStuck s
  | .smbusAlertResponse => Sys2Proof.Machine.execSmbusAlertResponse s
  | .page w pec => Sys2Proof.Machine.execPage w pec s
  | .clearFaults pec => Sys2Proof.Machine.execClearFaults pec s
  | .pmbClrFaults => Sys2Proof.Machine.execPmbClrFaults s
  | .capability => Sys2Proof.Machine.execCapability s
  | .voutMode => Sys2Proof.Machine.execVoutMode s
  | .statusByte => Sys2Proof.Machine.execStatusByte s
  | .statusWord => Sys2Proof.Machine.execStatusWord s
  | .statusVout => Sys2Proof.Machine.execStatusVout s
  | .statusIout => Sys2Proof.Machine.execStatusIout s
  | .statusInput => Sys2Proof.Machine.execStatusInput s
  | .statusTemperature => Sys2Proof.Machine.execStatusTemperature s
  | .statusCml => Sys2Proof.Machine.execStatusCml s
  | .readVin => Sys2Proof.Machine.execReadVin s
  | .readIin => Sys2Proof.Machine.execReadIin s
  | .readVout => Sys2Proof.Machine.execReadVout s
  | .readIout => Sys2Proof.Machine.execReadIout s
  | .readTemperature1 => Sys2Proof.Machine.execReadTemperature1 s
  | .readTemperature2 => Sys2Proof.Machine.execReadTemperature2 s
  | .readTemperature3 => Sys2Proof.Machine.execReadTemperature3 s
  | .readPout => Sys2Proof.Machine.execReadPout s
  | .readPin => Sys2Proof.Machine.execReadPin s
  | .pmbusRevision => Sys2Proof.Machine.execPmbusRevision s
  | .mfrId => Sys2Proof.Machine.execMfrId s
  | .mfrModel => Sys2Proof.Machine.execMfrModel s
  | .mfrRevision => Sys2Proof.Machine.execMfrRevision s
  | .mfrReadSoc => Sys2Proof.Machine.execMfrReadSoc s
  | .mfrReadPsto => Sys2Proof.Machine.execMfrReadPsto s
  | .mfrReadPlan => Sys2Proof.Machine.execMfrReadPlan s
  | .mfrState => Sys2Proof.Machine.execMfrState s
  | .mfrFltSeq => Sys2Proof.Machine.execMfrFltSeq s
  | .timeLost => Sys2Proof.Machine.execTimeLost s
  | .sclReleased => Sys2Proof.Machine.execSclReleased s
  | .auxOvClear => Sys2Proof.Machine.execAuxOvClear s

end Sys2Proof.Machine
end

