-- ==== Sys2Proof/Safety.lean ====
section
/-!
DEFINITION. The terms that claims are stated in: what a command answers, what it leaves alone (parts of the module, fields of registers),
fuses that only burn (R343, R382, R387), memories in canonical form, a module that is served.
-/
namespace Sys2Proof.Machine

/-- The parts of a module beside its register file: the fields of `Mod`. -/
inductive Part where
  | freeCtr | rdata | resp | pins | time | flt | mem | log | nv | roles | plan | lnk | stk | mgt | sec | pwr | pmb | phs | afe | cap | trp | bwk | ttb | cen | wch
  deriving DecidableEq, Repr

/-- Two modules agree in a part. -/
def Mod.samePart (a b : Mod) : Part → Prop
  | .freeCtr => a.freeCtr = b.freeCtr
  | .rdata => a.rdata = b.rdata
  | .resp => a.resp = b.resp
  | .pins => a.pins = b.pins
  | .time => a.time = b.time
  | .flt => a.flt = b.flt
  | .mem => a.mem = b.mem
  | .log => a.log = b.log
  | .nv => a.nv = b.nv
  | .roles => a.roles = b.roles
  | .plan => a.plan = b.plan
  | .lnk => a.lnk = b.lnk
  | .stk => a.stk = b.stk
  | .mgt => a.mgt = b.mgt
  | .sec => a.sec = b.sec
  | .pwr => a.pwr = b.pwr
  | .pmb => a.pmb = b.pmb
  | .phs => a.phs = b.phs
  | .afe => a.afe = b.afe
  | .cap => a.cap = b.cap
  | .trp => a.trp = b.trp
  | .bwk => a.bwk = b.bwk
  | .ttb => a.ttb = b.ttb
  | .cen => a.cen = b.cen
  | .wch => a.wch = b.wch

/-- From `a` to `b` no part changes but those of `ps`; the register file is judged by `onlyFields`. -/
def Mod.onlyParts (a : Mod) (ps : List Part) (b : Mod) : Prop := ∀ p, p ∉ ps → Mod.samePart b a p

/-- Two fields share no bit. -/
def Fld.apart (f g : Fld) : Prop := f.addr ≠ g.addr ∨ g.lo + g.w ≤ f.lo ∨ f.lo + f.w ≤ g.lo

/-- From `a` to `b` every register field reads the same but those that share a bit with a field of `fs`. -/
def Mod.onlyFields (a : Mod) (fs : List Fld) (b : Mod) : Prop := ∀ g : Fld, (∀ f ∈ fs, f.apart g) → b.get g = a.get g

/-- The fields that a report of block `b` may change (R308, R310, R330); SAT and SAT_OFF of the FLT page when the count of discarded reports
saturates (R456). -/
def repFlds (b : Nat) : List Fld :=
  [R.FLT_LATCH_BLK, R.FLT_FATAL_BLK, R.FLT_STAT_SAFE_REQ, R.FLT_ACTIVE_BLK, R.BLK_FLT_ACTIVE b, R.BLK_FLT_FORCED b, R.FLT_DROP_CNT_COUNT,
    R.FLT_STAT_QUEUE_OVF, R.BLK_STAT_SAT 14, R.BLK_STAT_SAT_OFF 14]

/-- The frame of a command: fuses and queue stay, of the module only the parts `ps` change, of its registers only the fields `fs`. -/
def State.frame (s : State) (ps : List Part) (fs : List Fld) (t : State) : Prop :=
  t.fuses = s.fuses ∧ t.pending = s.pending ∧ s.m.onlyParts ps t.m ∧ s.m.onlyFields fs t.m

/-- The command answers a next state, and that state satisfies `P`. -/
def Does (c : Instr) (s : State) (P : State → Prop) : Prop := ∃ t, exec c s = .next t ∧ P t

/-- The collector takes a report of this block and inst: the block is on, not held in a level-1 reset, and both queues have room (R322,
R330, R333). -/
abbrev Mod.takes (m : Mod) (blk inst : Nat) : Prop :=
  m.inReset blk inst = false ∧ m.pageOn blk = true ∧ m.flt.lane.length < 64 ∧ m.flt.queue.length < 512

/-- The newest report of the collector's fatal lane (fatal class) or of its queue (the other classes) is `r`. -/
abbrev Mod.tells (m : Mod) (r : Rep) : Prop := if r.cls = 2 then m.flt.lane.getLast? = some r else m.flt.queue.getLast? = some r

/-- The newest record on its way to the log has this TYPE and CODE. -/
def Mod.logs (m : Mod) (typ code : Nat) : Prop := ∃ a, m.log.arr.getLast? = some a ∧ a.entry.typ = typ ∧ a.entry.code = code

/-- Every fuse that is burnt in the first bank is burnt in the second: lifecycle and choice fuses, the anti-rollback count, the factory
repair entries, and the field repair entries in their order. -/
def Fuses.le (a b : Fuses) : Prop :=
  (a.provisioned = true → b.provisioned = true) ∧ (a.field = true → b.field = true) ∧ (a.returned = true → b.returned = true) ∧
    (a.keepLog = true → b.keepLog = true) ∧ a.svn ≤ b.svn ∧ a.factoryRows = b.factoryRows ∧ a.fieldRows <+: b.fieldRows

/-- The bank `a` has been burnt into the module's fuses. -/
def State.burnt (a : Fuses) (s : State) : Prop := Fuses.le a s.fuses

/-- The register file and the stores of the module stand in their canonical form. -/
def Mod.storesWf (m : Mod) : Bool :=
  Sparse.wf regReset m.regs && Sparse.wf slotDflt m.nv.slots && Sparse.wf (fun _ => 0) m.cen.bank && Sparse.wf (fun _ => 0) m.cen.sram &&
    Sparse.wf stakeDflt m.stk.recs && Sparse.wf lossDflt m.ttb.loss && Sparse.wf (fun _ => 0) m.ttb.tab

/-- The module serves commands: it is not OFF (R392, R399). -/
abbrev State.on (s : State) : Prop := s.m.pstate ≠ 0

/-- The fields that show a port's state (Table 09-3). -/
def portFlds (p : Nat) : List Fld := [R.LNK_PSTAT_STATE p, R.LNK_STAT_UP, R.LNK_STAT_ONE_LANE, R.LNK_STAT_FAIL]

/-- The good-bit of a reference by the operand's coding: 0 XO, 1 FAC, 2 REC. -/
def refFld (src : Fin 3) : Fld :=
  if src.val = 0 then R.CLK_STAT_XO_OK else if src.val = 1 then R.CLK_STAT_FAC_OK else R.CLK_STAT_REC_OK

/-- The record a write of STK_DATA7 commits: the window's eight words, the last replaced. -/
def stkRec (m : Mod) (d7 : Word) : List Nat := ((bank 8 m.stk.buf 0).set 7 d7.toNat).flatMap (leBytes 4)

/-- Bit of a channel in the five AFE_OPEN registers. -/
def openBit (m : Mod) (c : Nat) : Bool := bit (m.word (0xA080 + 4 * (c / 32))).toNat (c % 32)

/-- The state field of a ring, its READY bit and its NFOUND field. -/
def ringSt (r : Nat) : Fld := ringFld r R.WCH_STAT_ST0 R.WCH_STAT_ST1
def ringRdy (r : Nat) : Fld := ringFld r R.WCH_STAT_READY0 R.WCH_STAT_READY1
def ringFound (r : Nat) : Fld := ringFld r R.WCH_RING0_STAT_NFOUND R.WCH_RING1_STAT_NFOUND

/-- The newest record of the window is one of this block, kind, class and ADDR, with the SEQ and frame of its intake. -/
def newest (s t : State) (blk kind cls addr : Nat) : Prop :=
  ∃ w ∈ t.m.flt.window.head?, w.seq = s.m.get R.FLT_SEQ_NEXT ∧ w.blk = blk ∧ w.kind = kind ∧ w.cls = cls ∧ w.addr = addr ∧
    w.frame = s.m.frame % 2 ^ 32

/-- The fields that show the firmware store and its window. -/
def fwFlds : List Fld :=
  [R.MGT_SLOTA_SVN, R.MGT_SLOTA_VALID, R.MGT_SLOTA_CONFIRMED, R.MGT_SLOTA_PREFERRED, R.MGT_BUILDA_BUILD, R.MGT_SLOTB_SVN, R.MGT_SLOTB_VALID,
    R.MGT_SLOTB_CONFIRMED, R.MGT_SLOTB_PREFERRED, R.MGT_BUILDB_BUILD, R.MGT_FW_STAT_BUSY, R.MGT_FW_STAT_FULL]

/-- The window holds the command `k`, the write of GO is let through, and the checks of R381 pass. -/
abbrev State.trusts (s : State) (k : Nat) : Prop :=
  s.on ∧ s.m.cmdCode = k ∧ s.m.wrStatus 0x120A8 1 = 0 ∧ s.m.cmdResult s.fuses = 0

/-- Why stage 0 does not take a slot, after its own measurement; 0 it does (R373). `errA`, `errB`: the slot cannot be read. -/
def State.romCode (s : State) (errA errB b : Bool) : Nat :=
  (s.m.romMeasure s.fuses).bootCode s.fuses b (if b then errB else errA)

/-- The slot stage 0 takes, and the boot stage it ends in: 0 with a slot, 7 (recovery) when both fail (R373, R374). -/
def State.romSlot (s : State) (errA errB : Bool) : Bool := if s.romCode errA errB s.m.chosenSlot = 0 then s.m.chosenSlot else !s.m.chosenSlot
def State.romEnd (s : State) (errA errB : Bool) : Nat := if s.romCode errA errB (s.romSlot errA errB) = 0 then 0 else 7

/-- The fields that the end of a trust command writes. -/
def cmdFlds : List Fld := [R.SEC_CMD_STAT_RESULT, R.SEC_CMD_STAT_DONE, R.SEC_CMD_STAT_LAST_CMD] ++ (List.range 4).map R.SEC_CHAL_CHAL

/-- A trust command has ended with RESULT `res`, and the challenge is the `n`-th free value (R381). -/
def Mod.ended (m : Mod) (k res n : Nat) : Prop :=
  m.get R.SEC_CMD_STAT_RESULT = res ∧ m.get R.SEC_CMD_STAT_DONE = 1 ∧ m.get R.SEC_CMD_STAT_LAST_CMD = k ∧ m.resp = 0 ∧
    ∀ i < 4, m.get (R.SEC_CHAL_CHAL i) = le (Config.entropy n) (4 * i) 4 % 2 ^ 32

end Sys2Proof.Machine
end

