-- ==== Sys2Proof/Certificates/Slice0/Obligations.lean ====
section
/-!
DEFINITION. The statements of this model, for the provers: the block and its queue, then the commands of each family: what each does when it
answers, and what it leaves alone.
-/
open Sys2Proof Sys2Proof.Machine

/-- A step runs the command at the front of the queue, on the state with the queue's rest. -/
def Obligations.StepTakesFront : Prop :=
  ∀ (c : Instr) (s : State), step { s with pending := c :: s.pending } = exec c s

/-- A step that runs a command leaves exactly the rest of the queue: no command changes the queue. -/
def Obligations.QueueRest : Prop :=
  ∀ (s t : State) (c : Instr) (r : List Instr), s.pending = c :: r → step s = .next t → t.pending = r

/-- Every command of the table is carried out in every state and with every operand: for each of the 268 constructors (resets and boot, roles,
shares and plans, breakwater, tide table, engine, phases, AFE, recorder, chains, clocks and time, stakes, ports, links, collector, stores,
log, firmware, trust, debug, power, PMBus, register words and transactions) exec answers a next state. No row ends in a fault or a
refusal: what a rule turns away (R400, R452, R460) answers STATUS or a refused bit, and goes on. The queue of waiting commands stays, and
no fuse is taken back. -/
def Obligations.EveryCommandCompletes : Prop :=
  ∀ (c : Instr) (s : State), ∃ t, exec c s = .next t ∧ t.pending = s.pending ∧ Fuses.le s.fuses t.fuses

/-- In OFF nothing is served and nothing runs: every command but the power-on reset leaves the state as it is (R399, and the model's reading
of Table 13-1 in log 20). -/
def Obligations.OffServesNothing : Prop :=
  ∀ (s : State) (c : Instr), s.m.pstate = 0 → (∀ strap rc, c ≠ .powerOnReset strap rc) → exec c s = .next s

/-- The state right after the release of power-on reset (R405, R455): STANDBY by CAUSE 4, boot stage 0, PWR_ON 0x000A_000F, no page locked, no
report, no record, no command waiting. The blank bank is burnt into the module at reset: the premise of FusesOnlyBurn holds there. That
queues and stores start empty, and the blank fuse bank, are the model's choice (logs 5, 10, 18). -/
def Obligations.ResetState : Prop :=
  State.reset.m.pstate = 2 ∧ State.reset.m.get R.MGT_PSTATE_CAUSE = 4 ∧ State.reset.m.get R.MGT_BOOT_STAGE = 0 ∧
    State.reset.m.word 0x2044 = 0x000A000F ∧ (∀ p < 21, State.reset.m.locked p = false) ∧ State.reset.m.flt.lane = [] ∧
    State.reset.m.flt.queue = [] ∧ State.reset.m.get R.FLT_ACTIVE_BLK = 0 ∧ State.reset.m.get R.TIM_STAT_VALID = 0 ∧
    State.reset.pending = [] ∧ State.reset.m.storesWf = true ∧
  State.reset.burnt State.reset.fuses ∧ State.reset.burnt {}

/-- Fuses only burn: from a state in which the bank `f` is burnt, every step leads to a state in which it still is (R343, R382, R387). -/
def Obligations.FusesOnlyBurn : Prop :=
  ∀ (f : Fuses) (s t : State), s.burnt f → step s = .next t → t.burnt f

/-- R401, R400: a request for RUN in STANDBY is accepted when no row of Table 13-2 forbids it, else it is refused with its WHY; in SAFE HOLD
it is refused with WHY 15 (R404). A request for the present state is accepted and has no effect. R400, R403, R319: STANDBY from RUN starts
the exit (the plan point goes to zero, DP_STATE reads EXIT); from SAFE HOLD it is refused with WHY 9 while a fatal bit, a trip latch or a
fatal condition stands, else it falls due; SERVICE falls due from STANDBY and SAFE HOLD and starts the exit in RUN, and the leaving flag
goes up with it, which starts an election when the module leads (R25); STANDBY from SERVICE falls due. Which refusals answer STATUS 1, and
WHY 9 in SAFE HOLD, are readings (logs 25, 28). -/
def Obligations.RunRequests : Prop :=
  (∀ s : State, s.m.wrStatus 0x11044 11 = 0 → s.m.pstate = 2 → s.m.changing = false → s.m.runWhy = 0 →
    Does .requestRun s fun t => t.m.pwr.change = .entry false s.m.time.ticks ∧ t.m.get R.MGT_PREQ_WHY = 0 ∧ t.m.resp = 0 ∧
      t.m.pstate = 2 ∧ s.frame [.pwr, .resp] [R.MGT_PREQ_WHY] t) ∧
  (∀ s : State, s.m.wrStatus 0x11044 11 = 0 → s.m.pstate = 2 → s.m.changing = false → s.m.runWhy ≠ 0 →
    Does .requestRun s fun t => t.m.get R.MGT_PREQ_REFUSED = 1 ∧ t.m.get R.MGT_PREQ_WHY = s.m.runWhy ∧
      s.frame [.resp] [R.MGT_PREQ_REFUSED, R.MGT_PREQ_WHY] t) ∧
  (∀ s : State, s.m.wrStatus 0x11044 11 = 0 → s.m.pstate = 4 → s.m.changing = false →
    Does .requestRun s fun t => t.m.get R.MGT_PREQ_REFUSED = 1 ∧ t.m.get R.MGT_PREQ_WHY = 15 ∧
      s.frame [.resp] [R.MGT_PREQ_REFUSED, R.MGT_PREQ_WHY] t) ∧
  (∀ s : State, s.m.wrStatus 0x11044 11 = 0 → s.m.pstate = 3 → s.m.changing = false →
    Does .requestRun s fun t => t.m.get R.MGT_PREQ_WHY = 0 ∧ t.m.resp = 0 ∧ s.frame [.resp] [R.MGT_PREQ_WHY] t) ∧
  (∀ s : State, s.m.wrStatus 0x11044 10 = 0 → s.m.pstate = 3 → s.m.changing = false → s.m.bwk.ovf = false →
    Does .requestStandby s fun t => t.m.pwr.change = .exit 2 0 ∧ t.m.bwk.pdp = 0 ∧ t.m.get R.BWK_DP_STAT_DP_STATE = 7 ∧
      t.m.get R.MGT_PREQ_WHY = 0 ∧ t.m.pstate = 3 ∧ s.frame [.pwr, .bwk, .resp] [R.BWK_DP_STAT_DP_STATE, R.MGT_PREQ_WHY] t) ∧
  (∀ s : State, s.m.wrStatus 0x11044 10 = 0 → s.m.pstate = 4 → s.m.changing = false → s.m.fatalHeld = false →
    Does .requestStandby s fun t => t.m.pwr.change = .toState 2 ∧ t.m.get R.MGT_PREQ_WHY = 0 ∧ t.m.pstate = 4 ∧
      s.frame [.pwr, .resp] [R.MGT_PREQ_WHY] t) ∧
  (∀ s : State, s.m.wrStatus 0x11044 10 = 0 → s.m.pstate = 4 → s.m.changing = false → s.m.fatalHeld = true →
    Does .requestStandby s fun t => t.m.get R.MGT_PREQ_REFUSED = 1 ∧ t.m.get R.MGT_PREQ_WHY = 9 ∧
      s.frame [.resp] [R.MGT_PREQ_REFUSED, R.MGT_PREQ_WHY] t) ∧
  (∀ s : State, s.m.wrStatus 0x11044 13 = 0 → s.m.pstate = 2 → s.m.changing = false →
    Does .requestService s fun t => t.m.pwr.change = .toState 5 ∧ t.m.get R.MGT_PREQ_WHY = 0 ∧ t.m.pstate = 2 ∧ t.m.roles.leaving = true ∧
      (s.m.isLead = true → t.m.get R.MOD_ROLE_STAT_ELECTING = 1) ∧
      (s.m.isLead = false → s.frame [.pwr, .roles, .resp] [R.MGT_PREQ_WHY] t)) ∧
  (∀ s : State, s.m.wrStatus 0x11044 13 = 0 → s.m.pstate = 3 → s.m.changing = false →
    Does .requestService s fun t => t.m.pwr.change = .exit 5 0 ∧ t.m.bwk.pdp = 0 ∧ t.m.get R.BWK_DP_STAT_DP_STATE = 7 ∧
      t.m.get R.MGT_PREQ_WHY = 0 ∧ t.m.pstate = 3 ∧ t.m.roles.leaving = true ∧ t.m.bwk.ovf = false) ∧
  (∀ s : State, s.m.wrStatus 0x11044 13 = 0 → s.m.pstate = 4 → s.m.changing = false → s.m.fatalHeld = false →
    Does .requestService s fun t => t.m.pwr.change = .toState 5 ∧ t.m.get R.MGT_PREQ_WHY = 0 ∧ s.frame [.pwr, .resp] [R.MGT_PREQ_WHY] t) ∧
  (∀ s : State, s.m.wrStatus 0x11044 10 = 0 → s.m.pstate = 5 → s.m.changing = false →
    Does .requestStandby s fun t => t.m.pwr.change = .toState 2 ∧ t.m.get R.MGT_PREQ_WHY = 0 ∧ s.frame [.pwr, .resp] [R.MGT_PREQ_WHY] t) ∧
  (∀ s : State, s.m.wrStatus 0x11044 10 = 0 → s.m.pstate = 3 → s.m.changing = false → s.m.bwk.ovf = true →
    Does .requestStandby s fun t => t.m.pwr.change = .exit 2 0 ∧ t.m.bwk.pdp = 0 ∧ t.m.get R.BWK_DP_STAT_DP_STATE = 7 ∧ t.m.bwk.ovf = false ∧
      t.m.get R.BWK_DP_STAT_OVF_EBB = 0 ∧ t.m.get R.BWK_DP_STAT_OVF_FLOOD = 0 ∧ t.m.get R.MGT_PREQ_WHY = 0)

/-- R401, R402, R403: at the plan boundary of entry the conditions are checked again: RUN is entered with its POWER record, the plan point
starts from the measured feed draw, ENTRY is set; or RUN is refused. An exit whose commands have reached zero, or that has lasted 8 ms,
leaves RUN. -/
def Obligations.RunEntryAndExit : Prop :=
  (∀ (s : State) (t0 : Nat), s.m.pwr.change = .entry true t0 → s.m.frame % 200 = 0 → t0 + 500 * tickUs ≤ s.m.time.ticks →
      s.m.runWhy = 0 → s.m.pstate = 2 →
    Does .runEntry s fun t => t.m.pstate = 3 ∧ t.m.get R.MGT_PSTATE_PREV = 2 ∧ t.m.get R.MGT_PSTATE_CAUSE = 0 ∧
      t.m.pwr.change = .none ∧ t.m.bwk.pdp = s.m.bwk.feedNow ∧ t.m.get R.BWK_DP_STAT_ENTRY = 1 ∧ t.m.logs 4 (3 + 2 * 16)) ∧
  (∀ (s : State) (t0 : Nat), s.on → s.m.pwr.change = .entry true t0 → s.m.frame % 200 = 0 → t0 + 500 * tickUs ≤ s.m.time.ticks →
      s.m.runWhy ≠ 0 →
    Does .runEntry s fun t => t.m.pwr.change = .none ∧ t.m.get R.MGT_PREQ_REFUSED = 1 ∧ t.m.get R.MGT_PREQ_WHY = s.m.runWhy ∧
      s.frame [.pwr] [R.MGT_PREQ_REFUSED, R.MGT_PREQ_WHY] t) ∧
  (∀ (s : State) (g j : Nat), s.m.pwr.change = .exit g j → s.m.pstate = 3 → 0 < j → s.m.atRest = true ∨ 1600 ≤ j → g = 2 ∨ g = 5 →
    Does .runExitDone s fun t => t.m.pstate = g ∧ t.m.get R.MGT_PSTATE_CAUSE = 0 ∧ t.m.pwr.change = .none ∧
      t.m.atRest = true ∧ t.m.get R.BWK_DP_STAT_DP_STATE = 0)

/-- R411, R358, R412, R399: hold-up is entered with CAUSE 3 and STO_HOLD stopped; the flush empties the log queue and counts the hold-up; the
domains of Table 13-4 go off; the supply's return is kept; an exhausted store leaves OFF with no domain on and the stores kept. -/
def Obligations.HoldUp : Prop :=
  (∀ s : State, s.on → s.m.pstate ≠ 1 →
    Does .holdupEntry s fun t => t.m.pstate = 1 ∧ t.m.get R.MGT_PSTATE_CAUSE = 3 ∧ t.m.pins.stoHold = false ∧ t.m.pwr.change = .none ∧
      t.m.pwr.flushed = false ∧ t.m.pwr.checks = [] ∧ t.m.get R.PHS_LNK_STAT_ARMED = 0 ∧ t.fuses = s.fuses) ∧
  (∀ (s : State) (fails : List Nat), s.m.pstate = 1 → s.m.pwr.flushed = false →
    Does (.holdupFlushDone fails) s fun t => t.m.pwr.flushed = true ∧ t.m.log.arr = [] ∧ t.m.log.queue = [] ∧
      t.m.nv.hours = s.m.get R.LOG_HOURS_HOURS ∧ t.m.nv.usec = s.m.get R.LOG_USEC_USEC ∧
      t.m.nv.huCnt = min (s.m.get R.PWR_HU_CNT_COUNT + 1) (2 ^ 32 - 1)) ∧
  (∀ (s : State), s.m.pstate = 1 →
    Does (.holdupDomainsOff false) s fun t => (∀ d ∈ [4, 5, 6, 7, 8, 9, 10, 11, 12, 13, 18], t.m.domainOn d = false) ∧ t.m.pstate = 1) ∧
  (∀ (s : State), s.m.pstate = 1 →
    Does (.holdupDomainsOff true) s fun t => (∀ d ∈ [14, 15, 16], t.m.domainOn d = false) ∧ t.m.pstate = 1) ∧
  (∀ s : State, s.m.pstate = 1 → Does .auxReturn s fun t => t.m.pwr.auxBack = true ∧ s.frame [.pwr] [] t) ∧
  (∀ s : State, s.m.pstate = 1 →
    Does .holdupExhausted s fun t => t.m.pstate = 0 ∧ (∀ d < 20, t.m.domainOn d = false) ∧ t.m.nv = s.m.nv ∧ t.fuses = s.fuses ∧
      t.m.stk.recs = [])

/-- R433, R434, R435: a write of PWR_ON that a domain's rule forbids is refused with SWITCH_REFUSED; a permitted switch-on waits for its
power-good with BUSY set, a permitted switch-off is made at once; the power-good brings the domain on and counts the switch; a missing one
clears its ON bit with ON_FAIL; a lost one is fatal and switches the domain off. -/
def Obligations.DomainSwitching : Prop :=
  (∀ (s : State) (d : Nat), s.m.wrStatus 0x2044 (s.m.get R.PWR_ON_ON + 2 ^ d) = 0 → s.on → switchable d = true →
      (∀ p ∈ domainParents d, s.m.domainOn p = true) → bit (s.m.get R.PWR_ON_ON) d = false → s.m.get R.PWR_STAT_BUSY = 0 → s.m.pstate ≠ 1 →
      s.m.flt.l3 = false → s.m.flt.l3Sys = false →
    Does (.pwrOnWrite (BitVec.ofNat 32 (s.m.get R.PWR_ON_ON + 2 ^ d))) s fun t => t.m.get R.PWR_STAT_BUSY = 1 ∧
      bit (t.m.get R.PWR_ON_ON) d = true ∧ t.m.pwr.switches = [(d, true)] ∧ t.m.resp = 0 ∧
      s.frame [.pwr, .resp] [R.PWR_ON_ON, R.PWR_STAT_BUSY] t) ∧
  (∀ (s : State), s.m.wrStatus 0x2044 (s.m.get R.PWR_ON_ON + 16) = 0 → s.on → bit (s.m.get R.PWR_ON_ON) 4 = false →
      s.m.domainOn 17 = false → s.m.get R.PWR_STAT_BUSY = 0 → s.m.takes 2 0 →
    Does (.pwrOnWrite (BitVec.ofNat 32 (s.m.get R.PWR_ON_ON + 16))) s fun t => bit (t.m.get R.PWR_REFUSED_DOM) 4 = true ∧
      t.m.get R.PWR_EVT_REFUSED = 1 ∧ t.m.tells { blk := 2, inst := 0, kind := 3, addr := 4, cls := 0 } ∧
      t.m.get R.PWR_ON_ON = s.m.get R.PWR_ON_ON) ∧
  (∀ (s : State) (d : Fin 20), s.on → s.m.pwr.switches = [(d.val, true)] →
    Does (.domainPowerGood d) s fun t => t.m.domainOn d = true ∧ t.m.pwr.switches = [] ∧ t.m.get R.PWR_STAT_BUSY = 0 ∧
      (t.m.word R.PWR_SW_CNT_COUNT.addr).toNat = min ((s.m.word R.PWR_SW_CNT_COUNT.addr).toNat + 1) (2 ^ 32 - 1)) ∧
  (∀ (s : State) (d : Fin 20), s.on → s.m.pwr.switches = [(d.val, true)] → s.m.takes 2 0 →
    Does (.onFail d) s fun t => bit (t.m.get R.PWR_ON_ON) d = false ∧ t.m.get R.PWR_EVT_ON_FAIL = 1 ∧ t.m.pwr.switches = [] ∧
      t.m.get R.PWR_STAT_BUSY = 0 ∧ t.m.tells { blk := 2, inst := 0, kind := 2, addr := d.val, cls := 1 }) ∧
  (∀ (s : State) (d : Fin 20), s.on → s.m.domainOn d = true → s.m.takes 2 0 →
    Does (.pgLost d) s fun t => t.m.domainOn d = false ∧ t.m.tells { blk := 2, inst := 0, kind := 1, addr := d.val, cls := 2 } ∧
      (d.val ≠ 0 → t.m.get R.PWR_EVT_PG_LOST = 1 ∧
        (t.m.word R.PWR_PG_CNT_COUNT.addr).toNat = min ((s.m.word R.PWR_PG_CNT_COUNT.addr).toNat + 1) (2 ^ 32 - 1))) ∧
  (∀ (s : State) (d : Nat), s.m.wrStatus 0x2044 (s.m.get R.PWR_ON_ON - 2 ^ d) = 0 → s.on → switchable d = true → 8 ≤ d →
      bit (s.m.get R.PWR_ON_ON) d = true → s.m.domainOn d = true → s.m.get R.PWR_STAT_BUSY = 0 → s.m.pstate ≠ 1 → s.m.pstate ≠ 3 →
      s.m.flt.l3 = false → s.m.flt.l3Sys = false →
    Does (.pwrOnWrite (BitVec.ofNat 32 (s.m.get R.PWR_ON_ON - 2 ^ d))) s fun t => t.m.domainOn d = false ∧
      bit (t.m.get R.PWR_ON_ON) d = false ∧ t.m.get R.PWR_STAT_BUSY = 0 ∧ t.m.resp = 0)

/-- R442: a rise of the auxiliary input above 14.0 V starts AUX_OV, an uncorrected condition; below 13.7 V it clears. The module changes no
state for it. -/
def Obligations.AuxiliaryInput : Prop :=
  (∀ s : State, s.on → s.m.condOn 2 0 4 0 = false → s.m.takes 2 0 →
    Does .auxOv s fun t => t.m.get R.PWR_EVT_AUX_OV = 1 ∧ t.m.tells { blk := 2, inst := 0, kind := 4, addr := 0, cls := 1, ind := .start } ∧
      t.m.pstate = s.m.pstate ∧ s.frame [.flt] (R.PWR_EVT_AUX_OV :: repFlds 2) t) ∧
  (∀ s : State, s.on → s.m.condOn 2 0 4 0 = true → s.m.takes 2 0 →
    Does .auxOvClear s fun t => t.m.tells { blk := 2, inst := 0, kind := 4, addr := 0, cls := 1, ind := .clr } ∧
      s.frame [.flt] (repFlds 2) t)

/-- R439, R418: a store that has charged for 1 s and is below 45.0 V raises HU_CHARGE; a capacitance below 0.80 mF raises HU_CAP; each active
input check adds one occurrence to the log per second. -/
def Obligations.StoreAndChecks : Prop :=
  (∀ s : State, s.on → s.m.is R.PWR_STAT_CHARGING = true → s.m.get R.PWR_HU_STORE_V < 4500 → s.m.pwr.chgTick + tickS ≤ s.m.time.ticks + 64000 →
      s.m.condOn 2 0 5 0 = false → s.m.takes 2 0 →
    Does .huCharge s fun t => t.m.get R.PWR_EVT_HU_CHARGE = 1 ∧
      t.m.tells { blk := 2, inst := 0, kind := 5, addr := 0, cls := 1, ind := .start } ∧ s.frame [.flt] (R.PWR_EVT_HU_CHARGE :: repFlds 2) t) ∧
  (∀ (s : State) (cap : Fin 4096), s.on → 800 ≤ cap.val →
    Does (.huCapMeasure cap) s fun t => t.m.get R.PWR_HU_CAP_EST = cap.val ∧ s.frame [] [R.PWR_HU_CAP_EST] t) ∧
  (∀ (s : State) (cap : Fin 4096), s.on → cap.val < 800 → s.m.takes 2 0 →
    Does (.huCapMeasure cap) s fun t => t.m.get R.PWR_HU_CAP_EST = cap.val ∧ t.m.get R.PWR_EVT_HU_CAP = 1 ∧
      t.m.tells { blk := 2, inst := 0, kind := 6, addr := 0, cls := 1 } ∧
      s.frame [.flt] (R.PWR_HU_CAP_EST :: R.PWR_EVT_HU_CAP :: repFlds 2) t) ∧
  (∀ (s : State) (c : Check), s.on → s.m.pwr.checks = [c] →
    Does .checkOccurrence s fun t => t.m.logs 2 (c.code % 65536) ∧ s.frame [.log] [] t)

/-- R364, R365: a lockstep mismatch halts the pair and is fatal; an expired watchdog is fatal and starts again; KICK restarts it. R366: a
sample shows in VALUE of each sensor and MAX never falls; SENS_CLR sets every MAX to its VALUE. That a command whose conditions do not
hold changes nothing is the model's choice (log 6). -/
def Obligations.PairWatchdogSensors : Prop :=
  (∀ (s : State) (a : Word), s.on → s.m.mgt.lockstep = false → s.m.takes 17 0 →
    Does (.lockstep a) s fun t => t.m.mgt.lockstep = true ∧ t.m.get R.MGT_EVT_LOCKSTEP = 1 ∧
      t.m.tells { blk := 17, inst := 0, kind := 1, addr := a.toNat, cls := 2 } ∧ s.frame [.mgt, .flt] (R.MGT_EVT_LOCKSTEP :: repFlds 17) t) ∧
  (∀ s : State, s.on → s.m.mgt.wdogOn = true → s.m.pstate ≠ 1 → s.m.get R.MGT_DBG_CTL_HALTED = 0 →
      s.m.mgt.wdogKick + s.m.wdogPeriod < s.m.time.ticks + 64000 → s.m.takes 17 0 →
    Does .wdogExpiry s fun t => t.m.mgt.wdogKick = s.m.time.ticks ∧ t.m.get R.MGT_EVT_WDOG = 1 ∧
      t.m.tells { blk := 17, inst := 0, kind := 2, addr := 0, cls := 2 } ∧ s.frame [.mgt, .flt] (R.MGT_EVT_WDOG :: repFlds 17) t) ∧
  (∀ s : State, s.on → s.m.mgt.wdogOn = true → s.m.get R.MGT_DBG_CTL_HALTED = 1 → Does .wdogExpiry s fun t => t = s) ∧
  (∀ s : State, s.on → s.m.domainOn 1 = true →
    Does .mgtWdogKick s fun t => t.m.mgt.wdogKick = s.m.time.ticks ∧ s.frame [.mgt] [] t) ∧
  (∀ (s : State) (v : List Int), s.on → s.m.domainOn 1 = true → (∀ n < 16, -32768 ≤ v.getD n 0 ∧ v.getD n 0 ≤ 32767) →
    Does (.sensorSample v) s fun t => (∀ n < 16, t.m.getI (R.MGT_SENS_VALUE n) = v.getD n 0 ∧
      t.m.getI (R.MGT_SENS_MAX n) = max (s.m.getI (R.MGT_SENS_MAX n)) (v.getD n 0)) ∧ s.m.onlyParts [.flt, .log, .pwr] t.m) ∧
  (∀ s : State, s.on → s.m.wrStatus 0x110F4 1 = 0 →
    Does .mgtCmdSensClr s fun t => (∀ n < 16, t.m.get (R.MGT_SENS_MAX n) = s.m.get (R.MGT_SENS_VALUE n)) ∧ t.m.resp = 0 ∧
      s.frame [.resp] ((List.range 16).map R.MGT_SENS_MAX) t)

/-- R389, R390, R430: IDCODE 0x1F5080A7 and BYPASS answer always, another JTAG command only under capability JT; HALT stops the pair or a
running core, STEP takes the next bundle of a halted core and is refused on a target that is not halted, RESUME lets the target run again
and restarts the pair's watchdog; an access of the data window reads or writes the word at the address, which advances by 4, and one to a
space that does not exist is refused with STATUS 1. What a target does between the steps is left open (log 47). -/
def Obligations.Debug : Prop :=
  (∀ s : State, s.m.jtagAnswer .idcode = some (some 0x1F5080A7) ∧ s.m.jtagAnswer .bypass = some (some 0) ∧
    (s.m.jtagAnswer .other ≠ none ↔ s.m.dbgLevel = 2 ∧ s.m.quiet = true ∧ s.m.lc ≠ 2)) ∧
  (∀ s : State, s.on → s.m.wrStatus 0x11180 1 = 0 →
    Does (.mgtDbgHalt 0) s fun t => t.m.get R.MGT_DBG_CTL_HALTED = 1 ∧ t.m.resp = 0 ∧ s.frame [.resp] [R.MGT_DBG_CTL_HALTED] t) ∧
  (∀ (s : State) (c : Fin 4), s.on → s.m.wrStatus 0x11180 (1 + 32 * (c.val + 1)) = 0 → s.m.get (coreSt c) = 2 →
    Does (.mgtDbgHalt ⟨c.val + 1, by omega⟩) s fun t => t.m.get (coreSt c) = 1 ∧ c.val ∈ t.m.mgt.coresHalted ∧
      s.frame [.mgt, .resp] [coreSt c] t) ∧
  (∀ s : State, s.on → s.m.wrStatus 0x11180 2 = 0 → s.m.get R.MGT_DBG_CTL_HALTED = 1 →
    Does (.mgtDbgStep 0) s fun t => t.m.get R.MGT_DBG_CTL_HALTED = 1 ∧ t.m.resp = 0 ∧ s.frame [.mgt, .resp] [] t) ∧
  (∀ s : State, s.on → s.m.wrStatus 0x11180 2 = 0 → s.m.get R.MGT_DBG_CTL_HALTED = 0 →
    Does (.mgtDbgStep 0) s fun t => t.m.get R.MGT_DBG_CTL_REFUSED = 1 ∧ t.m.resp = 1 ∧ s.frame [.resp] [R.MGT_DBG_CTL_REFUSED] t) ∧
  (∀ (s : State) (c : Fin 4), s.on → s.m.wrStatus 0x11180 (4 + 32 * (c.val + 1)) = 0 → c.val ∈ s.m.mgt.coresHalted →
    Does (.mgtDbgResume ⟨c.val + 1, by omega⟩) s fun t => t.m.get (coreSt c) = 2 ∧ c.val ∉ t.m.mgt.coresHalted ∧ t.m.resp = 0 ∧
      s.frame [.mgt, .cen, .resp] [coreSt c] t) ∧
  (∀ (s : State) (v : Word), s.on → s.m.wrStatus 0x11188 v.toNat = 0 → s.m.get R.MGT_DBG_ADDR_SPACE = 0 →
      s.m.get R.MGT_DBG_ADDR_OFFSET < 0x200000 → s.m.get R.MGT_DBG_ADDR_OFFSET % 4 = 0 → s.m.keptDead 12 (s.m.get R.MGT_DBG_ADDR_OFFSET) 4 = [] →
    Does (.mgtDbgDataAccess true v) s fun t =>
      rdAt (fun o => Sparse.get (fun _ => 0) t.m.mgt.iram o) (s.m.get R.MGT_DBG_ADDR_OFFSET) 4 = v.toNat ∧
      (∀ o, o < s.m.get R.MGT_DBG_ADDR_OFFSET ∨ s.m.get R.MGT_DBG_ADDR_OFFSET + 4 ≤ o →
        Sparse.get (fun _ => 0) t.m.mgt.iram o = Sparse.get (fun _ => 0) s.m.mgt.iram o) ∧
      t.m.get R.MGT_DBG_ADDR_OFFSET = s.m.get R.MGT_DBG_ADDR_OFFSET + 4 ∧ s.frame [.mgt, .mem, .resp] [R.MGT_DBG_ADDR_OFFSET] t) ∧
  (∀ (s : State), s.on → s.m.rdStatus 0x11188 = 0 → s.m.get R.MGT_DBG_ADDR_SPACE = 0 →
      s.m.get R.MGT_DBG_ADDR_OFFSET < 0x200000 → s.m.get R.MGT_DBG_ADDR_OFFSET % 4 = 0 → s.m.deadAt 12 (s.m.get R.MGT_DBG_ADDR_OFFSET) 4 = [] →
    Does (.mgtDbgDataAccess false 0) s fun t =>
      t.m.rdata = rdAt (fun o => Sparse.get (fun _ => 0) s.m.mgt.iram o) (s.m.get R.MGT_DBG_ADDR_OFFSET) 4 % 2 ^ 32 ∧
      t.m.get R.MGT_DBG_ADDR_OFFSET = s.m.get R.MGT_DBG_ADDR_OFFSET + 4 ∧ s.frame [.rdata, .resp] [R.MGT_DBG_ADDR_OFFSET] t) ∧
  (∀ (s : State) (v : Word), s.on → s.m.wrStatus 0x11188 v.toNat = 0 → s.m.dbgThere = false →
    Does (.mgtDbgDataAccess true v) s fun t => t.m.resp = 1 ∧ t.m.get R.MGT_DBG_CTL_REFUSED = 1 ∧
      s.frame [.resp] [R.MGT_DBG_CTL_REFUSED] t) ∧
  (∀ (s : State) (v : Word), s.on → s.m.rdStatus 0x11188 = 0 → s.m.dbgThere = true →
    Does (.mgtDbgDataAccess false v) s fun t => t.m.rdata = s.m.dbgRead.1 % 2 ^ 32 ∧ t.m.resp = 0 ∧
      t.m.get R.MGT_DBG_ADDR_OFFSET = (s.m.get R.MGT_DBG_ADDR_OFFSET + 4) % 2 ^ 28) ∧
  (∀ (s : State) (v : Word), s.on → s.m.wrStatus 0x11188 v.toNat = 0 → s.m.dbgThere = true →
    Does (.mgtDbgDataAccess true v) s fun t => t.m.resp = 0 ∧
      t.m.get R.MGT_DBG_ADDR_OFFSET = (s.m.get R.MGT_DBG_ADDR_OFFSET + 4) % 2 ^ 28) ∧
  (∀ (s : State) (c : Fin 4), s.on → s.m.wrStatus 0x11180 (2 + 32 * (c.val + 1)) = 0 → c.val ∈ s.m.mgt.coresHalted →
    Does (.mgtDbgStep ⟨c.val + 1, by omega⟩) s fun t => t.m.mgt.stepPos.getD c.val 0 = s.m.mgt.stepPos.getD c.val 0 + 1 ∧ t.m.resp = 0 ∧
      t.m.mgt.coresHalted = s.m.mgt.coresHalted) ∧
  (∀ s : State, s.on → s.m.wrStatus 0x11180 4 = 0 → s.m.get R.MGT_DBG_CTL_HALTED = 1 →
    Does (.mgtDbgResume 0) s fun t => t.m.get R.MGT_DBG_CTL_HALTED = 0 ∧ t.m.mgt.wdogKick = s.m.time.ticks ∧ t.m.resp = 0 ∧
      s.frame [.mgt, .resp] [R.MGT_DBG_CTL_HALTED] t)

/-- R326: an enabled comparator whose input crosses its threshold latches, is recorded as the first trip when none was latched, stops
STO_HOLD, takes a module in STANDBY or RUN to SAFE HOLD and raises its fatal report; an input that has come back by 2 % ends the
condition. R328, R329: a passed self-test lets the accepted entry go on, a failed one refuses RUN with WHY 5 and is reported;
TRP_CLR.LATCH clears the latches of inactive comparators outside RUN and is refused in RUN. That a command whose conditions do not hold
changes nothing is the model's choice (log 6). -/
def Obligations.CliffTrips : Prop :=
  (∀ (s : State) (p : Fin 11) (n : Fin 40) (v : Int), s.on → s.m.is (trpBit p.val) = false → s.m.trp.ph.contains n.val = false →
      s.m.trpEnabled p n = true → s.m.trpLimit p.val < trpInput p v →
    Does (.cliffTrip p n v) s fun t => bit (t.m.get R.TRP_LATCH_LATCH) p.val = true ∧ t.m.is (trpBit p.val) = true ∧
      (s.m.get R.TRP_LATCH_LATCH = 0 → t.m.get R.TRP_FIRST_CMP = p.val) ∧ t.m.get R.TRP_EVT_TRIP = 1 ∧ t.m.pins.stoHold = false ∧
      (s.m.takes 19 0 → s.m.condOn 19 0 (trpKind p) (trpAddr p n) = false →
        t.m.tells { blk := 19, inst := 0, kind := trpKind p, addr := trpAddr p n, cls := 2, ind := .start }) ∧
      (s.m.pstate = 2 ∨ s.m.pstate = 3 → t.m.pstate = 4 ∧ t.m.get R.MGT_PSTATE_CAUSE = 1)) ∧
  (∀ (s : State) (p : Fin 11) (n : Fin 40) (v : Int), s.on → trpInput p v ≤ s.m.trpLimit p.val → Does (.cliffTrip p n v) s fun t => t = s) ∧
  (∀ (s : State) (p : Fin 10) (n : Fin 40) (v : Int), s.on → s.m.is (trpBit p.val) = true → 100 * trpInput p v ≤ 98 * s.m.trpLimit p.val →
      s.m.takes 19 0 → s.m.condOn 19 0 (trpKind p) p.val = true →
    Does (.comparatorRelease ⟨p.val, by omega⟩ n v) s fun t => t.m.is (trpBit p.val) = false ∧
      t.m.get R.TRP_LATCH_LATCH = s.m.get R.TRP_LATCH_LATCH ∧
      t.m.tells { blk := 19, inst := 0, kind := trpKind p, addr := p.val, cls := 2, ind := .clr } ∧ s.frame [.flt] (trpBit p.val :: repFlds 19) t) ∧
  (∀ (s : State) (n : Fin 40) (v : Int), s.on → n.val ∈ s.m.trp.ph → 100 * trpInput 10 v ≤ 98 * s.m.trpLimit 10 →
    Does (.comparatorRelease 10 n v) s fun t => n.val ∉ t.m.trp.ph ∧ t.m.get R.TRP_LATCH_LATCH = s.m.get R.TRP_LATCH_LATCH ∧
      (t.m.is (trpBit 10) = true ↔ t.m.trp.ph ≠ [])) ∧
  (∀ (s : State) (t0 : Nat), s.on → s.m.pwr.change = .entry false t0 →
    Does (.comparatorSelfTest true) s fun t => t.m.pwr.change = .entry true t0 ∧ t.m.get R.TRP_STAT_ST_OK = 1 ∧
      s.frame [.pwr] [R.TRP_STAT_ST_OK] t) ∧
  (∀ (s : State) (t0 : Nat), s.on → s.m.pwr.change = .entry false t0 → s.m.takes 19 0 →
    Does (.comparatorSelfTest false) s fun t => t.m.pwr.change = .none ∧ t.m.get R.TRP_STAT_ST_OK = 0 ∧ t.m.get R.TRP_EVT_ST_FAIL = 1 ∧
      t.m.get R.MGT_PREQ_REFUSED = 1 ∧ t.m.get R.MGT_PREQ_WHY = 5 ∧ t.m.tells { blk := 19, inst := 0, kind := 7, addr := 0, cls := 1 } ∧
      s.frame [.pwr, .flt] (R.TRP_STAT_ST_OK :: R.TRP_EVT_ST_FAIL :: R.MGT_PREQ_REFUSED :: R.MGT_PREQ_WHY :: repFlds 19) t) ∧
  (∀ (s : State), s.on → s.m.wrStatus 0x130C4 1 = 0 → s.m.pstate = 3 →
    Does .trpClrLatch s fun t => t.m.get R.TRP_LATCH_LATCH = s.m.get R.TRP_LATCH_LATCH ∧ t.m.get R.TRP_EVT_CLR_REF = 1 ∧ t.m.resp = 1 ∧
      s.frame [.resp] [R.TRP_EVT_CLR_REF] t) ∧
  (∀ (s : State), s.on → s.m.wrStatus 0x130C4 1 = 0 → s.m.pstate ≠ 3 → bits (s.m.word 0x13080).toNat 0 11 = 0 →
    Does .trpClrLatch s fun t => t.m.get R.TRP_LATCH_LATCH = 0 ∧ t.m.get R.TRP_FIRST_CMP = 15 ∧ t.m.resp = 0 ∧
      t.m.get R.TRP_EVT_CLR_REF = s.m.get R.TRP_EVT_CLR_REF ∧ s.m.onlyParts [.resp] t.m)

/-- R405, R21, R425: a power-on reset that is due restarts the module in STANDBY with CAUSE 4, boot stage 0, the straps read (10 to 15 set
STRAP_ERR), the power cycle counted, nothing reported and no time kept; when none is due nothing changes. R311, R373, R436, R404: a
level-3 reset that is due, by escalation once its record is logged or by ACTIVATE, takes the module to STANDBY with CAUSE 2 and boot stage
0, stops STO_HOLD, closes every slack window and shadow, counts in MGT_BOOT_CNT, keeps the time base and the non-volatile stores but for
the failure of a slot in trial, and leaves only the domains AON, MGT, SEC, NVL, TIM and TRP on; one that is not due changes nothing. That
a command whose conditions do not hold changes nothing is the model's choice (log 6). When the power-on reset acts is the model's choice
too (log 21). -/
def Obligations.Resets : Prop :=
  (∀ (s : State) (p : Fin 16) (rc : Bool), s.m.resetDue = true →
    Does (.powerOnReset p rc) s fun t => t.m.pstate = 2 ∧ t.m.get R.MGT_PSTATE_CAUSE = 4 ∧ t.m.get R.MGT_BOOT_STAGE = 0 ∧
      t.m.get R.MOD_STRAP_RING_POS = p.val ∧ t.m.get R.MOD_STRAP_STRAP_ERR = b2n (decide (10 ≤ p.val)) ∧
      t.m.get R.MOD_STRAP_ROOT_CAP = b2n rc ∧ t.m.get R.PMB_STAT_ADDR = 0x40 + p.val ∧ t.m.nv.pcyc = min (s.m.nv.pcyc % 2 ^ 32 + 1) (2 ^ 32 - 1) ∧
      t.m.get R.LOG_PCYC_COUNT = t.m.nv.pcyc ∧ t.m.time = {} ∧ t.m.stk.recs = [] ∧ t.m.pins.stoHold = false ∧
      t.m.nv.slots = s.m.nv.slots ∧ t.pending = s.pending) ∧
  (∀ (s : State) (p : Fin 16) (rc : Bool), s.m.resetDue = false → Does (.powerOnReset p rc) s fun t => t = s) ∧
  (∀ s : State, s.on → (s.m.flt.l3 = true ∧ s.m.l3Logged = true) ∨ s.m.flt.l3Sys = true → s.m.pstate ≠ 1 →
    Does .level3Reset s fun t => t.m.pstate = 2 ∧ t.m.get R.MGT_PSTATE_CAUSE = 2 ∧ t.m.get R.MGT_BOOT_STAGE = 0 ∧ t.m.flt.l3 = false ∧
      t.m.flt.pend = [] ∧ t.m.flt.resets = [] ∧ t.m.pins.stoHold = false ∧ t.m.time.ticks = s.m.time.ticks ∧ t.fuses = s.fuses ∧
      (s.m.get R.MGT_BOOT_TRIAL = 0 → t.m.nv = s.m.nv) ∧
      (s.m.get R.MGT_BOOT_TRIAL = 1 → s.m.get R.MGT_FW_STAT_ACT_PEND = 1 →
        t.m.nv = { s.m.nv with trialFail := some (s.m.is R.MGT_BOOT_SLOT) }) ∧ (∀ d ∈ [4, 5, 6, 7, 8, 9, 10, 11, 12, 13, 14, 15, 16, 18], t.m.domainOn d = false) ∧
      (∀ d ∈ [1, 2, 17], t.m.domainOn d = true) ∧
      (t.m.word R.MGT_BOOT_CNT_COUNT.addr).toNat = min ((s.m.word R.MGT_BOOT_CNT_COUNT.addr).toNat + 1) (2 ^ 32 - 1)) ∧
  (∀ s : State, s.on → s.m.flt.l3 = false ∨ s.m.l3Logged = false → s.m.flt.l3Sys = false → Does .level3Reset s fun t => t = s)

/-- R372, R373, R374: stage 0 takes the slot in trial, else the preferred one, when none of the checks of Table 12-8 fails on it, falls back
to the other slot with FALLBACK, its report and its TRUST record, and goes to recovery (STAGE 7, SERVICE) when both fail. Whether a
signature is good is left open by the model (log 3), so both outcomes stand in the conclusion. -/
def Obligations.BootRom : Prop :=
  (∀ (s : State) (eA eB : Bool), s.on → s.m.get R.MGT_BOOT_STAGE = 0 → s.m.mgt.romDone = false →
    Does (.bootRomStage eA eB) s fun t => t.m.mgt.romDone = true ∧ t.m.get R.MGT_BOOT_STAGE = s.romEnd eA eB ∧
      (s.romEnd eA eB = 0 → t.m.get R.MGT_BOOT_SLOT = b2n (s.romSlot eA eB) ∧ t.m.get R.MGT_BOOT_TRIAL = b2n (s.m.nv.trial == some (s.romSlot eA eB)))) ∧
  (∀ (s : State) (eA eB : Bool), s.on → s.m.get R.MGT_BOOT_STAGE = 0 → s.m.mgt.romDone = false → s.romCode eA eB s.m.chosenSlot = 0 →
    Does (.bootRomStage eA eB) s fun t => t.m.get R.MGT_BOOT_SLOT = b2n s.m.chosenSlot ∧ s.m.onlyParts [.sec, .mgt, .nv] t.m) ∧
  (∀ (s : State) (eA eB : Bool), s.on → s.m.get R.MGT_BOOT_STAGE = 0 → s.m.mgt.romDone = false → s.romCode eA eB s.m.chosenSlot ≠ 0 →
      s.romCode eA eB (!s.m.chosenSlot) = 0 →
    Does (.bootRomStage eA eB) s fun t => t.m.get R.MGT_BOOT_SLOT = b2n (!s.m.chosenSlot) ∧ t.m.get R.MGT_BOOT_FALLBACK = 1 ∧
      t.m.get R.MGT_EVT_FALLBACK = 1 ∧ t.m.get (failFld s.m.chosenSlot) = s.romCode eA eB s.m.chosenSlot ∧ t.m.logs 7 3) ∧
  (∀ s : State, s.m.pstate = 2 → s.m.get R.MGT_BOOT_STAGE = 0 → s.m.mgt.romDone = false → s.m.nv.slotA.broken = true →
      s.m.nv.slotB.broken = true → s.m.nv.trialFail = none →
    Does (.bootRomStage false false) s fun t => t.m.get R.MGT_BOOT_STAGE = 7 ∧ t.m.pstate = 5 ∧ t.m.get R.MGT_BOOT_FAIL_A = 1 ∧
      t.m.get R.MGT_BOOT_FAIL_B = 1 ∧ t.m.pwr.switches = [(14, true), (16, true)])

/-- R372, R365, R378, R405: stage 1 measures the loader and starts the watchdog; stage 2 loads the firmware, closes the DIK and writes the
boot's TRUST record; stage 3 switches on the domains that are off, in the order of Table 13-3. R373, R405: stage 4 is reached when the
boot set holds nothing that is refused; without an accepted weave image BSET_ERR is set and the stage stays. Whatever the boot set holds,
the stage ends at 4 or with BSET_ERR. -/
def Obligations.BootToReady : Prop :=
  (∀ s : State, s.on → s.m.get R.MGT_BOOT_STAGE = 0 → s.m.mgt.romDone = true →
    Does .bootLoaderStage s fun t => t.m.get R.MGT_BOOT_STAGE = 1 ∧ t.m.mgt.wdogOn = true ∧ t.m.mgt.wdogKick = s.m.time.ticks ∧
      t.m.sec.meas.getD 1 [] = Config.sha384 (s.m.sec.meas.getD 1 [] ++
        digestD (bytesAt s.m.activeSlot (rdAt s.m.activeSlot 24 4) (rdAt s.m.activeSlot 28 4)) (fwBlock s.m.activeSlot)) ∧
      (∀ i < 8, i ≠ 1 → t.m.sec.meas.getD i [] = s.m.sec.meas.getD i []) ∧ s.frame [.mgt, .sec] [R.MGT_BOOT_STAGE] t) ∧
  (∀ s : State, s.on → s.m.get R.MGT_BOOT_STAGE = 1 →
    Does .bootFirmwareStage s fun t => t.m.get R.MGT_BOOT_STAGE = 2 ∧ t.m.sec.dikClosed = true ∧ t.m.logs 7 1 ∧
      t.m.sec.meas.getD 2 [] = Config.sha384 (s.m.sec.meas.getD 2 [] ++ fwD s.m.activeSlot) ∧
      t.m.get R.SEC_SVN_FW_SVN = rdAt s.m.activeSlot 12 4 % 2 ^ 7 ∧
      s.frame [.freeCtr, .mgt, .sec, .nv, .log] [R.MGT_BOOT_STAGE, R.SEC_SVN_FW_SVN] t) ∧
  (∀ s : State, s.on → s.m.get R.MGT_BOOT_STAGE = 2 → s.m.pstate ≠ 1 →
    Does .bootStage3 s fun t => t.m.get R.MGT_BOOT_STAGE = 3 ∧ (s.m.domainOn 14 = false → t.m.get R.PWR_STAT_BUSY = 1) ∧
      t.m.pwr.switches = (bootDomains.filter (fun d => !s.m.domainOn d)).map (fun d => (d, true)) ∧ t.m.mgt.wdogKick = s.m.time.ticks ∧
      s.frame [.mgt, .pwr] [R.MGT_BOOT_STAGE, R.PWR_ON_ON, R.PWR_STAT_BUSY] t) ∧
  (∀ s : State, s.on → s.m.get R.MGT_BOOT_STAGE = 3 → s.m.get R.MGT_BOOT_BSET_ERR = 0 → s.m.get R.PWR_STAT_BUSY = 0 → s.m.pstate ≠ 1 →
      bootSet s.m.activeSlot = [] → s.m.bankOk s.m.actBank = true →
    Does .bootSetStage s fun t => t.m.get R.MGT_BOOT_STAGE = 4 ∧ t.fuses = s.fuses) ∧
  (∀ s : State, s.on → s.m.get R.MGT_BOOT_STAGE = 3 → s.m.get R.MGT_BOOT_BSET_ERR = 0 → s.m.get R.PWR_STAT_BUSY = 0 → s.m.pstate ≠ 1 →
      bootSet s.m.activeSlot = [] → s.m.bankOk s.m.actBank = false →
    Does .bootSetStage s fun t => t.m.get R.MGT_BOOT_STAGE = 3 ∧ t.m.get R.MGT_BOOT_BSET_ERR = 1 ∧ s.frame [] [R.MGT_BOOT_BSET_ERR] t) ∧
  (∀ s : State, s.on → s.m.get R.MGT_BOOT_STAGE = 3 → s.m.get R.MGT_BOOT_BSET_ERR = 0 → s.m.get R.PWR_STAT_BUSY = 0 → s.m.pstate ≠ 1 →
    Does .bootSetStage s fun t => t.m.get R.MGT_BOOT_STAGE = 4 ∨ t.m.get R.MGT_BOOT_BSET_ERR = 1)

/-- R23: a heartbeat leaves by both ring ports, with one MSEQ of channel 1 and the payload of Table 09-10. R22, R23, R42: a heartbeat with the
module's own position sets POS_CONFLICT and raises ROLE_CONFLICT with that position as ADDR; one from another position notes the peer and
the instant it was heard from that direction; a silent peer is taken out of the list, its PEERS bit falls and the loss is logged; a peer
heard within 300 µs is not lost. -/
def Obligations.Heartbeats : Prop :=
  (∀ s : State, s.on → s.m.portUp 0 = true → s.m.portUp 1 = true →
    Does .heartbeatSend s fun t =>
      let g : Msg := { chan := 1, scope := .ring, dst := 0, src := s.m.addr, mseq := Sparse.get (fun _ => 0) s.m.lnk.mseq 1,
                       body := s.m.heartBody }
      (t.m.port 0).txq = (s.m.port 0).txq ++ [g] ∧ (t.m.port 1).txq = (s.m.port 1).txq ++ [{ g with west := true }] ∧
        Sparse.get (fun _ => 0) t.m.lnk.mseq 1 = (Sparse.get (fun _ => 0) s.m.lnk.mseq 1 + 1) % 65536 ∧ s.frame [.lnk] [] t) ∧
  (∀ (s : State) (w : Bool) (b : List Byte), s.on → b.getD 0 0 = 0x57 → (b.getD 1 0).toNat = s.m.pos → s.m.pos ≤ 9 →
      s.m.condOn 1 0 1 s.m.pos = false → s.m.takes 1 0 →
    Does (.heartbeatReceive w b) s fun t => t.m.get R.MOD_ROLE_STAT_POS_CONFLICT = 1 ∧
      t.m.tells { blk := 1, inst := 0, kind := 1, addr := s.m.pos, cls := 1, ind := .start } ∧
      s.frame [.lnk, .flt] (R.MOD_ROLE_STAT_POS_CONFLICT :: repFlds 1) t) ∧
  (∀ (s : State) (b : List Byte), s.on → b.length = 8 → b.getD 0 0 = 0x57 → (b.getD 1 0).toNat ≠ s.m.pos → (b.getD 1 0).toNat ≤ 9 →
      s.m.get R.MOD_STRAP_STRAP_ERR = 0 →
    Does (.heartbeatReceive false b) s fun t =>
      ((t.m.peer (b.getD 1 0).toNat).map fun q => (q.healthy, q.eastT, q.addr)) =
        some (bit (b.getD 2 0).toNat 0, some s.m.time.ticks, ((b.getD 6 0).toNat + 256 * (b.getD 7 0).toNat) % 16384) ∧
      s.m.onlyParts [.roles, .lnk, .flt, .pwr, .bwk] t.m) ∧
  (∀ (s : State) (p : Fin 10), s.on → p.val ≠ s.m.pos → (s.m.peer p).map s.m.peerSilent = some true →
    Does (.peerLost p) s fun t => t.m.peer p = none ∧ bit (t.m.get R.MOD_ROLE_STAT_PEERS) p = false ∧ t.m.logs 5 1 ∧
      s.m.onlyParts [.roles, .lnk, .flt, .log] t.m) ∧
  (∀ (s : State) (p : Fin 10), s.on → (s.m.peer p).map s.m.peerSilent ≠ some true → Does (.peerLost p) s fun t => t = s) ∧
  (∀ (s : State) (b : List Byte), s.on → b.length = 8 → b.getD 0 0 = 0x57 → (b.getD 1 0).toNat ≠ s.m.pos → (b.getD 1 0).toNat ≤ 9 →
      s.m.get R.MOD_STRAP_STRAP_ERR = 0 →
    Does (.heartbeatReceive true b) s fun t =>
      ((t.m.peer (b.getD 1 0).toNat).map fun q => (q.eligible, q.westT)) = some (bit (b.getD 2 0).toNat 1, some s.m.time.ticks))

/-- R25, R29, R30: a silent lead is taken out of the peers and an election starts, as one does where no lead is known; its completion makes
the candidate with the lowest position lead, or where two segments rejoin the lower of the two leads that can stay, ends ELECTING, counts
the election and logs it. R407, R32: before its first election a module that does not serve its host answers a host request with a
REDIRECT that names LEAD_POS 0xF and LEAD_ADDR 0 and carries the request's TAG; after it the REDIRECT goes out with the same TAG. -/
def Obligations.ElectionAndRedirect : Prop :=
  (∀ (s : State) (p : Nat), s.on → s.m.leadPos = some p → p ≠ s.m.pos → (s.m.peer p).map s.m.peerSilent ≠ some false →
    Does .leadHeartbeatTimeout s fun t => t.m.get R.MOD_ROLE_STAT_ELECTING = 1 ∧ t.m.peer p = none ∧ t.m.checkActive 0x0203 = true ∧
      t.m.get R.MOD_ROLE_STAT_LEAD_POS = p ∧ s.m.onlyParts [.roles, .log, .pwr, .bwk] t.m) ∧
  (∀ s : State, s.on → s.m.get R.MOD_ROLE_STAT_ELECTING = 1 →
    Does .electionComplete s fun t => t.m.get R.MOD_ROLE_STAT_LEAD_POS = s.m.electLead ∧
      (s.m.roles.rejoin = none → t.m.get R.MOD_ROLE_STAT_LEAD_POS = (s.m.candidates s.m.leadMode).headD 15) ∧
      t.m.get R.MOD_ROLE_STAT_ELECTING = 0 ∧
      (t.m.word R.MOD_ELECT_CNT_COUNT.addr).toNat = min ((s.m.word R.MOD_ELECT_CNT_COUNT.addr).toNat + 1) (2 ^ 32 - 1) ∧
      t.m.checkActive 0x0203 = false ∧ t.m.logs 5 2) ∧
  (∀ s : State, s.on → s.m.leadPos = none → Does .leadHeartbeatTimeout s fun t => t.m.get R.MOD_ROLE_STAT_ELECTING = 1) ∧
  (∀ (s : State) (p : Nat), s.on → s.m.leadPos = some p → (s.m.peer p).map s.m.peerSilent = some false →
    Does .leadHeartbeatTimeout s fun t => t = s) ∧
  (∀ (s : State) (tag : Fin 65536), s.on → s.m.servesHost = false → s.m.portUp 6 = true → s.m.get R.MOD_ROLE_STAT_LEAD_POS = 15 →
    Does (.hostRequestRedirect tag) s fun t =>
      (∃ g ∈ (t.m.port 6).txq ++ (t.m.port 6).retry.map (·.msg), g.chan = 13 ∧ g.scope = .host ∧ g.dst = s.m.addr ∧
        g.body = [0x71, 15, 0, 0, tag.val % 256, tag.val / 256]) ∧ s.frame [.lnk] [] t) ∧
  (∀ (s : State) (tag : Fin 65536), s.on → s.m.servesHost = false → s.m.portUp 6 = true →
    Does (.hostRequestRedirect tag) s fun t =>
      ∃ g ∈ (t.m.port 6).txq ++ (t.m.port 6).retry.map (·.msg), g.chan = 13 ∧ g.scope = .host ∧ g.dst = s.m.addr ∧
        g.body.length = 6 ∧ g.body.getD 0 0 = 0x71 ∧ g.body.drop 4 = [tag.val % 256, tag.val / 256])

/-- R27: in service mode the lead sends its state to the deputy; the deputy keeps a MIRROR message of 128 bytes, and nothing else changes.
R27, R40, R55, R124: while the kind-6 task of its weave image runs, the lead's shares and caps are those its plan gives, sent once on
channel 4 by the command's own MSEQ; both the periodic send and the re-plan do it, and neither does while an election runs (R28). R55,
R56, R59: a SHARE message sets the target of a shelf in RACK source from its own entry and shows it, ends HOLD, and sets no plan point;
with another source it is only kept. That a command whose conditions do not hold changes nothing is the model's choice (log 6). -/
def Obligations.MirrorAndShares : Prop :=
  (∀ (s : State) (d : Peer), s.on → s.m.isLead = true → s.m.service = true → s.m.peer (s.m.get R.MOD_ROLE_STAT_DEPUTY_POS) = some d →
      d.addr ≠ s.m.addr →
    Does .mirrorSend s fun t => Sparse.get (fun _ => 0) t.m.lnk.mseq 4 = (Sparse.get (fun _ => 0) s.m.lnk.mseq 4 + 1) % 65536 ∧
      s.m.onlyParts [.lnk, .flt] t.m ∧ t.fuses = s.fuses ∧ t.pending = s.pending) ∧
  (∀ (s : State) (b : List Byte), s.on → b.length = 128 → b.getD 0 0 = 0x55 → s.m.role = 2 →
    Does (.mirrorReceive b) s fun t => t.m.plan.mirror = natBytes b ∧ t.m.plan.points = s.m.plan.points ∧ s.frame [.plan, .lnk] [] t) ∧
  (∀ (c : Instr) (s : State), c = .shareSend ∨ c = .shareReplan → s.on → s.m.serves = true →
    (s.m.get R.MOD_ROLE_STAT_ELECTING = 0 →
      Does c s fun t => t.m.plan.share = s.m.shareMsg.1 ∧ t.m.plan.pRack = s.m.shareMsg.2.1 ∧ t.m.plan.cRack = s.m.shareMsg.2.2 ∧
        Sparse.get (fun _ => 0) t.m.lnk.mseq 4 = (Sparse.get (fun _ => 0) s.m.lnk.mseq 4 + 1) % 65536 ∧
        s.m.onlyParts [.plan, .lnk, .bwk, .pwr, .flt] t.m) ∧
    (s.m.get R.MOD_ROLE_STAT_ELECTING = 1 → Does c s fun t => t = s)) ∧
  (∀ (s : State) (b : List Byte), s.on → b.length = 56 → b.getD 0 0 = 0x54 → s.m.planSrc = 2 → s.m.pos ≤ 9 →
      s.m.get R.MOD_ROLE_STAT_ELECTING = 0 →
    Does (.shareReceive b) s fun t =>
      t.m.bwk.tgt = some ((sext 16 ((b.getD (16 + 4 * s.m.pos) 0).toNat + 256 * (b.getD (17 + 4 * s.m.pos) 0).toNat) : Rat) / 10) ∧
      t.m.get R.BWK_SHARE_SHARE = (b.getD (16 + 4 * s.m.pos) 0).toNat + 256 * (b.getD (17 + 4 * s.m.pos) 0).toNat ∧
      t.m.get R.BWK_DP_STAT_HOLD = 0 ∧ t.m.bwk.pdp = s.m.bwk.pdp ∧ t.m.plan.share = natBytes b) ∧
  (∀ (s : State) (b : List Byte), s.on → b.length = 56 → b.getD 0 0 = 0x54 → s.m.planSrc ≠ 2 →
    Does (.shareReceive b) s fun t => t.m.plan.share = natBytes b ∧ t.m.bwk.tgt = s.m.bwk.tgt ∧ s.frame [.plan, .lnk, .bwk] [] t)

/-- R37, R415: a host silent for HOST_TMO activates check 0x0201 in RUN, at the lead and in DIRECT source, and freezes a DIRECT source in
HOLD; a lead whose shares have been missing for 3 ms does the same by 0x0202 for RACK source. Neither leaves RUN. R67, R47: TELEM leaves
by both ring ports; one that comes in is kept with its peer, and its deviation counts in the worst since the last report; in service mode
the lead's report leaves on channel 10 and the worst deviation starts again. -/
def Obligations.SilenceAndTelemetry : Prop :=
  (∀ s : State, s.m.hostSilent = true → s.m.isLead = true ∨ s.m.planSrc = 1 →
    Does .hostSilenceTimeout s fun t => t.m.checkActive 0x0201 = true ∧ t.m.pstate = 3 ∧
      (s.m.planSrc = 1 → t.m.get R.BWK_DP_STAT_HOLD = 1) ∧ t.m.get R.BWK_CAP_HOST_CAP = s.m.get R.BWK_CAP_HOST_CAP ∧
      s.frame [.pwr, .log] [R.BWK_DP_STAT_HOLD, R.BWK_DP_STAT_DP_STATE] t) ∧
  (∀ s : State, s.m.pstate = 3 → s.m.planSrc = 2 → s.m.bwk.shareTick + 3 * tickMs ≤ s.m.time.ticks →
    Does .shareSilenceTimeout s fun t => t.m.checkActive 0x0202 = true ∧ t.m.get R.BWK_DP_STAT_HOLD = 1 ∧ t.m.pstate = 3 ∧
      s.frame [.pwr, .log] [R.BWK_DP_STAT_HOLD, R.BWK_DP_STAT_DP_STATE] t) ∧
  (∀ s : State, s.on → s.m.portUp 0 = true → s.m.portUp 1 = true →
    Does .telemSend s fun t => ∃ g, (t.m.port 0).txq = (s.m.port 0).txq ++ [g] ∧ g.chan = 5 ∧ g.scope = .ring ∧
      g.mseq = Sparse.get (fun _ => 0) s.m.lnk.mseq 5 ∧ g.body.length = 34 ∧ g.body.take 2 = [0x56, s.m.pos] ∧
      (t.m.port 1).txq = (s.m.port 1).txq ++ [{ g with west := true }] ∧ s.frame [.lnk] [] t) ∧
  (∀ (s : State) (b : List Byte) (q : Peer), s.on → b.length = 34 → b.getD 0 0 = 0x56 → s.m.roles.peers = [q] → q.pos = (b.getD 1 0).toNat →
    Does (.telemReceive b) s fun t => t.m.roles.peers = [{ q with telem := natBytes b }] ∧
      t.m.bwk.worst = worseDev s.m.bwk.worst q.pos ((sext 16 (le (natBytes b) 22 2) : Rat) / 10) ∧
      s.frame [.roles, .lnk, .bwk, .flt] (R.BWK_DP_STAT_DROOP_MISMATCH :: repFlds 6) t) ∧
  (∀ s : State, s.on → s.m.serves = true → s.m.portUp 6 = true →
    Does .rackDrawReport s fun t => t.m.bwk.worst = [] ∧ (∃ g, (t.m.port 6).txq = (s.m.port 6).txq ++ [g] ∧ g.chan = 10 ∧ g.scope = .host) ∧
      s.frame [.lnk, .bwk] [] t)

/-- R55, R292: the lead takes in a facility plan whose T0 is a multiple of 10 ms that has not begun to pass and whose bands are in order: its
points replace those at and after T0, in a fleet plan as fractions of BASIS, with its cap where it carries one; a plan whose last point is
reached ends with check 0x0204. R60, R62, R56: the cap of a HOST_CMD or of BWK_CAP_HOST is accepted at once, and while an election runs it
waits for its end; the target of a HOST_CMD is taken by DIRECT source, and one with nonzero reserved bytes is refused. -/
def Obligations.PlansAndCaps : Prop :=
  (∀ (s : State) (b : List Byte), s.on → s.m.isLead = true → b.length = 48 → b.getD 0 0 = 0x51 → bit (b.getD 1 0).toNat 0 = false →
      s.m.get R.LNK_FLEET_CFG_PLAN_SRC = 0 → le (natBytes b) 8 8 % planStep = 0 → s.m.nowNs / planStep * planStep ≤ le (natBytes b) 8 8 →
      (∀ i < 8, le (natBytes b) (16 + 4 * i) 2 ≤ le (natBytes b) (18 + 4 * i) 2) →
    Does (.planReceive b) s fun t =>
      t.m.plan.points = s.m.plan.points.filter (fun p => decide (p.t < le (natBytes b) 8 8)) ++
        (List.range 8).map (fun i => PlanPt.mk (le (natBytes b) 8 8 + i * planStep) (le (natBytes b) (16 + 4 * i) 2)
          (le (natBytes b) (18 + 4 * i) 2)) ∧
      t.m.plan.seq = le (natBytes b) 2 2 ∧ t.m.plan.cap = s.m.plan.cap ∧ t.m.checkActive 0x0204 = false ∧
      s.frame [.plan, .lnk, .bwk, .pwr] [] t) ∧
  (∀ (s : State) (b : List Byte), s.on → s.m.isLead = true → b.length = 48 → b.getD 0 0 = 0x51 → bit (b.getD 1 0).toNat 0 = true →
      s.m.get R.LNK_FLEET_CFG_PLAN_SRC = 0 → le (natBytes b) 8 8 % planStep = 0 → s.m.nowNs / planStep * planStep ≤ le (natBytes b) 8 8 →
      (∀ i < 6, le (natBytes b) (16 + 4 * i) 2 ≤ le (natBytes b) (18 + 4 * i) 2) →
    Does (.planReceive b) s fun t => t.m.plan.cap = le (natBytes b) 40 2 ∧ t.m.plan.seq = le (natBytes b) 2 2 ∧
      t.m.plan.points.drop (t.m.plan.points.length - 6) = (List.range 6).map (fun i =>
        PlanPt.mk (le (natBytes b) 8 8 + i * planStep) (le (natBytes b) (16 + 4 * i) 2) (le (natBytes b) (18 + 4 * i) 2))) ∧
  (∀ (s : State) (b : List Byte), s.on → s.m.isLead = true → b.length = 48 → b.getD 0 0 = 0x52 → bit (b.getD 1 0).toNat 0 = false →
      s.m.get R.LNK_FLEET_CFG_PLAN_SRC = 1 → s.m.get R.LNK_FLEET_CFG_BASIS ≠ 0 → le (natBytes b) 8 8 % planStep = 0 →
      s.m.nowNs / planStep * planStep ≤ le (natBytes b) 8 8 →
      (∀ i < 8, le (natBytes b) (16 + 4 * i) 2 ≤ le (natBytes b) (18 + 4 * i) 2) →
    Does (.planReceive b) s fun t => t.m.plan.seq = le (natBytes b) 2 2 ∧ t.m.plan.cap = s.m.plan.cap ∧
      t.m.plan.points.getLast? = some ⟨le (natBytes b) 8 8 + 7 * planStep,
        (rna ((le (natBytes b) 44 2 : Rat) * (s.m.get R.LNK_FLEET_CFG_BASIS : Rat) / 65536)).toNat,
        (rna ((le (natBytes b) 46 2 : Rat) * (s.m.get R.LNK_FLEET_CFG_BASIS : Rat) / 65536)).toNat⟩) ∧
  (∀ (s : State) (p : PlanPt), s.on → s.m.isLead = true → s.m.plan.points.getLast? = some p → p.t ≤ s.m.nowNs →
    Does .planEnd s fun t => t.m.plan.ended = true ∧ t.m.checkActive 0x0204 = true ∧ t.m.plan.points = s.m.plan.points ∧
      s.frame [.plan, .pwr, .log] [] t) ∧
  (∀ (s : State) (v : Word), s.on → s.m.wrStatus 0x6064 v.toNat = 0 → s.m.get R.MOD_ROLE_STAT_ELECTING = 0 →
    Does (.bwkCapHostWrite v) s fun t => t.m.get R.BWK_CAP_HOST_CAP = v.toNat % 65536 ∧ t.m.resp = 0 ∧
      s.m.onlyParts [.bwk, .flt, .resp] t.m) ∧
  (∀ (s : State) (v : Word), s.on → s.m.wrStatus 0x6064 v.toNat = 0 → s.m.get R.MOD_ROLE_STAT_ELECTING = 1 →
    Does (.bwkCapHostWrite v) s fun t => t.m.bwk.capWait = some (v.toNat % 65536) ∧ s.frame [.bwk, .resp] [] t) ∧
  (∀ (s : State) (b : List Byte), s.on → b.length = 12 → b.getD 0 0 = 0x53 → b.getD 1 0 = 2 → le (natBytes b) 8 4 = 0 →
      le (natBytes b) 4 2 ≤ 2000 → s.m.get R.MOD_ROLE_STAT_ELECTING = 0 →
    Does (.hostCmdReceive b) s fun t => t.m.get R.BWK_CAP_HOST_CAP = le (natBytes b) 4 2 ∧ t.m.bwk.hostTick = s.m.time.ticks ∧
      t.m.checkActive 0x0201 = false) ∧
  (∀ (s : State) (b : List Byte), s.on → b.length = 12 → b.getD 0 0 = 0x53 → le (natBytes b) 8 4 ≠ 0 →
    Does (.hostCmdReceive b) s fun t => t.m.logs 2 0x0105 ∧ s.frame [.lnk, .log] [] t) ∧
  (∀ (s : State) (b : List Byte), s.on → b.length = 12 → b.getD 0 0 = 0x53 → le (natBytes b) 8 4 = 0 →
    Does (.hostCmdReceive b) s fun t => t.m.bwk.hostTick = s.m.time.ticks ∧ t.m.checkActive 0x0201 = false ∧
      (s.m.planSrc = 1 → bit (b.getD 1 0).toNat 0 = true →
        t.m.bwk.tgt = some (((min (sext 16 (le (natBytes b) 2 2)) 2000 : Int) : Rat) / 10)))

/-- R58: an overflow that has been clear for 200 frames ends: ENTRY is set and the plan point restarts from the measured feed draw. R43, R48,
R51: a pole outside the shore limits for 10 frames raises BUS_SHORE; where the weave runs, outputs older than STALE_EFF raise ENV_STALE,
and ones older than OFF_EFF or a STO_HOLD that does not toggle raise STO_OFF, with a zero envelope; BWK_CLR.DEV clears DEV_MAX. That a
command whose conditions do not hold changes nothing is the model's choice (log 6). -/
def Obligations.BreakwaterConditions : Prop :=
  (∀ s : State, s.m.pstate = 3 → s.m.bwk.ovf = true → 200 ≤ s.m.bwk.ovfClear →
    Does .overflowClear s fun t => t.m.bwk.ovf = false ∧ t.m.bwk.pdp = s.m.bwk.feedNow ∧ t.m.get R.BWK_DP_STAT_ENTRY = 1 ∧
      t.m.get R.BWK_DP_STAT_OVF_EBB = 0 ∧ t.m.get R.BWK_DP_STAT_OVF_FLOOD = 0 ∧
      s.frame [.bwk, .flt] ([R.BWK_DP_STAT_ENTRY, R.BWK_DP_STAT_OVF_EBB, R.BWK_DP_STAT_OVF_FLOOD, R.BWK_DP_STAT_DP_STATE] ++ repFlds 6) t) ∧
  (∀ s : State, s.on → s.m.bwk.ovfClear < 200 → Does .overflowClear s fun t => t = s) ∧
  (∀ (s : State) (p : Fin 2), s.m.pstate = 3 → 10 ≤ (s.m.bp p).shoreRun → s.m.condOn 6 p 1 0 = false → s.m.takes 6 p →
    Does (.busShore p) s fun t => t.m.get R.BWK_EVT_SHORE = 1 ∧
      t.m.tells { blk := 6, inst := p, kind := 1, addr := 0, cls := 1, ind := .start } ∧
      s.frame [.flt] ([R.BWK_EVT_SHORE, pmbVout p] ++ repFlds 6) t) ∧
  (∀ (s : State) (p : Fin 2), s.on → s.m.coresRun = true → s.m.olderThan p s.m.staleEff = true → s.m.bwk.stale.getD p false = false →
      s.m.takes 6 p → s.m.condOn 6 p 6 0 = false →
    Does (.envStaleTimeout p) s fun t => t.m.bwk.stale.getD p false = true ∧ t.m.get R.BWK_DP_STAT_ENV_STALE = 1 ∧
      t.m.get R.BWK_EVT_STALE = 1 ∧ t.m.tells { blk := 6, inst := p, kind := 6, addr := 0, cls := 0, ind := .start } ∧
      s.m.onlyParts [.bwk, .cen, .flt] t.m) ∧
  (∀ (s : State) (p : Fin 2), s.on → s.m.coresRun = true → s.m.olderThan p s.m.offEff = true ∨ s.m.pins.stoHold = false →
      s.m.bwk.off.getD p false = false →
      s.m.takes 6 p → s.m.condOn 6 p 7 0 = false →
    Does (.stoOffTimeout p) s fun t => t.m.bwk.off.getD p false = true ∧ (t.m.bp p).pEbb = 0 ∧ (t.m.bp p).pFld = 0 ∧
      t.m.tells { blk := 6, inst := p, kind := 7, addr := 0, cls := 1, ind := .start } ∧ s.m.onlyParts [.bwk, .cen, .flt] t.m) ∧
  (∀ s : State, s.on → s.m.wrStatus 0x60C4 1 = 0 →
    Does (.bwkClrDev true) s fun t => t.m.get R.BWK_DEV_DEV_MAX = 0 ∧ t.m.resp = 0 ∧ s.frame [.resp] [R.BWK_DEV_DEV_MAX] t)

/-- R273, R279: light on an enabled port starts training; a trained port that faces a fitting peer is UP with its peer, delay and credits, any
other pairing is a ROLE_ERR and puts the port in FAIL. What the peer has not received stays in the retry store, and its credits with it.
R274: a port without a valid frame for 10 µs goes down, a lost lane leaves UP_1L where one lane is allowed, a retraining is counted and
puts the port back to TRAIN, and a port in FAIL trains again after its second. -/
def Obligations.PortTraining : Prop :=
  (∀ (s : State) (p : Fin 7), s.on → s.m.portOn p = true → s.m.pst p ≤ 1 →
    Does (.portLight p) s fun t => t.m.pst p = 1 ∧ (t.m.port p).light = true ∧ s.frame [.lnk] (portFlds p) t) ∧
  (∀ (s : State) (p : Fin 7) (a : Fin 16384) (pp : Fin 8) (h : Bool) (r : Fin 4096) (d : Fin 16777216) (w : Fin 256), s.on →
      s.m.portOn p = true → s.m.pst p = 1 → (s.m.port p).light = true → portFits p pp h = true →
    Does (.portTrained p false a pp h r d w) s fun t => t.m.pst p = 2 ∧ t.m.get (R.LNK_PSTAT_PEER_ADDR p) = a.val ∧
      t.m.get (R.LNK_PSTAT_PEER_PORT p) = pp.val ∧ t.m.get (R.LNK_PDLY_DLY p) = d.val ∧ t.m.get (R.LNK_PSTAT_ROLE_ERR p) = 0 ∧
      ((s.m.port p).retry = [] → (s.m.port p).txq = [] → (t.m.port p).cr0 = 8 ∧ (t.m.port p).cr1 = 16 ∧ (t.m.port p).cr2 = w.val) ∧
      (2 ≤ p.val → s.m.onlyParts [.lnk, .flt] t.m)) ∧
  (∀ (s : State) (p : Fin 7) (a : Fin 16384) (pp : Fin 8) (h : Bool) (r : Fin 4096) (d : Fin 16777216) (w : Fin 256), s.on →
      s.m.portOn p = true → s.m.pst p = 1 → (s.m.port p).light = true → portFits p pp h = true → s.m.get R.LNK_CFG_ONE_LANE_OK = 1 →
    Does (.portTrained p true a pp h r d w) s fun t => t.m.pst p = 3 ∧ t.m.get (R.LNK_PSTAT_PEER_ADDR p) = a.val ∧
      t.m.get (R.LNK_PDLY_DLY p) = d.val ∧ t.m.get (R.LNK_PSTAT_ROLE_ERR p) = 0) ∧
  (∀ (s : State) (p : Fin 7) (one : Bool) (a : Fin 16384) (pp : Fin 8) (h : Bool) (r : Fin 4096) (d : Fin 16777216) (w : Fin 256), s.on →
      s.m.portOn p = true → s.m.pst p = 1 → (s.m.port p).light = true → portFits p pp h = false → one = false →
      s.m.takes 13 p → s.m.condOn 13 p 5 0 = false →
    Does (.portTrained p one a pp h r d w) s fun t => t.m.pst p = 4 ∧ t.m.get (R.LNK_PSTAT_ROLE_ERR p) = 1 ∧ t.m.get R.LNK_EVT_ROLE = 1 ∧
      t.m.tells { blk := 13, inst := p, kind := 5, addr := 0, cls := 1, ind := .start } ∧ s.m.onlyParts [.lnk, .flt] t.m) ∧
  (∀ (s : State) (p : Fin 7), s.on → s.m.portUp p = true → s.m.takes 13 p →
    Does (.portDown p) s fun t => t.m.pst p = 1 ∧ (t.m.port p).light = false ∧ t.m.get R.LNK_EVT_DOWN = 1 ∧ t.m.condOn 13 p 1 0 = true ∧
      s.m.onlyParts [.lnk, .flt] t.m) ∧
  (∀ (s : State) (p : Fin 7), s.on → s.m.pst p = 2 → s.m.get R.LNK_CFG_ONE_LANE_OK = 1 → s.m.takes 13 p → s.m.condOn 13 p 2 0 = false →
      s.m.mayRaise (raiseKey 13 p 2) tickS = true →
    Does (.laneLoss p) s fun t => t.m.pst p = 3 ∧ t.m.get R.LNK_EVT_DEGRADED = 1 ∧
      t.m.tells { blk := 13, inst := p, kind := 2, addr := 0, cls := 0, ind := .start } ∧
      s.frame [.flt] (portFlds p ++ R.LNK_EVT_DEGRADED :: repFlds 13) t) ∧
  (∀ (s : State) (p : Fin 7), s.on → s.m.portUp p = true →
      16 < ((s.m.port p).crcTicks.filter (fun x => decide (s.m.time.ticks < x + tickMs))).length ∨ (∃ f ∈ (s.m.port p).retry, 8 ≤ f.tries) →
    Does (.portRetrain p) s fun t =>
      t.m.pst p = (if 2 ≤ ((s.m.port p).retrains.filter (fun x => decide (s.m.time.ticks < x + tickS))).length then 4 else 1) ∧
      (t.m.port p).retrains = s.m.time.ticks :: (s.m.port p).retrains.filter (fun x => decide (s.m.time.ticks < x + tickS)) ∧
      t.m.get R.LNK_EVT_RETRAIN = 1 ∧
      (t.m.word (R.LNK_RTR_CNT_COUNT p).addr).toNat = min ((s.m.word (R.LNK_RTR_CNT_COUNT p).addr).toNat + 1) (2 ^ 32 - 1)) ∧
  (∀ (s : State) (p : Fin 7), s.on → s.m.portUp p = true → s.m.wrStatus 0xD0F4 (1 + 4 * p.val) = 0 →
    Does (.lnkCmdRetrain p) s fun t =>
      t.m.pst p = (if 2 ≤ ((s.m.port p).retrains.filter (fun x => decide (s.m.time.ticks < x + tickS))).length then 4 else 1) ∧
      (t.m.port p).retrains = s.m.time.ticks :: (s.m.port p).retrains.filter (fun x => decide (s.m.time.ticks < x + tickS)) ∧
      t.m.get R.LNK_EVT_RETRAIN = 1 ∧ t.m.resp = 0 ∧
      (t.m.word (R.LNK_RTR_CNT_COUNT p).addr).toNat = min ((s.m.word (R.LNK_RTR_CNT_COUNT p).addr).toNat + 1) (2 ^ 32 - 1)) ∧
  (∀ (s : State) (p : Fin 7), s.on → s.m.pst p = 4 → (s.m.port p).failTick + tickS ≤ s.m.time.ticks →
    Does (.portFailEnd p) s fun t => t.m.pst p = 1 ∧ t.m.get (R.LNK_PSTAT_ROLE_ERR p) = 0 ∧ (t.m.port p).retrains = [] ∧
      s.frame [.lnk, .flt] (portFlds p ++ R.LNK_PSTAT_ROLE_ERR p :: repFlds 13) t)

/-- R274, R275, R276: an IDLE frame carries the acknowledgement; a frame with a bad CRC is counted and nothing of it acts; a MSG frame in
sequence is acknowledged and its unicast for this module delivered; unacknowledged frames are sent again and counted, the oldest without
its message when that fails parity; what the scrambler of R272 makes of a payload its peer reads back. R280, R281: the stops leave on
every port that is up as a map of 32 bytes; a channel stopped for more than 10 ms is reported; a message held too long is discarded,
counted and reported. -/
def Obligations.LinkFrames : Prop :=
  (∀ (s : State) (p : Fin 7), s.on → s.m.portUp p = true →
    Does (.idleSend p) s fun t => (∃ f, (t.m.port p).lastTx = some f ∧ f.body = [] ∧ bits f.lh0 24 4 = 2 ∧
      bits f.lh0 12 12 = (s.m.port p).rxSeq % 4096 ∧ f.crc = crc32 (leBytes 4 f.lh0 ++ leBytes 4 f.lh1)) ∧ s.frame [.lnk] [] t) ∧
  (∀ (s : State) (p : Fin 7) (b : List Byte) (bad : Bool), s.on → s.m.portUp p = true →
      b.length < 12 ∨ crc32 ((natBytes b).take (b.length - 4)) ≠ le (natBytes b) (b.length - 4) 4 →
    Does (.linkFrameReceive p b bad) s fun t =>
      (t.m.word (R.LNK_CRC_CNT_COUNT p).addr).toNat = min ((s.m.word (R.LNK_CRC_CNT_COUNT p).addr).toNat + 1) (2 ^ 32 - 1) ∧
      (t.m.port p).crcTicks.head? = some s.m.time.ticks ∧ (t.m.port p).rxSeq = (s.m.port p).rxSeq ∧ t.m.lnk.inbox = s.m.lnk.inbox ∧
      ((s.m.word (R.LNK_CRC_CNT_COUNT p).addr).toNat < 2 ^ 32 - 1 → s.frame [.lnk] [⟨(R.LNK_CRC_CNT_COUNT p).addr, 0, 32⟩] t)) ∧
  (∀ (s : State) (p : Fin 2) (b : List Byte) (g : Msg), s.on → s.m.portUp p = true → 12 ≤ b.length →
      crc32 ((natBytes b).take (b.length - 4)) = le (natBytes b) (b.length - 4) 4 → bits (le (natBytes b) 0 4) 24 4 = 0 →
      bits (le (natBytes b) 0 4) 0 12 = ((s.m.port p).rxSeq + 1) % 4096 →
      parseMsg (((natBytes b).drop 8).take (b.length - 12)) = some g → g.scope = .unicast → g.dst = s.m.addr → g.chan < 14 → g.hops ≠ 0 →
      g.src ≠ s.m.addr → g.relay = 0 →
    Does (.linkFrameReceive ⟨p.val, by omega⟩ b false) s fun t => { g with tick := s.m.time.ticks } ∈ t.m.lnk.inbox ∧
      (t.m.port p).rxSeq = ((s.m.port p).rxSeq + 1) % 4096 ∧ s.m.onlyParts [.lnk, .flt] t.m) ∧
  (∀ (s : State) (p : Fin 7) (f : Sent), s.on → s.m.portUp p = true → (s.m.port p).retry.getLast? = some f →
    Does (.retryTimeout p false) s fun t => (t.m.port p).retry = (s.m.port p).retry.map (fun g => { g with tries := g.tries + 1 }) ∧
      (∃ x, (t.m.port p).lastTx = some x ∧ x.body = f.msg.bytes ∧ bits x.lh0 0 12 = f.lseq % 4096) ∧
      (t.m.word (R.LNK_RETX_CNT_COUNT p).addr).toNat =
        min ((s.m.word (R.LNK_RETX_CNT_COUNT p).addr).toNat + (s.m.port p).retry.length) (2 ^ 32 - 1) ∧
      ((s.m.word (R.LNK_RETX_CNT_COUNT p).addr).toNat + (s.m.port p).retry.length ≤ 2 ^ 32 - 1 →
        s.frame [.lnk] [⟨(R.LNK_RETX_CNT_COUNT p).addr, 0, 32⟩] t)) ∧
  (∀ (s : State) (p : Fin 7) (f : Sent) (l : List Sent), s.on → s.m.portUp p = true → (s.m.port p).retry = f :: l →
    Does (.retryTimeout p true) s fun t => (t.m.port p).retry = l.map (fun g => { g with tries := g.tries + 1 }) ∧
      (t.m.word (R.LNK_LOST_CNT_COUNT p).addr).toNat = min ((s.m.word (R.LNK_LOST_CNT_COUNT p).addr).toNat + 1) (2 ^ 32 - 1)) ∧
  (∀ k x : Nat, k < 2 ^ 58 → x < 2 ^ 64 → unscramble k (scramble k x).1 = (x, (scramble k x).2) ∧ (scramble k x).2 < 2 ^ 58) ∧
  (∀ (s : State) (p : Fin 7), s.on → s.m.portUp p = true →
    Does .stopmapSend s fun t => (∃ f, (t.m.port p).lastTx = some f ∧ bits f.lh0 24 4 = 5 ∧ f.body.length = 32 ∧
        ∀ c < 256, bit (f.body.getD (c / 8) 0) (c % 8) = (t.m.chClass c != 0 && t.m.chStopped c)) ∧
      s.m.onlyParts [.lnk, .flt] t.m) ∧
  (∀ (s : State) (c : Fin 256), s.on → s.m.chStopped c = true → s.m.chClass c ≠ 0 → s.m.takes 13 7 → s.m.condOn 13 7 7 c = false →
      s.m.stoppedAt c + 10 * tickMs ≤ s.m.time.ticks → s.m.mayRaise (raiseKey 13 7 7) tickS = true →
    Does (.chStall c) s fun t => t.m.get R.LNK_EVT_STALL = 1 ∧
      t.m.tells { blk := 13, inst := 7, kind := 7, addr := c.val, cls := 0, ind := .start } ∧
      s.frame [.flt] (R.LNK_EVT_STALL :: repFlds 13) t) ∧
  (∀ (s : State) (p : Fin 7) (c : Fin 256) (g : Msg), s.on → 2 ≤ s.m.chClass c → g ∈ (s.m.port p).txq →
      g.chan = c.val → g.src ≠ s.m.addr → g.tick + 100 * tickMs ≤ s.m.time.ticks →
    Does (.messageAged p c) s fun t => (t.m.port p).txq.length + 1 = (s.m.port p).txq.length ∧ t.m.get R.LNK_EVT_LOST = 1 ∧
      (t.m.word R.LNK_AGED_CNT_COUNT.addr).toNat = min ((s.m.word R.LNK_AGED_CNT_COUNT.addr).toNat + 1) (2 ^ 32 - 1) ∧
      s.m.onlyParts [.lnk, .flt] t.m)

/-- R285, R286: a lead lists its ring's addresses on its up link; a ROUTE message sets the entries of its addresses to the link it came by and
holds their new unicasts; an entry that is not refreshed is set to none; the end of a hold lets the held unicasts leave by their route.
R305: at the lead up to seven waiting records leave for the host in one FAULT message, in order; a FAULT message of a member is forwarded
unchanged. -/
def Obligations.RoutesAndFaultMessages : Prop :=
  (∀ s : State, s.on → s.m.isLead = true → s.m.get R.LNK_TREE_STAT_UP_LINK < 8 →
    Does .routeSend s fun t => Sparse.get (fun _ => 0) t.m.lnk.mseq 11 = (Sparse.get (fun _ => 0) s.m.lnk.mseq 11 + 1) % 65536 ∧
      s.frame [.lnk] [] t) ∧
  (∀ s : State, s.on → s.m.isLead = true → s.m.get R.LNK_TREE_STAT_UP_LINK < 4 →
    Does .routeSend s fun t => (∃ g, (t.m.port (2 + s.m.get R.LNK_TREE_STAT_UP_LINK)).txq =
        (s.m.port (2 + s.m.get R.LNK_TREE_STAT_UP_LINK)).txq ++ [g] ∧ g.chan = 11 ∧
        g.body = [0x58, s.m.rackAddrs.length] ++ s.m.rackAddrs.flatMap (leBytes 2)) ∧ s.frame [.lnk] [] t) ∧
  (∀ (s : State) (l : Fin 8) (x y : Byte), s.on → s.m.isLead = true → s.m.get R.LNK_TREE_STAT_UP_LINK = 15 →
      s.m.route ((x.toNat + 256 * y.toNat) % 16384) = (15, 0) → s.m.rackAddrs.contains ((x.toNat + 256 * y.toNat) % 16384) = false →
    Does (.routeReceive l [0x58, 1, x, y]) s fun t => t.m.route ((x.toNat + 256 * y.toNat) % 16384) = (l.val, s.m.time.ticks) ∧
      ((x.toNat + 256 * y.toNat) % 16384, s.m.time.ticks) ∈ t.m.lnk.holds ∧
      (∀ a, a ≠ (x.toNat + 256 * y.toNat) % 16384 → t.m.route a = s.m.route a) ∧ s.frame [.lnk] [] t) ∧
  (∀ (s : State) (l : Fin 8) (b : List Byte) (n : Nat), s.on → s.m.isLead = true → b.getD 0 0 = 0x58 → (b.getD 1 0).toNat = n → 1 ≤ n → n ≤ 10 →
    Does (.routeReceive l b) s fun t => (∀ i < n, t.m.route (le (natBytes b) (2 + 2 * i) 2 % 16384) = (l.val, s.m.time.ticks)) ∧
      (∀ a, (∀ i < n, a ≠ le (natBytes b) (2 + 2 * i) 2 % 16384) → t.m.route a = s.m.route a) ∧ s.m.onlyParts [.lnk, .flt] t.m) ∧
  (∀ (s : State) (a : Fin 16384), s.on → (s.m.route a).1 < 8 → (s.m.route a).2 + 350 * tickMs ≤ s.m.time.ticks →
    Does (.routeAgeOut a) s fun t => t.m.route a = (15, 0) ∧ (∀ b, b ≠ a.val → t.m.route b = s.m.route b) ∧
      s.frame [.lnk, .flt] (repFlds 13) t) ∧
  (∀ (s : State) (g : Msg) (x : Nat), s.on → g.dst < 16384 → s.m.isLead = true → s.m.posOfAddr g.dst = none → (s.m.route g.dst).1 < 4 →
      s.m.lnk.heldq = [g] → s.m.lnk.holds = [(g.dst, x)] → x + 50 * tickUs ≤ s.m.time.ticks →
    ∀ d : Fin 16385, d.val = g.dst →
      Does (.pathHoldEnd d) s fun t => t.m.lnk.heldq = [] ∧ t.m.lnk.holds = [] ∧
        g ∈ (t.m.port (2 + (s.m.route g.dst).1)).txq ++ (t.m.port (2 + (s.m.route g.dst).1)).retry.map (·.msg)) ∧
  (∀ (s : State) (d : Fin 16385), s.on → (∀ h ∈ s.m.lnk.holds, h.1 = d.val → h.2 + 50 * tickUs ≤ s.m.time.ticks) →
    Does (.pathHoldEnd d) s fun t => t.m.lnk.holds = s.m.lnk.holds.filter (fun h => h.1 != d.val)) ∧
  (∀ s : State, s.on → s.m.flt.faultTx ≠ [] → s.m.isLead = true → s.m.portUp 6 = true →
    Does .faultMessageSend s fun t => t.m.flt.faultTx = s.m.flt.faultTx.drop 7 ∧
      (∃ g, (t.m.port 6).txq = (s.m.port 6).txq ++ [g] ∧ g.chan = 6 ∧
        g.body = [0x59, (s.m.flt.faultTx.take 7).length, 0, 0] ++ (s.m.flt.faultTx.take 7).flatMap FRec.bytes) ∧
      s.frame [.flt, .lnk] [] t) ∧
  (∀ (s : State) (b : List Byte), s.on → s.m.isLead = true → s.m.portUp 6 = true →
    Does (.faultMessageReceive b) s fun t =>
      (∃ g, (t.m.port 6).txq = (s.m.port 6).txq ++ [g] ∧ g.chan = 6 ∧ g.scope = .host ∧ g.body = natBytes b) ∧ s.frame [.lnk] [] t) ∧
  (∀ s : State, s.on → s.m.flt.faultTx ≠ [] →
    Does .faultMessageSend s fun t => t.m.flt.faultTx = s.m.flt.faultTx.drop 7 ∧ (s.m.isLead = true → s.frame [.flt, .lnk] [] t))

/-- R298, R299: a measurement shows in the port's registers and leaves in a DIAG frame; the eighth bad return loss in a row asks for cleaning;
BASE records the present losses; POOL_MIN_CLR sets MIN_FREE to FREE. -/
def Obligations.Optics : Prop :=
  (∀ (s : State) (p : Fin 7) (a b c d : Int) (r : Fin 256), s.on → s.m.portUp p = true →
    Does (.opticalDiag p a b c d r) s fun t => t.m.get (R.LNK_OPT_PWR_TX0 p) = enc 8 a ∧ t.m.get (R.LNK_OPT_PWR_RX1 p) = enc 8 d ∧
      t.m.get (R.LNK_OPT_LOSS_LOSS0 p) = laneLoss ((s.m.port p).peerTx.getD 0 0) c ∧
      t.m.get (R.LNK_OPT_LOSS_LOSS1 p) = laneLoss ((s.m.port p).peerTx.getD 1 0) d ∧ t.m.get (R.LNK_OPT_LOSS_RL_LOC p) = r.val ∧
      (∃ f, (t.m.port p).lastTx = some f ∧ bits f.lh0 24 4 = 4 ∧ f.body = [enc 8 a, enc 8 b, r.val]) ∧
      s.m.onlyParts [.lnk, .flt, .log] t.m) ∧
  (∀ (s : State) (p : Fin 7) (a b c d : Int), s.on → s.m.portUp p = true → (s.m.port p).badLoc = 7 →
      s.m.condOn 13 p 0x0C 0 = false → s.m.takes 13 p →
    Does (.opticalDiag p a b c d 0) s fun t => t.m.get (R.LNK_PSTAT_CLEAN_REQ p) = 1 ∧ t.m.get (R.LNK_PSTAT_CLEAN_AT p) = 1 ∧
      t.m.get R.LNK_EVT_CLEAN = 1 ∧ t.m.condOn 13 p 0x0C 0 = true) ∧
  (∀ (s : State) (p : Fin 7), s.on → s.m.wrStatus 0xD0F4 (2 + 4 * p.val) = 0 →
    Does (.lnkCmdBase p) s fun t => t.m.get (R.LNK_BASE_BASE0 p) = s.m.get (R.LNK_OPT_LOSS_LOSS0 p) ∧
      t.m.get (R.LNK_BASE_BASE1 p) = s.m.get (R.LNK_OPT_LOSS_LOSS1 p) ∧ t.m.get (R.LNK_PSTAT_BASE_VALID p) = 1 ∧
      s.frame [.lnk, .resp] [R.LNK_BASE_BASE0 p, R.LNK_BASE_BASE1 p, R.LNK_PSTAT_BASE_VALID p] t) ∧
  (∀ s : State, s.on → s.m.wrStatus 0xD0F4 32 = 0 →
    Does .lnkCmdPoolMinClr s fun t => t.m.get R.LNK_POOL_MIN_FREE = s.m.get R.LNK_POOL_FREE ∧ s.frame [.resp] [R.LNK_POOL_MIN_FREE] t)

/-- R247, R248: the PLL's lock starts the divided clocks on the reference that applies; its loss is fatal, stops STO_HOLD, the phase links and
the Nisol ports and ends the validity of time; each failed retry counts; a reference that is lost or restored moves REF_ACT to the
reference that applies. -/
def Obligations.References : Prop :=
  (∀ s : State, s.on → s.m.is R.CLK_STAT_PLL_LOCK = false →
    Does .pllLock s fun t => t.m.get R.CLK_STAT_PLL_LOCK = 1 ∧ t.m.get R.CLK_STAT_XO_OK = 1 ∧ t.m.time.xoFallback = false ∧
      t.m.get R.CLK_STAT_REF_ACT = t.m.bestRef ∧
      s.frame [.time] [R.CLK_STAT_PLL_LOCK, R.CLK_STAT_XO_OK, R.CLK_STAT_REF_ACT] t) ∧
  (∀ s : State, s.on → s.m.is R.CLK_STAT_PLL_LOCK = true → s.m.takes 3 0 →
    Does .pllLockLoss s fun t => t.m.get R.CLK_STAT_PLL_LOCK = 0 ∧ t.m.get R.CLK_EVT_PLL = 1 ∧ t.m.time.xoFallback = true ∧
      t.m.pins.stoHold = false ∧ t.m.get R.PHS_LNK_STAT_UP = 0 ∧ (∀ p < 7, t.m.portUp p = false) ∧ t.m.timeValid = false ∧
      t.m.tells { blk := 3, inst := 0, kind := 1, addr := s.m.get R.CLK_STAT_REF_ACT, cls := 2 } ∧
      s.m.onlyParts [.pins, .time, .flt, .lnk] t.m) ∧
  (∀ s : State, s.on → s.m.is R.CLK_STAT_PLL_LOCK = false → s.m.time.pllTick + tickS ≤ s.m.time.ticks →
    (Does (.pllRelockRetry true) s fun t => t.m.get R.CLK_STAT_PLL_LOCK = 1 ∧ t.m.time.xoFallback = false) ∧
      (Does (.pllRelockRetry false) s fun t => t.m.time.pllTick = s.m.time.ticks ∧
          (t.m.word R.CLK_SW_CNT_COUNT.addr).toNat = min ((s.m.word R.CLK_SW_CNT_COUNT.addr).toNat + 1) (2 ^ 32 - 1) ∧
            ((s.m.word R.CLK_SW_CNT_COUNT.addr).toNat < 2 ^ 32 - 1 → s.frame [.time] [R.CLK_SW_CNT_COUNT] t))) ∧
  (∀ (s : State) (src : Fin 3), s.on →
    Does (.refLost src) s fun t => t.m.get (refFld src) = 0 ∧ t.m.get R.CLK_STAT_REF_ACT = t.m.bestRef ∧
      (t.m.get R.CLK_STAT_REF_ACT ≠ s.m.get R.CLK_STAT_REF_ACT → t.m.get R.CLK_EVT_SWITCH = 1) ∧ s.m.onlyParts [.time, .flt] t.m) ∧
  (∀ (s : State) (src : Fin 3), s.on → (src.val = 1 → s.m.is R.MOD_STRAP_ROOT_CAP = true) →
    Does (.refRestore src) s fun t => t.m.get (refFld src) = 1 ∧ t.m.get R.CLK_STAT_REF_ACT = t.m.bestRef ∧
      (t.m.get R.CLK_STAT_REF_ACT ≠ s.m.get R.CLK_STAT_REF_ACT → t.m.get R.CLK_EVT_SWITCH = 1) ∧ s.m.onlyParts [.flt] t.m)

/-- R252, R253, R254, R255, R296: beacons leave trained ring ports; a locked module takes the offset of its source, shows it and steers within
SLEW_PPM without a step; 8 agreeing offsets outside RUN wait for their step; a lost source changes to the other ring port or begins the
holdover; the end of the tolerance ends VALID. The agreement of 51 ticks and the steering value are the model's (logs 36, 4). -/
def Obligations.BeaconsAndHoldover : Prop :=
  (∀ s : State, s.on →
    Does (.beaconSend false) s fun t => (∀ p < 2, s.m.portUp p = true →
        ∃ f, (t.m.port p).lastTx = some f ∧ f.lh0 / 2 ^ 24 % 16 = 1 ∧ f.body.length = 16) ∧ s.frame [.lnk] [] t) ∧
  (∀ (s : State) (link : Fin 11) (ofs : Int) (valid : Bool) (depth : Fin 16) (gen : Fin 65536) (root : Fin 16384), s.on → link.val < 2 →
      s.m.portUp link = true → s.m.isSource link = true → s.m.isLead = false → s.m.get R.TIM_STAT_STATE = 2 →
      gen.val = s.m.get R.TIM_ROOT_GEN → root.val = s.m.get R.TIM_ROOT_ADDR →
    Does (.beaconReceive link ofs valid false gen root depth false) s fun t =>
      t.m.getI R.TIM_OFFSET_OFS = clampI (-(2 ^ 31)) (2 ^ 31 - 1) (ofs - s.m.asymTicks link) ∧ t.m.get R.TIM_STAT_STATE = 2 ∧
        t.m.get R.TIM_STAT_SRC = s.m.expectSrc ∧ (t.m.getI R.CLK_FREQ_PPB).natAbs ≤ s.m.slewPpm * 1000 ∧
        t.m.time.ofs = s.m.time.ofs ∧ t.m.time.leadValid = valid ∧ t.m.time.lastRoot = s.m.time.ticks ∧
        s.m.onlyParts [.freeCtr, .time, .flt, .lnk] t.m) ∧
  (∀ (s : State) (link : Fin 11) (ofs : Int) (depth : Fin 16) (gen : Fin 65536) (root : Fin 16384), s.on → link.val < 2 →
      s.m.portUp link = true → s.m.isSource link = true → s.m.get R.TIM_STAT_STATE ≤ 1 → s.m.inRun = false →
      offsAgree ((ofs - s.m.asymTicks link) :: s.m.time.offs.take 7) = true → gen.val = s.m.get R.TIM_ROOT_GEN → root.val = s.m.get R.TIM_ROOT_ADDR →
    Does (.beaconReceive link ofs true false gen root depth false) s fun t => t.m.time.stepDue = some (ofs - s.m.asymTicks link) ∧
      t.m.get R.TIM_STAT_STATE = 1 ∧ t.m.time.offs = (ofs - s.m.asymTicks link) :: s.m.time.offs.take 7 ∧ t.m.time.ofs = s.m.time.ofs) ∧
  (∀ (s : State) (o : Fin 2), s.on → s.m.get R.TIM_STAT_SRC + o.val = 2 → s.m.isLead = false → s.m.portUp o = true →
      s.m.time.curPort ≠ 1 - o.val → s.m.time.lastBeacon + 300 * tickUs ≤ s.m.time.ticks →
    Does .timeSourceLost s fun t => t.m.get R.TIM_STAT_SRC = 1 + o.val ∧ t.m.time.curPort = o.val ∧ t.m.time.offs = [] ∧
      s.frame [.time] [R.TIM_STAT_SRC] t) ∧
  (∀ s : State, s.on → s.m.get R.TIM_STAT_SRC = 3 → s.m.get R.TIM_STAT_STATE = 2 → s.m.inReset 4 0 = false → s.m.pageOn 4 = true →
      s.m.time.lastBeacon + 3 * tickMs ≤ s.m.time.ticks → s.m.mayRaise (raiseKey 4 0 2) tickS = true →
    Does .timeSourceLost s fun t => t.m.get R.TIM_STAT_STATE = 3 ∧ t.m.get R.TIM_STAT_SRC = 0 ∧ t.m.get R.TIM_HOLD_AGE = 0 ∧
      t.m.get R.TIM_HOLD_ERR_EST = 250 ∧ t.m.get R.TIM_EVT_HOLD = 1 ∧ t.m.condOn 4 0 2 3 = true ∧
      (t.m.word R.TIM_HOLD_CNT_COUNT.addr).toNat = min ((s.m.word R.TIM_HOLD_CNT_COUNT.addr).toNat + 1) (2 ^ 32 - 1) ∧ t.m.time.ofs = s.m.time.ofs ∧
      s.m.onlyParts [.time, .flt] t.m) ∧
  (∀ s : State, s.on → s.m.get R.TIM_STAT_STATE = 3 → s.m.timeValid = true →
      10 * clampN 30 255 (s.m.get R.TIM_CFG_TOL_NS) < s.m.errEst →
    Does .timeLost s fun t => t.m.timeValid = false ∧ t.m.get R.TIM_EVT_LOST = 1 ∧ t.m.get R.TIM_STAT_STATE = 3 ∧
      (t.m.word R.TIM_LOSS_CNT_COUNT.addr).toNat = min ((s.m.word R.TIM_LOSS_CNT_COUNT.addr).toNat + 1) (2 ^ 32 - 1) ∧ s.m.onlyParts [.flt] t.m)

/-- R250, R258, R259, R459: TIM_TOD waits for the next 1 PPS edge and is refused at a locked root; the root's first edge makes the written
seconds fleet time; a later edge within 1 µs slews, one beyond it and one missing for 1.1 s drop PPS_OK, with FAC lost too the root enters
HOLDOVER; the output pulses for 20 frames from the frame in which a whole second lies; a read of TIM_NOW_LO latches TIM_NOW_HI. R260: a
standby root that has had no root beacon for ROOT_TMO, or whose root has been in HOLDOVER for REF_TMO while its own facility inputs are
good, becomes the acting root with the next GEN and keeps its time without a step. -/
def Obligations.FacilityTimeAndRoots : Prop :=
  (∀ (s : State) (hi : Word), s.m.wrStatus 0x405C hi.toNat = 0 → s.on → (s.m.is R.TIM_STAT_ROOT && s.m.get R.TIM_STAT_STATE == 2) = false →
    Does (.timTodWrite hi) s fun t => t.m.time.todPending = some (s.m.get R.TIM_TOD_LO_SEC + hi.toNat * 2 ^ 32) ∧ t.m.resp = 0 ∧
      t.m.get R.TIM_TOD_HI_SEC = hi.toNat ∧ s.frame [.time, .resp] [R.TIM_TOD_HI_SEC] t) ∧
  (∀ (s : State) (hi : Word), s.m.wrStatus 0x405C hi.toNat = 0 → s.on → s.m.is R.TIM_STAT_ROOT = true → s.m.get R.TIM_STAT_STATE = 2 →
    Does (.timTodWrite hi) s fun t => t.m.resp = 1 ∧ t.m.get R.TIM_EVT_TOD_REF = 1 ∧ s.frame [.resp] [R.TIM_EVT_TOD_REF] t) ∧
  (∀ (s : State) (dev : Int) (n : Nat), s.on → s.m.is R.MOD_STRAP_ROOT_CAP = true → s.m.is R.TIM_STAT_ROOT = true →
      s.m.get R.TIM_STAT_STATE ≠ 2 → s.m.time.everLocked = false → s.m.time.todPending = some n →
    Does (.ppsEdge dev (s.m.is R.TIM_PPS_IN_POL)) s fun t => t.m.get R.TIM_STAT_STATE = 2 ∧ t.m.fleetTicks = n * tickS ∧
      t.m.time.todPending = none ∧ t.m.get R.TIM_STAT_PPS_OK = 1 ∧ t.m.get R.TIM_STAT_SRC = 4 ∧ t.m.time.ticks = s.m.time.ticks) ∧
  (∀ (s : State) (dev : Int), s.on → s.m.is R.MOD_STRAP_ROOT_CAP = true → s.m.is R.TIM_STAT_ROOT = true → s.m.get R.TIM_STAT_STATE = 2 →
      (dev - s.m.getI R.TIM_PPS_PPS_DLY).natAbs ≤ 1000 →
    Does (.ppsEdge dev (s.m.is R.TIM_PPS_IN_POL)) s fun t => t.m.get R.TIM_STAT_PPS_OK = 1 ∧ t.m.get R.TIM_STAT_SRC = 4 ∧
      t.m.getI R.TIM_OFFSET_OFS = (dev - s.m.getI R.TIM_PPS_PPS_DLY) * 64 / 5 ∧ t.m.time = { s.m.time with ppsTick := s.m.time.ticks } ∧ t.m.pins.ppsGood = true ∧
      (t.m.getI R.CLK_FREQ_PPB).natAbs ≤ s.m.slewPpm * 1000 ∧
      s.frame [.freeCtr, .pins, .time] [R.TIM_STAT_SRC, R.TIM_STAT_PPS_OK, R.TIM_OFFSET_OFS, R.CLK_FREQ_PPB] t) ∧
  (∀ (s : State) (dev : Int), s.on → s.m.is R.MOD_STRAP_ROOT_CAP = true → s.m.is R.TIM_STAT_ROOT = true → s.m.get R.TIM_STAT_STATE = 2 →
      1000 < (dev - s.m.getI R.TIM_PPS_PPS_DLY).natAbs →
    Does (.ppsEdge dev (s.m.is R.TIM_PPS_IN_POL)) s fun t => t.m.get R.TIM_STAT_PPS_OK = 0 ∧ t.m.get R.TIM_EVT_PPS = 1 ∧
      t.m.time = { s.m.time with ppsTick := s.m.time.ticks } ∧ s.m.onlyParts [.flt, .time] t.m) ∧
  (∀ s : State, s.on → s.m.is R.TIM_STAT_ROOT = true → s.m.is R.CLK_STAT_FAC_OK = true → s.m.time.ppsTick + 1100 * tickMs ≤ s.m.time.ticks →
    Does .ppsLost s fun t => t.m.get R.TIM_STAT_PPS_OK = 0 ∧ t.m.get R.TIM_EVT_PPS = 1 ∧ t.m.pins.ppsGood = false ∧
      t.m.get R.TIM_STAT_STATE = s.m.get R.TIM_STAT_STATE ∧ s.m.onlyParts [.pins, .flt] t.m) ∧
  (∀ s : State, s.on → s.m.is R.TIM_STAT_ROOT = true → s.m.is R.CLK_STAT_FAC_OK = false → s.m.time.ppsTick + 1100 * tickMs ≤ s.m.time.ticks →
      s.m.get R.TIM_STAT_STATE = 2 →
    Does .ppsLost s fun t => t.m.get R.TIM_STAT_STATE = 3 ∧ t.m.get R.TIM_STAT_PPS_OK = 0 ∧ t.m.get R.TIM_EVT_PPS = 1) ∧
  (∀ (s : State) (k : Nat), s.on → s.m.is R.TIM_PPS_OUT_EN = true → s.m.nowNs ≤ k * 10 ^ 9 → k * 10 ^ 9 < s.m.nowNs + 5000 →
    Does .ppsOutPulse s fun t => t.m.pins.ppsOut = true ∧ t.m.time.ppsPulse = 20 ∧ s.frame [.pins, .time] [] t) ∧
  (∀ s : State, s.m.rdStatus 0x4084 = 0 → s.on →
    Does .timNowRead s fun t => t.m.rdata = s.m.nowNs % 2 ^ 32 ∧ t.m.get R.TIM_NOW_LO_NS = s.m.nowNs % 2 ^ 32 ∧
      t.m.get R.TIM_NOW_HI_NS = s.m.nowNs / 2 ^ 32 % 2 ^ 32 ∧ t.m.resp = 0 ∧
      s.frame [.rdata, .resp] [R.TIM_NOW_LO_NS, R.TIM_NOW_HI_NS] t) ∧
  (∀ (c : Instr) (s : State), s.on → s.m.is R.MOD_ROLE_STAT_FLEET_ROOT_ACT = true → s.m.get R.MOD_ROLE_CFG_FLEET_ROOT = 1 ∨ s.m.get R.MOD_ROLE_CFG_FLEET_ROOT = 2 →
      s.m.is R.TIM_STAT_ROOT = false →
      (c = .rootTimeout ∧ s.m.time.lastRoot + max 5 (s.m.get R.TIM_ROOT_CFG_ROOT_TMO) * tickMs ≤ s.m.time.ticks) ∨
      (c = .rootHoldoverTimeout ∧ 0 < s.m.time.rootHold ∧ s.m.pins.ppsGood = true ∧ s.m.is R.CLK_STAT_FAC_OK = true ∧
        s.m.time.rootHold + max 100 (s.m.get R.TIM_ROOT_CFG_REF_TMO) * tickMs ≤ s.m.time.ticks) →
    Does c s fun t => t.m.get R.TIM_STAT_ROOT = 1 ∧ t.m.get R.TIM_ROOT_GEN = (s.m.get R.TIM_ROOT_GEN + 1) % 65536 ∧
      t.m.get R.TIM_ROOT_ADDR = s.m.addr ∧ t.m.get R.TIM_STAT_SRC = 4 ∧ t.m.get R.TIM_EVT_ROOT = 1 ∧ t.m.time = s.m.time ∧
      s.m.onlyParts [.flt, .lnk] t.m)

/-- R261, R262, R263, R264, R345: a commit arms the stake that STK_ADDR names and advances the window, or is refused with STATUS 1; a timed
stake fires in its frame with the firing's registers and its action set down for the next boundary; one whose record fails parity is
cancelled without its action; one whose instant passes while time is not valid expires; the stake of a due marker fires before them. One
step fires the earliest due stake (log 37). -/
def Obligations.StakesArmAndFire : Prop :=
  (∀ (s : State) (d7 : Word), s.m.wrStatus 0x50E0 d7.toNat = 0 → s.on → stMode (stkRec s.m d7) = 1 →
      s.m.commitRefused (s.m.get R.STK_ADDR_STAKE) (stkRec s.m d7) = false → s.m.stakeNow (stkRec s.m d7) ≤ stT (stkRec s.m d7) →
    Does (.stakeCommit d7) s fun t => stState (t.m.stake (s.m.get R.STK_ADDR_STAKE)) = 1 ∧
      stT (t.m.stake (s.m.get R.STK_ADDR_STAKE)) = stT (stkRec s.m d7) ∧
      stAction (t.m.stake (s.m.get R.STK_ADDR_STAKE)) = stAction (stkRec s.m d7) ∧
      (∀ n, n ≠ s.m.get R.STK_ADDR_STAKE → t.m.stake n = s.m.stake n) ∧
      t.m.get R.STK_ADDR_STAKE = (s.m.get R.STK_ADDR_STAKE + 1) % 8192 ∧ t.m.resp = 0 ∧
      s.frame [.stk, .resp] [R.STK_STAT_ARMED, R.STK_ADDR_STAKE] t) ∧
  (∀ (s : State) (d7 : Word), s.m.wrStatus 0x50E0 d7.toNat = 0 → s.on →
      s.m.commitRefused (s.m.get R.STK_ADDR_STAKE) (stkRec s.m d7) = true →
    Does (.stakeCommit d7) s fun t => t.m.resp = 1 ∧ t.m.get R.STK_ADDR_REFUSED = 1 ∧ t.m.get R.STK_EVT_REFUSED = 1 ∧
      t.m.stk.recs = s.m.stk.recs ∧ s.m.onlyParts [.stk, .flt, .resp] t.m) ∧
  (∀ (s : State) (n t0 : Nat), s.on → n < 8192 → s.m.nextMarker = none → s.m.nextStake = some (t0, n) → s.m.stk.fired < 32 →
      stMode (s.m.stake n) ≠ 1 ∨ stRepeat (s.m.stake n) = false →
    Does (.stakeFire false) s fun t => stState (t.m.stake n) = 2 ∧ t.m.get R.STK_LAST_STAKE = n ∧
      t.m.get R.STK_LAST_FRAME_FRAME = s.m.frame % 2 ^ 32 ∧ t.m.get R.STK_EVT_FIRE = 1 ∧
      (t.m.word R.STK_FIRE_CNT_COUNT.addr).toNat = min ((s.m.word R.STK_FIRE_CNT_COUNT.addr).toNat + 1) (2 ^ 32 - 1) ∧
      (stAction (s.m.stake n) = 1 ∨ stAction (s.m.stake n) = 8 ∨ stAction (s.m.stake n) = 9 →
        t.m.stk.acts = s.m.stk.acts ++ [[stAction (s.m.stake n), stArg (s.m.stake n), stArg2 (s.m.stake n), stHomeAddr (s.m.stake n),
            stHomeStake (s.m.stake n), n]] ∧
          ((s.m.word R.STK_FIRE_CNT_COUNT.addr).toNat < 2 ^ 32 - 1 →
            s.frame [.stk] [R.STK_STAT_ARMED, R.STK_LAST_STAKE, R.STK_LAST_FRAME_FRAME, R.STK_EVT_FIRE, R.STK_FIRE_CNT_COUNT] t))) ∧
  (∀ (s : State) (n t0 : Nat), s.on → s.m.nextMarker = none → s.m.nextStake = some (t0, n) →
      stMode (s.m.stake n) = 1 →
    Does (.stakeFire true) s fun t => stState (t.m.stake n) = 4 ∧ t.m.stk.acts = s.m.stk.acts ∧ t.m.get R.MEM_LAST_UE_STORE = 15 ∧
      t.m.get R.STK_FIRE_CNT_COUNT = s.m.get R.STK_FIRE_CNT_COUNT ∧ s.m.onlyParts [.stk, .flt] t.m) ∧
  (∀ (s : State) (n : Fin 8192) (t0 : Nat), s.on → (∀ w ∈ s.m.ttb.mks, w.stake ≠ n.val) → s.m.fireAt n = some t0 →
      stMode (s.m.stake n) = 1 ∨ stMode (s.m.stake n) = 3 → stLocal (s.m.stake n) = false → s.m.timeValid = false →
      t0 < s.m.nowNs + 5000 →
    Does (.stakeExpire n) s fun t => stState (t.m.stake n) = 3 ∧ t.m.get R.STK_EVT_EXPIRE = 1 ∧
      (t.m.word R.STK_EXP_CNT_COUNT.addr).toNat = min ((s.m.word R.STK_EXP_CNT_COUNT.addr).toNat + 1) (2 ^ 32 - 1) ∧
      s.m.onlyParts [.stk, .flt] t.m) ∧
  (∀ (s : State) (n t0 : Nat), s.on → s.m.nextMarker = some (t0, n) →
    Does (.stakeFire false) s fun t => t.m.get R.STK_LAST_STAKE = n ∧ t.m.get R.STK_EVT_FIRE = 1 ∧
      (t.m.word R.STK_FIRE_CNT_COUNT.addr).toNat = min ((s.m.word R.STK_FIRE_CNT_COUNT.addr).toNat + 1) (2 ^ 32 - 1) ∧
      (∀ w ∈ t.m.ttb.mks, w.stake ≠ n) ∧ t.m.stk.acts = s.m.stk.acts) ∧
  (∀ (s : State) (d7 : Word), s.m.wrStatus 0x50E0 d7.toNat = 0 → s.on →
      stMode (stkRec s.m d7) = 2 ∨ stMode (stkRec s.m d7) = 4 ∨ stMode (stkRec s.m d7) = 3 ∧ stAuto (stkRec s.m d7) = false →
      s.m.commitRefused (s.m.get R.STK_ADDR_STAKE) (stkRec s.m d7) = false →
    Does (.stakeCommit d7) s fun t => stState (t.m.stake (s.m.get R.STK_ADDR_STAKE)) = 1 ∧
      stMode (t.m.stake (s.m.get R.STK_ADDR_STAKE)) = stMode (stkRec s.m d7) ∧
      t.m.get R.STK_ADDR_STAKE = (s.m.get R.STK_ADDR_STAKE + 1) % 8192 ∧ t.m.resp = 0)

/-- R265, R266, R267: the command ARRIVE sends a wait stake's ARRIVE to the home's module; a home counts arrivals, and when COUNT is reached
with none of its own waits it takes its release instant; a CANCEL cancels every wait that names the home, a release gives it its instant;
a home with deadline that is not complete at T expires and cancels its waits; an ARRIVE for a stake that is no armed home only counts. -/
def Obligations.Barriers : Prop :=
  (∀ (s : State) (n : Fin 8192), s.m.wrStatus 0x50A4 (1 + 2 * n.val) = 0 → s.on → stMode (s.m.stake n) = 3 → stState (s.m.stake n) = 1 →
      stHomeAddr (s.m.stake n) ≠ s.m.addr →
    Does (.stkCmdArrive n) s fun t => t.m.resp = 0 ∧ t.m.stk = s.m.stk ∧
      Sparse.get (fun _ => 0) t.m.lnk.mseq 3 = (Sparse.get (fun _ => 0) s.m.lnk.mseq 3 + 1) % 65536 ∧
      s.m.onlyParts [.lnk, .flt, .resp] t.m) ∧
  (∀ (s : State) (b : List Byte) (n : Nat), s.on → b.getD 0 0 = 0x41 → le (natBytes b) 2 2 = s.m.addr → n = le (natBytes b) 4 2 % 8192 →
      stState (s.m.stake n) = 1 → stMode (s.m.stake n) = 2 → s.m.relOf n = none →
      stArrived (s.m.stake n) + 1 < stCount (s.m.stake n) →
    Does (.arriveReceive b) s fun t => stArrived (t.m.stake n) = stArrived (s.m.stake n) + 1 ∧ stState (t.m.stake n) = 1 ∧
      t.m.relOf n = none ∧ s.frame [.stk, .lnk] [R.STK_STAT_ARMED] t) ∧
  (∀ (s : State) (b : List Byte) (n : Nat), s.on → b.getD 0 0 = 0x41 → le (natBytes b) 2 2 = s.m.addr → n = le (natBytes b) 4 2 % 8192 →
      stState (s.m.stake n) = 1 → stMode (s.m.stake n) = 2 → s.m.relOf n = none → stScope (s.m.stake n) = 0 →
      stArrived (s.m.stake n) + 1 = stCount (s.m.stake n) → (∀ k, stMode (s.m.stake k) ≠ 3) →
    Does (.arriveReceive b) s fun t => stArrived (t.m.stake n) = stCount (s.m.stake n) ∧
      t.m.relOf n = some (s.m.nowNs + stPeriod (s.m.stake n) * 1000) ∧ s.frame [.stk, .lnk] [R.STK_STAT_ARMED] t) ∧
  (∀ (s : State) (b : List Byte), s.on → b.getD 0 0 = 0x42 → bit (b.getD 1 0).toNat 0 = true →
    Does (.releaseReceive b) s fun t => (∀ n, stState (s.m.stake n) = 1 → stMode (s.m.stake n) = 3 →
        stHomeAddr (s.m.stake n) = le (natBytes b) 2 2 % 16384 → stHomeStake (s.m.stake n) = le (natBytes b) 4 2 % 8192 →
        stState (t.m.stake n) = 4) ∧ s.frame [.stk, .lnk] [R.STK_STAT_ARMED] t) ∧
  (∀ (s : State) (b : List Byte) (n : Nat), s.on → b.length = 32 → b.getD 0 0 = 0x42 → bit (b.getD 1 0).toNat 0 = false →
      (∀ k, k ≠ n → stState (s.m.stake k) ≠ 1) →
      stState (s.m.stake n) = 1 → stMode (s.m.stake n) = 3 → stHomeAddr (s.m.stake n) = le (natBytes b) 2 2 % 16384 →
      stHomeStake (s.m.stake n) = le (natBytes b) 4 2 % 8192 → s.m.stakeNow (s.m.stake n) ≤ le (natBytes b) 16 8 →
    Does (.releaseReceive b) s fun t => t.m.fireAt n = some (le (natBytes b) 16 8) ∧ stT (t.m.stake n) = le (natBytes b) 16 8 ∧
      s.frame [.stk, .lnk] [R.STK_STAT_ARMED] t) ∧
  (∀ (s : State) (n : Fin 8192), s.on → stState (s.m.stake n) = 1 → stMode (s.m.stake n) = 4 → s.m.relOf n = none →
      stT (s.m.stake n) < s.m.stakeNow (s.m.stake n) + 5000 →
    Does (.barrierDeadline n) s fun t => stState (t.m.stake n) = 3 ∧ t.m.get R.STK_EVT_EXPIRE = 1 ∧
      (t.m.word R.STK_EXP_CNT_COUNT.addr).toNat = min ((s.m.word R.STK_EXP_CNT_COUNT.addr).toNat + 1) (2 ^ 32 - 1) ∧
      (∀ k, stState (s.m.stake k) = 1 → stMode (s.m.stake k) = 3 → stHomeAddr (s.m.stake k) = s.m.addr →
        stHomeStake (s.m.stake k) = n.val → stState (t.m.stake k) = 4) ∧ s.m.onlyParts [.stk, .lnk, .flt] t.m) ∧
  (∀ (s : State) (b : List Byte) (n : Nat), s.on → b.getD 0 0 = 0x41 → le (natBytes b) 2 2 = s.m.addr → n = le (natBytes b) 4 2 % 8192 →
      stState (s.m.stake n) ≠ 1 ∨ stMode (s.m.stake n) ≠ 2 ∧ stMode (s.m.stake n) ≠ 4 ∨ s.m.relOf n ≠ none →
    Does (.arriveReceive b) s fun t => t.m.stk = s.m.stk ∧
      (t.m.word R.STK_ARR_X_CNT_COUNT.addr).toNat = min ((s.m.word R.STK_ARR_X_CNT_COUNT.addr).toNat + 1) (2 ^ 32 - 1))

/-- R76, R79, R84, R87, R93, Table 03-2: a missed edge is a period out of tolerance and θ coasts on; LULL_MAX and DROP_LOCK call for SEEK; at
the next frame boundary a bad period moves LOCKED to SUSPECT and the second in a row SUSPECT to SEEK, and a called-for SEEK is entered,
with LOCK_LOST and, where lock was held, its count; the end of a step's update counts the step, takes its period and touches the entries
of its slot alone; MK_HOLD after the last step the marker step term falls to zero over 100 ms. R88, R90, R91, R94: a malformed marker only
counts in TTB_MKX_CNT; a marker already seen counts as late; a timely marker of the running job is kept with its disposition and a
tide-table stake; one past its time counts as late, one refused counts in TTB_MKX_CNT with MK_DROP and is not kept; the lead sends one
that came from outside its ring on channel 2. -/
def Obligations.TideTablePhases : Prop :=
  (∀ s : State, s.on → s.m.tstate = 3 ∨ s.m.tstate = 4 → s.m.ttb.refSeen = false → s.m.perTol * turn ≤ (s.m.ttb.theta : Rat) →
    Does .missedEdge s fun t => t.m.ttb.outcome = some false ∧ t.m.ttb.refSeen = true ∧ t.m.ttb.theta = s.m.ttb.theta ∧
      t.m.ttb.t = s.m.ttb.t ∧ t.m.ttb.tab = s.m.ttb.tab ∧ s.frame [.ttb] [] t) ∧
  (∀ s : State, s.m.ttb.drop = false → s.m.ttb.outcome = some false → s.m.tstate = 3 → periodOk s.m.ttb.t = true →
    s.m.settle.tstate = 4 ∧ s.m.settle.get R.TTB_EVT_SUSPECT = 1 ∧ s.m.settle.ttb.outcome = none ∧ s.m.settle.ttb.bad = s.m.ttb.bad + 1) ∧
  (∀ s : State, s.m.ttb.drop = true ∨ s.m.ttb.outcome = some false ∧ s.m.tstate = 4 ∧ 1 ≤ s.m.ttb.bad →
    s.m.settle.tstate = 1 ∧ s.m.settle.get R.TTB_EVT_LOCK_LOST = 1 ∧ s.m.settle.get R.TTB_STAT_LOCK = 0 ∧ s.m.settle.ttb.tab = s.m.ttb.tab ∧
      (s.m.tstate = 3 ∨ s.m.tstate = 4 → (s.m.settle.word R.TTB_LOSS_CNT_COUNT.addr).toNat =
        min ((s.m.word R.TTB_LOSS_CNT_COUNT.addr).toNat + 1) (2 ^ 32 - 1))) ∧
  (∀ s : State, s.on → s.m.tstate = 5 → s.m.ttb.lullTick + max 1 (s.m.ttbField R.TTB_LULL_LULL_MAX) * tickS ≤ s.m.nowTicks →
    Does .lullTimeout s fun t => t.m.ttb.drop = true ∧ t.m.ttb.tab = s.m.ttb.tab ∧ s.frame [.ttb] [] t) ∧
  (∀ s : State, s.m.wrStatus 0x70F4 1 = 0 → s.on → s.m.tstate ≠ 0 →
    Does .ttbCmdDropLock s fun t => t.m.ttb.drop = true ∧ t.m.resp = 0 ∧ t.m.ttb.tab = s.m.ttb.tab ∧ s.frame [.ttb, .resp] [] t) ∧
  (∀ (s : State) (u : TUpd), s.on → s.m.ttb.upd = some u →
    Does .stepUpdateDone s fun t => t.m.ttb.upd = none ∧ (t.m.slotRec u.slot).steps = (s.m.slotRec u.slot).steps + 1 ∧
      (t.m.slotRec u.slot).period = u.per ∧
      (t.m.slotRec u.slot).ready = ((s.m.slotRec u.slot).ready ||
        decide (max 1 (s.m.ttbField R.TTB_CFG_LEARN_MIN) ≤ (s.m.slotRec u.slot).steps + 1)) ∧
      (∀ a, a / 4096 ≠ u.slot.val → t.m.tabEntry a = s.m.tabEntry a) ∧ s.m.onlyParts [.ttb] t.m) ∧
  (∀ s : State, s.on →
      s.m.ttb.mkRamps.all (fun r => decide (r.start + max 1 (s.m.ttbField R.TTB_LULL_MK_HOLD) * tickMs ≤ s.m.nowTicks)) = true →
      (∀ e ∈ s.m.ttb.mkFall, e.2 ≤ s.m.nowTicks) →
    Does .markerStepHoldEnd s fun t => t.m.ttb.mkRamps = [] ∧ t.m.mkTerm s.m.nowTicks = s.m.mkTerm s.m.nowTicks ∧
      t.m.mkTerm (s.m.nowTicks + 100 * tickMs) = 0 ∧ s.frame [.ttb] [] t) ∧
  (∀ (s : State) (b : List Byte), s.on → markerBad (natBytes b) = true →
    Does (.markerReceive b true) s fun t =>
      (t.m.word R.TTB_MKX_CNT_COUNT.addr).toNat = min ((s.m.word R.TTB_MKX_CNT_COUNT.addr).toNat + 1) (2 ^ 32 - 1) ∧ t.m.ttb = s.m.ttb ∧
        s.m.onlyParts [.flt, .lnk] t.m) ∧
  (∀ (s : State) (b : List Byte), s.on → markerBad (natBytes b) = false → s.m.timeValid = true →
      s.m.ttb.seen.contains ((markerOf (natBytes b)).job, (markerOf (natBytes b)).step, (markerOf (natBytes b)).kind) = true →
    Does (.markerReceive b true) s fun t =>
      (t.m.word R.TTB_MKL_CNT_COUNT.addr).toNat = min ((s.m.word R.TTB_MKL_CNT_COUNT.addr).toNat + 1) (2 ^ 32 - 1) ∧ t.m.ttb = s.m.ttb ∧
        s.m.onlyParts [.flt, .lnk] t.m) ∧
  (∀ (s : State) (b : List Byte) (d : Fin 2), s.on → markerBad (natBytes b) = false → s.m.timeValid = true →
      s.m.ttb.seen.contains ((markerOf (natBytes b)).job, (markerOf (natBytes b)).step, (markerOf (natBytes b)).kind) = false →
      s.m.markerDisp (((markerOf (natBytes b)).edgeT : Int) - s.m.nowNs) = d.val → (markerOf (natBytes b)).job = s.m.get R.TTB_JOB_JOB_ID →
      bit (markerOf (natBytes b)).flags 1 = false →
    Does (.markerReceive b true) s fun t => t.m.ttb.mks = s.m.ttb.mks ++ [⟨markerOf (natBytes b), d.val, s.m.freeMkStake, none⟩] ∧
      t.m.get R.TTB_STAT_MK_PEND = s.m.ttb.mks.length + 1 ∧ t.m.get R.TTB_MK_USE_DISP = d.val ∧
      (t.m.word R.TTB_MK_CNT_COUNT.addr).toNat = min ((s.m.word R.TTB_MK_CNT_COUNT.addr).toNat + 1) (2 ^ 32 - 1) ∧ t.m.ttb.tab = s.m.ttb.tab ∧
      s.m.onlyParts [.ttb, .lnk, .flt] t.m) ∧
  (∀ (s : State) (b : List Byte), s.on → markerBad (natBytes b) = false → s.m.timeValid = true →
      s.m.ttb.seen.contains ((markerOf (natBytes b)).job, (markerOf (natBytes b)).step, (markerOf (natBytes b)).kind) = false →
      s.m.markerDisp (((markerOf (natBytes b)).edgeT : Int) - s.m.nowNs) = 2 →
    Does (.markerReceive b true) s fun t => t.m.ttb.mks = s.m.ttb.mks ∧ t.m.get R.TTB_MK_USE_DISP = 2 ∧
      (t.m.word R.TTB_MKL_CNT_COUNT.addr).toNat = min ((s.m.word R.TTB_MKL_CNT_COUNT.addr).toNat + 1) (2 ^ 32 - 1)) ∧
  (∀ (s : State) (b : List Byte), s.on → markerBad (natBytes b) = false →
      s.m.timeValid = false ∨ s.m.ttb.seen.contains ((markerOf (natBytes b)).job, (markerOf (natBytes b)).step, (markerOf (natBytes b)).kind) = false →
      3 ≤ s.m.markerDisp (((markerOf (natBytes b)).edgeT : Int) - s.m.nowNs) →
    Does (.markerReceive b true) s fun t => t.m.ttb = s.m.ttb ∧ t.m.get R.TTB_EVT_MK_DROP = 1 ∧
      (t.m.word R.TTB_MKX_CNT_COUNT.addr).toNat = min ((s.m.word R.TTB_MKX_CNT_COUNT.addr).toNat + 1) (2 ^ 32 - 1) ∧
      s.m.onlyParts [.flt, .lnk] t.m) ∧
  (∀ (s : State) (b : List Byte), s.on → markerBad (natBytes b) = false → s.m.isLead = true →
    Does (.markerReceive b false) s fun t =>
      Sparse.get (fun _ => 0) t.m.lnk.mseq 2 = (Sparse.get (fun _ => 0) s.m.lnk.mseq 2 + 1) % 65536 ∧
        s.m.onlyParts [.ttb, .flt, .lnk] t.m)

/-- R82, R99, R462: a commit of the table window writes one entry of an inactive slot, its bits 63 to 57 zero; a read returns bits [63:32];
both advance the address once; a read of the loss table's window returns the entry, a write waits for the plan boundary. -/
def Obligations.TableWindows : Prop :=
  (∀ (s : State) (hi : Word), s.m.wrStatus 0x7108 hi.toNat = 0 → s.on → s.m.get R.TTB_TAB_ADDR_ADDR / 4096 ≠ s.m.tslot →
    Does (.ttbTabWrite hi) s fun t =>
      t.m.tabEntry (s.m.get R.TTB_TAB_ADDR_ADDR) = (s.m.get R.TTB_TAB_DATA_LO_DATA + hi.toNat * 2 ^ 32) % 2 ^ 57 ∧
        (∀ a, a ≠ s.m.get R.TTB_TAB_ADDR_ADDR → t.m.tabEntry a = s.m.tabEntry a) ∧
        t.m.get R.TTB_TAB_ADDR_ADDR = (s.m.get R.TTB_TAB_ADDR_ADDR + 1) % 2 ^ 14 ∧ t.m.resp = 0 ∧
        s.frame [.ttb, .resp] [R.TTB_TAB_ADDR_ADDR] t) ∧
  (∀ s : State, s.m.rdStatus 0x7108 = 0 → s.on →
    Does .ttbTabRead s fun t => t.m.rdata = s.m.tabEntry (s.m.get R.TTB_TAB_ADDR_ADDR) / 2 ^ 32 % 2 ^ 32 ∧ t.m.resp = 0 ∧
      t.m.get R.TTB_TAB_ADDR_ADDR = (s.m.get R.TTB_TAB_ADDR_ADDR + 1) % 2 ^ 14 ∧ s.frame [.rdata, .resp] [R.TTB_TAB_ADDR_ADDR] t) ∧
  (∀ (s : State), s.m.rdStatus 0x7110 = 0 → s.on →
    Does (.ttbLossDataAccess none) s fun t => t.m.rdata = Sparse.get lossDflt s.m.ttb.loss (s.m.get R.TTB_LOSS_ADDR_ADDR) % 2 ^ 32 ∧
      t.m.get R.TTB_LOSS_ADDR_ADDR = (s.m.get R.TTB_LOSS_ADDR_ADDR + 1) % 2 ^ 10 ∧ s.frame [.rdata, .resp] [R.TTB_LOSS_ADDR_ADDR] t) ∧
  (∀ (s : State) (v : Word), s.m.wrStatus 0x7110 v.toNat = 0 → s.on →
    Does (.ttbLossDataAccess (some v)) s fun t =>
      t.m.ttb.lossDue = s.m.ttb.lossDue ++ [(s.m.get R.TTB_LOSS_ADDR_ADDR, v.toNat % 2 ^ 24)] ∧ t.m.ttb.loss = s.m.ttb.loss ∧
        t.m.get R.TTB_LOSS_ADDR_ADDR = (s.m.get R.TTB_LOSS_ADDR_ADDR + 1) % 2 ^ 10 ∧ t.m.resp = 0 ∧
        s.frame [.ttb, .resp] [R.TTB_LOSS_ADDR_ADDR] t)

/-- R98: CLEAR_SLOT clears the named slot alone; when it is the active one the module first acts as for DROP_LOCK; a word of the table window
for the active slot is refused with REFUSED. -/
def Obligations.SlotClearing : Prop :=
  (∀ (s : State) (n : Fin 4), s.m.wrStatus 0x70F4 (2 + 4 * n.val) = 0 → s.on → n.val ≠ s.m.tslot →
    Does (.ttbCmdClearSlot n) s fun t => (∀ a, a / 4096 = n.val → t.m.tabEntry a = 0) ∧
      (∀ a, a / 4096 ≠ n.val → t.m.tabEntry a = s.m.tabEntry a) ∧ (t.m.slotRec n).valid = false ∧ (t.m.slotRec n).ready = false ∧
      (t.m.slotRec n).steps = 0 ∧ t.m.tstate = s.m.tstate ∧ t.m.resp = 0 ∧ s.m.onlyParts [.ttb, .resp] t.m) ∧
  (∀ (s : State) (n : Fin 4), s.m.wrStatus 0x70F4 (2 + 4 * n.val) = 0 → s.on → n.val = s.m.tslot → s.m.tstate ≠ 0 →
    Does (.ttbCmdClearSlot n) s fun t => t.m.ttb.drop = true ∧ t.m.ttb.fadeIn = false ∧ (∀ u, t.m.ttb.upd = some u → u.slot ≠ n) ∧
      (∀ a, a / 4096 = n.val → t.m.tabEntry a = 0) ∧ (∀ a, a / 4096 ≠ n.val → t.m.tabEntry a = s.m.tabEntry a) ∧
      (t.m.slotRec n).valid = false ∧ (t.m.slotRec n).ready = false ∧ (t.m.slotRec n).steps = 0 ∧ t.m.resp = 0 ∧
      s.m.onlyParts [.ttb, .resp] t.m) ∧
  (∀ (s : State) (hi : Word), s.m.wrStatus 0x7108 hi.toNat = 0 → s.on → s.m.get R.TTB_TAB_ADDR_ADDR / 4096 = s.m.tslot →
    Does (.ttbTabWrite hi) s fun t => t.m.resp = 1 ∧ t.m.get R.TTB_TAB_ADDR_REFUSED = 1 ∧
      s.frame [.resp] [R.TTB_TAB_ADDR_ADDR, R.TTB_TAB_ADDR_REFUSED] t)

/-- R126, R127, R128, R171: START outside RUN with an accepted active image schedules the next frame that is a multiple of 2,000, in RUN it
does nothing; at that frame the enabled cores run; STOP is kept for the boundary; a swap request names a multiple of 200 ahead, 0 cancels
it; with an accepted inactive image the banks swap, while the cores run only one of the same build with its staged regions sealed; with a
fault of the frame, another image or no seal the swap is cancelled with its WHY; SEAL starts the staged regions' check, whose end sets
STAGE_OK. R132, R137, R138, R204: commands issued late and an overrun are fatal, count, stop the cores at the next boundary and withhold
the frame's outputs; a late core sends OFF for every phase of RUN; a window miss halts its channel and is fatal on a critical one. -/
def Obligations.EngineCommands : Prop :=
  (∀ s : State, s.m.wrStatus 0x8044 1 = 0 → s.on → s.m.inRun = false → s.m.bankOk s.m.actBank = true →
    Does .cenCtlStart s fun t => (∃ f, t.m.cen.start = some f ∧ f % 2000 = 0 ∧ s.m.frame < f ∧ f ≤ s.m.frame + 2000) ∧ t.m.resp = 0 ∧
      s.frame [.cen, .resp] [] t) ∧
  (∀ s : State, s.m.wrStatus 0x8044 1 = 0 → s.on → s.m.inRun = true → Does .cenCtlStart s fun t => t.m.resp = 0 ∧ s.frame [.resp] [] t) ∧
  (∀ (s : State) (f : Nat), s.on → s.m.cen.start = some f → f ≤ s.m.frame → s.m.inRun = false → s.m.bankOk s.m.actBank = true →
    Does .coresStart s fun t => (∀ c < 4, t.m.get (coreSt c) = if bit (s.m.get R.CEN_CFG_CORE_EN) c then 2 else s.m.get (coreSt c)) ∧
      t.m.cen.start = none ∧ t.m.cen.stop = false ∧ t.m.get R.CEN_DMA_STAT_HALT = 0 ∧ s.m.onlyParts [.ttb, .cen] t.m) ∧
  (∀ s : State, s.m.wrStatus 0x8044 2 = 0 → s.on → s.m.inRun = false →
    Does .cenCtlStop s fun t => t.m.cen.stop = true ∧ t.m.cen.start = none ∧ t.m.resp = 0 ∧ s.frame [.cen, .resp] [] t) ∧
  (∀ s : State, s.m.wrStatus 0x8100 0 = 0 → s.on →
    Does (.cenSwapWrite 0) s fun t => t.m.cen.swap = none ∧ t.m.get R.CEN_STAT_SWAP_PEND = 0 ∧ t.m.get R.CEN_SWAP_FRAME = 0 ∧
      t.m.resp = 0 ∧ s.frame [.cen, .resp] [R.CEN_STAT_SWAP_PEND, R.CEN_SWAP_FRAME] t) ∧
  (∀ (s : State) (v : Word), s.m.wrStatus 0x8100 v.toNat = 0 → s.on → v ≠ 0 →
    Does (.cenSwapWrite v) s fun t => (∃ f, t.m.cen.swap = some f ∧ f % 200 = 0 ∧ s.m.frame < f ∧ t.m.get R.CEN_SWAP_FRAME = f % 2 ^ 32) ∧
      t.m.get R.CEN_STAT_SWAP_PEND = 1 ∧ s.frame [.cen, .resp] [R.CEN_STAT_SWAP_PEND, R.CEN_SWAP_FRAME] t) ∧
  (∀ (s : State) (f : Nat), s.on → s.m.cen.swap = some f → f ≤ s.m.frame → s.m.coresRun = false → s.m.bankOk (1 - s.m.actBank) = true →
    Does .bankSwap s fun t => t.m.actBank = 1 - s.m.actBank ∧ t.m.get R.CEN_EVT_SWAP_DONE = 1 ∧ t.m.get R.CEN_STAT_SWAP_PEND = 0 ∧
      t.m.get R.CEN_PRG_STAT_SWAP_WHY = s.m.get R.CEN_PRG_STAT_SWAP_WHY ∧ t.m.get R.CEN_STAGE_STAGE_OK = 0 ∧ t.m.cen.swap = none ∧
      s.m.onlyParts [.cen] t.m) ∧
  (∀ (s : State) (f : Nat), s.on → s.m.cen.swap = some f → f ≤ s.m.frame → s.m.coresRun = true → (s.m.cen.unpub || s.m.cen.miss) = false →
      s.m.bankOk (1 - s.m.actBank) = true → rdAt (s.m.bankByte (1 - s.m.actBank)) 12 4 = s.m.build → s.m.is R.CEN_STAGE_STAGE_OK = true →
    Does .bankSwap s fun t => t.m.actBank = 1 - s.m.actBank ∧ t.m.get R.CEN_EVT_SWAP_DONE = 1 ∧ t.m.get R.CEN_STAT_SWAP_PEND = 0 ∧
      t.m.get R.CEN_PRG_STAT_SWAP_WHY = s.m.get R.CEN_PRG_STAT_SWAP_WHY ∧ t.m.get R.CEN_STAGE_STAGE_OK = 0 ∧ t.m.cen.swap = none ∧
      s.m.onlyParts [.cen, .ttb, .bwk, .phs, .flt] t.m) ∧
  (∀ (s : State) (f : Nat), s.on → s.m.cen.swap = some f → f ≤ s.m.frame → (s.m.cen.unpub || s.m.cen.miss) = false →
      s.m.bankOk (1 - s.m.actBank) = false ∨ s.m.coresRun = true ∧ rdAt (s.m.bankByte (1 - s.m.actBank)) 12 4 ≠ s.m.build → s.m.takes 8 4 →
    Does .bankSwap s fun t => t.m.actBank = s.m.actBank ∧ t.m.get R.CEN_EVT_SWAP_CANCEL = 1 ∧ t.m.get R.CEN_PRG_STAT_SWAP_WHY = 1 ∧
      t.m.cen.swap = none ∧ t.m.tells { blk := 8, inst := 4, kind := 8, addr := 0, cls := 0 } ∧ s.m.onlyParts [.cen, .flt] t.m) ∧
  (∀ (s : State) (f : Nat), s.on → s.m.cen.swap = some f → f ≤ s.m.frame → s.m.coresRun = true → (s.m.cen.unpub || s.m.cen.miss) = false →
      s.m.bankOk (1 - s.m.actBank) = true → rdAt (s.m.bankByte (1 - s.m.actBank)) 12 4 = s.m.build → s.m.is R.CEN_STAGE_STAGE_OK = false →
    Does .bankSwap s fun t => t.m.actBank = s.m.actBank ∧ t.m.get R.CEN_EVT_SWAP_CANCEL = 1 ∧ t.m.get R.CEN_PRG_STAT_SWAP_WHY = 2 ∧
      t.m.cen.swap = none ∧ s.m.onlyParts [.cen, .flt] t.m) ∧
  (∀ (s : State) (f : Nat), s.on → s.m.cen.swap = some f → f ≤ s.m.frame → s.m.coresRun = true → (s.m.cen.unpub || s.m.cen.miss) = true →
      s.m.takes 8 4 →
    Does .bankSwap s fun t => t.m.actBank = s.m.actBank ∧ t.m.get R.CEN_EVT_SWAP_CANCEL = 1 ∧ t.m.get R.CEN_PRG_STAT_SWAP_WHY = 3 ∧
      t.m.cen.swap = none ∧ t.m.tells { blk := 8, inst := 4, kind := 8, addr := 0, cls := 0 } ∧ s.m.onlyParts [.cen, .flt] t.m) ∧
  (∀ s : State, s.m.wrStatus 0x8228 1 = 0 → s.on → s.m.bankOk (1 - s.m.actBank) = true →
    Does .cenStageSeal s fun t => t.m.get R.CEN_STAGE_BUSY = 1 ∧ t.m.resp = 0 ∧ s.frame [.resp] [R.CEN_STAGE_BUSY] t) ∧
  (∀ s : State, s.m.wrStatus 0x8228 1 = 0 → s.on → s.m.bankOk (1 - s.m.actBank) = false → s.m.takes 8 4 →
    Does .cenStageSeal s fun t => t.m.get R.CEN_STAGE_BUSY = 0 ∧ t.m.get R.CEN_STAGE_STAGE_OK = 0 ∧
      t.m.tells { blk := 8, inst := 4, kind := 0x0C, addr := 0, cls := 0 }) ∧
  (∀ s : State, s.on → s.m.is R.CEN_STAGE_BUSY = true → s.m.bankOk (1 - s.m.actBank) = true → s.m.takes 8 4 →
    Does .stageCheckDone s fun t => t.m.get R.CEN_STAGE_BUSY = 0 ∧ t.m.get R.CEN_STAGE_STAGE_OK = b2n s.m.stageOk ∧
      (s.m.stageOk = false → t.m.tells { blk := 8, inst := 4, kind := 0x0C, addr := 0, cls := 0 }) ∧ s.m.onlyParts [.flt] t.m) ∧
  (∀ (s : State) (c : Fin 4), s.on → s.m.get (coreSt c) = 2 → s.m.get (R.CEN_LEN_CMD_DECL c) ≠ 0x1FFF → s.m.takes 8 c →
    Does (.cmdLate c) s fun t => t.m.get R.CEN_EVT_LATE = 1 ∧
      (t.m.word R.CEN_LATE_CNT_COUNT.addr).toNat = min ((s.m.word R.CEN_LATE_CNT_COUNT.addr).toNat + 1) (2 ^ 32 - 1) ∧ t.m.cen.stop = true ∧
      t.m.cen.unpub = true ∧ c.val ∈ t.m.cen.faulted ∧ t.m.tells { blk := 8, inst := c.val, kind := 2, addr := 1584, cls := 2 } ∧
      (s.m.inRun = true → s.m.pageOn 9 = true → s.m.inReset 9 0 = false → t.m.phs.noCmd = true) ∧ s.m.onlyParts [.phs, .flt, .cen] t.m) ∧
  (∀ (s : State) (c : Fin 4), s.on → s.m.get (coreSt c) = 2 → s.m.takes 8 c →
    Does (.overrun c) s fun t => t.m.get R.CEN_EVT_OVR = 1 ∧
      (t.m.word R.CEN_OVR_CNT_COUNT.addr).toNat = min ((s.m.word R.CEN_OVR_CNT_COUNT.addr).toNat + 1) (2 ^ 32 - 1) ∧ t.m.cen.stop = true ∧
      t.m.cen.unpub = true ∧ c.val ∈ t.m.cen.faulted ∧ t.m.tells { blk := 8, inst := c.val, kind := 1, addr := 7680, cls := 2 } ∧
      (s.m.cen.undo = none → (s.m.word R.CEN_OVR_CNT_COUNT.addr).toNat < 2 ^ 32 - 1 →
        s.frame [.flt, .cen] (R.CEN_EVT_OVR :: R.CEN_OVR_CNT_COUNT :: repFlds 8) t)) ∧
  (∀ (s : State) (c : Fin 4) (ch : Fin 8) (cyc : Nat), s.on → s.m.get (coreSt c) = 2 → bit (s.m.get R.CEN_DMA_STAT_HALT) (c.val * 8 + ch.val) = false →
      s.m.takes 8 c →
    Does (.dmaMiss c ch cyc) s fun t => bit (t.m.get R.CEN_DMA_STAT_HALT) (c.val * 8 + ch.val) = true ∧ t.m.get R.CEN_EVT_MISS = 1 ∧
      (t.m.word R.CEN_MISS_CNT_COUNT.addr).toNat = min ((s.m.word R.CEN_MISS_CNT_COUNT.addr).toNat + 1) (2 ^ 32 - 1) ∧
      t.m.cen.missAt = s.m.cen.missAt ++ [(c.val * 8 + ch.val, cyc % 8192)] ∧
      (sectionOf s.m.actImg 0x08 c = none → t.m.cen.miss = true ∧ (s.m.cen.undo = none →
        t.m.tells { blk := 8, inst := c.val, kind := 3, addr := cyc % 8192 + ch.val * 65536, cls := 1 })) ∧
      (∀ b, sectionOf s.m.actImg 0x08 c = some b →
        if Config.dmaCritical b (c.val * 8 + ch.val) then t.m.cen.stop = true ∧ t.m.cen.unpub = true ∧
          t.m.tells { blk := 8, inst := c.val, kind := 3, addr := cyc % 8192 + ch.val * 65536, cls := 2 }
        else t.m.cen.miss = true ∧ (s.m.cen.undo = none →
          t.m.tells { blk := 8, inst := c.val, kind := 3, addr := cyc % 8192 + ch.val * 65536, cls := 1 })) ∧
      s.m.onlyParts [.flt, .cen] t.m)

/-- R133, R157, R162, R163, R164, R167: a window commit stores its 8 bytes in the bank addressed or keeps them for SRAM's next boundary, or is
refused; reads and writes advance the address by 8; a law selection only waits in RUN and applies at once outside; a set-point target is
held to its band; a selection pending for 100 ms and a lagging reference are reported. R108, R109, R110, R111, R112, R114: the numbers of
the engine. Each mode rounds to the nearest whole number, or down, and breaks ties as Table 04-3 says; a narrowed result outside its width
takes the nearest end and raises the saturation flag, and no other does; an F16E6 word but −0 is the word of its value; division by zero,
the root of a negative value and the logarithm of zero or less answer the values of R111; a quantised block has an exponent and mantissas
of 8 bits, and −128 with mantissas 0 where every value is 0. Law selection outside RUN at once is a reading (log 53). -/
def Obligations.EngineWindowsAndLaws : Prop :=
  (∀ (s : State) (hi : Word), s.m.wrStatus 0x8188 hi.toNat = 0 → s.on → s.m.is R.CEN_WIN_ADDR_SPACE = true →
      s.m.get R.CEN_WIN_ADDR_ADDR / 8 * 8 < coreBank →
    Does (.cenWinWrite hi) s fun t =>
      (∀ i < 8, t.m.bankByte s.m.winBank (s.m.get R.CEN_WIN_ADDR_CORE * coreBank + s.m.get R.CEN_WIN_ADDR_ADDR / 8 * 8 + i) =
        (leBytes 4 (s.m.get R.CEN_WIN_DATA_LO_DATA) ++ leBytes 4 hi.toNat).getD i 0) ∧
      (∀ a, (∀ i < 8, a ≠ s.m.winBank * bankSize + s.m.get R.CEN_WIN_ADDR_CORE * coreBank + s.m.get R.CEN_WIN_ADDR_ADDR / 8 * 8 + i) →
        Sparse.get (fun _ => 0) t.m.cen.bank a = Sparse.get (fun _ => 0) s.m.cen.bank a) ∧
      t.m.get R.CEN_WIN_ADDR_ADDR = (s.m.get R.CEN_WIN_ADDR_ADDR + 8) % 2 ^ 22 ∧ t.m.resp = 0 ∧
      s.m.onlyParts [.cen, .sec, .flt, .resp] t.m) ∧
  (∀ (s : State) (hi : Word), s.m.wrStatus 0x8188 hi.toNat = 0 → s.on → s.m.is R.CEN_WIN_ADDR_SPACE = false →
      s.m.sramWritable (s.m.get R.CEN_WIN_ADDR_CORE) (s.m.get R.CEN_WIN_ADDR_ADDR / 8 * 8) = true →
    Does (.cenWinWrite hi) s fun t => t.m.cen.winDue.length = s.m.cen.winDue.length + 8 ∧ t.m.cen.sram = s.m.cen.sram ∧
      t.m.get R.CEN_WIN_ADDR_ADDR = (s.m.get R.CEN_WIN_ADDR_ADDR + 8) % 2 ^ 22 ∧ t.m.resp = 0 ∧
      s.frame [.cen, .resp] [R.CEN_WIN_ADDR_ADDR, R.CEN_STAGE_STAGE_OK] t) ∧
  (∀ (s : State) (hi : Word), s.m.wrStatus 0x8188 hi.toNat = 0 → s.on → s.m.is R.CEN_WIN_ADDR_SPACE = false →
      s.m.sramWritable (s.m.get R.CEN_WIN_ADDR_CORE) (s.m.get R.CEN_WIN_ADDR_ADDR / 8 * 8) = false →
    Does (.cenWinWrite hi) s fun t => t.m.resp = 1 ∧ t.m.get R.CEN_WIN_ADDR_REFUSED = 1 ∧
      t.m.get R.CEN_WIN_ADDR_ADDR = (s.m.get R.CEN_WIN_ADDR_ADDR + 8) % 2 ^ 22 ∧
      s.frame [.resp] [R.CEN_WIN_ADDR_ADDR, R.CEN_WIN_ADDR_REFUSED] t) ∧
  (∀ s : State, s.m.rdStatus 0x8188 = 0 → s.on →
    Does .cenWinRead s fun t => t.m.get R.CEN_WIN_ADDR_ADDR = (s.m.get R.CEN_WIN_ADDR_ADDR + 8) % 2 ^ 22 ∧ t.m.resp = 0 ∧
      (s.m.is R.CEN_WIN_ADDR_SPACE = true → t.m.rdata =
        rdAt (fun o => s.m.bankByte s.m.winBank (s.m.get R.CEN_WIN_ADDR_CORE * coreBank + o)) (s.m.get R.CEN_WIN_ADDR_ADDR / 8 * 8 + 4) 4 % 2 ^ 32) ∧
      (s.m.is R.CEN_WIN_ADDR_SPACE = false → t.m.rdata =
        rdAt (s.m.sramByte (s.m.get R.CEN_WIN_ADDR_CORE)) (s.m.get R.CEN_WIN_ADDR_ADDR / 8 * 8 + 4) 4 % 2 ^ 32) ∧
      s.frame [.rdata, .resp] [R.CEN_WIN_ADDR_ADDR] t) ∧
  (∀ (s : State) (v : Word), s.m.wrStatus 0x8204 v.toNat = 0 → s.on →
    Does (.cenLawSelWrite v) s fun t => t.m.get R.CEN_LAW_SEL_SEL_P = v.toNat % 2 ∧ t.m.get R.CEN_LAW_SEL_SEL_N = v.toNat / 2 % 2 ∧
      t.m.get R.CEN_LAW_SEL_COEF = v.toNat / 4 % 2 ∧ t.m.resp = 0 ∧
      (s.m.inRun = true → s.frame [.resp] [R.CEN_LAW_SEL_SEL_P, R.CEN_LAW_SEL_SEL_N, R.CEN_LAW_SEL_COEF] t) ∧
      (s.m.inRun = false → t.m.member 0 = v.toNat % 2 ∧ t.m.member 1 = v.toNat / 2 % 2 ∧ t.m.get R.CEN_PRG_STAT_COEF = v.toNat / 4 % 2 ∧
        t.m.get R.CEN_PRG_STAT_HO_PEND = 0)) ∧
  (∀ s : State, s.on → s.m.is R.CEN_PRG_STAT_HO_PEND = true → 20000 ≤ s.m.cen.selFrames → s.m.takes 8 4 →
    Does .hoDefer s fun t => t.m.get R.CEN_PRG_EVT_HO_DEFER = 1 ∧ t.m.cen.selFrames = 0 ∧
      t.m.tells { blk := 8, inst := 4, kind := 9, addr := 0, cls := 0 } ∧
      s.frame [.cen, .flt] (R.CEN_PRG_EVT_HO_DEFER :: repFlds 8) t) ∧
  (∀ (s : State) (v : Word), s.m.wrStatus 0x8218 v.toNat = 0 → s.on → s.m.spBand.1 ≤ ((v.toNat % 65536 : Nat) : Rat) / 100 →
      ((v.toNat % 65536 : Nat) : Rat) / 100 ≤ s.m.spBand.2 →
    Does (.cenSpTgtWrite v) s fun t => t.m.cen.tgt = ((v.toNat % 65536 : Nat) : Rat) / 100 ∧ t.m.get R.CEN_SP_TGT_V_TGT = v.toNat % 65536 ∧
      t.m.get R.CEN_PRG_STAT_SP_CLAMP = 0 ∧ t.m.resp = 0 ∧
      s.frame [.cen, .resp] [R.CEN_SP_TGT_V_TGT, R.CEN_PRG_STAT_SP_CLAMP] t) ∧
  (∀ (s : State) (v : Word), s.m.wrStatus 0x8218 v.toNat = 0 → s.on → s.m.spBand.1 ≤ s.m.spBand.2 →
      s.m.spBand.2 < ((v.toNat % 65536 : Nat) : Rat) / 100 →
    Does (.cenSpTgtWrite v) s fun t => t.m.cen.tgt = s.m.spBand.2 ∧ t.m.get R.CEN_PRG_STAT_SP_CLAMP = 1 ∧
      t.m.get R.CEN_PRG_EVT_SP_CLAMP = 1 ∧ s.m.onlyParts [.cen, .flt, .resp] t.m) ∧
  (∀ (s : State) (v : Word), s.m.wrStatus 0x8218 v.toNat = 0 → s.on → s.m.spBand.1 ≤ s.m.spBand.2 →
      ((v.toNat % 65536 : Nat) : Rat) / 100 < s.m.spBand.1 →
    Does (.cenSpTgtWrite v) s fun t => t.m.cen.tgt = s.m.spBand.1 ∧ t.m.get R.CEN_PRG_STAT_SP_CLAMP = 1 ∧
      t.m.get R.CEN_PRG_EVT_SP_CLAMP = 1 ∧ s.m.onlyParts [.cen, .flt, .resp] t.m) ∧
  (∀ s : State, s.on → s.m.inRun = true → 200 * clampN 1 10000 (s.m.get R.CEN_SP_LAG_LAG_MS) ≤ s.m.cen.lagRun →
    Does .spLag s fun t => t.m.get R.CEN_PRG_STAT_SP_LAG = 1 ∧
      (s.m.mayRaise (raiseKey 8 4 0x0A) (10 * tickS) = true → t.m.get R.CEN_PRG_EVT_SP_LAG = 1) ∧
      s.frame [.flt] (R.CEN_PRG_STAT_SP_LAG :: R.CEN_PRG_EVT_SP_LAG :: repFlds 8) t) ∧
  (∀ x : Rat, (rna x : Rat) - 1 / 2 ≤ x ∧ x ≤ rna x + 1 / 2 ∧ (rne x : Rat) - 1 / 2 ≤ x ∧ x ≤ rne x + 1 / 2 ∧ (rdn x : Rat) ≤ x ∧
    x < rdn x + 1) ∧
  (∀ n : Nat, rna (n + 1 / 2) = n + 1 ∧ rna (-(n + 1 / 2)) = -(n + 1) ∧ rne (2 * n + 1 / 2) = 2 * n ∧ rne (2 * n + 3 / 2) = 2 * n + 2 ∧
    rne (-(2 * n + 1 / 2)) = -(2 * n) ∧ rne (-(2 * n + 3 / 2)) = -(2 * n + 2)) ∧
  (∀ (w mode : Nat) (k : Int) (v : Rat),
    (2 ^ w ≤ roundBy mode (v / (2 : Rat) ^ k) → narrow (w + 1) mode k v = (2 ^ w - 1, true)) ∧
    (roundBy mode (v / (2 : Rat) ^ k) < -(2 ^ w) → narrow (w + 1) mode k v = (-(2 ^ w), true)) ∧
    (-(2 ^ w) ≤ roundBy mode (v / (2 : Rat) ^ k) → roundBy mode (v / (2 : Rat) ^ k) < 2 ^ w →
      narrow (w + 1) mode k v = (roundBy mode (v / (2 : Rat) ^ k), false))) ∧
  (∀ w : Nat, w < 65536 → w ≠ 32768 → f16Enc (f16Dec w) = w) ∧
  (∀ a : Rat, f16Div a 0 = (if a = 0 then 0 else if a < 0 then -f16Max else f16Max) ∧ (a < 0 → f16Sqrt a = 0) ∧
    (a ≤ 0 → f16Log a = -f16Max) ∧ f16Odd 0x60 a 0 = true ∧ (a < 0 → f16Odd 0x62 a 0 = true) ∧ (a ≤ 0 → f16Odd 0x64 a 0 = true)) ∧
  (∀ x : List Rat, -128 ≤ (b8Quant x).1 ∧ (b8Quant x).1 ≤ 127 ∧ (∀ m ∈ (b8Quant x).2, -128 ≤ m ∧ m ≤ 127) ∧
    (b8Quant x).2.length = x.length ∧ ((∀ v ∈ x, v = 0) → b8Quant x = (-128, x.map (fun _ => 0))))

/-- R182, R184, R193, R207, R189: after the dwell a converter's shed ramp starts; a rotation advances BASE and adds the next active phase, the
first of the run to leave; with every active phase in the run it turns the run by one place; PK_CLR resets every peak register; REARM
releases exactly the named isolated phases whose cause has cleared; braking ends at its current or its last period and the phase starts
anew. R190, R205: a held soft start is a short: every phase OFF and SAFE HOLD; OC_N samples beyond the shore isolate their phase with WHY
1; an unbalanced phase and a pole whose sum is off its string current start their conditions. -/
def Obligations.PhaseStates : Prop :=
  (∀ (s : State) (c : Fin 4), s.on → s.m.inRun = true → s.m.shedDwell ≤ (s.m.conv c).dwell → (s.m.conv c).shedJ = none →
      (s.m.conv c).rot = none →
    Does (.phaseShedStart c) s fun t => (t.m.conv c).shedJ = some 0 ∧ (t.m.conv c).dwell = 0 ∧ (t.m.conv c).run = (s.m.conv c).run ∧
      (t.m.conv c).base = (s.m.conv c).base ∧ s.frame [.phs] [] t) ∧
  (∀ (k : Instr) (s : State), (k = .phaseRotation ∧ s.m.get R.PHS_ROT_ROT_S ≠ 0) ∨ (k = .phsCmdRotNow ∧ s.m.wrStatus 0x908C 2 = 0) → s.on →
      s.m.inRun = true →
      (∀ c < 4, (s.m.conv c).run = [] ∨ ((s.m.conv c).rot = none ∧ (s.m.conv c).shedJ = none ∧ s.m.is R.CEN_PRG_STAT_SS_DONE = true ∧
        ∀ n ∈ convPhases c, s.m.phaseActive n = true → n ∈ (s.m.conv c).run)) →
    Does k s fun t => (∀ c < 4, (t.m.conv c).base = ((s.m.conv c).base + 1) % (s.m.places c).length ∧
        (t.m.conv c).run = (s.m.conv c).run.drop 1 ++ (s.m.conv c).run.take 1) ∧ s.frame [.phs, .resp] [] t) ∧
  (∀ (k : Instr) (s : State) (c : Fin 4) (h : Nat) (r : List Nat), (k = .phaseRotation ∧ s.m.get R.PHS_ROT_ROT_S ≠ 0) ∨
      (k = .phsCmdRotNow ∧ s.m.wrStatus 0x908C 2 = 0) → s.on → s.m.inRun = true → s.m.is R.CEN_PRG_STAT_SS_DONE = true →
      (s.m.conv c).run = h :: r → (s.m.conv c).rot = none → (∃ n ∈ convPhases c, s.m.phaseActive n = true ∧ n ∉ h :: r) →
    Does k s fun t => (∃ n ∈ convPhases c, s.m.phaseActive n = true ∧ n ∉ h :: r ∧ (t.m.conv c).run = h :: r ++ [n]) ∧
      (t.m.conv c).rot = some h ∧ (t.m.conv c).shedJ = none ∧ (t.m.conv c).base = ((s.m.conv c).base + 1) % (s.m.places c).length) ∧
  (∀ s : State, s.m.wrStatus 0x908C 1 = 0 → s.on →
    Does .phsCmdPkClr s fun t => (∀ n < 40, t.m.getI (R.PHS_IPK_I_MAX n) = -32768 ∧ t.m.getI (R.PHS_IPK_I_MIN n) = 32767) ∧ t.m.resp = 0 ∧
      s.frame [.resp] ((List.range 40).flatMap fun n => [R.PHS_IPK_I_MAX n, R.PHS_IPK_I_MIN n]) t) ∧
  (∀ (s : State) (hi : Bool) (v : Word), s.m.wrStatus (if hi then 0x9094 else 0x9090) v.toNat = 0 → s.on →
    Does (.phsRearmWrite hi v) s fun t => (∀ i < if hi then 8 else 32, s.m.isolated (if hi then 32 + i else i) = true →
        t.m.isolated (if hi then 32 + i else i) = !(bit v.toNat i && s.m.causeCleared (if hi then 32 + i else i))) ∧
      t.m.resp = 0 ∧ s.m.onlyParts [.resp] t.m) ∧
  (∀ (s : State) (n : Fin 24) (v : Int) (k : Nat), s.on → (s.m.phase n).brake = some k →
      -s.m.pbMin ≤ s.m.calQ n (4 * v) * 125 / 32768 →
    Does (.brakeEnd n v) s fun t => (t.m.phase n).brake = none ∧ (t.m.phase n).startLeft = s.m.pbCycles ∧ (t.m.phase n).q = 0 ∧
      s.m.onlyParts [.phs] t.m) ∧
  (∀ (s : State) (n : Fin 24) (v : Int) (k : Nat), s.on → (s.m.phase n).brake = some k →
      s.m.calQ n (4 * v) * 125 / 32768 < -s.m.pbMin → s.m.brkMax ≤ k →
    Does (.brakeEnd n v) s fun t => (t.m.phase n).brake = none ∧ t.m.get R.PHS_EVT_BRK_LONG = 1 ∧ s.m.onlyParts [.phs, .flt] t.m) ∧
  (∀ (s : State) (p : Fin 2), s.m.inRun = true → s.m.softStart = true →
      20 * clampN 1 100 (s.m.get R.PHS_SC_SC_MS) ≤ s.m.phs.scRun.getD p 0 → s.m.takes 9 8 →
    Does (.softStartShort p) s fun t => t.m.pstate = 4 ∧ t.m.get R.PHS_EVT_SHORT = 1 ∧ (∀ n < 40, (t.m.phase n).mode = 0) ∧
      t.m.pins.stoHold = false ∧ { blk := 9, inst := 8, kind := 9, addr := 12 * p.val, cls := 2 } ∈ t.m.flt.lane ∧
      t.fuses = s.fuses ∧ t.m.nv = s.m.nv) ∧
  (∀ (s : State) (n : Fin 40) (l : List Int), s.on → s.m.isolated n = false → clampN 1 15 (s.m.get R.PHS_PROT_OC_N) ≤ l.length →
      (∀ v ∈ l.drop (l.length - clampN 1 15 (s.m.get R.PHS_PROT_OC_N)), s.m.ocLimit < absQ (s.m.calQ n (4 * v) * 125 / 32768)) →
      s.m.takes 9 (phaseLink n) →
    Does (.phOcShore n l) s fun t => t.m.isolated n = true ∧ t.m.get (R.PHS_PSTAT_ISO_WHY n) = 1 ∧ (t.m.phase n).mode = 0 ∧
      t.m.tells { blk := 9, inst := phaseLink n, kind := 1, addr := n.val, cls := 1 } ∧ s.m.onlyParts [.phs, .flt] t.m) ∧
  (∀ (s : State) (n : Fin 40), s.on → 200 ≤ (s.m.phase n).imbRun → s.m.condOn 9 (phaseLink n) 5 n = false → s.m.takes 9 (phaseLink n) →
      s.m.mayRaise ((n.val + 1) * 2 ^ 24 + raiseKey 9 (phaseLink n) 5) tickS = true →
    Does (.phImb n) s fun t => t.m.get R.PHS_EVT_IMB = 1 ∧
      t.m.tells { blk := 9, inst := phaseLink n, kind := 5, addr := n.val, cls := 0, ind := .start } ∧
      s.frame [.flt] (R.PHS_EVT_IMB :: repFlds 9) t) ∧
  (∀ (s : State) (p : Fin 2), s.on → 10 ≤ s.m.phs.sumRun.getD p 0 → s.m.condOn 9 8 6 (12 * p.val) = false → s.m.takes 9 8 →
    Does (.phSense p) s fun t => t.m.get R.PHS_EVT_SENSE = 1 ∧
      t.m.tells { blk := 9, inst := 8, kind := 6, addr := 12 * p.val, cls := 1, ind := .start } ∧
      s.frame [.flt] (R.PHS_EVT_SENSE :: repFlds 9) t)

/-- R201, R203: an invalid status frame only counts; a valid one is taken in, shows ARMED and isolates the phases whose drivers newly report a
fault; two missing or bad frames take a link down and isolate its five phases; a link whose 16 echoes give a delay within 1,280 ticks is
up with it, another stays as it is. That a command whose conditions do not hold changes nothing is the model's choice (log 6). -/
def Obligations.PhaseLinks : Prop :=
  (∀ (s : State) (l : Fin 8) (b : List Byte), s.on → s.m.pageOn 9 = true → s.m.statusOk l (natBytes b) = false →
    Does (.statusFrameReceive l b) s fun t =>
      (t.m.word (R.PHS_LERR_CNT_COUNT l).addr).toNat = min ((s.m.word (R.PHS_LERR_CNT_COUNT l).addr).toNat + 1) (2 ^ 32 - 1) ∧
        (t.m.phs.links.getD l {}).missed = (s.m.phs.links.getD l {}).missed + 1 ∧ t.m.phs.ph = s.m.phs.ph ∧
        ((s.m.word (R.PHS_LERR_CNT_COUNT l).addr).toNat < 2 ^ 32 - 1 → s.frame [.phs, .flt] (R.PHS_LERR_CNT_COUNT l :: repFlds 9) t)) ∧
  (∀ (s : State) (l : Fin 8) (b : List Byte), s.on → s.m.pageOn 9 = true → s.m.statusOk l (natBytes b) = true →
    Does (.statusFrameReceive l b) s fun t => (t.m.phs.links.getD l {}).missed = 0 ∧
      (t.m.phs.links.getD l {}).words = (List.range 5).map (fun i => le (natBytes b) (2 + 2 * i) 2) ∧
      bit (t.m.get R.PHS_LNK_STAT_ARMED) l = (List.range 5).all (fun i => bit (le (natBytes b) (2 + 2 * i) 2) 5) ∧
      (∀ i < 5, le (natBytes b) (2 + 2 * i) 2 % 8 ≠ 0 → s.m.get (R.PHS_PSTAT_DRV (5 * l.val + i)) % 8 = 0 →
        s.m.isolated (5 * l.val + i) = false →
        t.m.isolated (5 * l.val + i) = true ∧ t.m.get (R.PHS_PSTAT_ISO_WHY (5 * l.val + i)) = 2) ∧
      s.m.onlyParts [.phs, .flt] t.m) ∧
  (∀ (s : State) (l : Fin 8), s.on → s.m.linkUp l = true → 2 ≤ (s.m.phs.links.getD l {}).missed →
    Does (.phaseLinkDown l) s fun t => t.m.linkUp l = false ∧ t.m.get R.PHS_EVT_LINK_DOWN = 1 ∧
      (∀ i < 5, t.m.isolated (5 * l.val + i) = true) ∧ bit (t.m.get R.PHS_LNK_STAT_ARMED) l = false ∧
      (∀ k < 8, k ≠ l.val → t.m.linkUp k = s.m.linkUp k) ∧ s.m.onlyParts [.phs, .flt] t.m) ∧
  (∀ (s : State) (l : Fin 8) (d : List Nat), s.on → s.m.pageOn 9 = true → s.m.linkUp l = false → d.length = 16 → linkDelay d ≤ 1280 →
    Does (.phaseLinkTrained l d true) s fun t => t.m.linkUp l = true ∧ t.m.get (R.PHS_LDLY_DLY l) = linkDelay d ∧
      (∀ k < 8, k ≠ l.val → t.m.linkUp k = s.m.linkUp k) ∧ s.m.onlyParts [.phs, .flt] t.m) ∧
  (∀ (s : State) (l : Fin 8) (d : List Nat) (c : Bool), s.on → d.length ≠ 16 ∨ 1280 < linkDelay d ∨ c = false →
    Does (.phaseLinkTrained l d c) s fun t => t = s)

/-- R195, R193: an open input sets its bit and starts its condition, isolates its phase with WHY 6, holds a pole's phases OFF for a fatal
channel; its end clears the condition and keeps the bit; AFE_CLR clears the bits of ended conditions alone; a selected channel starts with
reset peaks. R197, Table 06-19: FREEZE triggers the recorder at the present frame; when the blocks after the trigger are written it is
frozen; REARM lets it record again; the window reads 4 bytes as stored and advances ADDR after 16 of them. -/
def Obligations.SamplesAndRecorder : Prop :=
  (∀ (s : State) (c : Fin 160), s.on → s.m.is R.AFE_CFG_OPEN_EN = true → s.m.openN ≤ s.m.afe.lowRun.getD c 0 →
      c.val ∉ s.m.afe.openCond → s.m.condOn 10 0 1 c = false → s.m.takes 10 0 →
    Does (.afeOpenDetect c) s fun t => openBit t.m c = true ∧ t.m.afe.openCond = s.m.afe.openCond ++ [c.val] ∧
      t.m.tells { blk := 10, inst := 0, kind := 1, addr := c.val, cls := if 56 ≤ c.val ∧ c.val < 68 then 2 else 1, ind := .start } ∧
      (∀ n, channelPhase c = some n → t.m.isolated n = true ∧ (s.m.isolated n = false → t.m.get (R.PHS_PSTAT_ISO_WHY n) = 6)) ∧
      (56 ≤ c.val → c.val < 68 → (t.m.conv (c.val % 2)).run = [] ∧ (t.m.conv (c.val % 2 + 2)).run = []) ∧
      s.m.onlyParts [.afe, .phs, .flt] t.m) ∧
  (∀ (s : State) (c : Fin 160), s.on → s.m.openN ≤ s.m.afe.okRun.getD c 0 → c.val ∈ s.m.afe.openCond → s.m.condOn 10 0 1 c = true →
      s.m.takes 10 0 →
    Does (.afeOpenEnd c) s fun t => t.m.afe.openCond = s.m.afe.openCond.erase c.val ∧ openBit t.m c = openBit s.m c ∧
      t.m.tells { blk := 10, inst := 0, kind := 1, addr := c.val, cls := if 56 ≤ c.val ∧ c.val < 68 then 2 else 1, ind := .clr } ∧
      s.frame [.afe, .flt] (repFlds 10) t) ∧
  (∀ s : State, s.m.wrStatus 0xA0D0 1 = 0 → s.on →
    Does .afeClrOpen s fun t => (∀ c < 160, openBit t.m c = (openBit s.m c && s.m.afe.openCond.contains c)) ∧ t.m.resp = 0 ∧
      s.m.onlyParts [.resp] t.m) ∧
  (∀ (s : State) (ch : Byte), s.m.wrStatus 0xA0C0 ch.toNat = 0 → s.on →
    Does (.afeMonSelWrite ch) s fun t => t.m.get R.AFE_MON_SEL_CH = ch.toNat ∧ t.m.getI R.AFE_MON_PK_MAX = -32768 ∧
      t.m.getI R.AFE_MON_PK_MIN = 32767 ∧ t.m.resp = 0 ∧
      s.frame [.afe, .resp] [R.AFE_MON_SEL_CH, R.AFE_MON_PK_MAX, R.AFE_MON_PK_MIN] t) ∧
  (∀ s : State, s.m.wrStatus 0xB08C 1 = 0 → s.on → s.m.cap.post = none → s.m.is R.CAP_STAT_FROZEN = false →
    Does .capCmdFreeze s fun t => t.m.cap.post = some (capBlocks * min 100 (s.m.get R.CAP_CFG_POST_PCT) / 100) ∧
      t.m.get R.CAP_TRIG_FRAME = s.m.frame % 2 ^ 32 ∧ t.m.cap.ring = s.m.cap.ring ∧ t.m.resp = 0 ∧
      s.frame [.cap, .resp] [R.CAP_TRIG_FRAME] t) ∧
  (∀ s : State, s.on → s.m.cap.post = some 0 →
    Does .recorderFrozen s fun t => t.m.get R.CAP_STAT_FROZEN = 1 ∧ t.m.get R.CAP_STAT_RUNNING = 0 ∧ t.m.cap.post = none ∧
      t.m.cap.ring = s.m.cap.ring ∧ s.frame [.cap] [R.CAP_STAT_FROZEN, R.CAP_STAT_RUNNING] t) ∧
  (∀ s : State, s.m.wrStatus 0xB08C 2 = 0 → s.on →
    Does .capCmdRearm s fun t => t.m.get R.CAP_STAT_FROZEN = 0 ∧ t.m.cap.post = none ∧ t.m.cap.ring = s.m.cap.ring ∧ t.m.resp = 0 ∧
      s.frame [.cap, .resp] [R.CAP_STAT_FROZEN, R.CAP_STAT_RUNNING, R.CAP_STAT_DEPTH, R.CAP_OLDEST_BLOCK] t) ∧
  (∀ (s : State) (err : Fin 3), s.m.rdStatus 0xB0C4 = 0 → s.on → s.m.get R.CAP_WIN_ADDR_ADDR * 64 + 64 ≤ ringBytes + sideBytes →
      s.m.cap.rdWord < 16 →
    Does (.capWinRead err) s fun t => t.m.rdata = le (s.m.capBytes (s.m.get R.CAP_WIN_ADDR_ADDR * 64 + 4 * s.m.cap.rdWord) 4) 0 4 ∧
      t.m.cap.rdWord = (s.m.cap.rdWord + 1) % 16 ∧
      t.m.get R.CAP_WIN_ADDR_ADDR = (s.m.get R.CAP_WIN_ADDR_ADDR + (s.m.cap.rdWord + 1) / 16) % 2 ^ 30 ∧
      t.m.cap.ring = s.m.cap.ring ∧ t.m.resp = 0 ∧ s.m.onlyParts [.cap, .rdata, .resp, .flt] t.m)

/-- R211, R217, R218, R234, R235, R238: a ring found whole and closed is ready and CLOSED from the next sweep on, one reached from its ends
OPEN or SPLIT; one whose counts disagree stays DOWN with ENUM_MISMATCH; ENUM acts on both rings outside RUN and on none in RUN; a lost hop
is noted with its instant and its report, a restored side only noted. -/
def Obligations.ChainRings : Prop :=
  (∀ (c : Instr) (s : State) (r : Fin 2) (x : RingScan),
      c = .chainBringup r x ∨ (c = .chainBringupRetry r x ∧ s.m.condOn 12 r 3 (32 * r.val) = true ∧ s.m.ringReady r = false ∧
        (s.m.wring r).upTick + tickS ≤ s.m.time.ticks) → s.on →
      s.m.chainOn = true → s.m.nMon r ≠ 0 → s.m.ringBad r = false → x.closed = true → x.cntA = s.m.nMon r → x.cntB = s.m.nMon r →
    Does c s fun t => (t.m.wring r).due = some 1 ∧ t.m.get (ringRdy r) = 1 ∧ t.m.get (ringFound r) = s.m.nMon r ∧
      (t.m.wring r).dhop.getD 0 0 = x.loop * 16 / (s.m.nMon r + 1) ∧
      (∀ k < 2, t.m.ringState k = s.m.ringState k) ∧ s.m.onlyParts [.wch, .flt] t.m) ∧
  (∀ (c : Instr) (s : State) (r : Fin 2) (x : RingScan),
      c = .chainBringup r x ∨ (c = .chainBringupRetry r x ∧ s.m.condOn 12 r 3 (32 * r.val) = true ∧ s.m.ringReady r = false ∧
        (s.m.wring r).upTick + tickS ≤ s.m.time.ticks) → s.on →
      s.m.chainOn = true → s.m.nMon r ≠ 0 → s.m.ringBad r = false → x.closed = false → x.cntA + x.cntB ≤ s.m.nMon r →
    Does c s fun t => (t.m.wring r).due = some (if x.cntA + x.cntB = s.m.nMon r then 2 else 3) ∧ t.m.get (ringRdy r) = 1 ∧
      t.m.get (ringFound r) = x.cntA + x.cntB ∧ (x.cntA + x.cntB < s.m.nMon r → t.m.get R.WCH_EVT_LOST = 1) ∧
      (∀ k < 2, t.m.ringState k = s.m.ringState k) ∧ s.m.onlyParts [.wch, .flt] t.m) ∧
  (∀ (s : State) (r : Fin 2) (x : RingScan), s.on → s.m.chainOn = true → s.m.nMon r ≠ 0 → x.closed = true →
      x.cntA ≠ s.m.nMon r ∨ x.cntB ≠ s.m.nMon r → s.m.condOn 12 r 3 (32 * r.val) = false → s.m.takes 12 r →
    Does (.chainBringup r x) s fun t => t.m.get (ringSt r) = 0 ∧ t.m.get (ringRdy r) = 0 ∧ t.m.get R.WCH_EVT_ENUM = 1 ∧
      t.m.tells { blk := 12, inst := r.val, kind := 3, addr := 32 * r.val, cls := 1, ind := .start } ∧
      s.frame [.wch, .flt] (ringSt r :: ringRdy r :: ringFound r :: R.WCH_EVT_ENUM :: repFlds 12) t) ∧
  (∀ (s : State) (x y : RingScan), s.m.wrStatus 0xC0C4 1 = 0 → s.on → s.m.inRun = false → s.m.chainOn = true →
      (∀ r < 2, s.m.nMon r ≠ 0 ∧ s.m.ringBad r = false) → x.closed = true → x.cntA = s.m.nMon 0 → x.cntB = s.m.nMon 0 →
      y.closed = true → y.cntA = s.m.nMon 1 → y.cntB = s.m.nMon 1 →
    Does (.wchCmdEnum x y) s fun t => (t.m.wring 0).due = some 1 ∧ (t.m.wring 1).due = some 1 ∧ t.m.ringReady 0 = true ∧ t.m.ringReady 1 = true ∧
      t.m.resp = 0 ∧ s.m.onlyParts [.wch, .flt, .resp] t.m) ∧
  (∀ (s : State) (x y : RingScan), s.m.wrStatus 0xC0C4 1 = 0 → s.on → s.m.inRun = true →
    Does (.wchCmdEnum x y) s fun t => t.m.resp = 0 ∧ s.frame [.resp] [] t) ∧
  (∀ (s : State) (r : Fin 2) (a : Byte), s.on → s.m.chainOn = true → bit a.toNat 7 = false → bit a.toNat 6 = false →
      a.toNat % 64 < s.m.nMon r → (∀ e ∈ (s.m.wring r).lost, e.1 ≠ a.toNat % 64) →
    Does (.alarmReceive r a) s fun t => (t.m.wring r).lost = (s.m.wring r).lost ++ [(a.toNat % 64, 0)] ∧
      (t.m.wring r).breakTick = s.m.time.ticks ∧ t.m.get R.WCH_EVT_BREAK = 1 ∧
      (t.m.word R.WCH_BRK_CNT_COUNT.addr).toNat = min ((s.m.word R.WCH_BRK_CNT_COUNT.addr).toNat + 1) (2 ^ 32 - 1) ∧ s.m.onlyParts [.wch, .flt] t.m) ∧
  (∀ (s : State) (r : Fin 2) (a : Byte), s.on → s.m.chainOn = true → bit a.toNat 7 = true → a.toNat % 64 < s.m.nMon r →
    Does (.alarmReceive r a) s fun t => (t.m.wring r).restTick = s.m.time.ticks ∧
      (t.m.wring r).lost.map Prod.fst = (s.m.wring r).lost.map Prod.fst ∧ s.frame [.wch] [] t)

/-- R219, R223, R225, R238: a sweep starts at its instant with READ on every closed ready ring; a restored ring that PING finds whole closes
again after RECLOSE; the composed data of 64 slots end the sweep and count it. R230, R231, R239, R462: a test cycle starts at its first
wire; REARM of a monitor clears its open bits and asks for two tests of each of those wires; a request word of the host acts with SRC = 1
alone; a read of WCH_CELL_DATA returns the cell and advances the index. The order of waiting tests is a reading (log 41). -/
def Obligations.ChainServices : Prop :=
  (∀ (s : State) (p q : RingPing), s.on → s.m.chainOn = true → s.m.frame % (200 * s.m.tSw) = 0 → (s.m.wring 0).lost = [] → (s.m.wring 1).lost = [] →
      s.m.ringReady 0 = true ∨ s.m.ringReady 1 = true →
    Does (.sweepStart p q) s fun t => t.m.wch.inFlight = true ∧ t.m.wch.instant = s.m.time.ticks ∧
      t.m.get R.WCH_SWEEP_FRAME_FRAME = s.m.frame % 2 ^ 32 ∧
      (∀ r < 2, s.m.ringReady r = true → t.m.ringState r = ((s.m.wring r).due.getD (s.m.ringState r)) % 4) ∧
      (∀ r < 2, s.m.ringReady r = true → t.m.ringState r = 1 →
        (r, 0, chainFrame 4 0xFE ((s.m.get R.WCH_SWEEP_CNT_COUNT + 1) % 256) []) ∈ t.m.wch.tx) ∧
      s.frame [.wch] [R.WCH_SWEEP_FRAME_FRAME, R.WCH_STAT_ST0, R.WCH_STAT_ST1] t) ∧
  (∀ (s : State) (p q : RingPing), s.on → s.m.chainOn = true → s.m.frame % (200 * s.m.tSw) = 0 → (s.m.wring 0).lost ≠ [] → p.reach = true →
      s.m.ringReady 0 = true → s.m.allRestored 0 = true →
      (s.m.wring 0).restTick + 10 * max 1 (s.m.get R.WCH_LIM_CFG_RECLOSE) * tickMs ≤ s.m.time.ticks →
    Does (.sweepStart p q) s fun t => t.m.ringState 0 = 1 ∧ (t.m.wring 0).lost = [] ∧ t.m.get R.WCH_EVT_RECLOSE = 1 ∧
      t.m.wch.inFlight = true ∧ s.m.onlyParts [.wch, .flt] t.m) ∧
  (∀ (s : State) (l : List Block), s.on → s.m.wch.inFlight = true →
    Does (.sweepDataComposed l) s fun t => t.m.wch.inFlight = false ∧ t.m.wch.data.length = 4096 ∧
      (t.m.word R.WCH_SWEEP_CNT_COUNT.addr).toNat = min ((s.m.word R.WCH_SWEEP_CNT_COUNT.addr).toNat + 1) (2 ^ 32 - 1) ∧
      t.m.cen.sweepDue = true ∧ s.m.onlyParts [.wch, .cen, .cap, .flt] t.m) ∧
  (∀ (c : Instr) (s : State), (c = .owtCycleStart ∧ s.m.get R.WCH_OWT_CFG_OWT_S ≠ 0 ∧
        s.m.wch.owtTick + s.m.get R.WCH_OWT_CFG_OWT_S * tickS ≤ s.m.time.ticks) ∨ (c = .wchCmdOwtNow ∧ s.m.wrStatus 0xC0C4 2 = 0) →
      s.on → s.m.chainOn = true → s.m.nMon 0 ≠ 0 ∨ s.m.nMon 1 ≠ 0 →
    Does c s fun t => (∀ r < 2, s.m.nMon r ≠ 0 → (t.m.wring r).cyc = some 0) ∧ t.m.wch.owtTick = s.m.time.ticks ∧ t.m.get R.WCH_STAT_OWT_CYC = 1 ∧
      s.frame [.wch, .resp] [R.WCH_STAT_OWT_CYC] t) ∧
  (∀ (s : State) (n : Fin 64), s.m.wrStatus 0xC0C4 (4 + 8 * n.val) = 0 → s.on →
    Does (.wchCmdRearm n) s fun t => t.m.openWires n = 0 ∧ t.m.get (R.WCH_MON_FAULT n) = 0 ∧
      (t.m.wmon n).tests = (s.m.wmon n).tests ++ ((List.range 17).filter (fun w => bit (s.m.openWires n) w)).flatMap (fun k => [k, k]) ∧
      (∀ k, k ≠ n.val → t.m.wmon k = s.m.wmon k) ∧ t.m.resp = 0 ∧ s.m.onlyParts [.wch, .flt, .resp] t.m) ∧
  (∀ (s : State) (v : Word), s.m.wrStatus 0xC0DC v.toNat = 0 → s.on → s.m.get R.WCH_BAL_CFG_SRC = 1 →
    Does (.wchBalDataWrite v) s fun t => (t.m.wmon (s.m.get R.WCH_BAL_ADDR_MON)).reqMask = v.toNat % 65536 ∧
      (t.m.wmon (s.m.get R.WCH_BAL_ADDR_MON)).reqTimer = v.toNat / 65536 ∧
      (∀ c < 16, bit v.toNat c = true → (s.m.wmon (s.m.get R.WCH_BAL_ADDR_MON)).reqTimer ≠ v.toNat / 65536 →
        (t.m.wcell (cellIdx (s.m.get R.WCH_BAL_ADDR_MON) c)).timer = v.toNat / 65536 * 1000) ∧
      (∀ k, k ≠ s.m.get R.WCH_BAL_ADDR_MON → t.m.wmon k = s.m.wmon k) ∧ t.m.resp = 0 ∧ s.frame [.wch, .resp] [] t) ∧
  (∀ (s : State) (v : Word), s.m.wrStatus 0xC0DC v.toNat = 0 → s.on → s.m.get R.WCH_BAL_CFG_SRC ≠ 1 →
    Does (.wchBalDataWrite v) s fun t => t.m.resp = 0 ∧ s.frame [.resp] [] t) ∧
  (∀ s : State, s.m.rdStatus 0xC0D4 = 0 → s.on →
    Does .wchCellDataRead s fun t => t.m.rdata = s.m.cellWord (s.m.get R.WCH_CELL_ADDR_CELL) % 2 ^ 32 ∧
      t.m.get R.WCH_CELL_ADDR_CELL = (s.m.get R.WCH_CELL_ADDR_CELL + 1) % 1024 ∧ t.m.resp = 0 ∧
      s.frame [.rdata, .resp] [R.WCH_CELL_ADDR_CELL] t)

/-- R117, R248, R352, R99: with the divided clocks stopped a boundary only passes 5 µs of local and operating time; with them running it
closes the frame, passes the same time and opens the next; a plan boundary brings the waiting loss-table writes into the table, and does
nothing while the clocks stand. That a command whose conditions do not hold changes nothing is the model's choice (log 6). The boundary
with standing clocks is the model's choice (log 54). -/
def Obligations.Boundaries : Prop :=
  (∀ (s : State) (x : Snap), s.on → s.m.domainOn 17 = false → s.m.get R.LOG_USEC_USEC + 5 < 3600000000 →
    Does (.frameBoundary x) s fun t => t.m.time.ticks = s.m.time.ticks + 64000 ∧ t.m.get R.LOG_USEC_USEC = s.m.get R.LOG_USEC_USEC + 5 ∧
      s.frame [.time] [R.LOG_USEC_USEC] t) ∧
  (∀ (s : State) (x : Snap), s.on → s.m.domainOn 17 = false → s.m.get R.LOG_USEC_USEC = 3600000000 - 5 →
      s.m.get R.LOG_HOURS_HOURS < 2 ^ 32 - 1 →
    Does (.frameBoundary x) s fun t => t.m.get R.LOG_USEC_USEC = 0 ∧ t.m.get R.LOG_HOURS_HOURS = s.m.get R.LOG_HOURS_HOURS + 1 ∧
      s.frame [.time] [R.LOG_USEC_USEC, R.LOG_HOURS_HOURS] t) ∧
  (∀ (s : State) (x : Snap), s.on → s.m.clocked = true →
    Does (.frameBoundary x) s fun t => t.m = (s.m.closeFrame x).passTime.openFrame x ∧ t.fuses = s.fuses ∧ t.pending = s.pending) ∧
  (∀ s : State, s.on → s.m.clocked = true →
    Does .planBoundary s fun t => t.m.ttb.lossDue = [] ∧
      t.m.ttb.loss = s.m.ttb.lossDue.foldl (fun l e => Sparse.set lossDflt l e.1 e.2) s.m.ttb.loss ∧
      s.m.onlyParts [.flt, .pmb, .phs, .afe, .bwk, .ttb] t.m) ∧
  (∀ s : State, s.on → s.m.clocked = false → Does .planBoundary s fun t => t = s)

/-- R303, R304, R310, R313, R316, R330, Table 11-2: the fatal lane is taken in first; a corrected report is recorded, logged and counted; an
uncorrected one opens its slack window; a fatal one leads to SAFE HOLD; a CLR cancels its window; a damaged entry leaves as KIND 0. The
place of a damaged entry's fields is a reading (log 42). -/
def Obligations.Intake : Prop :=
  (∀ (s : State) (r : Rep) (rs : List Rep), s.on → s.m.flt.lane = [] → s.m.flt.queue = r :: rs → r.cls = 0 → r.ind = .event →
      s.m.shadowed r = false →
    Does (.reportIntake false) s fun t => rs <+: t.m.flt.queue ∧ newest s t r.blk r.kind 0 r.addr ∧
      t.m.get R.FLT_SEQ_NEXT = (s.m.get R.FLT_SEQ_NEXT + 1) % 2 ^ 32 ∧
      (t.m.word R.FLT_CORR_CNT_COUNT.addr).toNat = min ((s.m.word R.FLT_CORR_CNT_COUNT.addr).toNat + 1) (2 ^ 32 - 1) ∧
      t.m.logs 1 ((r.blk * 256 + r.kind) % 65536) ∧ t.m.flt.pend = s.m.flt.pend ∧ t.m.pstate = s.m.pstate ∧
      s.m.onlyParts [.flt, .log, .cap] t.m) ∧
  (∀ (s : State) (r : Rep) (rs : List Rep), s.on → s.m.flt.lane = [] → s.m.flt.queue = r :: rs → r.cls = 1 → r.ind = .event →
      s.m.shadowed r = false → s.m.pendOf r.blk r.inst r.kind = none → s.m.flt.pend.length < 32 → s.m.get R.FLT_CFG_SLACK ≠ 0 →
    Does (.reportIntake false) s fun t => t.m.flt.pend = s.m.flt.pend ++ [⟨s.m.get R.FLT_SEQ_NEXT, r.blk, r.inst, r.kind, r.addr, 1, false,
        s.m.time.ticks + s.m.get R.FLT_CFG_SLACK * tickUs, false, false, r.forced⟩] ∧
      t.m.get R.FLT_PEND_COUNT = s.m.flt.pend.length + 1 ∧ newest s t r.blk r.kind 1 r.addr ∧ t.m.pstate = s.m.pstate ∧
      s.m.onlyParts [.flt, .log, .cap] t.m) ∧
  (∀ (s : State) (r : Rep) (rs : List Rep), s.m.flt.lane = r :: rs → r.cls = 2 → r.ind = .event → r.blk < 21 →
      s.m.pstate = 2 ∨ s.m.pstate = 3 → s.m.flt.pend.length < 32 → s.m.get R.FLT_CFG_SLACK ≠ 0 →
    Does (.reportIntake false) s fun t => t.m.pstate = 4 ∧ bit (t.m.get R.FLT_FATAL_BLK) r.blk = true ∧ t.m.get R.FLT_STAT_SAFE_REQ = 1 ∧
      t.m.get R.FLT_EVT_ESC2 = 1 ∧ t.m.pins.stoHold = false ∧ t.m.flt.pend.length = s.m.flt.pend.length + 1 ∧ t.fuses = s.fuses) ∧
  (∀ (s : State) (r : Rep) (rs : List Rep) (p : Pend), s.on → s.m.flt.lane = [] → s.m.flt.queue = r :: rs → r.ind = .clr →
      s.m.pendOf r.blk r.inst r.kind = some p → s.m.is R.FLT_CFG_ESC_ON_CLR = false → p.noCancel = false →
    Does (.reportIntake false) s fun t => (∀ q ∈ t.m.flt.pend, q.seq ≠ p.seq) ∧ t.m.pstate = s.m.pstate ∧
      s.m.onlyParts [.flt, .log, .cap] t.m) ∧
  (∀ (s : State) (r : Rep) (rs : List Rep), s.on → s.m.flt.lane = [] → s.m.flt.queue = r :: rs → r.cls = 0 → r.ind = .event →
      s.m.flt.resets = [] →
    Does (.reportIntake true) s fun t => newest s t r.blk 0 0 (2 ^ 32 - 1) ∧ t.m.get R.MEM_LAST_UE_STORE = 16 ∧
      t.m.freeCtr = s.m.freeCtr + 1 ∧ s.m.onlyParts [.freeCtr, .flt, .log, .cap] t.m) ∧
  (∀ s : State, s.on → s.m.flt.ovfDue = true → s.m.flt.queue.length < 256 → s.m.takes 14 0 →
    Does .queueOvf s fun t => t.m.flt.ovfDue = false ∧ t.m.get R.FLT_EVT_QUEUE_OVF = 1 ∧
      t.m.tells { blk := 14, inst := 0, kind := 7, addr := 0, cls := 1 } ∧ s.frame [.flt] (R.FLT_EVT_QUEUE_OVF :: repFlds 14) t)

/-- R312, R313, R314, R318, R321, R322, R324: a window that ends without a disposition escalates its record, to a level-1 reset where that is
allowed; HANDLED, ESCALATE, EXTEND and HOLD act on the pending record that FLT_DISP_SEQ names, each on its own class, and are refused
without one; the release lets the block report again with RESTART; the shadow's end writes SHADOW_END. -/
def Obligations.Ladder : Prop :=
  (∀ (s : State) (p : Pend), s.on → firstPend s.m.flt.pend = some p → p.deadline < s.m.time.ticks + 64000 → p.cls = 1 →
      s.m.l1Allowed p.blk = false →
    Does .slackExpiry s fun t => (∀ q ∈ t.m.flt.pend, q.seq ≠ p.seq) ∧ (∀ r ∈ t.m.flt.window, r.seq = p.seq → r.action = 0) ∧
      t.m.pstate = s.m.pstate ∧ s.m.onlyParts [.flt, .log] t.m) ∧
  (∀ (s : State) (p : Pend), s.on → firstPend s.m.flt.pend = some p → p.deadline < s.m.time.ticks + 64000 → p.cls = 1 → p.blk = 16 →
      bit (s.m.get R.FLT_L1_EN_EN) 16 = true → s.m.pstate ≠ 1 → s.m.pageOn 16 = true →
      s.m.recentResets 16 p.inst < max 1 (s.m.get R.FLT_REP_CFG_RST_MAX) → s.m.inReset 16 p.inst = false →
    Does .slackExpiry s fun t => (∀ q ∈ t.m.flt.pend, q.seq ≠ p.seq) ∧ t.m.inReset 16 p.inst = true ∧ t.m.get (R.BLK_STAT_RESET 16) = 1 ∧
      t.m.get R.FLT_EVT_ESC1 = 1 ∧ t.m.get R.FLT_STAT_SHADOW = 1 ∧ t.m.pstate = s.m.pstate) ∧
  (∀ (s : State) (p : Pend), s.m.wrStatus 0xE0D4 1 = 0 → s.on → s.m.dispPend = some p → p.cls = 1 →
    Does .dispHandled s fun t => (∀ q ∈ t.m.flt.pend, q.seq ≠ p.seq) ∧
      (∀ r ∈ t.m.flt.window, r.seq = p.seq → r.action = 0 ∧ r.disp = 1) ∧ t.m.resp = 0 ∧ s.m.onlyParts [.flt, .log, .resp] t.m) ∧
  (∀ (s : State) (p : Pend), s.m.wrStatus 0xE0D4 2 = 0 → s.on → s.m.dispPend = some p → p.cls = 1 → s.m.l1Allowed p.blk = false →
    Does .dispEscalate s fun t => (∀ q ∈ t.m.flt.pend, q.seq ≠ p.seq) ∧
      (∀ r ∈ t.m.flt.window, r.seq = p.seq → r.action = 0 ∧ r.disp = 2) ∧ t.m.resp = 0 ∧ s.m.onlyParts [.flt, .log, .resp] t.m) ∧
  (∀ (s : State) (p : Pend), s.m.wrStatus 0xE0D4 3 = 0 → s.on → s.m.dispPend = some p → p.extended = false →
    Does .dispExtend s fun t => (∀ q ∈ t.m.flt.pend, q.seq = p.seq →
        q.extended = true ∧ q.deadline = s.m.time.ticks + s.m.get R.FLT_CFG_SLACK * tickUs) ∧
      t.m.flt.pend.length = s.m.flt.pend.length ∧ (∀ r ∈ t.m.flt.window, r.seq = p.seq → r.disp = 3) ∧ t.m.resp = 0 ∧
      s.m.onlyParts [.flt, .log, .resp] t.m) ∧
  (∀ (s : State) (p : Pend), s.m.wrStatus 0xE0D4 4 = 0 → s.on → s.m.dispPend = some p → p.cls = 2 →
    Does .dispHold s fun t => (∀ q ∈ t.m.flt.pend, q.seq ≠ p.seq) ∧
      (∀ r ∈ t.m.flt.window, r.seq = p.seq → r.action = 2 ∧ r.disp = 4) ∧ t.m.resp = 0 ∧ s.m.onlyParts [.flt, .log, .resp] t.m) ∧
  (∀ (c : Instr) (k : Nat) (s : State), (c, k) ∈ [(Instr.dispHandled, 1), (.dispEscalate, 2), (.dispExtend, 3), (.dispHold, 4)] →
      s.m.wrStatus 0xE0D4 k = 0 → s.on → s.m.dispPend = none →
    Does c s fun t => t.m.resp = 1 ∧ t.m.get R.FLT_EVT_DISP_REF = 1 ∧ s.frame [.resp] [R.FLT_EVT_DISP_REF] t) ∧
  (∀ (s : State) (b : Fin 21) (i : Fin 64) (r : Reset), s.on →
      s.m.flt.resets.find? (fun t => t.held && t.blk == b.val && t.inst == i.val) = some r →
    Does (.level1ResetDone b i) s fun t => r ∉ t.m.flt.resets ∧ { r with held := false, relTick := s.m.time.ticks } ∈ t.m.flt.resets ∧
      (b.val, if b.val = 12 ∨ (b.val = 13 ∧ i.val ≠ 7) then i.val else 64) ∈ t.m.flt.restartDue ∧ s.m.onlyParts [.flt, .log, .cap] t.m) ∧
  (∀ (s : State) (b : Fin 21) (i : Fin 64) (r : Reset), s.on →
      s.m.flt.resets.find? (fun t => !t.held && s.m.shadowOver t && t.blk == b.val && t.inst == i.val) = some r →
    Does (.shadowEnd b i) s fun t => t.m.flt.resets = s.m.flt.resets.erase r ∧ t.m.get R.FLT_EVT_SHADOW_END = 1 ∧
      t.m.get R.FLT_STAT_SHADOW = b2n (!(s.m.flt.resets.erase r).isEmpty) ∧ s.m.onlyParts [.flt, .log, .cap] t.m)

/-- R308, R319, R304, R332, R333: FLT_CLR clears the latch bits of inactive blocks, the fatal bits without an active fatal condition, the
first-fatal registers, the sticky status; FLT_REC_SEQ shows the record it names; a permitted force sends its report with FORCED, another
is refused and reported, CLEAR ends the forced condition. -/
def Obligations.ClearsAndForces : Prop :=
  (∀ s : State, s.m.wrStatus 0xE0E0 1 = 0 → s.on →
    Does .fltClrLatch s fun t => t.m.get R.FLT_LATCH_BLK = s.m.get R.FLT_LATCH_BLK &&& s.m.get R.FLT_ACTIVE_BLK ∧
      (∀ b < 21, bit (s.m.get R.FLT_ACTIVE_BLK) b = false → t.m.get (R.BLK_FLT_LATCHED b) = 0 ∧ t.m.get (R.BLK_FLT_WORST b) = 0) ∧
      t.m.resp = 0 ∧ s.m.onlyParts [.resp] t.m) ∧
  (∀ s : State, s.m.wrStatus 0xE0E0 2 = 0 → s.on →
    Does .fltClrFatal s fun t => (∀ b < 21, bit (t.m.get R.FLT_FATAL_BLK) b =
        (bit (s.m.get R.FLT_FATAL_BLK) b && s.m.flt.conds.any (fun c => c.blk == b && c.cls == 2))) ∧
      (t.m.get R.FLT_STAT_SAFE_REQ = 0 ↔ t.m.get R.FLT_FATAL_BLK = 0) ∧ t.m.resp = 0 ∧
      s.frame [.resp] [R.FLT_FATAL_BLK, R.FLT_STAT_SAFE_REQ] t) ∧
  (∀ s : State, s.m.wrStatus 0xE0E0 4 = 0 → s.on →
    Does .fltClrFirst s fun t => t.m.word 0xE090 = 0 ∧ t.m.word 0xE094 = 0 ∧ t.m.word 0xE098 = 0 ∧ t.m.resp = 0 ∧
      s.frame [.resp] [⟨0xE090, 0, 32⟩, ⟨0xE094, 0, 32⟩, ⟨0xE098, 0, 32⟩] t) ∧
  (∀ s : State, s.m.wrStatus 0xE0E0 8 = 0 → s.on →
    Does .fltClrStat s fun t => t.m.get R.FLT_STAT_LEVEL = 0 ∧ t.m.get R.FLT_STAT_QUEUE_OVF = 0 ∧ t.m.get R.FLT_STAT_SLACK_FULL = 0 ∧
      t.m.resp = 0 ∧ s.frame [.resp] [R.FLT_STAT_LEVEL, R.FLT_STAT_QUEUE_OVF, R.FLT_STAT_SLACK_FULL] t) ∧
  (∀ (s : State) (v : Word), s.m.wrStatus 0xE100 v.toNat = 0 → s.on →
    Does (.fltRecSeqWrite v) s fun t => t.m.get R.FLT_REC_SEQ_SEQ = v.toNat ∧
      t.m.get R.FLT_REC_STAT_HELD = b2n (s.m.flt.window.find? (fun r => r.seq == v.toNat)).isSome ∧
      (∀ r, s.m.flt.window.find? (fun r => r.seq == v.toNat) = some r → ∀ i < 8, t.m.get (R.FLT_REC_DATA_DATA i) = le r.bytes (4 * i) 4 % 2 ^ 32) ∧
      t.m.resp = 0 ∧ s.frame [.resp] (R.FLT_REC_SEQ_SEQ :: R.FLT_REC_STAT_HELD :: (List.range 8).map R.FLT_REC_DATA_DATA) t) ∧
  (∀ (s : State) (p : Fin 21) (k : Fin 256) (i : Fin 64) (c : Bool) (cl : Nat),
      s.m.wrStatus (p.val * 4096 + 0x18) (k.val + 256 * i.val + 2 ^ 14 * b2n c + 2 ^ 16) = 0 → s.on → p.val ≠ 19 →
      kindClass p k = some cl → selfKind p k = false → s.m.is (R.BLK_STAT_RESET p) = false → s.m.capF = true → s.m.takes p i →
    Does (.forceInject p k i c) s fun t =>
      t.m.tells { blk := p.val, inst := i.val, kind := k.val, addr := 0, cls := cl, ind := if c then .start else .event, forced := true } ∧
        t.m.resp = 0 ∧ s.frame [.flt, .resp] (R.BLK_FORCE_KIND p :: R.BLK_FORCE_INST p :: R.BLK_FORCE_COND p :: repFlds p) t) ∧
  (∀ (s : State) (p : Fin 21) (k : Fin 256) (i : Fin 64) (c : Bool),
      s.m.wrStatus (p.val * 4096 + 0x18) (k.val + 256 * i.val + 2 ^ 14 * b2n c + 2 ^ 16) = 0 → s.on →
      s.m.forceAllowed p = false → s.m.takes 14 0 →
    Does (.forceInject p k i c) s fun t => t.m.resp = 1 ∧ t.m.get (R.BLK_FORCE_REFUSED p) = 1 ∧
      t.m.tells { blk := 14, inst := 0, kind := 10, addr := p.val * 4096 + 0x18, cls := 0 }) ∧
  (∀ (s : State) (p : Fin 21) (k : Fin 256) (i : Fin 64) (c : Bool), s.on → s.m.pageOn p = false → s.m.takes 14 0 →
    Does (.forceInject p k i c) s fun t => t.m.resp = 2 ∧
      t.m.tells { blk := 14, inst := 0, kind := 10, addr := p.val * 4096 + 0x18, cls := 0 } ∧ s.frame [.flt, .resp] (repFlds 14) t) ∧
  (∀ (s : State) (p : Fin 21) (k : Fin 256) (i : Fin 64) (c : Cond),
      s.m.wrStatus (p.val * 4096 + 0x18) (k.val + 256 * i.val + 2 ^ 15) = 0 → s.on →
      s.m.flt.conds.find? (fun c => c.forced && c.blk == p.val && c.kind == k.val && c.inst == i.val) = some c → s.m.takes p i →
    Does (.forceClear p k i) s fun t =>
      t.m.tells { blk := p.val, inst := i.val, kind := k.val, addr := c.addr, cls := c.cls, ind := .clr, forced := true } ∧ t.m.resp = 0 ∧
        s.frame [.flt, .resp] (R.BLK_FORCE_KIND p :: R.BLK_FORCE_INST p :: R.BLK_FORCE_COND p :: repFlds p) t)

/-- R339, R340, R342, R345, R346, R347, R348: the scrubber reads row after row, corrects a byte that fails in one copy with its address and
count, reports one that fails in both; a fetch trap keeps its page for the reload and is fatal on the same page within 1 s; the reloaded
page is taken when its digest agrees; a management DMA channel halts at its first uncorrectable word until DMA_RESUME. -/
def Obligations.StoredData : Prop :=
  (∀ (s : State) (st : Fin 18), s.on → s.m.is R.MEM_CFG_SCRUB_EN = true → s.m.storeOn st = true → twinStore st = true →
    Does (.scrubRead st []) s fun t => t.m.mem.scrubRow.getD st 0 = (s.m.mem.scrubRow.getD st 0 + 1) % (storeBytes st / 128) ∧
      t.m.get R.MEM_STAT_SCRUB_ACT = 1 ∧ s.frame [.mem] [R.MEM_STAT_SCRUB_ACT] t) ∧
  (∀ (s : State) (st : Fin 18) (o : Nat), s.on → s.m.is R.MEM_CFG_SCRUB_EN = true → s.m.storeOn st = true → twinStore st = true → o < 128 →
      s.m.fenced st 0 (s.m.mem.scrubRow.getD st 0) = false → s.m.fenced st 1 (s.m.mem.scrubRow.getD st 0) = false →
      (s.m.mem.corr.filter (fun e => decide (s.m.time.ticks < e.2 + tickS) && e.1 == ⟨st, 0, s.m.mem.scrubRow.getD st 0⟩)).length < 2 →
      s.m.mem.scrubRow.getD st 0 < 2 ^ 15 →
    Does (.scrubRead st [(o, true, false)]) s fun t =>
      (t.m.word (R.MEM_CORR_CNT_COUNT st).addr).toNat = min ((s.m.word (R.MEM_CORR_CNT_COUNT st).addr).toNat + 1) (2 ^ 32 - 1) ∧
        t.m.get R.MEM_LAST_CORR_STORE = st.val ∧ t.m.get R.MEM_LAST_CORR_COPY = 0 ∧
        t.m.get R.MEM_LAST_CORR_ADDR_ADDR = 128 * s.m.mem.scrubRow.getD st 0 + o ∧ t.m.mem.fences = s.m.mem.fences ∧
        ((s.m.word (R.MEM_CORR_CNT_COUNT st).addr).toNat < 2 ^ 32 - 1 → s.frame [.mem, .flt] ([R.MEM_STAT_SCRUB_ACT, ⟨(R.MEM_CORR_CNT_COUNT st).addr, 0, 32⟩, R.MEM_LAST_CORR_STORE, R.MEM_LAST_CORR_COPY,
          R.MEM_LAST_CORR_ADDR_ADDR, ⟨0xF0C0, 0, 1⟩] ++ repFlds 15) t)) ∧
  (∀ (s : State) (st : Fin 18) (o : Nat), s.on → s.m.is R.MEM_CFG_SCRUB_EN = true → s.m.storeOn st = true → twinStore st = true → o < 128 →
      s.m.fenced st 0 (s.m.mem.scrubRow.getD st 0) = false → s.m.fenced st 1 (s.m.mem.scrubRow.getD st 0) = false →
      2 ≤ (s.m.mem.corr.filter (fun e => decide (s.m.time.ticks < e.2 + tickS) && e.1 == ⟨st, 0, s.m.mem.scrubRow.getD st 0⟩)).length →
      s.m.mem.scrubRow.getD st 0 < 2 ^ 15 → s.m.takes 15 st →
    Does (.scrubRead st [(o, true, false)]) s fun t => t.m.fenced st 0 (s.m.mem.scrubRow.getD st 0) = true ∧
      t.m.get R.MEM_STAT_FENCED = min 255 (s.m.get R.MEM_STAT_FENCED + 1) ∧ t.m.get ⟨0xF0C0, 1, 1⟩ = 1) ∧
  (∀ (s : State) (st : Fin 18) (o : Nat), s.on → s.m.is R.MEM_CFG_SCRUB_EN = true → s.m.storeOn st = true → twinStore st = true → o < 128 →
      s.m.fenced st 0 (s.m.mem.scrubRow.getD st 0) = true → s.m.fenced st 1 (s.m.mem.scrubRow.getD st 0) = false →
    Does (.scrubRead st [(o, true, false)]) s fun t => s.frame [.mem] [R.MEM_STAT_SCRUB_ACT] t) ∧
  (∀ (s : State) (st : Fin 18) (o : Nat), s.on → s.m.is R.MEM_CFG_SCRUB_EN = true → s.m.storeOn st = true → twinStore st = true → o < 128 →
      s.m.mem.scrubRow.getD st 0 < 2 ^ 15 → s.m.takes 15 st →
    Does (.scrubRead st [(o, true, true)]) s fun t =>
      (t.m.word R.MEM_UE_CNT_COUNT.addr).toNat = min ((s.m.word R.MEM_UE_CNT_COUNT.addr).toNat + 1) (2 ^ 32 - 1) ∧ t.m.get R.MEM_LAST_UE_STORE = st.val ∧
        t.m.tells { blk := 15, inst := st.val, kind := 5, addr := 128 * s.m.mem.scrubRow.getD st 0 + o, cls := 1 } ∧
        ((s.m.word R.MEM_UE_CNT_COUNT.addr).toNat < 2 ^ 32 - 1 → s.frame [.mem, .flt] ([R.MEM_STAT_SCRUB_ACT, ⟨R.MEM_UE_CNT_COUNT.addr, 0, 32⟩, R.MEM_LAST_UE_STORE, R.MEM_LAST_UE_ADDR_ADDR,
          ⟨0xF0C0, 4, 1⟩] ++ repFlds 15) t)) ∧
  (∀ (s : State) (i : Fin 20), s.on → s.m.is R.MEM_CFG_SCRUB_EN = true → s.m.storeOn (32 + i.val) = true →
    Does (.dramScrubRead i 0) s fun t => t.m.mem.dramWord.getD i 0 = (s.m.mem.dramWord.getD i 0 + 1) % 2 ^ 28 ∧
      t.m.get R.MEM_STAT_DRAM_SCRUB_ACT = 1 ∧ s.frame [.mem] [R.MEM_STAT_DRAM_SCRUB_ACT] t) ∧
  (∀ (s : State) (i : Fin 20), s.on → s.m.is R.MEM_CFG_SCRUB_EN = true → s.m.storeOn (32 + i.val) = true →
      s.m.mem.dramWord.getD i 0 < 2 ^ 28 →
    Does (.dramScrubRead i 1) s fun t => t.m.mem.dramWord.getD i 0 = (s.m.mem.dramWord.getD i 0 + 1) % 2 ^ 28 ∧
      (t.m.word (R.MEM_CORR_CNT_COUNT (32 + i.val)).addr).toNat =
        min ((s.m.word (R.MEM_CORR_CNT_COUNT (32 + i.val)).addr).toNat + 1) (2 ^ 32 - 1) ∧
      t.m.get R.MEM_LAST_CORR_STORE = 32 + i.val ∧ t.m.get R.MEM_LAST_CORR_ADDR_ADDR = 8 * s.m.mem.dramWord.getD i 0) ∧
  (∀ (s : State) (i : Fin 20), s.on → s.m.is R.MEM_CFG_SCRUB_EN = true → s.m.storeOn (32 + i.val) = true →
      s.m.mem.dramWord.getD i 0 < 2 ^ 28 → s.m.takes 15 (32 + i.val) →
    Does (.dramScrubRead i 2) s fun t =>
      (t.m.word R.MEM_UE_CNT_COUNT.addr).toNat = min ((s.m.word R.MEM_UE_CNT_COUNT.addr).toNat + 1) (2 ^ 32 - 1) ∧
      t.m.get R.MEM_LAST_UE_STORE = 32 + i.val ∧
      t.m.tells { blk := 15, inst := 32 + i.val, kind := 11, addr := 8 * s.m.mem.dramWord.getD i 0, cls := 1 }) ∧
  (∀ s : State, s.m.wrStatus 0xF0C4 0x10 = 0 → s.on →
    Does .memCmdScrubNow s fun t => t.m.mem.scrubRow = List.replicate 18 0 ∧ t.m.mem.dramWord = List.replicate 20 0 ∧ t.m.resp = 0 ∧
      s.frame [.mem, .resp] [] t) ∧
  (∀ (s : State) (a : Fin 2097152), s.on → s.m.storeOn 12 = true → s.m.takes 15 12 →
    Does (.fetchTrap a) s fun t =>
      (t.m.word R.MEM_UE_CNT_COUNT.addr).toNat = min ((s.m.word R.MEM_UE_CNT_COUNT.addr).toNat + 1) (2 ^ 32 - 1) ∧
      t.m.get R.MEM_LAST_UE_STORE = 12 ∧ t.m.get R.MEM_LAST_UE_ADDR_ADDR = a.val ∧
      (s.m.mem.trapHist.any (fun e => e.1 == a.val / 4096 && decide (s.m.time.ticks < e.2 + tickS)) = false →
        t.m.mem.trap = some (a.val / 4096) ∧ t.m.tells { blk := 15, inst := 12, kind := 6, addr := a.val, cls := 1 }) ∧
      (s.m.mem.trapHist.any (fun e => e.1 == a.val / 4096 && decide (s.m.time.ticks < e.2 + tickS)) = true →
        t.m.mem.trap = s.m.mem.trap ∧ t.m.tells { blk := 15, inst := 12, kind := 7, addr := a.val, cls := 2 }) ∧
      ((s.m.word R.MEM_UE_CNT_COUNT.addr).toNat < 2 ^ 32 - 1 →
        s.frame [.mem, .flt] ([⟨R.MEM_UE_CNT_COUNT.addr, 0, 32⟩, R.MEM_LAST_UE_STORE, R.MEM_LAST_UE_ADDR_ADDR, ⟨0xF0C0, 5, 2⟩] ++
          repFlds 15) t)) ∧
  (∀ (s : State) (p : Nat), s.on → s.m.mem.trap = some p → s.m.takes 15 12 →
    Does .fetchTrapDone s fun t => t.m.mem.trap = none ∧
      (Config.sha384 (pageBytes s.m.activeSlot p) = pageDigest s.m.activeSlot p → ∀ i < 4096,
        Sparse.get (fun _ => 0) t.m.mgt.iram (4096 * p + i) = (pageBytes s.m.activeSlot p).getD i 0) ∧
      (Config.sha384 (pageBytes s.m.activeSlot p) ≠ pageDigest s.m.activeSlot p →
        t.m.tells { blk := 15, inst := 12, kind := 7, addr := 4096 * p, cls := 2 }) ∧
      (∀ a, a < 4096 * p ∨ 4096 * p + 4096 ≤ a → Sparse.get (fun _ => 0) t.m.mgt.iram a = Sparse.get (fun _ => 0) s.m.mgt.iram a) ∧
      s.frame [.mem, .mgt, .flt] (⟨0xF0C0, 6, 1⟩ :: repFlds 15) t) ∧
  (∀ (s : State) (ch : Fin 8) (st : Fin 52) (a : Fin 2147483648), s.on → bit (s.m.get R.MEM_DMA_HALT_HALT) ch = false →
      s.m.domainOn 1 = true → twinStore st = true ∨ 32 ≤ st.val → s.m.takes 15 st →
    Does (.mgtDmaHalt ch st a) s fun t =>
      (t.m.word R.MEM_UE_CNT_COUNT.addr).toNat = min ((s.m.word R.MEM_UE_CNT_COUNT.addr).toNat + 1) (2 ^ 32 - 1) ∧ bit (t.m.get R.MEM_DMA_HALT_HALT) ch = true ∧ t.m.get R.MEM_DMA_ADDR_ADDR = a.val ∧
      t.m.tells { blk := 15, inst := st.val, kind := 9, addr := a.val, cls := 1 } ∧
      ((s.m.word R.MEM_UE_CNT_COUNT.addr).toNat < 2 ^ 32 - 1 →
        s.frame [.mem, .flt] ([R.MEM_DMA_HALT_HALT, R.MEM_DMA_ADDR_ADDR, ⟨R.MEM_UE_CNT_COUNT.addr, 0, 32⟩, R.MEM_LAST_UE_STORE,
          R.MEM_LAST_UE_ADDR_ADDR, ⟨0xF0C0, 8, 1⟩] ++ repFlds 15) t)) ∧
  (∀ (s : State) (ch : Fin 8), s.m.wrStatus 0xF0C4 (1 + 2 * ch.val) = 0 → s.on →
    Does (.memCmdDmaResume ch) s fun t => bit (t.m.get R.MEM_DMA_HALT_HALT) ch = false ∧
      (∀ k < 8, k ≠ ch.val → bit (t.m.get R.MEM_DMA_HALT_HALT) k = bit (s.m.get R.MEM_DMA_HALT_HALT) k) ∧ t.m.resp = 0 ∧
      s.frame [.resp] [R.MEM_DMA_HALT_HALT] t)

/-- R350, R351, R353, R354, R355, R356: the oldest arrival enters the queue, folds into the newest CONDITION record, or is omitted and counted
when its CODE has no token; the front record goes to the slot at HEAD, or retires the slot and stays; a full log discards it; tokens are
refilled; the fold's live figures go into its slot. The fold in State is a reading (log 51). -/
def Obligations.LogQueue : Prop :=
  (∀ (s : State) (a : LogArr) (as : List LogArr), s.on → s.m.log.arr = a :: as → a.entry.typ ≠ 1 → s.m.log.fold = none →
      s.m.is R.LOG_STAT_FULL = false → s.m.log.queue.length < 1024 →
    Does .logEnqueue s fun t => t.m.log.arr = as ∧ t.m.log.queue = s.m.log.queue ++ [a.entry] ∧
      t.m.get R.LOG_STAT_QDEPTH = s.m.log.queue.length + 1 ∧ s.frame [.log] [R.LOG_STAT_QDEPTH] t) ∧
  (∀ (s : State) (a : LogArr) (as : List LogArr) (f : Fold), s.on → s.m.log.arr = a :: as → a.entry.typ = 2 → s.m.log.fold = some f →
      f.code = a.entry.code → f.addr = le a.entry.body 0 4 → f.rept + 1 < 2 ^ 32 → a.entry.opUs - f.firstUs < 2 ^ 32 →
    Does .logEnqueue s fun t => t.m.log.fold = some { f with rept := f.rept + 1, lastDt := a.entry.opUs - f.firstUs } ∧
      t.m.log.arr = as ∧ t.m.log.queue = s.m.log.queue ∧ s.frame [.log] [] t) ∧
  (∀ (s : State) (a : LogArr) (as : List LogArr), s.on → s.m.log.arr = a :: as → a.entry.typ = 1 → a.free = false →
      bit (a.entry.body.getD 7 0) 0 = false → s.m.logBurst ≤ Sparse.get (fun _ => 0) s.m.log.used a.entry.code →
    Does .logEnqueue s fun t => t.m.log.queue = s.m.log.queue ∧ t.m.log.arr = as ∧
      Sparse.get (fun _ => 0) t.m.log.omitted a.entry.code =
        min (2 ^ 32 - 1) (Sparse.get (fun _ => 0) s.m.log.omitted a.entry.code + 1) ∧
      (t.m.word R.LOG_LIMIT_CNT_COUNT.addr).toNat = min ((s.m.word R.LOG_LIMIT_CNT_COUNT.addr).toNat + 1) (2 ^ 32 - 1) ∧
      t.m.nv.limit = min ((s.m.word R.LOG_LIMIT_CNT_COUNT.addr).toNat + 1) (2 ^ 32 - 1) ∧
      ((s.m.word R.LOG_LIMIT_CNT_COUNT.addr).toNat < 2 ^ 32 - 1 → s.frame [.log, .nv] [R.LOG_LIMIT_CNT_COUNT] t)) ∧
  (∀ (s : State) (a : LogArr) (as : List LogArr), s.on → s.m.log.arr = a :: as → a.entry.typ ≠ 1 → s.m.foldInto a.entry = none →
      s.m.is R.LOG_STAT_FULL = false → 1024 ≤ s.m.log.queue.length →
    Does .logEnqueue s fun t => t.m.log.arr = as ∧ t.m.log.queue = s.m.log.queue ∧ t.m.get R.LOG_EVT_QOVF = 1 ∧
      (t.m.word R.LOG_QOVF_CNT_COUNT.addr).toNat = min ((s.m.word R.LOG_QOVF_CNT_COUNT.addr).toNat + 1) (2 ^ 32 - 1)) ∧
  (∀ (s : State) (r : LogRec) (rest : List LogRec), s.on → s.m.log.queue = r :: rest → s.m.logWrites = true →
      s.m.is R.LOG_STAT_FULL = false → s.m.get R.LOG_HEAD_HEAD < 524288 → s.m.takes 15 17 →
    Does (.logRecordWrite true true) s fun t =>
      t.m.logSlot (s.m.get R.LOG_HEAD_HEAD) = ({ r with typ := 0xFE, code := 0, rept := 0, body := zeros 28 } : LogRec).bytes 0xA5 ∧
        (∀ i, i ≠ s.m.get R.LOG_HEAD_HEAD → t.m.logSlot i = s.m.logSlot i) ∧ t.m.get R.LOG_HEAD_HEAD = s.m.get R.LOG_HEAD_HEAD + 1 ∧
        t.m.log.queue = rest ∧ t.m.get R.MEM_LAST_UE_STORE = 17 ∧ t.m.get ⟨0xF0C0, 3, 1⟩ = 1) ∧
  (∀ (s : State) (r : LogRec) (rest : List LogRec), s.on → s.m.log.queue = r :: rest → s.m.logWrites = true →
      s.m.is R.LOG_STAT_FULL = false → s.m.get R.LOG_HEAD_HEAD = 524287 → s.m.is R.LOG_STAT_NEAR_FULL = true → s.m.takes 16 0 →
    Does (.logRecordWrite true false) s fun t => t.m.get R.LOG_HEAD_HEAD = 524288 ∧ t.m.get R.LOG_STAT_FULL = 1 ∧
      t.m.get R.LOG_EVT_FULL = 1 ∧ t.m.tells { blk := 16, inst := 0, kind := 2, addr := 524288, cls := 1 }) ∧
  (∀ (s : State) (r : LogRec) (rest : List LogRec), s.on → s.m.log.queue = r :: rest → s.m.logWrites = true →
      s.m.is R.LOG_STAT_FULL = false → s.m.get R.LOG_HEAD_HEAD + 1 < 262144 →
    Does (.logRecordWrite true false) s fun t => t.m.logSlot (s.m.get R.LOG_HEAD_HEAD) = r.bytes 0xA5 ∧
      (∀ i, i ≠ s.m.get R.LOG_HEAD_HEAD → t.m.logSlot i = s.m.logSlot i) ∧ t.m.get R.LOG_HEAD_HEAD = s.m.get R.LOG_HEAD_HEAD + 1 ∧
      t.m.nv.head = s.m.get R.LOG_HEAD_HEAD + 1 ∧ t.m.log.queue = rest ∧
      s.frame [.log, .nv] [R.LOG_STAT_QDEPTH, R.LOG_HEAD_HEAD] t) ∧
  (∀ (s : State) (r : LogRec) (rest : List LogRec), s.on → s.m.log.queue = r :: rest → s.m.logWrites = true →
      s.m.is R.LOG_STAT_FULL = false → s.m.get R.LOG_HEAD_HEAD + 1 < 262144 → s.m.takes 16 0 →
    Does (.logRecordWrite false false) s fun t => t.m.logSlot (s.m.get R.LOG_HEAD_HEAD) = r.bytes 0 ∧ t.m.log.queue = r :: rest ∧
      t.m.get R.LOG_HEAD_HEAD = s.m.get R.LOG_HEAD_HEAD + 1 ∧ t.m.get R.LOG_EVT_WR_FAIL = 1 ∧
      t.m.nv.retired = min ((s.m.word R.LOG_RETIRED_CNT_COUNT.addr).toNat + 1) (2 ^ 32 - 1) ∧
      t.m.tells { blk := 16, inst := 0, kind := 5, addr := s.m.get R.LOG_HEAD_HEAD, cls := 1 } ∧
      ((s.m.word R.LOG_RETIRED_CNT_COUNT.addr).toNat < 2 ^ 32 - 1 →
        s.frame [.nv, .flt] ([R.LOG_HEAD_HEAD, R.LOG_RETIRED_CNT_COUNT, R.LOG_EVT_WR_FAIL] ++ repFlds 16) t)) ∧
  (∀ (s : State) (r : LogRec) (rest : List LogRec), s.on → s.m.log.queue = r :: rest → s.m.logWrites = true →
      s.m.is R.LOG_STAT_FULL = true →
    Does (.logRecordWrite true false) s fun t => t.m.log.queue = rest ∧ t.m.nv.slots = s.m.nv.slots ∧
      (t.m.word R.LOG_DROP_CNT_COUNT.addr).toNat = min ((s.m.word R.LOG_DROP_CNT_COUNT.addr).toNat + 1) (2 ^ 32 - 1) ∧
      ((s.m.word R.LOG_DROP_CNT_COUNT.addr).toNat < 2 ^ 32 - 1 →
        s.frame [.log, .nv] [R.LOG_DROP_CNT_COUNT, R.LOG_STAT_QDEPTH] t)) ∧
  (∀ (s : State) (f : Fold) (i : Nat), s.on → s.m.log.fold = some f → f.slot = some i → f.rept < 2 ^ 32 →
      f.lastDt < 2 ^ 32 →
    Does .foldFlush s fun t => le (t.m.logSlot i) 4 4 = f.rept ∧ le (t.m.logSlot i) 20 4 = f.lastDt ∧
      (∀ k, k ≠ i → t.m.logSlot k = s.m.logSlot k) ∧ s.frame [.nv] [] t) ∧
  (∀ s : State, s.on →
    Does .tokenRefill s fun t => (∀ c, Sparse.get (fun _ => 0) t.m.log.used c = Sparse.get (fun _ => 0) s.m.log.used c - 1) ∧
      s.frame [.log] [] t)

/-- R352, R355, R357, R359, R360: operating time is saved; the power-up check retires a torn slot and puts the POWER record first; ERASE
outside RUN runs and leaves every slot 0xFF, HEAD and the counters 0, and is refused in RUN; the readout index shows a slot, the stream
its words; the 17th NOTE of a second is refused. -/
def Obligations.LogStore : Prop :=
  (∀ s : State, s.on →
    Does .operatingTimeSave s fun t => t.m.nv.hours = s.m.get R.LOG_HOURS_HOURS ∧ t.m.nv.usec = s.m.get R.LOG_USEC_USEC ∧
      t.m.nv.slots = s.m.nv.slots ∧ s.frame [.nv] [] t) ∧
  (∀ s : State, s.on → s.m.is R.LOG_STAT_READY = false → slotTorn (s.m.logSlot (s.m.get R.LOG_HEAD_HEAD)) = false →
      s.m.log.queue.length < 1024 →
    Does .logPowerupCheck s fun t => t.m.get R.LOG_STAT_READY = 1 ∧ t.m.log.queue = s.m.powerOnRec 0 :: s.m.log.queue ∧
      s.frame [.log] [R.LOG_STAT_READY, R.LOG_STAT_QDEPTH] t) ∧
  (∀ s : State, s.on → s.m.is R.LOG_STAT_READY = false → s.m.get R.LOG_HEAD_HEAD < 262143 →
      slotTorn (s.m.logSlot (s.m.get R.LOG_HEAD_HEAD)) = true → s.m.takes 16 0 →
    Does .logPowerupCheck s fun t => t.m.get R.LOG_STAT_READY = 1 ∧ (t.m.logSlot (s.m.get R.LOG_HEAD_HEAD)).getD 0 1 = 0 ∧
      t.m.get R.LOG_HEAD_HEAD = s.m.get R.LOG_HEAD_HEAD + 1 ∧ t.m.get R.LOG_EVT_TORN = 1 ∧
      t.m.nv.torn = min ((s.m.word R.LOG_TORN_CNT_COUNT.addr).toNat + 1) (2 ^ 32 - 1) ∧ (∃ r ∈ t.m.log.queue.head?, r.typ = 4 ∧ r.body.getD 2 0 = 1) ∧
      t.m.tells { blk := 16, inst := 0, kind := 4, addr := s.m.get R.LOG_HEAD_HEAD, cls := 0 } ∧
      ((s.m.word R.LOG_TORN_CNT_COUNT.addr).toNat < 2 ^ 32 - 1 →
        s.frame [.log, .nv, .flt] ([R.LOG_STAT_READY, R.LOG_STAT_QDEPTH, R.LOG_HEAD_HEAD, R.LOG_TORN_CNT_COUNT, R.LOG_EVT_TORN] ++
          repFlds 16) t)) ∧
  (∀ s : State, s.m.wrStatus 0x100C4 1 = 0 → s.on → s.m.inRun = false → s.m.is R.LOG_STAT_ERASING = false →
    Does .logCmdErase s fun t => t.m.get R.LOG_STAT_ERASING = 1 ∧ t.m.get R.SEC_ERASE_GRANT = 0 ∧ t.m.nv = s.m.nv ∧ t.m.resp = 0 ∧
      t.m.log.eraseHead = s.m.get R.LOG_HEAD_HEAD ∧ s.frame [.log, .resp] [R.LOG_STAT_ERASING, R.SEC_ERASE_GRANT] t) ∧
  (∀ s : State, s.m.wrStatus 0x100C4 1 = 0 → s.on → s.m.inRun = true →
    Does .logCmdErase s fun t => t.m.resp = 1 ∧ t.m.get R.LOG_EVT_ERASE_REF = 1 ∧ s.frame [.resp] [R.LOG_EVT_ERASE_REF] t) ∧
  (∀ s : State, s.on → s.m.is R.LOG_STAT_ERASING = true →
    Does .logEraseDone s fun t => (∀ i, t.m.logSlot i = List.replicate 64 0xFF) ∧ t.m.get R.LOG_HEAD_HEAD = 0 ∧ t.m.nv.head = 0 ∧
      t.m.get R.LOG_DROP_CNT_COUNT = 0 ∧ t.m.get R.LOG_RETIRED_CNT_COUNT = 0 ∧ t.m.get R.LOG_STAT_FULL = 0 ∧
      t.m.get R.LOG_STAT_ERASING = 0 ∧ (∃ r ∈ t.m.log.queue.head?, r.typ = 9) ∧
      s.frame [.log, .nv] [R.LOG_HEAD_HEAD, R.LOG_DROP_CNT_COUNT, R.LOG_LIMIT_CNT_COUNT, R.LOG_RETIRED_CNT_COUNT, R.LOG_TORN_CNT_COUNT,
        R.LOG_STAT_FULL, R.LOG_STAT_NEAR_FULL, R.LOG_STAT_ERASING, R.LOG_STAT_QDEPTH] t) ∧
  (∀ (s : State) (v : Word), s.m.wrStatus 0x10100 v.toNat = 0 → s.on →
    Does (.logRdIdxWrite v) s fun t => t.m.get R.LOG_RD_IDX_IDX = v.toNat % 2 ^ 19 ∧
      (∀ k < 16, t.m.get (R.LOG_RD_DATA_DATA k) = le (s.m.slotShown (v.toNat % 2 ^ 19)) (4 * k) 4 % 2 ^ 32) ∧
      ((s.m.slotShown (v.toNat % 2 ^ 19)).getD 0 0 = 0xA5 → t.m.get R.LOG_RD_STAT_STATE = 1) ∧
      ((s.m.slotShown (v.toNat % 2 ^ 19)).getD 0 0 = 0 → t.m.get R.LOG_RD_STAT_STATE = 2) ∧
      ((s.m.slotShown (v.toNat % 2 ^ 19)).getD 0 0 = 0xFF → t.m.get R.LOG_RD_STAT_STATE = 0) ∧ t.m.log.rdWord = 0 ∧ t.m.resp = 0 ∧
      s.frame [.log, .resp] (R.LOG_RD_IDX_IDX :: R.LOG_RD_STAT_STATE :: R.LOG_RD_STAT_CRC_OK :: (List.range 16).map R.LOG_RD_DATA_DATA) t) ∧
  (∀ s : State, s.m.rdStatus 0x10148 = 0 → s.on → s.m.log.rdWord < 15 →
    Does .logRdStreamRead s fun t => t.m.rdata = s.m.log.snap.getD s.m.log.rdWord 0 % 2 ^ 32 ∧ t.m.log.rdWord = s.m.log.rdWord + 1 ∧
      t.m.resp = 0 ∧ s.frame [.log, .rdata, .resp] [] t) ∧
  (∀ s : State, s.m.rdStatus 0x10148 = 0 → s.on → s.m.log.rdWord = 15 →
    Does .logRdStreamRead s fun t => t.m.rdata = s.m.log.snap.getD 15 0 % 2 ^ 32 ∧ t.m.log.rdWord = 0 ∧
      t.m.get R.LOG_RD_IDX_IDX = (s.m.get R.LOG_RD_IDX_IDX + 1) % 2 ^ 19 ∧ t.m.resp = 0 ∧ s.frame [.log, .rdata, .resp]
        (R.LOG_RD_IDX_IDX :: R.LOG_RD_STAT_STATE :: R.LOG_RD_STAT_CRC_OK :: (List.range 16).map R.LOG_RD_DATA_DATA) t) ∧
  (∀ (s : State) (v : Word), s.m.wrStatus 0x100EC v.toNat = 0 → s.on →
      (s.m.log.noteTicks.filter (fun t => decide (s.m.time.ticks < t + tickS))).length < 16 →
    Does (.logNoteWrite v) s fun t => t.m.logs 8 (s.m.get R.LOG_NOTE_CODE_CODE) ∧ t.m.log.arr.length = s.m.log.arr.length + 1 ∧
      t.m.get (R.LOG_NOTE_DATA 6) = v.toNat ∧ t.m.resp = 0 ∧ s.frame [.log, .resp] [R.LOG_NOTE_DATA 6] t) ∧
  (∀ (s : State) (v : Word), s.m.wrStatus 0x100EC v.toNat = 0 → s.on →
      16 ≤ (s.m.log.noteTicks.filter (fun t => decide (s.m.time.ticks < t + tickS))).length →
    Does (.logNoteWrite v) s fun t => t.m.resp = 1 ∧ t.m.get R.LOG_EVT_NOTE_REF = 1 ∧ t.m.log.arr = s.m.log.arr ∧
      s.frame [.resp] [R.LOG_NOTE_DATA 6, R.LOG_EVT_NOTE_REF] t)

/-- R384: words written through the window are staged at an address that advances; ERASE leaves the slot not in use blank; VERIFY writes what
is staged and then checks the slot, its signature and its boot set; the check ends in VERIFIED and a TRUST record, or in RESULT and
FW_CHECK. The slot in use never changes. The order of the failure codes and what a staged word does to the slot are readings (log 45). -/
def Obligations.FirmwareWindow : Prop :=
  (∀ (s : State) (v : Word), s.m.wrStatus 0x110A4 v.toNat = 0 → s.on → s.m.pstate ≠ 1 → s.m.mgt.staging.length < 65536 →
      (s.m.slotOf s.m.idleSlot).broken = false →
    Does (.mgtFwDataWrite v) s fun t => t.m.mgt.staging = s.m.mgt.staging ++ [(s.m.get R.MGT_FW_ADDR_ADDR / 4 * 4, v.toNat)] ∧
      t.m.get R.MGT_FW_ADDR_ADDR = (s.m.get R.MGT_FW_ADDR_ADDR + 4) % 2 ^ 25 ∧ t.m.get R.MGT_FW_STAT_VERIFIED = 0 ∧
      t.m.get R.MGT_FW_STAT_BUSY = 1 ∧ (t.m.slotOf s.m.idleSlot).valid = false ∧
      (t.m.slotOf s.m.idleSlot).bytes = (s.m.slotOf s.m.idleSlot).bytes ∧ t.m.slotOf (!s.m.idleSlot) = s.m.slotOf (!s.m.idleSlot) ∧
      t.m.resp = 0 ∧ s.frame [.mgt, .nv, .resp] (R.MGT_FW_ADDR_ADDR :: R.MGT_FW_STAT_VERIFIED :: fwFlds) t) ∧
  (∀ (s : State) (v : Word), s.m.wrStatus 0x110A4 v.toNat = 0 → s.on →
      s.m.pstate = 1 ∨ 65536 ≤ s.m.mgt.staging.length ∨ (s.m.slotOf s.m.idleSlot).broken = true →
    Does (.mgtFwDataWrite v) s fun t => t.m.resp = 1 ∧ s.frame [.resp] [] t) ∧
  (∀ s : State, s.m.wrStatus 0x110A8 1 = 0 → s.on → s.m.pstate ≠ 1 → s.m.mgt.fwOp = 0 →
    Does .mgtFwErase s fun t => t.m.mgt.fwOp = 1 ∧ t.m.mgt.staging = [] ∧ t.m.get R.MGT_FW_STAT_BUSY = 1 ∧
      t.m.get R.MGT_FW_STAT_VERIFIED = 0 ∧ t.m.resp = 0 ∧
      s.frame [.mgt, .resp] [R.MGT_FW_STAT_BUSY, R.MGT_FW_STAT_FULL, R.MGT_FW_STAT_VERIFIED] t) ∧
  (∀ s : State, s.on → s.m.mgt.fwOp = 1 →
    Does .fwEraseDone s fun t => t.m.mgt.fwOp = 0 ∧ (∀ a, (t.m.slotOf s.m.idleSlot).byte a = 0xFF) ∧
      (t.m.slotOf s.m.idleSlot).valid = false ∧ (t.m.slotOf s.m.idleSlot).broken = false ∧
      t.m.slotOf (!s.m.idleSlot) = s.m.slotOf (!s.m.idleSlot) ∧ s.frame [.mgt, .nv] fwFlds t) ∧
  (∀ s : State, s.m.wrStatus 0x110A8 2 = 0 → s.on → s.m.pstate ≠ 1 → s.m.mgt.fwOp = 0 →
    Does .mgtFwVerify s fun t => t.m.mgt.fwOp = 2 ∧ t.m.mgt.staging = [] ∧ t.m.get R.MGT_FW_STAT_BUSY = 1 ∧
      (∀ o v, s.m.mgt.staging = [(o, v)] → ∀ i < 4, (t.m.slotOf s.m.idleSlot).byte (o + i) = v / 256 ^ i % 256) ∧
      (∀ a, (∀ e ∈ s.m.mgt.staging, a < e.1 ∨ e.1 + 4 ≤ a) →
        (t.m.slotOf s.m.idleSlot).byte a = (s.m.slotOf s.m.idleSlot).byte a) ∧
      t.m.slotOf (!s.m.idleSlot) = s.m.slotOf (!s.m.idleSlot) ∧ t.m.resp = 0 ∧
      s.frame [.mgt, .nv, .resp] [R.MGT_FW_STAT_BUSY, R.MGT_FW_STAT_FULL] t) ∧
  (∀ (c : Instr) (k : Nat) (s : State), (c, k) ∈ [(Instr.mgtFwErase, 1), (.mgtFwVerify, 2)] → s.m.wrStatus 0x110A8 k = 0 → s.on →
      s.m.pstate = 1 ∨ s.m.mgt.fwOp ≠ 0 →
    Does c s fun t => t.m.resp = 1 ∧ s.frame [.resp] [] t) ∧
  (∀ (s : State) (e : Bool), s.on → s.m.mgt.fwOp = 2 → s.m.mgt.staging = [] → s.m.slotCode s.fuses s.m.idleSlot e = 0 →
      s.m.bootSigned s.fuses (s.m.slotOf s.m.idleSlot).byte = true →
    Does (.fwVerifyDone e) s fun t => t.m.mgt.fwOp = 0 ∧ t.m.get R.MGT_FW_STAT_RESULT = 0 ∧ t.m.get R.MGT_FW_STAT_VERIFIED = 1 ∧
      (t.m.slotOf s.m.idleSlot).valid = true ∧ (t.m.slotOf s.m.idleSlot).svn = rdAt (s.m.slotOf s.m.idleSlot).byte 12 4 ∧
      (t.m.slotOf s.m.idleSlot).build = rdAt (s.m.slotOf s.m.idleSlot).byte 8 4 ∧
      t.m.slotOf (!s.m.idleSlot) = s.m.slotOf (!s.m.idleSlot) ∧ t.m.logs 7 4 ∧
      s.frame [.mgt, .nv, .log] (R.MGT_FW_STAT_RESULT :: R.MGT_FW_STAT_VERIFIED :: fwFlds) t) ∧
  (∀ (s : State) (e : Bool), s.on → s.m.mgt.fwOp = 2 → s.m.takes 17 0 →
      s.m.slotCode s.fuses s.m.idleSlot e ≠ 0 ∨ s.m.bootSigned s.fuses (s.m.slotOf s.m.idleSlot).byte = false →
    Does (.fwVerifyDone e) s fun t => t.m.mgt.fwOp = 0 ∧ t.m.get R.MGT_EVT_FW_CHECK = 1 ∧
      t.m.get R.MGT_FW_STAT_RESULT = (if s.m.slotCode s.fuses s.m.idleSlot e = 0 then 3 else s.m.slotCode s.fuses s.m.idleSlot e) ∧
      t.m.get R.MGT_FW_STAT_VERIFIED = s.m.get R.MGT_FW_STAT_VERIFIED ∧ t.m.nv = s.m.nv ∧ s.m.onlyParts [.mgt, .flt] t.m ∧
      (s.m.slotCode s.fuses s.m.idleSlot e ∉ [0, 3] → t.m.tells { blk := 17, inst := 0, kind := 9, addr := 0, cls := 0 } ∧
        s.frame [.mgt, .flt] ([R.MGT_FW_STAT_RESULT, R.MGT_EVT_FW_CHECK, R.MGT_FW_STAT_BUSY, R.MGT_FW_STAT_FULL] ++ repFlds 17) t))

/-- R385, R386, R387: ACTIVATE of a verified slot in a quiet state begins its trial, stops the stored-charge hold and asks for the warm reset;
CONFIRM in trial makes the slot preferred and confirmed and, under AUTO_SVN, burns the anti-rollback count up to the slot's SVN; CANCEL
and the end of CONFIRM_S end the trial; each is refused where it does not apply. How the trial ends is a reading (log 45). -/
def Obligations.FirmwareTrial : Prop :=
  (∀ s : State, s.m.wrStatus 0x110A8 4 = 0 → s.on → s.m.is R.MGT_FW_STAT_VERIFIED = true → s.m.quiet = true →
    Does .mgtFwActivate s fun t => t.m.get R.MGT_FW_STAT_ACT_PEND = 1 ∧ t.m.nv.trial = some s.m.idleSlot ∧ t.m.flt.l3Sys = true ∧
      t.m.pins.stoHold = false ∧ t.m.logs 7 5 ∧ t.m.resp = 0 ∧
      s.frame [.nv, .flt, .pins, .log, .resp] [R.MGT_FW_STAT_ACT_PEND] t) ∧
  (∀ s : State, s.m.wrStatus 0x110A8 4 = 0 → s.on → s.m.is R.MGT_FW_STAT_VERIFIED = false ∨ s.m.quiet = false →
    Does .mgtFwActivate s fun t => t.m.resp = 1 ∧ s.frame [.resp] [] t) ∧
  (∀ (s : State) (ok : Bool), s.m.wrStatus 0x110A8 8 = 0 → s.on → s.m.is R.MGT_BOOT_TRIAL = true → s.m.pstate ≠ 1 →
    Does (.mgtFwConfirm ok) s fun t => (t.m.slotOf (s.m.is R.MGT_BOOT_SLOT)).preferred = true ∧
      (t.m.slotOf (s.m.is R.MGT_BOOT_SLOT)).confirmed = true ∧ (t.m.slotOf (!s.m.is R.MGT_BOOT_SLOT)).preferred = false ∧
      t.m.nv.trial = none ∧ t.m.get R.MGT_BOOT_TRIAL = 0 ∧ t.m.get R.MGT_FW_STAT_ACT_PEND = 0 ∧ t.m.resp = 0 ∧ t.pending = s.pending ∧
      (s.m.is R.MGT_FW_CFG_AUTO_SVN = false → t.fuses = s.fuses ∧ t.m.logs 7 6 ∧
        s.frame [.nv, .mgt, .log, .resp] (R.MGT_BOOT_TRIAL :: R.MGT_FW_STAT_ACT_PEND :: fwFlds) t)) ∧
  (∀ (s : State) (n : Nat), s.m.wrStatus 0x110A8 8 = 0 → s.on → s.m.is R.MGT_BOOT_TRIAL = true → s.m.pstate ≠ 1 →
      s.m.is R.MGT_FW_CFG_AUTO_SVN = true → (s.m.slotOf (s.m.is R.MGT_BOOT_SLOT)).svn = n → n ≤ 64 → n ≤ s.m.get R.SEC_SVN_FW_SVN →
      s.m.get R.SEC_SVN_FUSE_CNT < n → s.m.takes 18 0 →
    Does (.mgtFwConfirm true) s (fun t => t.fuses = { s.fuses with svn := max s.fuses.svn n } ∧ t.m.get R.SEC_SVN_FUSE_CNT = n ∧
      t.m.logs 7 7 ∧ s.m.onlyParts [.nv, .mgt, .log, .resp] t.m) ∧
    Does (.mgtFwConfirm false) s (fun t => t.fuses = s.fuses ∧ t.m.get R.SEC_SVN_FUSE_CNT = s.m.get R.SEC_SVN_FUSE_CNT ∧
      t.m.get R.SEC_EVT_FUSE = 1 ∧ t.m.tells { blk := 18, inst := 0, kind := 4, addr := 0, cls := 2 } ∧
      s.m.onlyParts [.nv, .mgt, .log, .resp, .flt] t.m)) ∧
  (∀ s : State, s.m.wrStatus 0x110A8 16 = 0 → s.on → s.m.is R.MGT_BOOT_TRIAL = true → s.m.pstate ≠ 1 →
    Does .mgtFwCancel s fun t => t.m.nv.trial = none ∧ t.m.get R.MGT_BOOT_TRIAL = 0 ∧ t.m.get R.MGT_FW_STAT_ACT_PEND = 0 ∧ t.m.resp = 0 ∧
      t.m.get R.MGT_BOOT_SLOT = s.m.get R.MGT_BOOT_SLOT ∧ s.frame [.nv, .mgt, .resp] [R.MGT_BOOT_TRIAL, R.MGT_FW_STAT_ACT_PEND] t) ∧
  (∀ (c : Instr) (k : Nat) (s : State), (c, k) ∈ [(Instr.mgtFwConfirm true, 8), (.mgtFwConfirm false, 8), (.mgtFwCancel, 16)] →
      s.m.wrStatus 0x110A8 k = 0 → s.on → s.m.is R.MGT_BOOT_TRIAL = false ∨ s.m.pstate = 1 →
    Does c s fun t => t.m.resp = 1 ∧ s.frame [.resp] [] t) ∧
  (∀ s : State, s.on → s.m.is R.MGT_BOOT_TRIAL = true →
      s.m.time.ticks + 64000 < s.m.mgt.trialTick + max 10 (s.m.get R.MGT_FW_CFG_CONFIRM_S) * tickS →
    Does .confirmTmo s fun t => t = s) ∧
  (∀ s : State, s.on → s.m.is R.MGT_BOOT_TRIAL = true → s.m.mgt.confirmTmo = false →
      s.m.mgt.trialTick + max 10 (s.m.get R.MGT_FW_CFG_CONFIRM_S) * tickS ≤ s.m.time.ticks → s.m.takes 17 0 →
    Does .confirmTmo s fun t => t.m.nv.trial = none ∧ t.m.mgt.confirmTmo = true ∧ t.m.get R.MGT_BOOT_TRIAL = 1 ∧
      t.m.get R.MGT_EVT_CONFIRM_TMO = 1 ∧ t.m.tells { blk := 17, inst := 0, kind := 8, addr := 0, cls := 1 } ∧
      s.frame [.nv, .mgt, .flt] ([R.MGT_FW_STAT_ACT_PEND, R.MGT_EVT_CONFIRM_TMO] ++ repFlds 17) t)

/-- R376, R377, R382, R383, R387, R388, R391, R394: what each trust command does when its checks pass, to the fuses, the certificates, the
debug level, the erase grant and the stores, with a TRUST record each; a burn that does not read back ends in RESULT 6 and FUSE_ERR. The
challenge and the secret are free values (logs 3, 4). -/
def Obligations.TrustCommands : Prop :=
  (∀ s : State, s.trusts 1 →
    Does (.provision true true) s fun t => t.m.ended 1 0 (s.m.freeCtr + 1) ∧ t.m.logs 7 9 ∧ t.m.get R.SEC_LIFE_LC = t.fuses.lc ∧
      t.fuses = { s.fuses with provisioned := true,
                               secret := if s.fuses.secret = [] then Config.entropy s.m.freeCtr else s.fuses.secret } ∧
      t.pending = s.pending ∧ s.m.onlyParts [.freeCtr, .log, .resp] t.m) ∧
  (∀ (s : State) (f : Bool), s.trusts 1 → s.m.takes 18 0 → s.m.flt.queue.length < 500 →
    Does (.provision f false) s fun t => t.m.ended 1 6 (s.m.freeCtr + 1) ∧ t.m.get R.SEC_EVT_ENTROPY = 1 ∧ t.fuses = s.fuses ∧
      t.m.logs 7 10 ∧ t.m.tells { blk := 18, inst := 0, kind := 2, addr := 0, cls := 0 } ∧
      s.m.onlyParts [.freeCtr, .flt, .log, .resp] t.m) ∧
  (∀ s : State, s.trusts 2 →
    Does .certStore s fun t => t.m.ended 2 0 s.m.freeCtr ∧ t.m.logs 7 11 ∧ t.m.get R.SEC_LIFE_ID_VALID = b2n t.m.idValid ∧
      (∀ i < 4, t.m.nv.certs.getD i {} =
        if 1 ≤ i ∧ i ≤ s.m.cmdArgs.getD 0 0 then ⟨s.m.newCert i⟩ else s.m.nv.certs.getD i {}) ∧
      s.frame [.nv, .freeCtr, .log, .resp] (R.SEC_LIFE_ID_VALID :: cmdFlds) t) ∧
  (∀ s : State, s.trusts 3 →
    Does (.enterField true) s (fun t => t.m.ended 3 0 s.m.freeCtr ∧ t.m.logs 7 9 ∧ t.m.get R.SEC_LIFE_LC = t.fuses.lc ∧
      t.fuses = { s.fuses with ownerRoot := s.m.ownerKey, ownerPart := false, field := true } ∧
      s.m.onlyParts [.freeCtr, .log, .resp] t.m) ∧
    (s.m.takes 18 0 → s.m.flt.queue.length < 500 → Does (.enterField false) s (fun t => t.m.ended 3 6 s.m.freeCtr ∧ t.m.logs 7 10 ∧ t.m.get R.SEC_EVT_FUSE = 1 ∧
      t.fuses = { s.fuses with ownerRoot := s.m.ownerKey, ownerPart := true } ∧
      t.m.tells { blk := 18, inst := 0, kind := 4, addr := 0, cls := 2 } ∧
      t.m.tells { blk := 18, inst := 0, kind := 2, addr := 0, cls := 0 } ∧ s.m.onlyParts [.freeCtr, .flt, .log, .resp] t.m))) ∧
  (∀ s : State, s.trusts 4 →
    Does .debug s fun t => t.m.ended 4 0 s.m.freeCtr ∧ t.m.get R.SEC_DBG_LEVEL = s.m.cmdArgs.getD 0 0 ∧ t.m.get R.SEC_DBG_GRANTED = 1 ∧
      t.m.get R.SEC_DBG_LEFT_S = le s.m.cmdArgs 2 2 % 65536 ∧
      t.m.sec.grantEnd = (if le s.m.cmdArgs 2 2 = 0 then 0 else s.m.time.ticks + le s.m.cmdArgs 2 2 * tickS) ∧
      (s.m.cmdArgs.getD 0 0 ≠ s.m.dbgLevel → t.m.logs 7 8 ∧ t.m.get R.SEC_EVT_DEBUG = 1 ∧
        (s.m.takes 18 0 → t.m.tells { blk := 18, inst := 0, kind := 3, addr := 0, cls := 0 })) ∧
      s.frame [.sec, .freeCtr, .flt, .log, .resp]
        ([R.SEC_DBG_LEVEL, R.SEC_DBG_GRANTED, R.SEC_DBG_LEFT_S, R.SEC_EVT_DEBUG] ++ cmdFlds ++ repFlds 18) t) ∧
  (∀ s : State, s.trusts 5 →
    Does .eraseGrant s fun t => t.m.ended 5 0 s.m.freeCtr ∧ t.m.get R.SEC_ERASE_GRANT = 1 ∧ t.m.logs 7 12 ∧
      s.frame [.freeCtr, .log, .resp] (R.SEC_ERASE_GRANT :: cmdFlds) t) ∧
  (∀ s : State, s.trusts 6 → s.m.get R.SEC_SVN_FUSE_CNT < s.m.cmdArgs.getD 0 0 →
    Does (.svnAdvance true) s (fun t => t.m.ended 6 0 s.m.freeCtr ∧ t.m.get R.SEC_SVN_FUSE_CNT = s.m.cmdArgs.getD 0 0 ∧ t.m.logs 7 7 ∧
      t.fuses = { s.fuses with svn := max s.fuses.svn (s.m.cmdArgs.getD 0 0) } ∧ s.m.onlyParts [.freeCtr, .log, .resp] t.m) ∧
    (s.m.takes 18 0 → Does (.svnAdvance false) s (fun t => t.m.ended 6 6 s.m.freeCtr ∧ t.fuses = s.fuses ∧
      t.m.get R.SEC_SVN_FUSE_CNT = s.m.get R.SEC_SVN_FUSE_CNT ∧ t.m.tells { blk := 18, inst := 0, kind := 4, addr := 0, cls := 2 } ∧
      s.m.onlyParts [.freeCtr, .flt, .log, .resp] t.m))) ∧
  (∀ (s : State) (f : Bool), s.trusts 6 → s.m.cmdArgs.getD 0 0 ≤ s.m.get R.SEC_SVN_FUSE_CNT →
    Does (.svnAdvance f) s fun t => t.m.ended 6 0 s.m.freeCtr ∧ s.frame [.freeCtr, .resp] cmdFlds t) ∧
  (∀ s : State, s.trusts 7 →
    Does (.returnCmd true) s fun t => t.m.ended 7 0 s.m.freeCtr ∧ t.m.logs 7 9 ∧ t.m.get R.SEC_LIFE_LC = 3 ∧
      t.fuses = { s.fuses with returned := true, keepLog := s.fuses.keepLog || bit (s.m.cmdArgs.getD 0 0) 0 } ∧
      (bit (s.m.cmdArgs.getD 0 0) 0 = false → (∀ i, t.m.logSlot i = List.replicate 64 0xFF) ∧ t.m.get R.LOG_HEAD_HEAD = 0) ∧
      (bit (s.m.cmdArgs.getD 0 0) 0 = true → t.m.nv.slots = s.m.nv.slots) ∧
      (bit (s.m.cmdArgs.getD 0 0) 1 = false → ∀ b a, (t.m.slotOf b).byte a = if 0x400000 ≤ a then 0xFF else (s.m.slotOf b).byte a) ∧
      (bit (s.m.cmdArgs.getD 0 0) 1 = true → ∀ b, t.m.slotOf b = s.m.slotOf b) ∧ t.m.nv.certs = s.m.nv.certs ∧
      s.m.onlyParts [.nv, .freeCtr, .log, .resp] t.m)

/-- R380, R381: a command that fails a check changes nothing but its RESULT, the refusal's count, report and record, and the challenge; a
command row whose number the window does not spell does nothing. R388: SEC_DBG_CMD lowers the debug level at any time and raises it only
where no signature is needed; a grant that ends brings the default level back and lets the pair run. That a command whose conditions do
not hold changes nothing is the model's choice (log 6). -/
def Obligations.TrustRefusals : Prop :=
  (∀ (c : Instr) (k : Nat) (f e : Bool) (s : State),
      (c, k) ∈ [(Instr.provision f e, 1), (.certStore, 2), (.enterField f, 3), (.debug, 4), (.eraseGrant, 5), (.svnAdvance f, 6),
        (.returnCmd f, 7)] →
      s.on → s.m.cmdCode = k → s.m.wrStatus 0x120A8 1 = 0 → s.m.cmdResult s.fuses ≠ 0 → s.m.takes 18 0 →
    Does c s fun t => t.m.ended k (s.m.cmdResult s.fuses) s.m.freeCtr ∧ t.m.get R.SEC_EVT_CMD = 1 ∧ t.m.logs 7 10 ∧
      (t.m.word R.SEC_REF_CNT_COUNT.addr).toNat = min ((s.m.word R.SEC_REF_CNT_COUNT.addr).toNat + 1) (2 ^ 32 - 1) ∧
      t.m.tells { blk := 18, inst := 0, kind := 2, addr := 0, cls := 0 } ∧
      ((s.m.word R.SEC_REF_CNT_COUNT.addr).toNat < 2 ^ 32 - 1 →
        s.frame [.freeCtr, .flt, .log, .resp] ([R.SEC_EVT_CMD, ⟨R.SEC_REF_CNT_COUNT.addr, 0, 32⟩] ++ cmdFlds ++ repFlds 18) t)) ∧
  (∀ (c : Instr) (k : Nat) (f e : Bool) (s : State),
      (c, k) ∈ [(Instr.provision f e, 1), (.certStore, 2), (.enterField f, 3), (.debug, 4), (.eraseGrant, 5), (.svnAdvance f, 6),
        (.returnCmd f, 7)] →
      s.on → s.m.cmdCode ≠ k →
    Does c s fun t => t = s) ∧
  (∀ (s : State) (v : Word), s.m.wrStatus 0x12088 v.toNat = 0 → s.on → bit v.toNat 2 = true → v.toNat % 4 < s.m.dbgLevel →
      v.toNat % 4 ≠ 3 → s.m.takes 18 0 →
    Does (.secDbgCmdWrite v) s fun t => t.m.get R.SEC_DBG_LEVEL = v.toNat % 4 ∧ t.m.get R.SEC_DBG_GRANTED = 0 ∧
      t.m.get R.SEC_DBG_LEFT_S = 0 ∧ t.m.sec.grantEnd = 0 ∧ t.m.resp = 0 ∧ t.m.logs 7 8 ∧
      t.m.tells { blk := 18, inst := 0, kind := 3, addr := 0, cls := 0 } ∧ t.m.get R.SEC_EVT_DEBUG = 1 ∧
      s.frame [.sec, .flt, .log, .resp] ([R.SEC_DBG_LEVEL, R.SEC_DBG_GRANTED, R.SEC_DBG_LEFT_S, R.SEC_EVT_DEBUG] ++ repFlds 18) t) ∧
  (∀ (s : State) (v : Word), s.m.wrStatus 0x12088 v.toNat = 0 → s.on → bit v.toNat 2 = true → s.m.dbgLevel < v.toNat % 4 → s.m.lc = 2 →
    Does (.secDbgCmdWrite v) s fun t => t.m.resp = 1 ∧ s.frame [.resp] [] t) ∧
  (∀ s : State, s.on → s.m.is R.SEC_DBG_GRANTED = true → s.m.sec.grantEnd ≠ 0 → s.m.sec.grantEnd < s.m.time.ticks + 64000 →
      s.m.get R.SEC_DBG_DEFAULT ≠ 2 →
    Does .debugGrantExpiry s fun t => t.m.get R.SEC_DBG_LEVEL = s.m.get R.SEC_DBG_DEFAULT ∧ t.m.get R.SEC_DBG_GRANTED = 0 ∧
      t.m.get R.SEC_DBG_LEFT_S = 0 ∧ t.m.sec.grantEnd = 0 ∧ t.m.get R.MGT_DBG_CTL_HALTED = 0 ∧
      s.frame [.sec, .flt, .log]
        ([R.SEC_DBG_LEVEL, R.SEC_DBG_GRANTED, R.SEC_DBG_LEFT_S, R.SEC_EVT_DEBUG, R.MGT_DBG_CTL_HALTED] ++ repFlds 18) t)

/-- R375, R377, R379, R380: the command window takes words at an address that advances; a measurement is extended and shown; an attestation
report is made from the nonce, the measurements and the state, signed with BAK, and read word by word, and is refused while one is made,
below stage 2 and in HOLD-UP; the certificate window reads what is stored and takes words for the next CERT_STORE. -/
def Obligations.TrustWindows : Prop :=
  (∀ (s : State) (v : Word), s.m.wrStatus 0x120A4 v.toNat = 0 → s.on → s.m.get R.SEC_CMD_ADDR_ADDR + 4 ≤ 576 →
    Does (.secCmdDataWrite v) s fun t =>
      (∀ i < 576, t.m.sec.cmd.getD i 0 = if s.m.get R.SEC_CMD_ADDR_ADDR ≤ i ∧ i < s.m.get R.SEC_CMD_ADDR_ADDR + 4
        then v.toNat / 256 ^ (i - s.m.get R.SEC_CMD_ADDR_ADDR) % 256 else s.m.sec.cmd.getD i 0) ∧
      t.m.get R.SEC_CMD_ADDR_ADDR = s.m.get R.SEC_CMD_ADDR_ADDR + 4 ∧ t.m.resp = 0 ∧ s.frame [.sec, .resp] [R.SEC_CMD_ADDR_ADDR] t) ∧
  (∀ (s : State) (v : Word), s.m.wrStatus 0x12100 v.toNat = 0 → s.on →
    Does (.secMrSelWrite v) s fun t => t.m.get R.SEC_MR_SEL_SEL = v.toNat % 8 ∧
      (∀ i < 12, t.m.get (R.SEC_MR_DATA_DATA i) = le (s.m.sec.meas.getD (v.toNat % 8) []) (4 * i) 4 % 2 ^ 32) ∧ t.m.resp = 0 ∧
      s.frame [.resp] (R.SEC_MR_SEL_SEL :: (List.range 12).map R.SEC_MR_DATA_DATA) t) ∧
  (∀ (s : State) (v : Word), s.m.wrStatus 0x1216C v.toNat = 0 → s.on → s.m.pstate ≠ 1 →
    Does (.secMrExtend v) s fun t =>
      t.m.sec.meas.getD 7 [] = Config.sha384 (s.m.sec.meas.getD 7 [] ++ ((bank 12 s.m.sec.ext 0).set 11 v.toNat).flatMap (leBytes 4)) ∧
      (∀ i < 7, t.m.sec.meas.getD i [] = s.m.sec.meas.getD i []) ∧ t.m.resp = 0 ∧ s.frame [.sec, .resp] [] t) ∧
  (∀ (s : State) (v : Word), s.m.wrStatus 0x1216C v.toNat = 0 → s.on → s.m.pstate = 1 →
    Does (.secMrExtend v) s fun t => t.m.resp = 1 ∧ s.frame [.resp] [] t) ∧
  (∀ (s : State) (v : Word) (h : List Nat), s.m.wrStatus 0x121AC v.toNat = 0 → s.on → s.m.is R.SEC_ATT_STAT_BUSY = false →
      2 ≤ s.m.get R.MGT_BOOT_STAGE → s.m.pstate ≠ 1 → h = s.m.reportHead (((bank 12 s.m.sec.nonce 0).set 11 v.toNat).flatMap (leBytes 4)) →
    Does (.attestationRequest v) s fun t =>
      t.m.sec.reportNext = h ++ pad 96 (Config.ecdsaSign s.m.sec.bak (Config.sha384 h) s.m.freeCtr) ∧ t.m.sec.report = s.m.sec.report ∧
      t.m.get R.SEC_ATT_STAT_BUSY = 1 ∧ t.m.get R.SEC_ATT_STAT_READY = 0 ∧ t.m.freeCtr = s.m.freeCtr + 1 ∧ t.m.resp = 0 ∧
      s.frame [.sec, .freeCtr, .resp] [R.SEC_ATT_STAT_BUSY, R.SEC_ATT_STAT_READY] t) ∧
  (∀ (s : State) (v : Word), s.m.wrStatus 0x121AC v.toNat = 0 → s.on →
      s.m.is R.SEC_ATT_STAT_BUSY = true ∨ s.m.get R.MGT_BOOT_STAGE < 2 ∨ s.m.pstate = 1 →
    Does (.attestationRequest v) s fun t => t.m.get R.SEC_ATT_STAT_REFUSED = 1 ∧ t.m.resp = 1 ∧
      t.m.sec.reportNext = s.m.sec.reportNext ∧ s.frame [.sec, .resp] [R.SEC_ATT_STAT_REFUSED] t) ∧
  (∀ s : State, s.on → s.m.is R.SEC_ATT_STAT_BUSY = true →
    Does .attestationReady s fun t => t.m.sec.report = s.m.sec.reportNext ∧ t.m.get R.SEC_ATT_STAT_BUSY = 0 ∧
      t.m.get R.SEC_ATT_STAT_READY = 1 ∧ s.frame [.sec] [R.SEC_ATT_STAT_BUSY, R.SEC_ATT_STAT_READY] t) ∧
  (∀ s : State, s.m.rdStatus 0x121B8 = 0 → s.on →
    Does .secAttDataRead s fun t => t.m.rdata = le s.m.sec.report (s.m.get R.SEC_ATT_ADDR_ADDR) 4 % 2 ^ 32 ∧
      t.m.get R.SEC_ATT_ADDR_ADDR = (s.m.get R.SEC_ATT_ADDR_ADDR + 4) % 1024 ∧ t.m.resp = 0 ∧
      s.frame [.rdata, .resp] [R.SEC_ATT_ADDR_ADDR] t) ∧
  (∀ (s : State) (v : Word), s.m.rdStatus 0x121CC = 0 → s.on →
    Does (.secCertDataAccess false v) s fun t =>
      t.m.rdata = le (s.m.nv.certs.getD (s.m.get R.SEC_CERT_SEL_ENTRY) {}).bytes (s.m.get R.SEC_CERT_ADDR_ADDR) 4 % 2 ^ 32 ∧
      t.m.get R.SEC_CERT_ADDR_ADDR = (s.m.get R.SEC_CERT_ADDR_ADDR + 4) % 4096 ∧ t.m.resp = 0 ∧
      s.frame [.rdata, .resp] [R.SEC_CERT_ADDR_ADDR] t) ∧
  (∀ (s : State) (v : Word), s.m.wrStatus 0x121CC v.toNat = 0 → s.on → s.m.pstate ≠ 1 → s.m.get R.SEC_CERT_SEL_ENTRY ≠ 0 →
      s.m.get R.SEC_CERT_ADDR_ADDR + 4 ≤ 4096 →
    Does (.secCertDataAccess true v) s fun t =>
      slice (t.m.sec.certBuf.getD (s.m.get R.SEC_CERT_SEL_ENTRY) []) (s.m.get R.SEC_CERT_ADDR_ADDR) 4 = leBytes 4 v.toNat ∧
      t.m.get R.SEC_CERT_ADDR_ADDR = (s.m.get R.SEC_CERT_ADDR_ADDR + 4) % 4096 ∧ t.m.nv.certs = s.m.nv.certs ∧ t.m.resp = 0 ∧
      s.frame [.sec, .resp] [R.SEC_CERT_ADDR_ADDR] t) ∧
  (∀ (s : State) (v : Word), s.m.wrStatus 0x121CC v.toNat = 0 → s.on → s.m.pstate = 1 →
    Does (.secCertDataAccess true v) s fun t => t.m.resp = 1 ∧ s.frame [.resp] [] t)

/-- R452, R453, R460, R463: STATUS 4 for an unaligned address, 2 for a page that is absent or off, 3 without authorisation, 1 before stage 4
or in a level-1 reset; else a plain register takes each field by its access type, and is refused where it has no writable field or where
its page is locked and the word would change an RL field. R288, R289, R290, R460: a transaction is checked as a whole, its words act in
order, and its response is kept for its source and tag and sent; the same request again only sends the kept response. The order of the
checks is a reading (log 26). -/
def Obligations.RegisterAccess : Prop :=
  (∀ (s : State) (a v : Word), s.on → a.toNat % 4 ≠ 0 →
    Does (.registerWrite a v) s fun t => t.m.resp = 4 ∧ s.frame [.resp] [] t) ∧
  (∀ (s : State) (a v : Word), s.on → a.toNat % 4 = 0 → s.m.pageOn (a.toNat / 4096) = false →
    Does (.registerWrite a v) s fun t => t.m.resp = 2 ∧ s.frame [.resp] [] t) ∧
  (∀ (s : State) (a v : Word), s.on → a.toNat % 4 = 0 → s.m.wrStatus a.toNat v.toNat = 1 →
    Does (.registerWrite a v) s fun t => t.m.resp = 1 ∧ s.frame [.resp] [] t) ∧
  (∀ (s : State) (a v : Word), s.on → a.toNat % 4 = 0 → s.m.wrStatus a.toNat v.toNat = 3 → ¬ (0x11180 ≤ a.toNat ∧ a.toNat ≤ 0x11188) →
    Does (.registerWrite a v) s fun t => t.m.resp = 3 ∧ t.m.get R.SEC_EVT_AUTH = 1 ∧
      (t.m.word R.SEC_AUTH_CNT_COUNT.addr).toNat = min ((s.m.word R.SEC_AUTH_CNT_COUNT.addr).toNat + 1) (2 ^ 32 - 1) ∧
      ((s.m.word R.SEC_AUTH_CNT_COUNT.addr).toNat < 2 ^ 32 - 1 →
        s.frame [.flt, .resp] ([R.SEC_EVT_AUTH, ⟨R.SEC_AUTH_CNT_COUNT.addr, 0, 32⟩] ++ repFlds 18) t)) ∧
  (∀ (s : State) (a v : Word) (r : RegRow) (k : Nat), s.on → a.toNat % 4 = 0 → s.m.wrStatus a.toNat v.toNat = 0 →
      a.toNat / 4096 ∈ [0, 2, 15, 19] → a.toNat ∉ [0x2044, 0xF0C4, 0x130C4] → 0x40 ≤ a.toNat % 4096 → rowOf a.toNat = some (r, k) →
      (r.fields.any (fun f => takesWrites f.acc) = true → (s.m.locked (a.toNat / 4096) &&
          r.fields.any (fun f => f.acc == .rl && bits (s.m.word a.toNat).toNat f.lo f.w != bits v.toNat f.lo f.w)) = false →
        Does (.registerWrite a v) s (fun t => t.m.resp = 0 ∧
          (∀ f ∈ r.fields, f.acc = .rw ∨ f.acc = .rl → t.m.get ⟨a.toNat, f.lo, f.w⟩ = bits v.toNat f.lo f.w) ∧
          (∀ f ∈ r.fields, f.acc = .rw1c →
            t.m.get ⟨a.toNat, f.lo, f.w⟩ = s.m.get ⟨a.toNat, f.lo, f.w⟩ &&& (2 ^ f.w - 1 - bits v.toNat f.lo f.w)) ∧
          (∀ f ∈ r.fields, f.acc = .ro ∨ f.acc = .wo → t.m.get ⟨a.toNat, f.lo, f.w⟩ = s.m.get ⟨a.toNat, f.lo, f.w⟩) ∧
          s.frame [.resp] [⟨a.toNat, 0, 32⟩] t)) ∧
      (r.fields.any (fun f => takesWrites f.acc) = false ∨ (s.m.locked (a.toNat / 4096) &&
          r.fields.any (fun f => f.acc == .rl && bits (s.m.word a.toNat).toNat f.lo f.w != bits v.toNat f.lo f.w)) = true →
        Does (.registerWrite a v) s (fun t => t.m.resp = 1 ∧ s.frame [.resp] [] t))) ∧
  (∀ (s : State) (h : Bool) (src : Fin 16384) (tag : Fin 65536) (b : List Byte), s.on → s.m.storedResp h src tag = none →
      txBad (natBytes b) false = true →
    Does (.regReadRequest h src tag b) s fun t => t.m.resp = 4 ∧ t.m.rdata = s.m.rdata ∧
      (t.m.storedResp h src tag).map Msg.body = some (txResp (natBytes b) 0 4 []) ∧ t.fuses = s.fuses) ∧
  (∀ (s : State) (h : Bool) (src : Fin 16384) (tag : Fin 65536) (b : List Byte) (a : Nat), s.on → s.m.storedResp h src tag = none →
      txBad (natBytes b) false = false → (natBytes b).getD 2 0 = 1 → le (natBytes b) 4 4 = a → s.m.pageServes (a / 4096) = true →
      a / 4096 ∈ [2, 19] → 0x40 ≤ a % 4096 →
    Does (.regReadRequest h src tag b) s fun t => t.m.resp = 0 ∧ t.m.rdata = (s.m.word a).toNat ∧
      (t.m.storedResp h src tag).map Msg.body = some (txResp (natBytes b) 1 0 [(s.m.word a).toNat]) ∧ t.fuses = s.fuses ∧
      t.m.word a = s.m.word a) ∧
  (∀ (s : State) (h : Bool) (src : Fin 16384) (tag : Fin 65536) (b : List Byte), s.on → s.m.storedResp h src tag = none →
      txBad (natBytes b) true = true →
    Does (.regWriteRequest h src tag b) s fun t => t.m.resp = 4 ∧
      (t.m.storedResp h src tag).map Msg.body = some (txResp (natBytes b) 0 4 []) ∧ t.fuses = s.fuses) ∧
  (∀ (s : State) (src : Fin 16384) (tag : Fin 65536) (b : List Byte), s.on → s.m.storedResp false src tag = none →
      txBad (natBytes b) true = false → s.m.pageServes (le (natBytes b) 4 4 / 4096) = true → txDbg (natBytes b) = 0 →
    Does (.regWriteRequest false src tag b) s fun t => t.m.resp = 3 ∧ t.m.get R.SEC_EVT_AUTH = 1 ∧
      (t.m.storedResp false src tag).map Msg.body = some (txResp (natBytes b) 0 3 []) ∧ t.fuses = s.fuses) ∧
  (∀ (s : State) (src : Fin 16384) (tag : Fin 65536) (b : List Byte) (a v : Nat), s.on → s.m.storedResp true src tag = none →
      txBad (natBytes b) true = false → (natBytes b).getD 2 0 = 1 → le (natBytes b) 4 4 = a → le (natBytes b) 8 4 = v →
      s.m.wrStatus a v = 0 → a / 4096 = 19 → 0x40 ≤ a % 4096 → a ≠ 0x130C4 → s.m.locked 19 = false →
      (∃ r k, rowOf a = some (r, k) ∧ r.fields.any (fun f => takesWrites f.acc) = true) →
    Does (.regWriteRequest true src tag b) s fun t => t.m.resp = 0 ∧
      (t.m.storedResp true src tag).map Msg.body = some (txResp (natBytes b) 1 0 []) ∧
      (∀ r k, rowOf a = some (r, k) → ∀ f ∈ r.fields, f.acc = .rw ∨ f.acc = .rl → t.m.get ⟨a, f.lo, f.w⟩ = bits v f.lo f.w) ∧
      t.fuses = s.fuses) ∧
  (∀ (s : State) (h : Bool) (src : Fin 16384) (tag : Fin 65536) (b : List Byte) (g : Msg), s.on → s.m.storedResp h src tag = some g →
    Does (.regReadRequest h src tag b) s (fun t => t.m.rdata = s.m.rdata ∧ t.m.resp = s.m.resp ∧
      (t.m.storedResp h src tag).map Msg.body = some g.body ∧ t.fuses = s.fuses) ∧
    Does (.regWriteRequest h src tag b) s (fun t => t.m.rdata = s.m.rdata ∧ t.m.resp = s.m.resp ∧
      (t.m.storedResp h src tag).map Msg.body = some g.body ∧ t.fuses = s.fuses))

/-- R457: CNT_CLR clears every counter of the page whose reset entry is 0, SAT and SAT_OFF, and lets each report its next saturation again;
counters of the counter area and every other field keep their values. -/
def Obligations.CounterClear : Prop :=
  ∀ (s : State) (p : Fin 21), s.m.wrStatus (p.val * 4096 + 0x0C) 1 = 0 → s.on →
    Does (.blkCtlCntClr p) s fun t => (∀ a ∈ counterAddrs p, t.m.word a = 0) ∧ t.m.get (R.BLK_STAT_SAT p) = 0 ∧
      t.m.get (R.BLK_STAT_SAT_OFF p) = 0 ∧ (∀ a ∈ t.m.flt.satDone, a / 4096 ≠ p.val) ∧ t.m.resp = 0 ∧
      s.frame [.flt, .resp] ([R.BLK_STAT_SAT p, R.BLK_STAT_SAT_OFF p, R.BLK_FLT_COUNT p] ++ (counterAddrs p).map (fun a => ⟨a, 0, 32⟩)) t

/-- R375, R453, R454, R281: a lock whose checks hold sets LOCKED, clamps the page's RL fields and extends M3 by the page; one whose checks
fail sets REFUSED, clamps nothing and is reported; a locked page takes the word without effect; REFUSED clears by 1. That a lock of the
BWK page whose SOC limits are not in order is refused is the model's reading (log 27). -/
def Obligations.Locks : Prop :=
  (∀ (s : State) (p : Fin 21) (v : Word), s.m.wrStatus (p.val * 4096 + 0x1C) v.toNat = 0 → s.on → bit v.toNat 0 = true →
      bit v.toNat 1 = false → s.m.locked p = true →
    Does (.blkLockWrite p v) s fun t => t.m.resp = 0 ∧ s.frame [.resp] [] t) ∧
  (∀ (s : State) (p : Fin 21) (v : Word), s.m.wrStatus (p.val * 4096 + 0x1C) v.toNat = 0 → s.on → bit v.toNat 0 = false →
      bit v.toNat 1 = true →
    Does (.blkLockWrite p v) s fun t => t.m.get (R.BLK_LOCK_REFUSED p) = 0 ∧ t.m.resp = 0 ∧ s.frame [.resp] [R.BLK_LOCK_REFUSED p] t) ∧
  (∀ (s : State) (p : Fin 21) (v : Word), s.m.wrStatus (p.val * 4096 + 0x1C) v.toNat = 0 → s.on → bit v.toNat 0 = true →
      s.m.locked p = false → p.val ∉ [1, 6, 13] →
    Does (.blkLockWrite p v) s fun t => t.m.get (R.BLK_LOCK_LOCK p) = 1 ∧ t.m.get (R.BLK_STAT_LOCKED p) = 1 ∧
      t.m.sec.meas.getD 3 [] = Config.sha384 (s.m.sec.meas.getD 3 [] ++ Config.sha384 (leBytes 2 p ++ t.m.rlBytes p)) ∧
      (∀ i < 8, i ≠ 3 → t.m.sec.meas.getD i [] = s.m.sec.meas.getD i []) ∧ t.m.resp = 0 ∧ s.m.onlyParts [.sec, .resp] t.m ∧
      (p.val = 2 → t.m.get R.PWR_CFG_CHG_W = clampN 2 12 (s.m.get R.PWR_CFG_CHG_W)) ∧
      (p.val = 16 → t.m.get R.LOG_CFG_WARN_PCT = clampN 50 99 (s.m.get R.LOG_CFG_WARN_PCT)) ∧
      (p.val = 17 → t.m.get R.MGT_TLIM_HIGH = clampN (clampN 60 120 (s.m.get R.MGT_TLIM_WARN) + 5) 125 (s.m.get R.MGT_TLIM_HIGH)) ∧
      (∀ g : Fld, g.addr / 4096 ≠ p.val → t.m.get g = s.m.get g)) ∧
  (∀ (s : State) (v : Word), s.m.wrStatus 0x101C v.toNat = 0 → s.on → bit v.toNat 0 = true → s.m.locked 1 = false →
    Does (.blkLockWrite 1 v) s fun t => t.m.get (R.BLK_LOCK_LOCK 1) = 1 ∧ t.m.get (R.BLK_STAT_LOCKED 1) = 1 ∧
      t.m.sec.meas.getD 3 [] = Config.sha384 (s.m.sec.meas.getD 3 [] ++ Config.sha384 (leBytes 2 1 ++ t.m.rlBytes 1)) ∧ t.m.resp = 0 ∧
      (s.m.inRun = false → (t.m.get R.CEN_PRG_STAT_SP_MODE = 0 ↔ t.m.get R.MOD_ROLE_CFG_RACK_SIZE = 1))) ∧
  (∀ (s : State) (v : Word), s.m.wrStatus 0x601C v.toNat = 0 → s.on → bit v.toNat 0 = true → s.m.locked 6 = false →
      ¬ (s.m.get R.BWK_SOC_CFG_SOC_MIN < s.m.get R.BWK_SOC_CFG_SOC_SET ∧ s.m.get R.BWK_SOC_CFG_SOC_SET < s.m.get R.BWK_SOC_CFG_SOC_MAX) →
      s.m.takes 6 2 →
    Does (.blkLockWrite 6 v) s fun t => t.m.resp = 1 ∧ t.m.get (R.BLK_LOCK_REFUSED 6) = 1 ∧ t.m.locked 6 = false ∧
      t.m.get R.BWK_DP_STAT_CFG_ERR = 1 ∧ t.m.tells { blk := 6, inst := 2, kind := 8, addr := 0, cls := 0 } ∧
      s.frame [.flt, .resp] ([R.BLK_LOCK_REFUSED 6, R.BWK_DP_STAT_CFG_ERR] ++ repFlds 6) t) ∧
  (∀ (s : State) (v : Word), s.m.wrStatus 0xD01C v.toNat = 0 → s.on → bit v.toNat 0 = true → s.m.locked 13 = false →
      min 3000 (s.m.get R.LNK_CFG_POOL_LOW) < 7 * max 16 (s.m.get R.LNK_CFG_PORT_WIN) + 64 → s.m.takes 13 7 →
    Does (.blkLockWrite 13 v) s fun t => t.m.resp = 1 ∧ t.m.get (R.BLK_LOCK_REFUSED 13) = 1 ∧ t.m.locked 13 = false ∧
      t.m.tells { blk := 13, inst := 7, kind := 14, addr := 0, cls := 0 } ∧
      s.frame [.flt, .resp] ([R.BLK_LOCK_REFUSED 13, R.LNK_EVT_CFG] ++ repFlds 13) t)

/-- R46: the BWK page locks only when |V_NOM − 400 V| + k_D × 250 kW + V_TB is at most 5.6 V, on the values as locked (R453, R454); else the
lock is refused with CFG_ERR and its report, and RUN stays refused. -/
def Obligations.BreakwaterLock : Prop :=
  (∀ (s t : State) (v : Word), s.m.locked 6 = false → exec (.blkLockWrite 6 v) s = .next t → t.m.locked 6 = true →
    absQ ((t.m.get R.BWK_VSET_V_NOM : Rat) / 100 - 400) + t.m.kD * 250 + (t.m.get R.BWK_VSET_V_TB : Rat) / 100 ≤ 28 / 5) ∧
  (∀ (s : State) (c : Mod) (v : Word), s.m.wrStatus 0x601C v.toNat = 0 → s.on → bit v.toNat 0 = true → s.m.locked 6 = false →
      s.m.takes 6 2 → c = s.m.clampPage 6 →
      28 / 5 < absQ ((c.get R.BWK_VSET_V_NOM : Rat) / 100 - 400) + c.kD * 250 + (c.get R.BWK_VSET_V_TB : Rat) / 100 →
    Does (.blkLockWrite 6 v) s fun t => t.m.resp = 1 ∧ t.m.get (R.BLK_LOCK_REFUSED 6) = 1 ∧ t.m.locked 6 = false ∧
      t.m.get R.BWK_DP_STAT_CFG_ERR = 1 ∧ t.m.tells { blk := 6, inst := 2, kind := 8, addr := 0, cls := 0 } ∧ t.m.runWhy ≠ 0 ∧
      s.frame [.flt, .resp] ([R.BLK_LOCK_REFUSED 6, R.BWK_DP_STAT_CFG_ERR] ++ repFlds 6) t)

/-- R466, R467, R468, Table 15-8: a port that is on answers a read of its command with the table's bytes, and counts it; constants, status
bits and mirrored values; off, it does not acknowledge; PAGE takes 0 and 1; refused data, a refused command and a bad PEC set their bit of
STATUS_CML, count, and do not acknowledge. R466, R469, R470, R471: CLEAR_FAULTS and PMB_CLR clear the latched bits whose cause has ended
and release the alert; the alert response answers the port's address and releases it; SCL low for 25 ms resets the interface and sets its
STATUS_CML bit, for 35 ms raises PM_STUCK until SCL is released. The missing PEC and the live status reads are readings (log 49). -/
def Obligations.PmbusPort : Prop :=
  (∀ (c : Instr) (k : Nat) (s : State),
      (c, k) ∈ [(Instr.capability, 0x19), (.voutMode, 0x20), (.statusByte, 0x78), (.statusWord, 0x79), (.statusVout, 0x7A),
        (.statusIout, 0x7B), (.statusInput, 0x7C), (.statusTemperature, 0x7D), (.statusCml, 0x7E), (.readVin, 0x88), (.readIin, 0x89),
        (.readVout, 0x8B), (.readIout, 0x8C), (.readTemperature1, 0x8D), (.readTemperature2, 0x8E), (.readTemperature3, 0x8F),
        (.readPout, 0x96), (.readPin, 0x97), (.pmbusRevision, 0x98), (.mfrId, 0x99), (.mfrModel, 0x9A), (.mfrRevision, 0x9B),
        (.mfrReadSoc, 0xD0), (.mfrReadPsto, 0xD1), (.mfrReadPlan, 0xD2), (.mfrState, 0xD3), (.mfrFltSeq, 0xD4), (.page none none, 0)] →
      s.on →
    (s.m.pmbOn = true →
      Does c s (fun t => s.m.pmbData k ≠ none ∧ t.m.pmb.resp = s.m.pmbData k ∧ t.m.pmb.ackd = true ∧
        (t.m.word R.PMB_CMD_CNT_COUNT.addr).toNat = min ((s.m.word R.PMB_CMD_CNT_COUNT.addr).toNat + 1) (2 ^ 32 - 1) ∧
        ((s.m.word R.PMB_CMD_CNT_COUNT.addr).toNat < 2 ^ 32 - 1 → s.frame [.pmb] [⟨R.PMB_CMD_CNT_COUNT.addr, 0, 32⟩] t))) ∧
    (s.m.pmbOn = false → Does c s (fun t => t.m.pmb.resp = none ∧ t.m.pmb.ackd = false ∧ s.frame [.pmb] [] t))) ∧
  (∀ (s : State) (v : List Nat) (i : Fin 7), s.on → s.m.pmbOn = true →
      v = ([[0xD0], [0x19], [0x44], [6, 86, 79, 76, 71, 73, 76], [6, 70, 83, 56, 45, 77, 49], [4, 77, 49, 66, 48],
        [s.m.get R.PMB_STATUS_X_CML]] : List (List Nat)).getD i [] →
    Does ([Instr.capability, .voutMode, .pmbusRevision, .mfrId, .mfrModel, .mfrRevision, .statusCml].getD i .capability) s fun t =>
      t.m.pmb.resp = some v) ∧
  (∀ s : State, s.on → s.m.pmbOn = true →
    Does .statusVout s (fun t => t.m.pmb.resp = some [s.m.get (pmbVout (s.m.get R.PMB_STAT_PAGE))]) ∧
    Does .statusIout s (fun t => t.m.pmb.resp = some [s.m.get (pmbIout (s.m.get R.PMB_STAT_PAGE))]) ∧
    Does .statusInput s (fun t => t.m.pmb.resp = some [s.m.get (pmbInput (s.m.get R.PMB_STAT_PAGE))]) ∧
    Does .statusTemperature s (fun t => t.m.pmb.resp = some [s.m.get R.PMB_STATUS_X_TEMP])) ∧
  (∀ (s : State) (v : Byte), s.on → s.m.pmbOn = true → v.toNat < 2 →
    Does (.page (some v) (some true)) s fun t => t.m.get R.PMB_STAT_PAGE = v.toNat ∧ t.m.pmb.ackd = true ∧
      ((s.m.word R.PMB_CMD_CNT_COUNT.addr).toNat < 2 ^ 32 - 1 →
        s.frame [.pmb] [R.PMB_STAT_PAGE, ⟨R.PMB_CMD_CNT_COUNT.addr, 0, 32⟩] t)) ∧
  (∀ (s : State) (v : Byte), s.on → s.m.pmbOn = true → 2 ≤ v.toNat →
    Does (.page (some v) (some true)) s fun t => bit (t.m.get R.PMB_STATUS_X_CML) 6 = true ∧ t.m.pmb.ackd = false ∧
      (t.m.word R.PMB_ERR_CNT_COUNT.addr).toNat = min ((s.m.word R.PMB_ERR_CNT_COUNT.addr).toNat + 1) (2 ^ 32 - 1) ∧
      t.m.get R.PMB_EVT_CMD = 1 ∧ ((s.m.word R.PMB_ERR_CNT_COUNT.addr).toNat < 2 ^ 32 - 1 →
        s.frame [.pmb, .flt] ([R.PMB_STATUS_X_CML, R.PMB_EVT_CMD, ⟨R.PMB_ERR_CNT_COUNT.addr, 0, 32⟩] ++ repFlds 20) t)) ∧
  (∀ (s : State) (v : Byte), s.on → s.m.pmbOn = true →
    Does (.page (some v) (some false)) s fun t => bit (t.m.get R.PMB_STATUS_X_CML) 5 = true ∧ t.m.pmb.ackd = false ∧
      t.m.get R.PMB_STAT_PAGE = s.m.get R.PMB_STAT_PAGE ∧ t.m.get R.PMB_EVT_PEC = 1 ∧
      ((s.m.word R.PMB_ERR_CNT_COUNT.addr).toNat < 2 ^ 32 - 1 →
        s.frame [.pmb, .flt] ([R.PMB_STATUS_X_CML, R.PMB_EVT_PEC, ⟨R.PMB_ERR_CNT_COUNT.addr, 0, 32⟩] ++ repFlds 20) t)) ∧
  (∀ (s : State) (a : Fin 128) (rd : Bool) (c : Byte) (d : List Byte) (p : Option Bool), s.on → a.val ≠ s.m.get R.PMB_STAT_ADDR →
    Does (.pmbTransaction a rd c d p) s fun t => t.m.pmb.resp = none ∧ t.m.pmb.ackd = false ∧ s.frame [.pmb] [] t) ∧
  (∀ (s : State) (a : Fin 128) (c : Byte) (d : List Byte) (p : Option Bool) (b : List Nat), s.on → s.m.pmbOn = true →
      a.val = s.m.get R.PMB_STAT_ADDR → s.m.pmbData c.toNat = some b →
    Does (.pmbTransaction a true c d p) s fun t => t.m.pmb.resp = some b ∧ t.m.pmb.ackd = true ∧
      ((s.m.word R.PMB_CMD_CNT_COUNT.addr).toNat < 2 ^ 32 - 1 → s.frame [.pmb] [⟨R.PMB_CMD_CNT_COUNT.addr, 0, 32⟩] t)) ∧
  (∀ (s : State) (a : Fin 128) (c : Byte) (d : List Byte) (p : Option Bool), s.on → s.m.pmbOn = true →
      a.val = s.m.get R.PMB_STAT_ADDR → s.m.pmbData c.toNat = none →
    Does (.pmbTransaction a true c d p) s fun t => t.m.pmb.resp = none ∧ t.m.pmb.ackd = false ∧
      bit (t.m.get R.PMB_STATUS_X_CML) 7 = true ∧ t.m.get R.PMB_EVT_CMD = 1) ∧
  (∀ (s : State) (p : Bool), s.on → s.m.pmbOn = true → (s.m.is R.PMB_CFG_PEC_REQ = true → p = true) →
    Does (.clearFaults (if p then some true else none)) s fun t => t.m.alertLow = false ∧ t.m.pmb.ackd = true ∧
      t.m.get R.PMB_STATUS_X_CML = s.m.get R.PMB_STATUS_X_CML &&& (2 * b2n s.m.pins.sclLow) ∧
      ((s.m.word R.PMB_CMD_CNT_COUNT.addr).toNat < 2 ^ 32 - 1 → s.m.onlyParts [.pmb] t.m)) ∧
  (∀ s : State, s.m.wrStatus 0x140C4 1 = 0 → s.on →
    Does .pmbClrFaults s fun t => t.m.alertLow = false ∧ t.m.resp = 0 ∧
      t.m.get R.PMB_STATUS_X_CML = s.m.get R.PMB_STATUS_X_CML &&& (2 * b2n s.m.pins.sclLow) ∧ s.m.onlyParts [.pmb, .resp] t.m) ∧
  (∀ s : State, s.on → s.m.pmbOn = true → s.m.alertLow = true →
    Does .smbusAlertResponse s fun t => t.m.pmb.resp = some [2 * s.m.get R.PMB_STAT_ADDR] ∧ t.m.pmb.ackd = true ∧ t.m.alertLow = false ∧
      s.frame [.pmb] [] t) ∧
  (∀ s : State, s.on → s.m.pmbOn = false ∨ s.m.alertLow = false →
    Does .smbusAlertResponse s fun t => t.m.pmb.resp = none ∧ t.m.pmb.ackd = false ∧ s.frame [.pmb] [] t) ∧
  (∀ s : State, s.on →
    Does .pmbSclTimeout s fun t => t.m.pins.sclLow = true ∧ bit (t.m.get R.PMB_STATUS_X_CML) 1 = true ∧ t.m.pmb.resp = none ∧
      t.m.pmb.ackd = false ∧ (t.m.word R.PMB_TMO_CNT_COUNT.addr).toNat = min ((s.m.word R.PMB_TMO_CNT_COUNT.addr).toNat + 1) (2 ^ 32 - 1) ∧
      ((s.m.word R.PMB_TMO_CNT_COUNT.addr).toNat < 2 ^ 32 - 1 →
        s.frame [.pins, .pmb] [R.PMB_STATUS_X_CML, ⟨R.PMB_TMO_CNT_COUNT.addr, 0, 32⟩] t)) ∧
  (∀ s : State, s.on → s.m.pins.sclLow = true → s.m.condOn 20 0 3 0 = false → s.m.takes 20 0 →
    Does .pmStuck s fun t => t.m.get R.PMB_EVT_STUCK = 1 ∧
      t.m.tells { blk := 20, inst := 0, kind := 3, addr := 0, cls := 1, ind := .start } ∧ s.frame [.flt] (R.PMB_EVT_STUCK :: repFlds 20) t) ∧
  (∀ s : State, s.on → s.m.condOn 20 0 3 0 = true → s.m.takes 20 0 →
    Does .sclReleased s fun t => t.m.pins.sclLow = false ∧
      t.m.tells { blk := 20, inst := 0, kind := 3, addr := 0, cls := 1, ind := .clr } ∧ s.frame [.pins, .flt] (repFlds 20) t)
end

