-- ==== Sys2Proof/Laws/Exec.lean ====
section
/-!
SUPPORT. What a command can do at all: it changes the module while the module is not OFF; a few also read or burn fuses; only the
power-on reset acts in OFF.
-/
namespace Sys2Proof.Machine

/-- Every command but the power-on reset acts on the module, or on module and fuses, and does nothing in OFF. -/
theorem exec_shape (c : Instr) (s : State) : (∃ f, exec c s = onMod f s) ∨ (∃ f, exec c s = onBoth f s) ∨
    ∃ strap rc, c = .powerOnReset strap rc := by
  cases c
  case powerOnReset strap rc => exact .inr (.inr ⟨strap, rc, rfl⟩)
  case level3Reset => exact .inl ⟨_, by simp only [exec]; unfold execLevel3Reset; rfl⟩
  case bootRomStage => exact .inl ⟨_, by simp only [exec]; unfold execBootRomStage; rfl⟩
  case bootLoaderStage => exact .inl ⟨_, by simp only [exec]; unfold execBootLoaderStage; rfl⟩
  case bootFirmwareStage => exact .inl ⟨_, by simp only [exec]; unfold execBootFirmwareStage; rfl⟩
  case bootStage3 => exact .inl ⟨_, by simp only [exec]; unfold execBootStage3; rfl⟩
  case bootSetStage => exact .inr (.inl ⟨_, by simp only [exec]; unfold execBootSetStage; rfl⟩)
  case heartbeatSend => exact .inl ⟨_, by simp only [exec]; unfold execHeartbeatSend; rfl⟩
  case heartbeatReceive => exact .inl ⟨_, by simp only [exec]; unfold execHeartbeatReceive; rfl⟩
  case leadHeartbeatTimeout => exact .inl ⟨_, by simp only [exec]; unfold execLeadHeartbeatTimeout; rfl⟩
  case electionComplete => exact .inl ⟨_, by simp only [exec]; unfold execElectionComplete; rfl⟩
  case peerLost => exact .inl ⟨_, by simp only [exec]; unfold execPeerLost; rfl⟩
  case mirrorSend => exact .inl ⟨_, by simp only [exec]; unfold execMirrorSend; rfl⟩
  case mirrorReceive => exact .inl ⟨_, by simp only [exec]; unfold execMirrorReceive; rfl⟩
  case shareReplan => exact .inl ⟨_, by simp only [exec]; unfold execShareReplan; rfl⟩
  case hostRequestRedirect => exact .inl ⟨_, by simp only [exec]; unfold execHostRequestRedirect; rfl⟩
  case hostSilenceTimeout => exact .inl ⟨_, by simp only [exec]; unfold execHostSilenceTimeout; rfl⟩
  case shareSilenceTimeout => exact .inl ⟨_, by simp only [exec]; unfold execShareSilenceTimeout; rfl⟩
  case frameBoundary => exact .inl ⟨_, by simp only [exec]; unfold execFrameBoundary; rfl⟩
  case overflowClear => exact .inl ⟨_, by simp only [exec]; unfold execOverflowClear; rfl⟩
  case busShore => exact .inl ⟨_, by simp only [exec]; unfold execBusShore; rfl⟩
  case envStaleTimeout => exact .inl ⟨_, by simp only [exec]; unfold execEnvStaleTimeout; rfl⟩
  case stoOffTimeout => exact .inl ⟨_, by simp only [exec]; unfold execStoOffTimeout; rfl⟩
  case planBoundary => exact .inl ⟨_, by simp only [exec]; unfold execPlanBoundary; rfl⟩
  case telemSend => exact .inl ⟨_, by simp only [exec]; unfold execTelemSend; rfl⟩
  case telemReceive => exact .inl ⟨_, by simp only [exec]; unfold execTelemReceive; rfl⟩
  case rackDrawReport => exact .inl ⟨_, by simp only [exec]; unfold execRackDrawReport; rfl⟩
  case shareSend => exact .inl ⟨_, by simp only [exec]; unfold execShareSend; rfl⟩
  case shareReceive => exact .inl ⟨_, by simp only [exec]; unfold execShareReceive; rfl⟩
  case bwkCapHostWrite => exact .inl ⟨_, by simp only [exec]; unfold execBwkCapHostWrite; rfl⟩
  case bwkClrDev => exact .inl ⟨_, by simp only [exec]; unfold execBwkClrDev; rfl⟩
  case missedEdge => exact .inl ⟨_, by simp only [exec]; unfold execMissedEdge; rfl⟩
  case lullTimeout => exact .inl ⟨_, by simp only [exec]; unfold execLullTimeout; rfl⟩
  case stepUpdateDone => exact .inl ⟨_, by simp only [exec]; unfold execStepUpdateDone; rfl⟩
  case markerReceive => exact .inl ⟨_, by simp only [exec]; unfold execMarkerReceive; rfl⟩
  case markerStepHoldEnd => exact .inl ⟨_, by simp only [exec]; unfold execMarkerStepHoldEnd; rfl⟩
  case ttbCmdDropLock => exact .inl ⟨_, by simp only [exec]; unfold execTtbCmdDropLock; rfl⟩
  case ttbCmdClearSlot => exact .inl ⟨_, by simp only [exec]; unfold execTtbCmdClearSlot; rfl⟩
  case ttbTabWrite => exact .inl ⟨_, by simp only [exec]; unfold execTtbTabWrite; rfl⟩
  case ttbTabRead => exact .inl ⟨_, by simp only [exec]; unfold execTtbTabRead; rfl⟩
  case ttbLossDataAccess => exact .inl ⟨_, by simp only [exec]; unfold execTtbLossDataAccess; rfl⟩
  case cenCtlStart => exact .inl ⟨_, by simp only [exec]; unfold execCenCtlStart; rfl⟩
  case coresStart => exact .inl ⟨_, by simp only [exec]; unfold execCoresStart; rfl⟩
  case cenCtlStop => exact .inl ⟨_, by simp only [exec]; unfold execCenCtlStop; rfl⟩
  case cenWinWrite => exact .inl ⟨_, by simp only [exec]; unfold execCenWinWrite; rfl⟩
  case cenWinRead => exact .inl ⟨_, by simp only [exec]; unfold execCenWinRead; rfl⟩
  case cenSwapWrite => exact .inl ⟨_, by simp only [exec]; unfold execCenSwapWrite; rfl⟩
  case bankSwap => exact .inl ⟨_, by simp only [exec]; unfold execBankSwap; rfl⟩
  case cmdLate => exact .inl ⟨_, by simp only [exec]; unfold execCmdLate; rfl⟩
  case overrun => exact .inl ⟨_, by simp only [exec]; unfold execOverrun; rfl⟩
  case dmaMiss => exact .inl ⟨_, by simp only [exec]; unfold execDmaMiss; rfl⟩
  case cenLawSelWrite => exact .inl ⟨_, by simp only [exec]; unfold execCenLawSelWrite; rfl⟩
  case hoDefer => exact .inl ⟨_, by simp only [exec]; unfold execHoDefer; rfl⟩
  case cenSpTgtWrite => exact .inl ⟨_, by simp only [exec]; unfold execCenSpTgtWrite; rfl⟩
  case spLag => exact .inl ⟨_, by simp only [exec]; unfold execSpLag; rfl⟩
  case cenStageSeal => exact .inl ⟨_, by simp only [exec]; unfold execCenStageSeal; rfl⟩
  case stageCheckDone => exact .inl ⟨_, by simp only [exec]; unfold execStageCheckDone; rfl⟩
  case phaseShedStart => exact .inl ⟨_, by simp only [exec]; unfold execPhaseShedStart; rfl⟩
  case phaseRotation => exact .inl ⟨_, by simp only [exec]; unfold execPhaseRotation; rfl⟩
  case phsCmdRotNow => exact .inl ⟨_, by simp only [exec]; unfold execPhsCmdRotNow; rfl⟩
  case phsCmdPkClr => exact .inl ⟨_, by simp only [exec]; unfold execPhsCmdPkClr; rfl⟩
  case phsRearmWrite => exact .inl ⟨_, by simp only [exec]; unfold execPhsRearmWrite; rfl⟩
  case brakeEnd => exact .inl ⟨_, by simp only [exec]; unfold execBrakeEnd; rfl⟩
  case softStartShort => exact .inl ⟨_, by simp only [exec]; unfold execSoftStartShort; rfl⟩
  case phOcShore => exact .inl ⟨_, by simp only [exec]; unfold execPhOcShore; rfl⟩
  case phImb => exact .inl ⟨_, by simp only [exec]; unfold execPhImb; rfl⟩
  case phSense => exact .inl ⟨_, by simp only [exec]; unfold execPhSense; rfl⟩
  case statusFrameReceive => exact .inl ⟨_, by simp only [exec]; unfold execStatusFrameReceive; rfl⟩
  case phaseLinkDown => exact .inl ⟨_, by simp only [exec]; unfold execPhaseLinkDown; rfl⟩
  case phaseLinkTrained => exact .inl ⟨_, by simp only [exec]; unfold execPhaseLinkTrained; rfl⟩
  case afeOpenDetect => exact .inl ⟨_, by simp only [exec]; unfold execAfeOpenDetect; rfl⟩
  case afeOpenEnd => exact .inl ⟨_, by simp only [exec]; unfold execAfeOpenEnd; rfl⟩
  case afeClrOpen => exact .inl ⟨_, by simp only [exec]; unfold execAfeClrOpen; rfl⟩
  case afeMonSelWrite => exact .inl ⟨_, by simp only [exec]; unfold execAfeMonSelWrite; rfl⟩
  case recorderFrozen => exact .inl ⟨_, by simp only [exec]; unfold execRecorderFrozen; rfl⟩
  case capCmdFreeze => exact .inl ⟨_, by simp only [exec]; unfold execCapCmdFreeze; rfl⟩
  case capCmdRearm => exact .inl ⟨_, by simp only [exec]; unfold execCapCmdRearm; rfl⟩
  case capWinRead => exact .inl ⟨_, by simp only [exec]; unfold execCapWinRead; rfl⟩
  case cliffTrip => exact .inl ⟨_, by simp only [exec]; unfold execCliffTrip; rfl⟩
  case comparatorRelease => exact .inl ⟨_, by simp only [exec]; unfold execComparatorRelease; rfl⟩
  case comparatorSelfTest => exact .inl ⟨_, by simp only [exec]; unfold execComparatorSelfTest; rfl⟩
  case trpClrLatch => exact .inl ⟨_, by simp only [exec]; unfold execTrpClrLatch; rfl⟩
  case chainBringup => exact .inl ⟨_, by simp only [exec]; unfold execChainBringup; rfl⟩
  case chainBringupRetry => exact .inl ⟨_, by simp only [exec]; unfold execChainBringupRetry; rfl⟩
  case wchCmdEnum => exact .inl ⟨_, by simp only [exec]; unfold execWchCmdEnum; rfl⟩
  case sweepStart => exact .inl ⟨_, by simp only [exec]; unfold execSweepStart; rfl⟩
  case sweepDataComposed => exact .inl ⟨_, by simp only [exec]; unfold execSweepDataComposed; rfl⟩
  case alarmReceive => exact .inl ⟨_, by simp only [exec]; unfold execAlarmReceive; rfl⟩
  case owtCycleStart => exact .inl ⟨_, by simp only [exec]; unfold execOwtCycleStart; rfl⟩
  case wchCmdOwtNow => exact .inl ⟨_, by simp only [exec]; unfold execWchCmdOwtNow; rfl⟩
  case wchCmdRearm => exact .inl ⟨_, by simp only [exec]; unfold execWchCmdRearm; rfl⟩
  case wchBalDataWrite => exact .inl ⟨_, by simp only [exec]; unfold execWchBalDataWrite; rfl⟩
  case wchCellDataRead => exact .inl ⟨_, by simp only [exec]; unfold execWchCellDataRead; rfl⟩
  case pllLock => exact .inl ⟨_, by simp only [exec]; unfold execPllLock; rfl⟩
  case pllLockLoss => exact .inl ⟨_, by simp only [exec]; unfold execPllLockLoss; rfl⟩
  case pllRelockRetry => exact .inl ⟨_, by simp only [exec]; unfold execPllRelockRetry; rfl⟩
  case refLost => exact .inl ⟨_, by simp only [exec]; unfold execRefLost; rfl⟩
  case refRestore => exact .inl ⟨_, by simp only [exec]; unfold execRefRestore; rfl⟩
  case beaconSend => exact .inl ⟨_, by simp only [exec]; unfold execBeaconSend; rfl⟩
  case beaconReceive => exact .inl ⟨_, by simp only [exec]; unfold execBeaconReceive; rfl⟩
  case timeSourceLost => exact .inl ⟨_, by simp only [exec]; unfold execTimeSourceLost; rfl⟩
  case ppsEdge => exact .inl ⟨_, by simp only [exec]; unfold execPpsEdge; rfl⟩
  case ppsLost => exact .inl ⟨_, by simp only [exec]; unfold execPpsLost; rfl⟩
  case ppsOutPulse => exact .inl ⟨_, by simp only [exec]; unfold execPpsOutPulse; rfl⟩
  case timTodWrite => exact .inl ⟨_, by simp only [exec]; unfold execTimTodWrite; rfl⟩
  case timNowRead => exact .inl ⟨_, by simp only [exec]; unfold execTimNowRead; rfl⟩
  case rootTimeout => exact .inl ⟨_, by simp only [exec]; unfold execRootTimeout; rfl⟩
  case rootHoldoverTimeout => exact .inl ⟨_, by simp only [exec]; unfold execRootHoldoverTimeout; rfl⟩
  case stakeCommit => exact .inl ⟨_, by simp only [exec]; unfold execStakeCommit; rfl⟩
  case stakeFire => exact .inl ⟨_, by simp only [exec]; unfold execStakeFire; rfl⟩
  case stakeExpire => exact .inl ⟨_, by simp only [exec]; unfold execStakeExpire; rfl⟩
  case stkCmdArrive => exact .inl ⟨_, by simp only [exec]; unfold execStkCmdArrive; rfl⟩
  case arriveReceive => exact .inl ⟨_, by simp only [exec]; unfold execArriveReceive; rfl⟩
  case releaseReceive => exact .inl ⟨_, by simp only [exec]; unfold execReleaseReceive; rfl⟩
  case barrierDeadline => exact .inl ⟨_, by simp only [exec]; unfold execBarrierDeadline; rfl⟩
  case portLight => exact .inl ⟨_, by simp only [exec]; unfold execPortLight; rfl⟩
  case portTrained => exact .inl ⟨_, by simp only [exec]; unfold execPortTrained; rfl⟩
  case portDown => exact .inl ⟨_, by simp only [exec]; unfold execPortDown; rfl⟩
  case laneLoss => exact .inl ⟨_, by simp only [exec]; unfold execLaneLoss; rfl⟩
  case portRetrain => exact .inl ⟨_, by simp only [exec]; unfold execPortRetrain; rfl⟩
  case portFailEnd => exact .inl ⟨_, by simp only [exec]; unfold execPortFailEnd; rfl⟩
  case lnkCmdRetrain => exact .inl ⟨_, by simp only [exec]; unfold execLnkCmdRetrain; rfl⟩
  case idleSend => exact .inl ⟨_, by simp only [exec]; unfold execIdleSend; rfl⟩
  case linkFrameReceive => exact .inl ⟨_, by simp only [exec]; unfold execLinkFrameReceive; rfl⟩
  case retryTimeout => exact .inl ⟨_, by simp only [exec]; unfold execRetryTimeout; rfl⟩
  case stopmapSend => exact .inl ⟨_, by simp only [exec]; unfold execStopmapSend; rfl⟩
  case chStall => exact .inl ⟨_, by simp only [exec]; unfold execChStall; rfl⟩
  case messageAged => exact .inl ⟨_, by simp only [exec]; unfold execMessageAged; rfl⟩
  case routeSend => exact .inl ⟨_, by simp only [exec]; unfold execRouteSend; rfl⟩
  case routeReceive => exact .inl ⟨_, by simp only [exec]; unfold execRouteReceive; rfl⟩
  case routeAgeOut => exact .inl ⟨_, by simp only [exec]; unfold execRouteAgeOut; rfl⟩
  case pathHoldEnd => exact .inl ⟨_, by simp only [exec]; unfold execPathHoldEnd; rfl⟩
  case regReadRequest => exact .inl ⟨_, by simp only [exec]; unfold execRegReadRequest; rfl⟩
  case regWriteRequest => exact .inr (.inl ⟨_, by simp only [exec]; unfold execRegWriteRequest; rfl⟩)
  case planReceive => exact .inl ⟨_, by simp only [exec]; unfold execPlanReceive; rfl⟩
  case planEnd => exact .inl ⟨_, by simp only [exec]; unfold execPlanEnd; rfl⟩
  case hostCmdReceive => exact .inl ⟨_, by simp only [exec]; unfold execHostCmdReceive; rfl⟩
  case faultMessageSend => exact .inl ⟨_, by simp only [exec]; unfold execFaultMessageSend; rfl⟩
  case faultMessageReceive => exact .inl ⟨_, by simp only [exec]; unfold execFaultMessageReceive; rfl⟩
  case opticalDiag => exact .inl ⟨_, by simp only [exec]; unfold execOpticalDiag; rfl⟩
  case lnkCmdBase => exact .inl ⟨_, by simp only [exec]; unfold execLnkCmdBase; rfl⟩
  case lnkCmdPoolMinClr => exact .inl ⟨_, by simp only [exec]; unfold execLnkCmdPoolMinClr; rfl⟩
  case reportIntake => exact .inl ⟨_, by simp only [exec]; unfold execReportIntake; rfl⟩
  case slackExpiry => exact .inl ⟨_, by simp only [exec]; unfold execSlackExpiry; rfl⟩
  case level1ResetDone => exact .inl ⟨_, by simp only [exec]; unfold execLevel1ResetDone; rfl⟩
  case shadowEnd => exact .inl ⟨_, by simp only [exec]; unfold execShadowEnd; rfl⟩
  case dispHandled => exact .inl ⟨_, by simp only [exec]; unfold execDispHandled; rfl⟩
  case dispEscalate => exact .inl ⟨_, by simp only [exec]; unfold execDispEscalate; rfl⟩
  case dispExtend => exact .inl ⟨_, by simp only [exec]; unfold execDispExtend; rfl⟩
  case dispHold => exact .inl ⟨_, by simp only [exec]; unfold execDispHold; rfl⟩
  case fltClrLatch => exact .inl ⟨_, by simp only [exec]; unfold execFltClrLatch; rfl⟩
  case fltClrFatal => exact .inl ⟨_, by simp only [exec]; unfold execFltClrFatal; rfl⟩
  case fltClrFirst => exact .inl ⟨_, by simp only [exec]; unfold execFltClrFirst; rfl⟩
  case fltClrStat => exact .inl ⟨_, by simp only [exec]; unfold execFltClrStat; rfl⟩
  case fltRecSeqWrite => exact .inl ⟨_, by simp only [exec]; unfold execFltRecSeqWrite; rfl⟩
  case forceInject => exact .inl ⟨_, by simp only [exec]; unfold execForceInject; rfl⟩
  case forceClear => exact .inl ⟨_, by simp only [exec]; unfold execForceClear; rfl⟩
  case queueOvf => exact .inl ⟨_, by simp only [exec]; unfold execQueueOvf; rfl⟩
  case scrubRead => exact .inl ⟨_, by simp only [exec]; unfold execScrubRead; rfl⟩
  case dramScrubRead => exact .inl ⟨_, by simp only [exec]; unfold execDramScrubRead; rfl⟩
  case memCmdScrubNow => exact .inl ⟨_, by simp only [exec]; unfold execMemCmdScrubNow; rfl⟩
  case fetchTrap => exact .inl ⟨_, by simp only [exec]; unfold execFetchTrap; rfl⟩
  case fetchTrapDone => exact .inl ⟨_, by simp only [exec]; unfold execFetchTrapDone; rfl⟩
  case mgtDmaHalt => exact .inl ⟨_, by simp only [exec]; unfold execMgtDmaHalt; rfl⟩
  case memCmdDmaResume => exact .inl ⟨_, by simp only [exec]; unfold execMemCmdDmaResume; rfl⟩
  case logEnqueue => exact .inl ⟨_, by simp only [exec]; unfold execLogEnqueue; rfl⟩
  case logRecordWrite => exact .inl ⟨_, by simp only [exec]; unfold execLogRecordWrite; rfl⟩
  case foldFlush => exact .inl ⟨_, by simp only [exec]; unfold execFoldFlush; rfl⟩
  case tokenRefill => exact .inl ⟨_, by simp only [exec]; unfold execTokenRefill; rfl⟩
  case operatingTimeSave => exact .inl ⟨_, by simp only [exec]; unfold execOperatingTimeSave; rfl⟩
  case logPowerupCheck => exact .inl ⟨_, by simp only [exec]; unfold execLogPowerupCheck; rfl⟩
  case logCmdErase => exact .inl ⟨_, by simp only [exec]; unfold execLogCmdErase; rfl⟩
  case logEraseDone => exact .inl ⟨_, by simp only [exec]; unfold execLogEraseDone; rfl⟩
  case logRdIdxWrite => exact .inl ⟨_, by simp only [exec]; unfold execLogRdIdxWrite; rfl⟩
  case logRdStreamRead => exact .inl ⟨_, by simp only [exec]; unfold execLogRdStreamRead; rfl⟩
  case logNoteWrite => exact .inl ⟨_, by simp only [exec]; unfold execLogNoteWrite; rfl⟩
  case lockstep => exact .inl ⟨_, by simp only [exec]; unfold execLockstep; rfl⟩
  case wdogExpiry => exact .inl ⟨_, by simp only [exec]; unfold execWdogExpiry; rfl⟩
  case mgtWdogKick => exact .inl ⟨_, by simp only [exec]; unfold execMgtWdogKick; rfl⟩
  case sensorSample => exact .inl ⟨_, by simp only [exec]; unfold execSensorSample; rfl⟩
  case mgtCmdSensClr => exact .inl ⟨_, by simp only [exec]; unfold execMgtCmdSensClr; rfl⟩
  case secCmdDataWrite => exact .inl ⟨_, by simp only [exec]; unfold execSecCmdDataWrite; rfl⟩
  case provision => exact .inr (.inl ⟨_, by simp only [exec]; unfold execProvision submitCmd; rfl⟩)
  case certStore => exact .inr (.inl ⟨_, by simp only [exec]; unfold execCertStore submitCmd; rfl⟩)
  case enterField => exact .inr (.inl ⟨_, by simp only [exec]; unfold execEnterField submitCmd; rfl⟩)
  case debug => exact .inr (.inl ⟨_, by simp only [exec]; unfold execDebug; rfl⟩)
  case eraseGrant => exact .inr (.inl ⟨_, by simp only [exec]; unfold execEraseGrant submitCmd; rfl⟩)
  case svnAdvance => exact .inr (.inl ⟨_, by simp only [exec]; unfold execSvnAdvance submitCmd; rfl⟩)
  case returnCmd => exact .inr (.inl ⟨_, by simp only [exec]; unfold execReturnCmd submitCmd; rfl⟩)
  case secDbgCmdWrite => exact .inl ⟨_, by simp only [exec]; unfold execSecDbgCmdWrite; rfl⟩
  case debugGrantExpiry => exact .inl ⟨_, by simp only [exec]; unfold execDebugGrantExpiry; rfl⟩
  case attestationRequest => exact .inl ⟨_, by simp only [exec]; unfold execAttestationRequest; rfl⟩
  case attestationReady => exact .inl ⟨_, by simp only [exec]; unfold execAttestationReady; rfl⟩
  case secMrExtend => exact .inl ⟨_, by simp only [exec]; unfold execSecMrExtend; rfl⟩
  case secMrSelWrite => exact .inl ⟨_, by simp only [exec]; unfold execSecMrSelWrite; rfl⟩
  case secAttDataRead => exact .inl ⟨_, by simp only [exec]; unfold execSecAttDataRead; rfl⟩
  case secCertDataAccess => exact .inl ⟨_, by simp only [exec]; unfold execSecCertDataAccess; rfl⟩
  case mgtFwDataWrite => exact .inl ⟨_, by simp only [exec]; unfold execMgtFwDataWrite; rfl⟩
  case mgtFwErase => exact .inl ⟨_, by simp only [exec]; unfold execMgtFwErase; rfl⟩
  case fwEraseDone => exact .inl ⟨_, by simp only [exec]; unfold execFwEraseDone; rfl⟩
  case mgtFwVerify => exact .inl ⟨_, by simp only [exec]; unfold execMgtFwVerify; rfl⟩
  case fwVerifyDone => exact .inl ⟨_, by simp only [exec]; unfold execFwVerifyDone; rfl⟩
  case mgtFwActivate => exact .inl ⟨_, by simp only [exec]; unfold execMgtFwActivate; rfl⟩
  case mgtFwConfirm => exact .inr (.inl ⟨_, by simp only [exec]; unfold execMgtFwConfirm; rfl⟩)
  case mgtFwCancel => exact .inl ⟨_, by simp only [exec]; unfold execMgtFwCancel; rfl⟩
  case confirmTmo => exact .inl ⟨_, by simp only [exec]; unfold execConfirmTmo; rfl⟩
  case mgtDbgHalt => exact .inl ⟨_, by simp only [exec]; unfold execMgtDbgHalt; rfl⟩
  case mgtDbgStep => exact .inl ⟨_, by simp only [exec]; unfold execMgtDbgStep; rfl⟩
  case mgtDbgResume => exact .inl ⟨_, by simp only [exec]; unfold execMgtDbgResume; rfl⟩
  case mgtDbgDataAccess => exact .inl ⟨_, by simp only [exec]; unfold execMgtDbgDataAccess; rfl⟩
  case requestRun => exact .inl ⟨_, by simp only [exec]; unfold execRequestRun; rfl⟩
  case requestStandby => exact .inl ⟨_, by simp only [exec]; unfold execRequestStandby; rfl⟩
  case requestService => exact .inl ⟨_, by simp only [exec]; unfold execRequestService; rfl⟩
  case runEntry => exact .inl ⟨_, by simp only [exec]; unfold execRunEntry; rfl⟩
  case runExitDone => exact .inl ⟨_, by simp only [exec]; unfold execRunExitDone; rfl⟩
  case holdupEntry => exact .inl ⟨_, by simp only [exec]; unfold execHoldupEntry; rfl⟩
  case holdupFlushDone => exact .inl ⟨_, by simp only [exec]; unfold execHoldupFlushDone; rfl⟩
  case holdupDomainsOff => exact .inl ⟨_, by simp only [exec]; unfold execHoldupDomainsOff; rfl⟩
  case auxReturn => exact .inl ⟨_, by simp only [exec]; unfold execAuxReturn; rfl⟩
  case holdupExhausted => exact .inl ⟨_, by simp only [exec]; unfold execHoldupExhausted; rfl⟩
  case checkOccurrence => exact .inl ⟨_, by simp only [exec]; unfold execCheckOccurrence; rfl⟩
  case pwrOnWrite => exact .inl ⟨_, by simp only [exec]; unfold execPwrOnWrite; rfl⟩
  case domainPowerGood => exact .inl ⟨_, by simp only [exec]; unfold execDomainPowerGood; rfl⟩
  case onFail => exact .inl ⟨_, by simp only [exec]; unfold execOnFail; rfl⟩
  case pgLost => exact .inl ⟨_, by simp only [exec]; unfold execPgLost; rfl⟩
  case auxOv => exact .inl ⟨_, by simp only [exec]; unfold execAuxOv; rfl⟩
  case huCharge => exact .inl ⟨_, by simp only [exec]; unfold execHuCharge; rfl⟩
  case huCapMeasure => exact .inl ⟨_, by simp only [exec]; unfold execHuCapMeasure; rfl⟩
  case registerWrite => exact .inr (.inl ⟨_, by simp only [exec]; unfold execRegisterWrite; rfl⟩)
  case blkLockWrite => exact .inl ⟨_, by simp only [exec]; unfold execBlkLockWrite; rfl⟩
  case blkCtlCntClr => exact .inl ⟨_, by simp only [exec]; unfold execBlkCtlCntClr; rfl⟩
  case pmbTransaction => exact .inl ⟨_, by simp only [exec]; unfold execPmbTransaction; rfl⟩
  case pmbSclTimeout => exact .inl ⟨_, by simp only [exec]; unfold execPmbSclTimeout; rfl⟩
  case pmStuck => exact .inl ⟨_, by simp only [exec]; unfold execPmStuck; rfl⟩
  case smbusAlertResponse => exact .inl ⟨_, by simp only [exec]; unfold execSmbusAlertResponse; rfl⟩
  case page => exact .inl ⟨_, by simp only [exec]; unfold execPage; rfl⟩
  case clearFaults => exact .inl ⟨_, by simp only [exec]; unfold execClearFaults; rfl⟩
  case pmbClrFaults => exact .inl ⟨_, by simp only [exec]; unfold execPmbClrFaults; rfl⟩
  case capability => exact .inl ⟨_, by simp only [exec]; unfold execCapability; rfl⟩
  case voutMode => exact .inl ⟨_, by simp only [exec]; unfold execVoutMode; rfl⟩
  case statusByte => exact .inl ⟨_, by simp only [exec]; unfold execStatusByte; rfl⟩
  case statusWord => exact .inl ⟨_, by simp only [exec]; unfold execStatusWord; rfl⟩
  case statusVout => exact .inl ⟨_, by simp only [exec]; unfold execStatusVout; rfl⟩
  case statusIout => exact .inl ⟨_, by simp only [exec]; unfold execStatusIout; rfl⟩
  case statusInput => exact .inl ⟨_, by simp only [exec]; unfold execStatusInput; rfl⟩
  case statusTemperature => exact .inl ⟨_, by simp only [exec]; unfold execStatusTemperature; rfl⟩
  case statusCml => exact .inl ⟨_, by simp only [exec]; unfold execStatusCml; rfl⟩
  case readVin => exact .inl ⟨_, by simp only [exec]; unfold execReadVin; rfl⟩
  case readIin => exact .inl ⟨_, by simp only [exec]; unfold execReadIin; rfl⟩
  case readVout => exact .inl ⟨_, by simp only [exec]; unfold execReadVout; rfl⟩
  case readIout => exact .inl ⟨_, by simp only [exec]; unfold execReadIout; rfl⟩
  case readTemperature1 => exact .inl ⟨_, by simp only [exec]; unfold execReadTemperature1; rfl⟩
  case readTemperature2 => exact .inl ⟨_, by simp only [exec]; unfold execReadTemperature2; rfl⟩
  case readTemperature3 => exact .inl ⟨_, by simp only [exec]; unfold execReadTemperature3; rfl⟩
  case readPout => exact .inl ⟨_, by simp only [exec]; unfold execReadPout; rfl⟩
  case readPin => exact .inl ⟨_, by simp only [exec]; unfold execReadPin; rfl⟩
  case pmbusRevision => exact .inl ⟨_, by simp only [exec]; unfold execPmbusRevision; rfl⟩
  case mfrId => exact .inl ⟨_, by simp only [exec]; unfold execMfrId; rfl⟩
  case mfrModel => exact .inl ⟨_, by simp only [exec]; unfold execMfrModel; rfl⟩
  case mfrRevision => exact .inl ⟨_, by simp only [exec]; unfold execMfrRevision; rfl⟩
  case mfrReadSoc => exact .inl ⟨_, by simp only [exec]; unfold execMfrReadSoc; rfl⟩
  case mfrReadPsto => exact .inl ⟨_, by simp only [exec]; unfold execMfrReadPsto; rfl⟩
  case mfrReadPlan => exact .inl ⟨_, by simp only [exec]; unfold execMfrReadPlan; rfl⟩
  case mfrState => exact .inl ⟨_, by simp only [exec]; unfold execMfrState; rfl⟩
  case mfrFltSeq => exact .inl ⟨_, by simp only [exec]; unfold execMfrFltSeq; rfl⟩
  case timeLost => exact .inl ⟨_, by simp only [exec]; unfold execTimeLost; rfl⟩
  case sclReleased => exact .inl ⟨_, by simp only [exec]; unfold execSclReleased; rfl⟩
  case auxOvClear => exact .inl ⟨_, by simp only [exec]; unfold execAuxOvClear; rfl⟩

end Sys2Proof.Machine
end

