-- ==== Sys2Proof/Laws/Sparse.lean ====
section
/-!
SUPPORT. Laws of sparse storage: a read after a write, and that every operation keeps the canonical form.
-/
namespace Sys2Proof.Machine

variable {α : Type}

theorem Sparse.get_insert (d : Nat → α) (m : Sparse α) (k j : Nat) (v : α) :
    Sparse.get d (Sparse.insert k v m) j = if k = j then v else Sparse.get d m j := by
  induction m with
  | nil => simp [Sparse.insert, Sparse.get]
  | cons e m ih =>
    obtain ⟨a, w⟩ := e
    simp only [Sparse.insert]
    split
    · simp [Sparse.get]
    · split
      · subst_vars; simp only [Sparse.get]; split <;> simp_all
      · simp only [Sparse.get, ih]; split <;> split <;> simp_all

theorem Sparse.get_erase (d : Nat → α) (m : Sparse α) (k j : Nat) :
    Sparse.get d (Sparse.erase k m) j = if k = j then d j else Sparse.get d m j := by
  induction m with
  | nil => simp [Sparse.erase, Sparse.get]
  | cons e m ih =>
    obtain ⟨a, w⟩ := e
    simp only [Sparse.erase]
    split
    · subst_vars; rw [ih]; split <;> simp_all [Sparse.get]
    · simp only [Sparse.get, ih]; split <;> split <;> simp_all

/-- A read after a write: the value written at its address, the old value elsewhere. -/
theorem Sparse.get_set [DecidableEq α] (d : Nat → α) (m : Sparse α) (k j : Nat) (v : α) :
    Sparse.get d (Sparse.set d m k v) j = if k = j then v else Sparse.get d m j := by
  unfold Sparse.set
  split
  · rw [Sparse.get_erase]; split
    · subst_vars; simp_all
    · rfl
  · rw [Sparse.get_insert]

theorem Sparse.get_keep (d : Nat → α) (m : Sparse α) (p : Nat → Bool) (j : Nat) :
    Sparse.get d (Sparse.keep p m) j = if p j then Sparse.get d m j else d j := by
  induction m with
  | nil => simp [Sparse.keep, Sparse.get]
  | cons e m ih =>
    obtain ⟨a, w⟩ := e
    simp only [Sparse.keep] at ih
    simp only [Sparse.keep, List.filter_cons, Sparse.get]
    by_cases hp : p a = true <;> by_cases h : a = j
    · subst h; simp [hp, Sparse.get]
    · simp [hp, Sparse.get, ih, h]
    · subst h; rw [if_neg hp, ih, if_neg hp, if_neg hp]
    · rw [if_neg hp, ih, if_neg h]

/-- An entry above `k` stands above every smaller address. -/
theorem Sparse.above_mono (m : Sparse α) {j k : Nat} (h : j ≤ k) (ha : Sparse.above k m = true) : Sparse.above j m = true := by
  cases m with
  | nil => rfl
  | cons e m => simp only [Sparse.above, decide_eq_true_eq] at *; omega

theorem Sparse.above_insert {m : Sparse α} {j k : Nat} {v : α} (h : j < k) (ha : Sparse.above j m = true) :
    Sparse.above j (Sparse.insert k v m) = true := by
  cases m with
  | nil => simpa [Sparse.insert, Sparse.above] using h
  | cons e m =>
    simp only [Sparse.above, decide_eq_true_eq] at ha
    simp only [Sparse.insert]
    split
    · simpa [Sparse.above] using h
    · split <;> simp only [Sparse.above, decide_eq_true_eq] <;> omega

/-- Every listed address of a canonical list lies above what its first does. -/
theorem Sparse.above_erase [DecidableEq α] (d : Nat → α) {m : Sparse α} {j : Nat} (k : Nat) (hw : Sparse.wf d m = true)
    (ha : Sparse.above j m = true) : Sparse.above j (Sparse.erase k m) = true := by
  induction m generalizing j with
  | nil => rfl
  | cons e m ih =>
    simp only [Sparse.wf, Bool.and_eq_true] at hw
    simp only [Sparse.above, decide_eq_true_eq] at ha
    simp only [Sparse.erase]
    split
    · exact ih hw.2 (Sparse.above_mono m (Nat.le_of_lt ha) hw.1.2)
    · simpa [Sparse.above] using ha

/-- A write keeps the canonical form. -/
theorem Sparse.wf_set [DecidableEq α] (d : Nat → α) {m : Sparse α} (k : Nat) (v : α) (hw : Sparse.wf d m = true) :
    Sparse.wf d (Sparse.set d m k v) = true := by
  unfold Sparse.set
  split
  · induction m with
    | nil => rfl
    | cons e m ih =>
      have hw' := hw
      simp only [Sparse.wf, Bool.and_eq_true] at hw
      simp only [Sparse.erase]
      split
      · exact ih hw.2
      · simp only [Sparse.wf, Bool.and_eq_true]
        exact ⟨⟨hw.1.1, Sparse.above_erase d k hw.2 hw.1.2⟩, ih hw.2⟩
  · rename_i hv
    induction m with
    | nil => simp [Sparse.insert, Sparse.wf, Sparse.above, hv]
    | cons e m ih =>
      simp only [Sparse.wf, Bool.and_eq_true] at hw
      simp only [Sparse.insert]
      split
      · simp_all [Sparse.wf, Sparse.above]
      · split
        · subst_vars; simp_all [Sparse.wf]
        · simp only [Sparse.wf, Bool.and_eq_true]
          exact ⟨⟨hw.1.1, Sparse.above_insert (by omega) hw.1.2⟩, ih hw.2⟩

/-- A run of writes keeps the canonical form. -/
theorem Sparse.wf_setMany [DecidableEq α] (d : Nat → α) {m : Sparse α} (k : Nat) (l : List α) (hw : Sparse.wf d m = true) :
    Sparse.wf d (Sparse.setMany d m k l) = true := by
  induction l generalizing m k with
  | nil => exact hw
  | cons v l ih => exact ih _ (Sparse.wf_set d k v hw)

/-- What stands above `k` still does after a filter. -/
theorem Sparse.above_filter [DecidableEq α] (d : Nat → α) {m : Sparse α} {j : Nat} (p : Nat × α → Bool) (hw : Sparse.wf d m = true)
    (ha : Sparse.above j m = true) : Sparse.above j (m.filter p) = true := by
  induction m generalizing j with
  | nil => rfl
  | cons e m ih =>
    simp only [Sparse.wf, Bool.and_eq_true] at hw
    simp only [Sparse.above, decide_eq_true_eq] at ha
    simp only [List.filter_cons]
    split
    · simpa [Sparse.above] using ha
    · exact ih hw.2 (Sparse.above_mono m (Nat.le_of_lt ha) hw.1.2)

/-- Dropping entries keeps the canonical form. -/
theorem Sparse.wf_keep [DecidableEq α] (d : Nat → α) {m : Sparse α} (p : Nat → Bool) (hw : Sparse.wf d m = true) :
    Sparse.wf d (Sparse.keep p m) = true := by
  induction m with
  | nil => rfl
  | cons e m ih =>
    simp only [Sparse.wf, Bool.and_eq_true] at hw
    simp only [Sparse.keep] at ih
    simp only [Sparse.keep, List.filter_cons]
    split
    · simp only [Sparse.wf, Bool.and_eq_true]
      exact ⟨⟨hw.1.1, Sparse.above_filter d _ hw.2 hw.1.2⟩, ih hw.2⟩
    · exact ih hw.2

/-- Taking an entry out keeps the canonical form. -/
theorem Sparse.wf_erase [DecidableEq α] (d : Nat → α) {m : Sparse α} (k : Nat) (hw : Sparse.wf d m = true) :
    Sparse.wf d (Sparse.erase k m) = true := by
  have h := Sparse.wf_set d k (d k) hw
  simpa only [Sparse.set, if_pos] using h

/-- Filtering by address and value keeps the canonical form. -/
theorem Sparse.wf_filter [DecidableEq α] (d : Nat → α) {m : Sparse α} (p : Nat × α → Bool) (hw : Sparse.wf d m = true) :
    Sparse.wf d (m.filter p) = true := by
  induction m with
  | nil => rfl
  | cons e m ih =>
    simp only [Sparse.wf, Bool.and_eq_true] at hw
    simp only [List.filter_cons]
    split
    · simp only [Sparse.wf, Bool.and_eq_true]
      exact ⟨⟨hw.1.1, Sparse.above_filter d _ hw.2 hw.1.2⟩, ih hw.2⟩
    · exact ih hw.2

/-- Changing every listed value keeps the canonical form. -/
theorem Sparse.wf_mapV [DecidableEq α] (d : Nat → α) (f : α → α) {m : Sparse α} (hw : Sparse.wf d m = true) :
    Sparse.wf d (Sparse.mapV d f m) = true := by
  induction m with
  | nil => rfl
  | cons e m ih =>
    simp only [Sparse.wf, Bool.and_eq_true] at hw
    exact Sparse.wf_set d _ _ (ih hw.2)

/-- A read after every listed value was changed, where `f` leaves what an unlisted address reads as. -/
theorem Sparse.get_mapV [DecidableEq α] (d : Nat → α) (f : α → α) (m : Sparse α) (j : Nat) (hf : f (d j) = d j) :
    Sparse.get d (Sparse.mapV d f m) j = f (Sparse.get d m j) := by
  induction m with
  | nil => exact hf.symm
  | cons e m ih =>
    simp only [Sparse.mapV, Sparse.get, Sparse.get_set, ih]
    split <;> rfl

/-- A read of consecutive addresses has as many values as were asked for. -/
@[simp] theorem Sparse.length_getMany (d : Nat → α) (m : Sparse α) (k n : Nat) : (Sparse.getMany d m k n).length = n := by
  induction n generalizing k with
  | zero => rfl
  | succ n ih => simp [Sparse.getMany, ih]

/-- A write of consecutive values leaves every address outside them alone. -/
theorem Sparse.get_setMany_ne [DecidableEq α] (d : Nat → α) (m : Sparse α) (k j : Nat) (l : List α) (h : j < k ∨ k + l.length ≤ j) :
    Sparse.get d (Sparse.setMany d m k l) j = Sparse.get d m j := by
  induction l generalizing m k with
  | nil => rfl
  | cons v l ih =>
    simp only [List.length_cons] at h
    rw [Sparse.setMany, ih _ _ (by omega), Sparse.get_set, if_neg (by omega)]

/-- A write of consecutive values reads back. -/
theorem Sparse.get_setMany [DecidableEq α] (d : Nat → α) (m : Sparse α) (k i : Nat) (l : List α) (h : i < l.length) :
    Sparse.get d (Sparse.setMany d m k l) (k + i) = l[i] := by
  induction l generalizing m k i with
  | nil => exact absurd h (Nat.not_lt_zero i)
  | cons v l ih =>
    cases i with
    | zero => rw [Sparse.setMany, Sparse.get_setMany_ne _ _ _ _ _ (by omega), Sparse.get_set]; simp
    | succ i =>
      have x := ih (m := Sparse.set d m k v) (k := k + 1) (i := i) (by simpa using h)
      simpa [Sparse.setMany, Nat.add_assoc, Nat.add_comm 1 i] using x

end Sys2Proof.Machine
end

