-- ==== Sys2Proof/Laws/Regs.lean ====
section
/-!
SUPPORT. Laws of the register file: a field reads back what was written to it, and every other word and field stays.
-/
namespace Sys2Proof.Machine

/-- A bit of a field's value is the bit of the word at its place. -/
theorem testBit_bits (x lo w i : Nat) : (bits x lo w).testBit i = (decide (i < w) && x.testBit (lo + i)) := by
  unfold bits
  rw [Nat.testBit_mod_two_pow, Nat.testBit_div_two_pow, Nat.add_comm]

/-- A bit of a word after a field of it was replaced. -/
theorem testBit_insertField (x : Word) (f : Fld) (v i : Nat) :
    (insertField x f v).toNat.testBit i =
      (decide (i < 32) && if f.lo ≤ i ∧ i < f.lo + f.w then v.testBit (i - f.lo) else x.toNat.testBit i) := by
  have hm : ∀ j, ((2 ^ f.w - 1) * 2 ^ f.lo).testBit j = (decide (f.lo ≤ j) && decide (j - f.lo < f.w)) := by
    intro j; rw [Nat.testBit_mul_two_pow, Nat.testBit_two_pow_sub_one]
  have hv : ∀ j, (v % 2 ^ f.w * 2 ^ f.lo).testBit j = (decide (f.lo ≤ j) && (decide (j - f.lo < f.w) && v.testBit (j - f.lo))) := by
    intro j; rw [Nat.testBit_mul_two_pow, Nat.testBit_mod_two_pow]
  by_cases h32 : i < 32
  · have e : (insertField x f v).toNat.testBit i = (insertField x f v).getLsbD i := rfl
    have e2 : x.toNat.testBit i = x.getLsbD i := rfl
    rw [e, e2]
    simp only [insertField, Fld.mask, BitVec.getLsbD_or, BitVec.getLsbD_and, BitVec.getLsbD_not, BitVec.getLsbD_ofNat, h32, decide_true,
      Bool.true_and, hm, hv]
    by_cases h1 : f.lo ≤ i <;> by_cases h2 : i - f.lo < f.w
    · have : i < f.lo + f.w := by omega
      simp [h1, h2, this]
    · have : ¬ i < f.lo + f.w := by omega
      simp [h1, h2, this]
    · simp [h1]
    · simp [h1]
  · have : (insertField x f v).toNat < 2 ^ i :=
      Nat.lt_of_lt_of_le (insertField x f v).isLt (Nat.pow_le_pow_right (by decide) (by omega))
    simp [Nat.testBit_lt_two_pow this, h32]

/-- A field of a word reads back the low bits of what was written to it. -/
theorem bits_insertField_same (x : Word) (f : Fld) (v : Nat) (h : f.lo + f.w ≤ 32) :
    bits (insertField x f v).toNat f.lo f.w = v % 2 ^ f.w := by
  apply Nat.eq_of_testBit_eq
  intro i
  rw [testBit_bits, testBit_insertField, Nat.testBit_mod_two_pow]
  by_cases hi : i < f.w
  · have h1 : f.lo + i < 32 := by omega
    have h2 : f.lo ≤ f.lo + i ∧ f.lo + i < f.lo + f.w := by omega
    simp [hi, h1]
  · simp [hi]

/-- A field of a word that does not meet the one written keeps its value. -/
theorem bits_insertField_ne (x : Word) (f : Fld) (v lo w : Nat) (h : lo + w ≤ f.lo ∨ f.lo + f.w ≤ lo) :
    bits (insertField x f v).toNat lo w = bits x.toNat lo w := by
  apply Nat.eq_of_testBit_eq
  intro i
  rw [testBit_bits, testBit_bits, testBit_insertField]
  by_cases hi : i < w
  · have h2 : ¬ (f.lo ≤ lo + i ∧ lo + i < f.lo + f.w) := by omega
    rw [if_neg h2]
    by_cases h32 : lo + i < 32
    · simp [hi, h32]
    · have : x.toNat < 2 ^ (lo + i) := Nat.lt_of_lt_of_le x.isLt (Nat.pow_le_pow_right (by decide) (by omega))
      simp [Nat.testBit_lt_two_pow this, h32]
  · simp [hi]

/-- A register word after a write. -/
theorem Mod.word_setWord (m : Mod) (a b : Nat) (v : Word) : (m.setWord a v).word b = if a = b then v else m.word b := by
  unfold Mod.word Mod.setWord
  exact Sparse.get_set regReset m.regs a b v

@[simp] theorem Mod.word_setWord_same (m : Mod) (a : Nat) (v : Word) : (m.setWord a v).word a = v := by
  rw [Mod.word_setWord, if_pos rfl]

theorem Mod.word_setWord_ne (m : Mod) {a b : Nat} (v : Word) (h : a ≠ b) : (m.setWord a v).word b = m.word b := by
  rw [Mod.word_setWord, if_neg h]

/-- A register word after a field write: only the field's word changes. -/
theorem Mod.word_put (m : Mod) (f : Fld) (v b : Nat) :
    (m.put f v).word b = if f.addr = b then insertField (m.word f.addr) f v else m.word b := by
  unfold Mod.put; rw [Mod.word_setWord]

theorem Mod.word_put_ne (m : Mod) (f : Fld) (v : Nat) {b : Nat} (h : f.addr ≠ b) : (m.put f v).word b = m.word b := by
  rw [Mod.word_put, if_neg h]

/-- A field reads back what was written to it. -/
theorem Mod.get_put_same (m : Mod) (f : Fld) (v : Nat) (h : f.lo + f.w ≤ 32) : (m.put f v).get f = v % 2 ^ f.w := by
  unfold Mod.get; rw [Mod.word_put, if_pos rfl, bits_insertField_same _ _ _ h]

/-- A field apart from the one written keeps its value. -/
theorem Mod.get_put_ne (m : Mod) (f g : Fld) (v : Nat) (h : f.addr ≠ g.addr ∨ g.lo + g.w ≤ f.lo ∨ f.lo + f.w ≤ g.lo) :
    (m.put f v).get g = m.get g := by
  unfold Mod.get; rw [Mod.word_put]
  split
  · rename_i e
    rcases h with h | h
    · exact absurd e h
    · rw [bits_insertField_ne _ _ _ _ _ h, e]
  · rfl

@[simp] theorem Mod.puts_nil (m : Mod) : m.puts [] = m := rfl
@[simp] theorem Mod.puts_cons (m : Mod) (e : Fld × Nat) (l : List (Fld × Nat)) : m.puts (e :: l) = (m.put e.1 e.2).puts l := rfl

/-- A run of field writes changes only the words of its fields. -/
theorem Mod.word_puts_ne (m : Mod) (l : List (Fld × Nat)) {b : Nat} (h : ∀ e ∈ l, e.1.addr ≠ b) : (m.puts l).word b = m.word b := by
  induction l generalizing m with
  | nil => rfl
  | cons e l ih =>
    rw [Mod.puts_cons, ih _ (fun x hx => h x (List.mem_cons_of_mem _ hx)), Mod.word_put_ne _ _ _ (h e List.mem_cons_self)]

/-- A register write keeps the canonical form of the register file. -/
theorem Mod.wf_setWord (m : Mod) (a : Nat) (v : Word) (h : Sparse.wf regReset m.regs = true) :
    Sparse.wf regReset (m.setWord a v).regs = true := Sparse.wf_set regReset a v h

theorem Mod.wf_put (m : Mod) (f : Fld) (v : Nat) (h : Sparse.wf regReset m.regs = true) :
    Sparse.wf regReset (m.put f v).regs = true := Mod.wf_setWord m _ _ h

theorem Mod.wf_puts (m : Mod) (l : List (Fld × Nat)) (h : Sparse.wf regReset m.regs = true) :
    Sparse.wf regReset (m.puts l).regs = true := by
  induction l generalizing m with
  | nil => exact h
  | cons e l ih => exact ih _ (Mod.wf_put m _ _ h)

end Sys2Proof.Machine
end

