-- ==== Sys2Proof/Laws/State.lean ====
section
/-!
SUPPORT. Laws of the state: a register write leaves every other part of the module, a log record changes the log's arrivals only; what a
field reads depends on the register file alone.
-/
namespace Sys2Proof.Machine

/-- A field read, as a function of the register file. -/
theorem Mod.get_congr {a b : Mod} (f : Fld) (h : a.regs = b.regs) : a.get f = b.get f := by simp only [Mod.get, Mod.word, h]

theorem Mod.word_congr {a b : Mod} (x : Nat) (h : a.regs = b.regs) : a.word x = b.word x := by simp only [Mod.word, h]

@[simp] theorem Mod.flag_eq (m : Mod) (f : Fld) (b : Bool) : m.flag f b = m.put f (b2n b) := rfl
@[simp] theorem Mod.putI_eq (m : Mod) (f : Fld) (v : Int) : m.putI f v = m.put f (enc f.w v) := rfl
@[simp] theorem Mod.putQ_eq (m : Mod) (f : Fld) (q : Rat) : m.putQ f q = m.put f (encQ f.w q) := rfl
@[simp] theorem Mod.putU_eq (m : Mod) (f : Fld) (q : Rat) : m.putU f q = m.put f (encU f.w q) := rfl
@[simp] theorem Mod.pmbSet_eq (m : Mod) (f : Fld) (b : Nat) : m.pmbSet f b = m.put f (m.get f ||| b) := rfl

/-! ## A field write -/

@[simp] theorem Mod.put_freeCtr (m : Mod) (f : Fld) (v : Nat) : (m.put f v).freeCtr = m.freeCtr := rfl
@[simp] theorem Mod.put_rdata (m : Mod) (f : Fld) (v : Nat) : (m.put f v).rdata = m.rdata := rfl
@[simp] theorem Mod.put_resp (m : Mod) (f : Fld) (v : Nat) : (m.put f v).resp = m.resp := rfl
@[simp] theorem Mod.put_pins (m : Mod) (f : Fld) (v : Nat) : (m.put f v).pins = m.pins := rfl
@[simp] theorem Mod.put_time (m : Mod) (f : Fld) (v : Nat) : (m.put f v).time = m.time := rfl
@[simp] theorem Mod.put_flt (m : Mod) (f : Fld) (v : Nat) : (m.put f v).flt = m.flt := rfl
@[simp] theorem Mod.put_mem (m : Mod) (f : Fld) (v : Nat) : (m.put f v).mem = m.mem := rfl
@[simp] theorem Mod.put_log (m : Mod) (f : Fld) (v : Nat) : (m.put f v).log = m.log := rfl
@[simp] theorem Mod.put_nv (m : Mod) (f : Fld) (v : Nat) : (m.put f v).nv = m.nv := rfl
@[simp] theorem Mod.put_roles (m : Mod) (f : Fld) (v : Nat) : (m.put f v).roles = m.roles := rfl
@[simp] theorem Mod.put_plan (m : Mod) (f : Fld) (v : Nat) : (m.put f v).plan = m.plan := rfl
@[simp] theorem Mod.put_lnk (m : Mod) (f : Fld) (v : Nat) : (m.put f v).lnk = m.lnk := rfl
@[simp] theorem Mod.put_stk (m : Mod) (f : Fld) (v : Nat) : (m.put f v).stk = m.stk := rfl
@[simp] theorem Mod.put_mgt (m : Mod) (f : Fld) (v : Nat) : (m.put f v).mgt = m.mgt := rfl
@[simp] theorem Mod.put_sec (m : Mod) (f : Fld) (v : Nat) : (m.put f v).sec = m.sec := rfl
@[simp] theorem Mod.put_pwr (m : Mod) (f : Fld) (v : Nat) : (m.put f v).pwr = m.pwr := rfl
@[simp] theorem Mod.put_pmb (m : Mod) (f : Fld) (v : Nat) : (m.put f v).pmb = m.pmb := rfl
@[simp] theorem Mod.put_phs (m : Mod) (f : Fld) (v : Nat) : (m.put f v).phs = m.phs := rfl
@[simp] theorem Mod.put_afe (m : Mod) (f : Fld) (v : Nat) : (m.put f v).afe = m.afe := rfl
@[simp] theorem Mod.put_cap (m : Mod) (f : Fld) (v : Nat) : (m.put f v).cap = m.cap := rfl
@[simp] theorem Mod.put_trp (m : Mod) (f : Fld) (v : Nat) : (m.put f v).trp = m.trp := rfl
@[simp] theorem Mod.put_bwk (m : Mod) (f : Fld) (v : Nat) : (m.put f v).bwk = m.bwk := rfl
@[simp] theorem Mod.put_ttb (m : Mod) (f : Fld) (v : Nat) : (m.put f v).ttb = m.ttb := rfl
@[simp] theorem Mod.put_cen (m : Mod) (f : Fld) (v : Nat) : (m.put f v).cen = m.cen := rfl
@[simp] theorem Mod.put_wch (m : Mod) (f : Fld) (v : Nat) : (m.put f v).wch = m.wch := rfl

/-! ## A register write -/

@[simp] theorem Mod.setWord_freeCtr (m : Mod) (a : Nat) (v : Word) : (m.setWord a v).freeCtr = m.freeCtr := rfl
@[simp] theorem Mod.setWord_rdata (m : Mod) (a : Nat) (v : Word) : (m.setWord a v).rdata = m.rdata := rfl
@[simp] theorem Mod.setWord_resp (m : Mod) (a : Nat) (v : Word) : (m.setWord a v).resp = m.resp := rfl
@[simp] theorem Mod.setWord_pins (m : Mod) (a : Nat) (v : Word) : (m.setWord a v).pins = m.pins := rfl
@[simp] theorem Mod.setWord_time (m : Mod) (a : Nat) (v : Word) : (m.setWord a v).time = m.time := rfl
@[simp] theorem Mod.setWord_flt (m : Mod) (a : Nat) (v : Word) : (m.setWord a v).flt = m.flt := rfl
@[simp] theorem Mod.setWord_mem (m : Mod) (a : Nat) (v : Word) : (m.setWord a v).mem = m.mem := rfl
@[simp] theorem Mod.setWord_log (m : Mod) (a : Nat) (v : Word) : (m.setWord a v).log = m.log := rfl
@[simp] theorem Mod.setWord_nv (m : Mod) (a : Nat) (v : Word) : (m.setWord a v).nv = m.nv := rfl
@[simp] theorem Mod.setWord_roles (m : Mod) (a : Nat) (v : Word) : (m.setWord a v).roles = m.roles := rfl
@[simp] theorem Mod.setWord_plan (m : Mod) (a : Nat) (v : Word) : (m.setWord a v).plan = m.plan := rfl
@[simp] theorem Mod.setWord_lnk (m : Mod) (a : Nat) (v : Word) : (m.setWord a v).lnk = m.lnk := rfl
@[simp] theorem Mod.setWord_stk (m : Mod) (a : Nat) (v : Word) : (m.setWord a v).stk = m.stk := rfl
@[simp] theorem Mod.setWord_mgt (m : Mod) (a : Nat) (v : Word) : (m.setWord a v).mgt = m.mgt := rfl
@[simp] theorem Mod.setWord_sec (m : Mod) (a : Nat) (v : Word) : (m.setWord a v).sec = m.sec := rfl
@[simp] theorem Mod.setWord_pwr (m : Mod) (a : Nat) (v : Word) : (m.setWord a v).pwr = m.pwr := rfl
@[simp] theorem Mod.setWord_pmb (m : Mod) (a : Nat) (v : Word) : (m.setWord a v).pmb = m.pmb := rfl
@[simp] theorem Mod.setWord_phs (m : Mod) (a : Nat) (v : Word) : (m.setWord a v).phs = m.phs := rfl
@[simp] theorem Mod.setWord_afe (m : Mod) (a : Nat) (v : Word) : (m.setWord a v).afe = m.afe := rfl
@[simp] theorem Mod.setWord_cap (m : Mod) (a : Nat) (v : Word) : (m.setWord a v).cap = m.cap := rfl
@[simp] theorem Mod.setWord_trp (m : Mod) (a : Nat) (v : Word) : (m.setWord a v).trp = m.trp := rfl
@[simp] theorem Mod.setWord_bwk (m : Mod) (a : Nat) (v : Word) : (m.setWord a v).bwk = m.bwk := rfl
@[simp] theorem Mod.setWord_ttb (m : Mod) (a : Nat) (v : Word) : (m.setWord a v).ttb = m.ttb := rfl
@[simp] theorem Mod.setWord_cen (m : Mod) (a : Nat) (v : Word) : (m.setWord a v).cen = m.cen := rfl
@[simp] theorem Mod.setWord_wch (m : Mod) (a : Nat) (v : Word) : (m.setWord a v).wch = m.wch := rfl

/-! ## A run of field writes -/

/-- A run of field writes changes the register file only. -/
theorem Mod.puts_regs_only (m : Mod) (l : List (Fld × Nat)) : m.puts l = { m with regs := (m.puts l).regs } := by
  induction l generalizing m with
  | nil => rfl
  | cons e l ih => rw [Mod.puts_cons, ih]; rfl

theorem Mod.puts_freeCtr (m : Mod) (l : List (Fld × Nat)) : (m.puts l).freeCtr = m.freeCtr := by rw [Mod.puts_regs_only]
theorem Mod.puts_rdata (m : Mod) (l : List (Fld × Nat)) : (m.puts l).rdata = m.rdata := by rw [Mod.puts_regs_only]
theorem Mod.puts_resp (m : Mod) (l : List (Fld × Nat)) : (m.puts l).resp = m.resp := by rw [Mod.puts_regs_only]
theorem Mod.puts_pins (m : Mod) (l : List (Fld × Nat)) : (m.puts l).pins = m.pins := by rw [Mod.puts_regs_only]
theorem Mod.puts_time (m : Mod) (l : List (Fld × Nat)) : (m.puts l).time = m.time := by rw [Mod.puts_regs_only]
theorem Mod.puts_flt (m : Mod) (l : List (Fld × Nat)) : (m.puts l).flt = m.flt := by rw [Mod.puts_regs_only]
theorem Mod.puts_mem (m : Mod) (l : List (Fld × Nat)) : (m.puts l).mem = m.mem := by rw [Mod.puts_regs_only]
theorem Mod.puts_log (m : Mod) (l : List (Fld × Nat)) : (m.puts l).log = m.log := by rw [Mod.puts_regs_only]
theorem Mod.puts_nv (m : Mod) (l : List (Fld × Nat)) : (m.puts l).nv = m.nv := by rw [Mod.puts_regs_only]
theorem Mod.puts_roles (m : Mod) (l : List (Fld × Nat)) : (m.puts l).roles = m.roles := by rw [Mod.puts_regs_only]
theorem Mod.puts_plan (m : Mod) (l : List (Fld × Nat)) : (m.puts l).plan = m.plan := by rw [Mod.puts_regs_only]
theorem Mod.puts_lnk (m : Mod) (l : List (Fld × Nat)) : (m.puts l).lnk = m.lnk := by rw [Mod.puts_regs_only]
theorem Mod.puts_stk (m : Mod) (l : List (Fld × Nat)) : (m.puts l).stk = m.stk := by rw [Mod.puts_regs_only]
theorem Mod.puts_mgt (m : Mod) (l : List (Fld × Nat)) : (m.puts l).mgt = m.mgt := by rw [Mod.puts_regs_only]
theorem Mod.puts_sec (m : Mod) (l : List (Fld × Nat)) : (m.puts l).sec = m.sec := by rw [Mod.puts_regs_only]
theorem Mod.puts_pwr (m : Mod) (l : List (Fld × Nat)) : (m.puts l).pwr = m.pwr := by rw [Mod.puts_regs_only]
theorem Mod.puts_pmb (m : Mod) (l : List (Fld × Nat)) : (m.puts l).pmb = m.pmb := by rw [Mod.puts_regs_only]
theorem Mod.puts_phs (m : Mod) (l : List (Fld × Nat)) : (m.puts l).phs = m.phs := by rw [Mod.puts_regs_only]
theorem Mod.puts_afe (m : Mod) (l : List (Fld × Nat)) : (m.puts l).afe = m.afe := by rw [Mod.puts_regs_only]
theorem Mod.puts_cap (m : Mod) (l : List (Fld × Nat)) : (m.puts l).cap = m.cap := by rw [Mod.puts_regs_only]
theorem Mod.puts_trp (m : Mod) (l : List (Fld × Nat)) : (m.puts l).trp = m.trp := by rw [Mod.puts_regs_only]
theorem Mod.puts_bwk (m : Mod) (l : List (Fld × Nat)) : (m.puts l).bwk = m.bwk := by rw [Mod.puts_regs_only]
theorem Mod.puts_ttb (m : Mod) (l : List (Fld × Nat)) : (m.puts l).ttb = m.ttb := by rw [Mod.puts_regs_only]
theorem Mod.puts_cen (m : Mod) (l : List (Fld × Nat)) : (m.puts l).cen = m.cen := by rw [Mod.puts_regs_only]
theorem Mod.puts_wch (m : Mod) (l : List (Fld × Nat)) : (m.puts l).wch = m.wch := by rw [Mod.puts_regs_only]

/-! ## A log record arrives -/

@[simp] theorem Mod.log1_regs (m : Mod) (t c : Nat) (b : List Nat) (f : Bool) : (m.log1 t c b f).regs = m.regs := rfl
@[simp] theorem Mod.log1_freeCtr (m : Mod) (t c : Nat) (b : List Nat) (f : Bool) : (m.log1 t c b f).freeCtr = m.freeCtr := rfl
@[simp] theorem Mod.log1_rdata (m : Mod) (t c : Nat) (b : List Nat) (f : Bool) : (m.log1 t c b f).rdata = m.rdata := rfl
@[simp] theorem Mod.log1_resp (m : Mod) (t c : Nat) (b : List Nat) (f : Bool) : (m.log1 t c b f).resp = m.resp := rfl
@[simp] theorem Mod.log1_pins (m : Mod) (t c : Nat) (b : List Nat) (f : Bool) : (m.log1 t c b f).pins = m.pins := rfl
@[simp] theorem Mod.log1_time (m : Mod) (t c : Nat) (b : List Nat) (f : Bool) : (m.log1 t c b f).time = m.time := rfl
@[simp] theorem Mod.log1_flt (m : Mod) (t c : Nat) (b : List Nat) (f : Bool) : (m.log1 t c b f).flt = m.flt := rfl
@[simp] theorem Mod.log1_mem (m : Mod) (t c : Nat) (b : List Nat) (f : Bool) : (m.log1 t c b f).mem = m.mem := rfl
@[simp] theorem Mod.log1_nv (m : Mod) (t c : Nat) (b : List Nat) (f : Bool) : (m.log1 t c b f).nv = m.nv := rfl
@[simp] theorem Mod.log1_roles (m : Mod) (t c : Nat) (b : List Nat) (f : Bool) : (m.log1 t c b f).roles = m.roles := rfl
@[simp] theorem Mod.log1_plan (m : Mod) (t c : Nat) (b : List Nat) (f : Bool) : (m.log1 t c b f).plan = m.plan := rfl
@[simp] theorem Mod.log1_lnk (m : Mod) (t c : Nat) (b : List Nat) (f : Bool) : (m.log1 t c b f).lnk = m.lnk := rfl
@[simp] theorem Mod.log1_stk (m : Mod) (t c : Nat) (b : List Nat) (f : Bool) : (m.log1 t c b f).stk = m.stk := rfl
@[simp] theorem Mod.log1_mgt (m : Mod) (t c : Nat) (b : List Nat) (f : Bool) : (m.log1 t c b f).mgt = m.mgt := rfl
@[simp] theorem Mod.log1_sec (m : Mod) (t c : Nat) (b : List Nat) (f : Bool) : (m.log1 t c b f).sec = m.sec := rfl
@[simp] theorem Mod.log1_pwr (m : Mod) (t c : Nat) (b : List Nat) (f : Bool) : (m.log1 t c b f).pwr = m.pwr := rfl
@[simp] theorem Mod.log1_pmb (m : Mod) (t c : Nat) (b : List Nat) (f : Bool) : (m.log1 t c b f).pmb = m.pmb := rfl
@[simp] theorem Mod.log1_phs (m : Mod) (t c : Nat) (b : List Nat) (f : Bool) : (m.log1 t c b f).phs = m.phs := rfl
@[simp] theorem Mod.log1_afe (m : Mod) (t c : Nat) (b : List Nat) (f : Bool) : (m.log1 t c b f).afe = m.afe := rfl
@[simp] theorem Mod.log1_cap (m : Mod) (t c : Nat) (b : List Nat) (f : Bool) : (m.log1 t c b f).cap = m.cap := rfl
@[simp] theorem Mod.log1_trp (m : Mod) (t c : Nat) (b : List Nat) (f : Bool) : (m.log1 t c b f).trp = m.trp := rfl
@[simp] theorem Mod.log1_bwk (m : Mod) (t c : Nat) (b : List Nat) (f : Bool) : (m.log1 t c b f).bwk = m.bwk := rfl
@[simp] theorem Mod.log1_ttb (m : Mod) (t c : Nat) (b : List Nat) (f : Bool) : (m.log1 t c b f).ttb = m.ttb := rfl
@[simp] theorem Mod.log1_cen (m : Mod) (t c : Nat) (b : List Nat) (f : Bool) : (m.log1 t c b f).cen = m.cen := rfl
@[simp] theorem Mod.log1_wch (m : Mod) (t c : Nat) (b : List Nat) (f : Bool) : (m.log1 t c b f).wch = m.wch := rfl

@[simp] theorem Mod.log1_arr (m : Mod) (t c : Nat) (b : List Nat) (f : Bool) :
    (m.log1 t c b f).log.arr = m.log.arr ++ [⟨m.stamp t c b, f⟩] := rfl

theorem Mod.log1_get (m : Mod) (t c : Nat) (b : List Nat) (f : Bool) (g : Fld) : (m.log1 t c b f).get g = m.get g := rfl

/-! ## A free value is drawn -/

@[simp] theorem Mod.fresh_fst (m : Mod) : m.fresh.1 = m.freeCtr := rfl
@[simp] theorem Mod.fresh_regs (m : Mod) : m.fresh.2.regs = m.regs := rfl
@[simp] theorem Mod.fresh_freeCtr (m : Mod) : m.fresh.2.freeCtr = m.freeCtr + 1 := rfl
@[simp] theorem Mod.fresh_rdata (m : Mod) : m.fresh.2.rdata = m.rdata := rfl
@[simp] theorem Mod.fresh_resp (m : Mod) : m.fresh.2.resp = m.resp := rfl
@[simp] theorem Mod.fresh_pins (m : Mod) : m.fresh.2.pins = m.pins := rfl
@[simp] theorem Mod.fresh_time (m : Mod) : m.fresh.2.time = m.time := rfl
@[simp] theorem Mod.fresh_flt (m : Mod) : m.fresh.2.flt = m.flt := rfl
@[simp] theorem Mod.fresh_mem (m : Mod) : m.fresh.2.mem = m.mem := rfl
@[simp] theorem Mod.fresh_log (m : Mod) : m.fresh.2.log = m.log := rfl
@[simp] theorem Mod.fresh_nv (m : Mod) : m.fresh.2.nv = m.nv := rfl
@[simp] theorem Mod.fresh_roles (m : Mod) : m.fresh.2.roles = m.roles := rfl
@[simp] theorem Mod.fresh_plan (m : Mod) : m.fresh.2.plan = m.plan := rfl
@[simp] theorem Mod.fresh_lnk (m : Mod) : m.fresh.2.lnk = m.lnk := rfl
@[simp] theorem Mod.fresh_stk (m : Mod) : m.fresh.2.stk = m.stk := rfl
@[simp] theorem Mod.fresh_mgt (m : Mod) : m.fresh.2.mgt = m.mgt := rfl
@[simp] theorem Mod.fresh_sec (m : Mod) : m.fresh.2.sec = m.sec := rfl
@[simp] theorem Mod.fresh_pwr (m : Mod) : m.fresh.2.pwr = m.pwr := rfl
@[simp] theorem Mod.fresh_pmb (m : Mod) : m.fresh.2.pmb = m.pmb := rfl
@[simp] theorem Mod.fresh_phs (m : Mod) : m.fresh.2.phs = m.phs := rfl
@[simp] theorem Mod.fresh_afe (m : Mod) : m.fresh.2.afe = m.afe := rfl
@[simp] theorem Mod.fresh_cap (m : Mod) : m.fresh.2.cap = m.cap := rfl
@[simp] theorem Mod.fresh_trp (m : Mod) : m.fresh.2.trp = m.trp := rfl
@[simp] theorem Mod.fresh_bwk (m : Mod) : m.fresh.2.bwk = m.bwk := rfl
@[simp] theorem Mod.fresh_ttb (m : Mod) : m.fresh.2.ttb = m.ttb := rfl
@[simp] theorem Mod.fresh_cen (m : Mod) : m.fresh.2.cen = m.cen := rfl
@[simp] theorem Mod.fresh_wch (m : Mod) : m.fresh.2.wch = m.wch := rfl

end Sys2Proof.Machine
end

