-- ==== Sys2Proof/Laws/Frame.lean ====
section
/-!
SUPPORT. Laws of frames: what a field write and a report leave alone, and how frames join.
-/
namespace Sys2Proof.Machine

theorem Mod.onlyParts_refl (m : Mod) (ps : List Part) : m.onlyParts ps m := by
  intro p _; cases p <;> rfl

theorem Mod.onlyParts_trans {a b c : Mod} {ps : List Part} (h : a.onlyParts ps b) (k : b.onlyParts ps c) : a.onlyParts ps c := by
  intro p hp
  have x := h p hp
  have y := k p hp
  cases p <;> exact Eq.trans y x

theorem Mod.onlyParts_mono {a b : Mod} {ps qs : List Part} (h : a.onlyParts ps b) (hs : ∀ p ∈ ps, p ∈ qs) : a.onlyParts qs b :=
  fun p hp => h p (fun x => hp (hs p x))

theorem Mod.onlyFields_refl (m : Mod) (fs : List Fld) : m.onlyFields fs m := fun _ _ => rfl

theorem Mod.onlyFields_trans {a b c : Mod} {fs : List Fld} (h : a.onlyFields fs b) (k : b.onlyFields fs c) : a.onlyFields fs c :=
  fun g hg => (k g hg).trans (h g hg)

theorem Mod.onlyFields_mono {a b : Mod} {fs gs : List Fld} (h : a.onlyFields fs b) (hs : ∀ f ∈ fs, f ∈ gs) : a.onlyFields gs b :=
  fun g hg => h g (fun f hf => hg f (hs f hf))

/-- A module whose register file is the same reads every field alike. -/
theorem Mod.onlyFields_of_regs {a b : Mod} (fs : List Fld) (h : b.regs = a.regs) : a.onlyFields fs b := by
  intro g _; simp only [Mod.get, Mod.word, h]

theorem Mod.get_of_regs {a b : Mod} (f : Fld) (h : b.regs = a.regs) : b.get f = a.get f := by
  simp only [Mod.get, Mod.word, h]

/-- A field write changes its field only. -/
theorem Mod.onlyFields_put (m : Mod) (f : Fld) (v : Nat) {fs : List Fld} (h : f ∈ fs) : m.onlyFields fs (m.put f v) :=
  fun g hg => Mod.get_put_ne m f g v (hg f h)

theorem Mod.onlyParts_put (m : Mod) (f : Fld) (v : Nat) (ps : List Part) : m.onlyParts ps (m.put f v) := by
  intro p _; cases p <;> rfl

theorem Mod.onlyParts_puts (m : Mod) (l : List (Fld × Nat)) (ps : List Part) : m.onlyParts ps (m.puts l) := by
  induction l generalizing m with
  | nil => exact Mod.onlyParts_refl m ps
  | cons e l ih => exact Mod.onlyParts_trans (Mod.onlyParts_put m _ _ ps) (ih _)

theorem Mod.onlyFields_puts (m : Mod) (l : List (Fld × Nat)) {fs : List Fld} (h : ∀ e ∈ l, e.1 ∈ fs) : m.onlyFields fs (m.puts l) := by
  induction l generalizing m with
  | nil => exact Mod.onlyFields_refl m fs
  | cons e l ih =>
    exact Mod.onlyFields_trans (Mod.onlyFields_put m _ _ (h e List.mem_cons_self)) (ih _ (fun x hx => h x (List.mem_cons_of_mem _ hx)))

/-- A word written changes only the fields of that register. -/
theorem Mod.onlyFields_setWord (m : Mod) (a : Nat) (v : Word) {fs : List Fld} (h : ⟨a, 0, 32⟩ ∈ fs) : m.onlyFields fs (m.setWord a v) := by
  intro g hg
  have hne : a ≠ g.addr ∨ 32 ≤ g.lo ∨ g.w = 0 := by
    rcases hg _ h with h | h | h
    · exact .inl h
    · right; right; simp only at h; omega
    · right; left; simpa using h
  unfold Mod.get
  rw [Mod.word_setWord]
  split
  · rename_i e
    rcases hne with hn | hn | hn
    · exact absurd e hn
    · have z : ∀ x : Word, bits x.toNat g.lo g.w = 0 := by
        intro x
        have : x.toNat < 2 ^ g.lo := Nat.lt_of_lt_of_le x.isLt (Nat.pow_le_pow_right (by decide) hn)
        simp [bits, Nat.div_eq_of_lt this]
      rw [z, z]
    · simp [bits, hn, Nat.mod_one]
  · rfl

/-- The report lines and the collector's intake touch the fields of `repFlds` and the collector only. -/
theorem Mod.syncActive_frame (m : Mod) (b : Nat) {fs : List Fld} (h : ∀ f ∈ repFlds b, f ∈ fs) (ps : List Part) :
    m.onlyFields fs (m.syncActive b) ∧ m.onlyParts ps (m.syncActive b) := by
  simp only [repFlds, List.mem_cons, List.not_mem_nil, or_false, forall_eq_or_imp, forall_eq] at h
  unfold Mod.syncActive
  refine ⟨?_, Mod.onlyParts_trans (Mod.onlyParts_trans (Mod.onlyParts_put _ _ _ ps) (Mod.onlyParts_put _ _ _ ps)) (Mod.onlyParts_put _ _ _ ps)⟩
  refine Mod.onlyFields_trans (Mod.onlyFields_trans (Mod.onlyFields_put _ _ _ ?_) (Mod.onlyFields_put _ _ _ ?_)) (Mod.onlyFields_put _ _ _ ?_) <;>
    simp [h]

/-- Parts and fields at once. -/
abbrev Mod.only (a : Mod) (ps : List Part) (fs : List Fld) (b : Mod) : Prop := a.onlyParts ps b ∧ a.onlyFields fs b

theorem Mod.only_refl (m : Mod) (ps : List Part) (fs : List Fld) : m.only ps fs m := ⟨Mod.onlyParts_refl m ps, Mod.onlyFields_refl m fs⟩

theorem Mod.only_trans {a b c : Mod} {ps : List Part} {fs : List Fld} (h : a.only ps fs b) (k : b.only ps fs c) : a.only ps fs c :=
  ⟨Mod.onlyParts_trans h.1 k.1, Mod.onlyFields_trans h.2 k.2⟩

theorem Mod.only_mono {a b : Mod} {ps qs : List Part} {fs gs : List Fld} (h : a.only ps fs b) (hp : ∀ p ∈ ps, p ∈ qs)
    (hf : ∀ f ∈ fs, f ∈ gs) : a.only qs gs b := ⟨Mod.onlyParts_mono h.1 hp, Mod.onlyFields_mono h.2 hf⟩

theorem Mod.only_put (m : Mod) (f : Fld) (v : Nat) (ps : List Part) {fs : List Fld} (h : f ∈ fs) : m.only ps fs (m.put f v) :=
  ⟨Mod.onlyParts_put m f v ps, Mod.onlyFields_put m f v h⟩

theorem Mod.only_puts (m : Mod) (l : List (Fld × Nat)) (ps : List Part) {fs : List Fld} (h : ∀ e ∈ l, e.1 ∈ fs) : m.only ps fs (m.puts l) :=
  ⟨Mod.onlyParts_puts m l ps, Mod.onlyFields_puts m l h⟩

theorem Mod.only_setWord (m : Mod) (a : Nat) (v : Word) (ps : List Part) {fs : List Fld} (h : ⟨a, 0, 32⟩ ∈ fs) : m.only ps fs (m.setWord a v) :=
  ⟨by intro p _; cases p <;> rfl, Mod.onlyFields_setWord m a v h⟩

/-- The collector changes, the registers do not. -/
theorem Mod.only_flt (m : Mod) (f : FltS) {ps : List Part} (fs : List Fld) (hp : Part.flt ∈ ps) : m.only ps fs { m with flt := f } :=
  ⟨by intro p hq; cases p <;> first | rfl | exact absurd hp hq, Mod.onlyFields_of_regs fs rfl⟩

/-- The latches of a report: FLT_LATCH, and FLT_FATAL with SAFE_REQ for a fatal one. -/
theorem Mod.latch_frame (m : Mod) (r : Rep) (ps : List Part) {fs : List Fld} (hl : R.FLT_LATCH_BLK ∈ fs) (hf : R.FLT_FATAL_BLK ∈ fs)
    (hs : R.FLT_STAT_SAFE_REQ ∈ fs) : m.only ps fs (if r.ind = .clr then m else
      let m := m.put R.FLT_LATCH_BLK (setBit (m.get R.FLT_LATCH_BLK) r.blk true)
      if r.cls = 2 then
        (m.put R.FLT_FATAL_BLK (setBit (m.get R.FLT_FATAL_BLK) r.blk true)).put R.FLT_STAT_SAFE_REQ 1
      else m) := by
  split
  · exact Mod.only_refl m ps fs
  · simp only
    split
    · exact Mod.only_trans (Mod.only_trans (Mod.only_put _ _ _ ps hl) (Mod.only_put _ _ _ ps hf)) (Mod.only_put _ _ _ ps hs)
    · exact Mod.only_put _ _ _ ps hl

/-- The report lines of an event write the latches only. -/
theorem Mod.reportLines_event (m : Mod) (r : Rep) (ps : List Part) {fs : List Fld} (he : r.ind = .event) (hl : R.FLT_LATCH_BLK ∈ fs)
    (hf : R.FLT_FATAL_BLK ∈ fs) (hs : R.FLT_STAT_SAFE_REQ ∈ fs) : m.only ps fs (m.reportLines r) := by
  have h := Mod.latch_frame m r ps hl hf hs
  unfold Mod.reportLines
  rw [he] at h ⊢
  exact h

/-- The report lines write the fields of `repFlds`, and the list of conditions. -/
theorem Mod.reportLines_only (m : Mod) (r : Rep) {ps : List Part} {fs : List Fld} (hp : Part.flt ∈ ps) (h : ∀ f ∈ repFlds r.blk, f ∈ fs) :
    m.only ps fs (m.reportLines r) := by
  have hm : ∀ f : Fld, f ∈ repFlds r.blk → f ∈ fs := h
  have f0 := Mod.latch_frame m r ps (hm _ (by simp [repFlds])) (hm _ (by simp [repFlds])) (hm _ (by simp [repFlds]))
  unfold Mod.reportLines
  revert f0
  generalize (if r.ind = .clr then m else
      let m := m.put R.FLT_LATCH_BLK (setBit (m.get R.FLT_LATCH_BLK) r.blk true)
      if r.cls = 2 then
        (m.put R.FLT_FATAL_BLK (setBit (m.get R.FLT_FATAL_BLK) r.blk true)).put R.FLT_STAT_SAFE_REQ 1
      else m) = q
  intro f0
  have sy : ∀ a : Mod, a.only ps fs (a.syncActive r.blk) := fun a =>
    have k := Mod.syncActive_frame a r.blk h ps
    ⟨k.2, k.1⟩
  simp only
  split
  · exact f0
  · refine Mod.only_trans f0 (Mod.only_trans ?_ (sy _))
    split
    · exact Mod.only_refl q ps fs
    · exact Mod.only_flt q _ fs hp
  · exact Mod.only_trans f0 (Mod.only_trans (Mod.only_flt q _ fs hp) (sy _))

theorem Mod.reportLines_frame (m : Mod) (r : Rep) {fs : List Fld} (h : ∀ f ∈ repFlds r.blk, f ∈ fs) :
    m.onlyFields fs (m.reportLines r) ∧ m.onlyParts [.flt] (m.reportLines r) :=
  have k := Mod.reportLines_only m r (ps := [.flt]) (by simp) h
  ⟨k.2, k.1⟩

/-- A report that enters the lane or the queue changes the collector only. -/
theorem Mod.enterReport_only (m : Mod) (r : Rep) {ps : List Part} (fs : List Fld) (hp : Part.flt ∈ ps) : m.only ps fs (m.enterReport r) := by
  unfold Mod.enterReport
  split
  · split
    · exact Mod.only_refl m ps fs
    · simp only
      split
      · exact Mod.only_flt m _ fs hp
      · exact Mod.only_trans (Mod.only_flt m _ fs hp) (Mod.only_flt _ _ fs hp)
  · split <;> exact Mod.only_flt m _ fs hp

/-- A counter changes its word, at its first saturation SAT and SAT_OFF of its page, and what its report `tell` changes (R456). -/
theorem Mod.countBy_only (m : Mod) (a n : Nat) (tell : Mod → Rep → Mod) {ps : List Part} {fs : List Fld} (hp : Part.flt ∈ ps)
    (hw : ⟨a, 0, 32⟩ ∈ fs) (hs : R.BLK_STAT_SAT (a / 4096) ∈ fs) (ho : R.BLK_STAT_SAT_OFF (a / 4096) ∈ fs)
    (ht : ∀ (q : Mod) (r : Rep), r.blk = 14 → r.ind = .event → q.only ps fs (tell q r)) : m.only ps fs (m.countBy a n tell) := by
  unfold Mod.countBy
  simp only
  split
  · exact Mod.only_setWord m a _ ps hw
  · refine Mod.only_trans (Mod.only_setWord m a (BitVec.ofNat 32 (2 ^ 32 - 1)) ps hw) ?_
    generalize m.setWord a (BitVec.ofNat 32 (2 ^ 32 - 1)) = q
    unfold Mod.satMark
    split
    · exact Mod.only_refl q ps fs
    · simp only
      have h2 : ∀ x : Mod, x.only ps fs (if x.is (R.BLK_STAT_SAT (a / 4096)) then x else x.put (R.BLK_STAT_SAT_OFF (a / 4096)) (a % 4096)) := by
        intro x
        split
        · exact Mod.only_refl x ps fs
        · exact Mod.only_put x _ _ ps ho
      have h3 : ∀ x : Mod, x.only ps fs (if x.silent 14 0 then x else tell x { blk := 14, inst := 0, kind := 0x09, addr := a, cls := 0 }) := by
        intro x
        split
        · exact Mod.only_refl x ps fs
        · exact ht x _ rfl rfl
      exact Mod.only_trans (Mod.only_flt q _ fs hp)
        (Mod.only_trans (h2 _) (Mod.only_trans (Mod.only_put _ (R.BLK_STAT_SAT (a / 4096)) 1 ps hs) (h3 _)))

theorem Mod.pushReport_only (m : Mod) (r : Rep) (b : Nat) {ps : List Part} {fs : List Fld} (hp : Part.flt ∈ ps) (h : ∀ f ∈ repFlds b, f ∈ fs) :
    m.only ps fs (m.pushReport r) := by
  have hm : ∀ f : Fld, f ∈ repFlds b → f ∈ fs := h
  unfold Mod.pushReport
  split
  · refine Mod.only_trans (Mod.only_trans (Mod.enterReport_only m r fs hp) ?_) (Mod.only_put _ _ _ ps (hm _ (by simp [repFlds])))
    refine Mod.countBy_only _ _ _ _ hp (hm R.FLT_DROP_CNT_COUNT (by simp [repFlds])) (hm (R.BLK_STAT_SAT 14) (by simp [repFlds]))
      (hm (R.BLK_STAT_SAT_OFF 14) (by simp [repFlds])) ?_
    intro q x _ he
    exact Mod.only_trans (Mod.reportLines_event q x ps he (hm _ (by simp [repFlds])) (hm _ (by simp [repFlds])) (hm _ (by simp [repFlds])))
      (Mod.enterReport_only _ x fs hp)
  · exact Mod.enterReport_only m r fs hp

theorem Mod.pushReport_frame (m : Mod) (r : Rep) (b : Nat) {fs : List Fld} (h : ∀ f ∈ repFlds b, f ∈ fs) :
    m.onlyFields fs (m.pushReport r) ∧ m.onlyParts [.flt] (m.pushReport r) :=
  have k := Mod.pushReport_only m r b (ps := [.flt]) (by simp) h
  ⟨k.2, k.1⟩

/-- A report touches the collector and the fields of `repFlds` only. -/
theorem Mod.report_frame (m : Mod) (r : Rep) {fs : List Fld} (h : ∀ f ∈ repFlds r.blk, f ∈ fs) :
    m.onlyFields fs (m.report r) ∧ m.onlyParts [.flt] (m.report r) := by
  unfold Mod.report
  split
  · exact ⟨Mod.onlyFields_refl m fs, Mod.onlyParts_refl m _⟩
  · have a := Mod.reportLines_frame m r h
    have b := Mod.pushReport_frame (m.reportLines r) r r.blk h
    exact ⟨Mod.onlyFields_trans a.1 b.1, Mod.onlyParts_trans a.2 b.2⟩

theorem Mod.raise_frame (m : Mod) (blk inst kind addr cls : Nat) {fs : List Fld} (h : ∀ f ∈ repFlds blk, f ∈ fs) :
    m.onlyFields fs (m.raise blk inst kind addr cls) ∧ m.onlyParts [.flt] (m.raise blk inst kind addr cls) :=
  Mod.report_frame m _ h

theorem Mod.raiseLim_frame (m : Mod) (win blk inst kind addr cls : Nat) {fs : List Fld} (h : ∀ f ∈ repFlds blk, f ∈ fs) :
    m.onlyFields fs (m.raiseLim win blk inst kind addr cls) ∧ m.onlyParts [.flt] (m.raiseLim win blk inst kind addr cls) := by
  have r := Mod.raise_frame m blk inst kind addr cls h
  unfold Mod.raiseLim
  simp only
  split
  · refine ⟨Mod.onlyFields_trans r.1 (Mod.onlyFields_of_regs fs rfl), Mod.onlyParts_trans r.2 ?_⟩
    intro p hp; cases p <;> first | rfl | simp at hp
  · exact ⟨Mod.onlyFields_refl m fs, Mod.onlyParts_refl m _⟩

theorem Mod.raiseLimAt_frame (m : Mod) (win blk inst kind addr cls : Nat) {fs : List Fld} (h : ∀ f ∈ repFlds blk, f ∈ fs) :
    m.onlyFields fs (m.raiseLimAt win blk inst kind addr cls) ∧ m.onlyParts [.flt] (m.raiseLimAt win blk inst kind addr cls) := by
  have r := Mod.raise_frame m blk inst kind addr cls h
  unfold Mod.raiseLimAt
  simp only
  split
  · refine ⟨Mod.onlyFields_trans r.1 (Mod.onlyFields_of_regs fs rfl), Mod.onlyParts_trans r.2 ?_⟩
    intro p hp; cases p <;> first | rfl | simp at hp
  · exact ⟨Mod.onlyFields_refl m fs, Mod.onlyParts_refl m _⟩

theorem Mod.condStart_frame (m : Mod) (blk inst kind addr cls : Nat) {fs : List Fld} (h : ∀ f ∈ repFlds blk, f ∈ fs) :
    m.onlyFields fs (m.condStart blk inst kind addr cls) ∧ m.onlyParts [.flt] (m.condStart blk inst kind addr cls) := by
  unfold Mod.condStart
  split
  · exact ⟨Mod.onlyFields_refl m fs, Mod.onlyParts_refl m _⟩
  · exact Mod.report_frame m _ h

theorem Mod.condStartLim_frame (m : Mod) (key blk inst kind addr : Nat) {fs : List Fld} (h : ∀ f ∈ repFlds blk, f ∈ fs) :
    m.onlyFields fs (m.condStartLim key blk inst kind addr) ∧ m.onlyParts [.flt] (m.condStartLim key blk inst kind addr) := by
  have r := Mod.condStart_frame m blk inst kind addr 0 h
  unfold Mod.condStartLim
  split
  · exact ⟨Mod.onlyFields_refl m fs, Mod.onlyParts_refl m _⟩
  · refine ⟨Mod.onlyFields_trans r.1 (Mod.onlyFields_of_regs fs rfl), Mod.onlyParts_trans r.2 ?_⟩
    intro p hp; cases p <;> first | rfl | simp at hp

theorem Mod.condEnd_frame (m : Mod) (blk inst kind addr cls : Nat) {fs : List Fld} (h : ∀ f ∈ repFlds blk, f ∈ fs) :
    m.onlyFields fs (m.condEnd blk inst kind addr cls) ∧ m.onlyParts [.flt] (m.condEnd blk inst kind addr cls) := by
  unfold Mod.condEnd
  split
  · exact Mod.report_frame m _ h
  · exact ⟨Mod.onlyFields_refl m fs, Mod.onlyParts_refl m _⟩

theorem Mod.condSet_frame (m : Mod) (b : Bool) (blk inst kind addr cls : Nat) {fs : List Fld} (h : ∀ f ∈ repFlds blk, f ∈ fs) :
    m.onlyFields fs (m.condSet b blk inst kind addr cls) ∧ m.onlyParts [.flt] (m.condSet b blk inst kind addr cls) := by
  unfold Mod.condSet
  split
  · exact Mod.condStart_frame m _ _ _ _ _ h
  · exact Mod.condEnd_frame m _ _ _ _ _ h

/-! ## Reports that the collector takes -/

theorem Mod.pageOn_put (m : Mod) (f : Fld) (v p : Nat) (h : f.apart R.PWR_STAT_PG) : (m.put f v).pageOn p = m.pageOn p := by
  simp only [Mod.pageOn, Mod.domainOn, Mod.get_put_ne m f _ v h]

/-- A field write apart from the power-good bits does not change which reports the collector takes. -/
theorem Mod.takes_put {m : Mod} {b i : Nat} (f : Fld) (v : Nat) (h : f.apart R.PWR_STAT_PG) (k : m.takes b i) : (m.put f v).takes b i :=
  ⟨k.1, (Mod.pageOn_put m f v b h).trans k.2.1, k.2.2⟩

theorem Mod.reportLines_queues (m : Mod) (r : Rep) :
    (m.reportLines r).flt.lane = m.flt.lane ∧ (m.reportLines r).flt.queue = m.flt.queue := by
  unfold Mod.reportLines
  simp only
  repeat' split
  all_goals exact ⟨rfl, rfl⟩

/-- A report that the collector takes is the newest of its lane or queue. -/
theorem Mod.report_tells {m : Mod} (r : Rep) (h : m.takes r.blk r.inst) : (m.report r).tells r := by
  obtain ⟨h1, h2, h3, h4⟩ := h
  unfold Mod.report Mod.silent
  rw [h1, h2]
  simp only [Bool.not_true, Bool.or_false, Bool.false_eq_true, if_false]
  obtain ⟨q1, q2⟩ := Mod.reportLines_queues m r
  have room : (m.reportLines r).noRoom r = false := by
    unfold Mod.noRoom
    rw [q1, q2]
    split <;> simp <;> omega
  simp only [Mod.pushReport, Mod.enterReport, Mod.tells, room, Bool.false_eq_true, if_false]
  split <;> simp

theorem Mod.raise_tells {m : Mod} (blk inst kind addr cls : Nat) (h : m.takes blk inst) :
    (m.raise blk inst kind addr cls).tells { blk := blk, inst := inst, kind := kind, addr := addr, cls := cls } := Mod.report_tells _ h

theorem Mod.condStart_tells {m : Mod} (blk inst kind addr cls : Nat) (h : m.takes blk inst) (hc : m.condOn blk inst kind addr = false) :
    (m.condStart blk inst kind addr cls).tells { blk := blk, inst := inst, kind := kind, addr := addr, cls := cls, ind := .start } := by
  unfold Mod.condStart; rw [hc]; exact Mod.report_tells _ h

theorem Mod.condEnd_tells {m : Mod} (blk inst kind addr cls : Nat) (h : m.takes blk inst) (hc : m.condOn blk inst kind addr = true) :
    (m.condEnd blk inst kind addr cls).tells { blk := blk, inst := inst, kind := kind, addr := addr, cls := cls, ind := .clr } := by
  unfold Mod.condEnd; rw [hc]; exact Mod.report_tells _ h

theorem Mod.raiseLim_tells {m : Mod} (win blk inst kind addr cls : Nat) (h : m.takes blk inst)
    (hm : m.mayRaise (raiseKey blk inst kind) win = true) :
    (m.raiseLim win blk inst kind addr cls).tells { blk := blk, inst := inst, kind := kind, addr := addr, cls := cls } := by
  unfold Mod.raiseLim; simp only [hm, if_true]; exact Mod.raise_tells _ _ _ _ _ h

theorem Mod.raiseLimAt_tells {m : Mod} (win blk inst kind addr cls : Nat) (h : m.takes blk inst)
    (hm : m.mayRaise ((addr + 1) * 2 ^ 24 + raiseKey blk inst kind) win = true) :
    (m.raiseLimAt win blk inst kind addr cls).tells { blk := blk, inst := inst, kind := kind, addr := addr, cls := cls } := by
  unfold Mod.raiseLimAt; simp only [hm, if_true]; exact Mod.raise_tells _ _ _ _ _ h

/-! ## Commands -/

/-- A command that changes the module answers a next state while the module is served. -/
theorem Does.ofMod {c : Instr} {s : State} {P : State → Prop} {f : Mod → Mod} (h : exec c s = onMod f s) (hon : s.on)
    (hp : P { s with m := f s.m }) : Does c s P :=
  ⟨_, by rw [h, onMod, if_neg hon], hp⟩

theorem Does.ofBoth {c : Instr} {s : State} {P : State → Prop} {f : Fuses × Mod → Fuses × Mod} (h : exec c s = onBoth f s) (hon : s.on)
    (hp : P { s with fuses := (f (s.fuses, s.m)).1, m := (f (s.fuses, s.m)).2 }) : Does c s P :=
  ⟨_, by rw [h, onBoth, if_neg hon], hp⟩

theorem Mod.guarded_ok {m : Mod} {a v : Nat} (f : Mod → Mod) (h : m.wrStatus a v = 0) : m.guarded a v f = { f m with resp := 0 } := by
  unfold Mod.guarded; rw [h]; rfl

theorem Mod.guardedR_ok {m : Mod} {a v : Nat} (f : Mod → Mod) (h : m.wrStatus a v = 0) : m.guardedR a v f = f { m with resp := 0 } := by
  unfold Mod.guardedR; rw [h]; rfl

theorem Mod.guardedRd_ok {m : Mod} {a : Nat} (f : Mod → Nat × Mod) (h : m.rdStatus a = 0) :
    m.guardedRd a f = { (f m).2 with rdata := (f m).1 % 2 ^ 32, resp := 0 } := by
  unfold Mod.guardedRd; rw [h]; rfl

end Sys2Proof.Machine
end

