-- ==== Sys2Proof/Laws/Shared.lean ====
section
/-!
SUPPORT. Laws of the shared operations: counters (R456), refusals (R391, R452), the answer of a guarded register word (R460), log records
(R352), messages that leave (R284), changes of power state (R399), banks of like things, the canonical form of the register file and of the
tide table.
-/
namespace Sys2Proof.Machine

/-! ## Joining frames -/

theorem Mod.only_raise (m : Mod) (blk inst kind addr cls : Nat) {ps : List Part} {fs : List Fld} (hp : Part.flt ∈ ps)
    (h : ∀ f ∈ repFlds blk, f ∈ fs) : m.only ps fs (m.raise blk inst kind addr cls) :=
  have r := Mod.raise_frame m blk inst kind addr cls h
  ⟨Mod.onlyParts_mono r.2 (by simpa using hp), r.1⟩

/-! ## Counters (R456) -/

/-- A counter below its end takes the sum; at its end it holds 2³² − 1. -/
theorem Mod.word_bumpBy (m : Mod) (a n : Nat) (h : (m.word a).toNat + n < 2 ^ 32) :
    m.bumpBy a n = m.setWord a (BitVec.ofNat 32 ((m.word a).toNat + n)) := by
  unfold Mod.bumpBy Mod.countBy; simp only [if_pos h]

/-- One event counts one. -/
theorem Mod.get_bump (m : Mod) (a : Nat) (h : (m.word a).toNat + 1 < 2 ^ 32) :
    ((m.bumpBy a 1).word a).toNat = (m.word a).toNat + 1 := by
  rw [Mod.word_bumpBy _ _ _ h, Mod.word_setWord_same, BitVec.toNat_ofNat, Nat.mod_eq_of_lt h]

/-- The fields that a counter at `a` may change: itself, SAT and SAT_OFF of its page, and what CNT_SAT's report changes. -/
def cntFlds (a : Nat) : List Fld := ⟨a, 0, 32⟩ :: R.BLK_STAT_SAT (a / 4096) :: R.BLK_STAT_SAT_OFF (a / 4096) :: repFlds 14

/-- A counter changes its word, at its first saturation the page's SAT bits, and the collector by CNT_SAT. -/
theorem Mod.bumpBy_frame (m : Mod) (a n : Nat) {ps : List Part} {fs : List Fld} (hp : Part.flt ∈ ps) (h : ∀ f ∈ cntFlds a, f ∈ fs) :
    m.only ps fs (m.bumpBy a n) := by
  have hr : ∀ f ∈ repFlds 14, f ∈ fs := fun f hf => h f (List.mem_cons_of_mem _ (List.mem_cons_of_mem _ (List.mem_cons_of_mem _ hf)))
  unfold Mod.bumpBy
  refine Mod.countBy_only m a n _ hp (h _ List.mem_cons_self) (h _ (by simp [cntFlds])) (h _ (by simp [cntFlds])) ?_
  intro q r hb he
  exact Mod.only_trans (Mod.reportLines_only q r hp (by rw [hb]; exact hr)) (Mod.pushReport_only _ r 14 hp hr)

/-! ## Refusals and guarded words (R391, R452, R460) -/

/-- A word refused by its block's rule changes nothing but the STATUS it answers. -/
theorem Mod.refuse_frame (m : Mod) {ps : List Part} (fs : List Fld) (hp : Part.resp ∈ ps) : m.only ps fs m.refuse := by
  refine ⟨?_, Mod.onlyFields_of_regs fs rfl⟩
  intro p hq; cases p <;> first | rfl | exact absurd hp hq

@[simp] theorem Mod.refuse_resp (m : Mod) : m.refuse.resp = 1 := rfl
@[simp] theorem Mod.refuse_get (m : Mod) (f : Fld) : m.refuse.get f = m.get f := rfl

/-- The fields that a refusal for lack of authorisation may change. -/
def authFlds : List Fld := R.SEC_EVT_AUTH :: (cntFlds R.SEC_AUTH_CNT_COUNT.addr ++ repFlds 18)

/-- A refusal for lack of authorisation counts, reports and sets AUTH, and leaves the rest (R391). -/
theorem Mod.authRefused_frame (m : Mod) {ps : List Part} {fs : List Fld} (hp : Part.flt ∈ ps) (h : ∀ f ∈ authFlds, f ∈ fs) :
    m.only ps fs m.authRefused := by
  have hc : ∀ f ∈ cntFlds R.SEC_AUTH_CNT_COUNT.addr, f ∈ fs := fun f hf => h f (List.mem_cons_of_mem _ (List.mem_append_left _ hf))
  have hr : ∀ f ∈ repFlds 18, f ∈ fs := fun f hf => h f (List.mem_cons_of_mem _ (List.mem_append_right _ hf))
  unfold Mod.authRefused Mod.bump
  refine Mod.only_trans (Mod.only_trans (Mod.bumpBy_frame m _ 1 hp hc) ?_) (Mod.only_put _ _ _ ps (h _ List.mem_cons_self))
  have r := Mod.raiseLim_frame (m.bumpBy R.SEC_AUTH_CNT_COUNT.addr 1) tickS 18 0 0x06 0 0 hr
  exact ⟨Mod.onlyParts_mono r.2 (by simpa using hp), r.1⟩

/-- What a guarded word answers: STATUS 0 with its effect, STATUS 3 with the refusal counted, else the STATUS alone. -/
theorem Mod.guarded_cases (m : Mod) (a v : Nat) (f : Mod → Mod) :
    (m.wrStatus a v = 0 ∧ m.guarded a v f = { f m with resp := 0 }) ∨
    (m.wrStatus a v = 3 ∧ m.guarded a v f = { m.authRefused with resp := 3 }) ∨
    (m.wrStatus a v ≠ 0 ∧ m.wrStatus a v ≠ 3 ∧ m.guarded a v f = { m with resp := m.wrStatus a v }) := by
  unfold Mod.guarded
  split
  next h => exact .inl ⟨h, rfl⟩
  next h => exact .inr (.inl ⟨h, rfl⟩)
  next k h0 h3 => exact .inr (.inr ⟨h0, h3, rfl⟩)

/-- As `Mod.guarded_cases`, for a rule that may refuse the word itself. -/
theorem Mod.guardedR_cases (m : Mod) (a v : Nat) (f : Mod → Mod) :
    (m.wrStatus a v = 0 ∧ m.guardedR a v f = f { m with resp := 0 }) ∨
    (m.wrStatus a v = 3 ∧ m.guardedR a v f = { m.authRefused with resp := 3 }) ∨
    (m.wrStatus a v ≠ 0 ∧ m.wrStatus a v ≠ 3 ∧ m.guardedR a v f = { m with resp := m.wrStatus a v }) := by
  unfold Mod.guardedR
  split
  next h => exact .inl ⟨h, rfl⟩
  next h => exact .inr (.inl ⟨h, rfl⟩)
  next k h0 h3 => exact .inr (.inr ⟨h0, h3, rfl⟩)

/-- The access rules answer STATUS 0 to 3 (R460). -/
theorem Mod.wrStatus_le (m : Mod) (a v : Nat) (fw : Bool) : m.wrStatus a v fw ≤ 3 := by
  unfold Mod.wrStatus
  repeat' split
  all_goals omega

/-- A word that the access rules let through has a page that serves (R447, R449, R374). -/
theorem Mod.wrStatus_serves {m : Mod} {a v : Nat} {fw : Bool} (h : m.wrStatus a v fw = 0) : m.pageServes (a / 4096) = true := by
  unfold Mod.wrStatus at h
  cases x : m.pageServes (a / 4096)
  · rw [x] at h; simp at h
  · rfl

/-! ## Log records and messages -/

/-- A log record that arrives changes the log's arrivals only. -/
theorem Mod.log1_frame (m : Mod) (typ code : Nat) (body : List Nat) (free : Bool) {ps : List Part} (fs : List Fld) (hp : Part.log ∈ ps) :
    m.only ps fs (m.log1 typ code body free) := by
  refine ⟨?_, Mod.onlyFields_of_regs fs rfl⟩
  intro p hq; cases p <;> first | rfl | exact absurd hp hq

/-- It is the newest record on its way to the log. -/
theorem Mod.log1_logs (m : Mod) (typ code : Nat) (body : List Nat) (free : Bool) :
    (m.log1 typ code body free).logs typ (code % 65536) :=
  ⟨⟨m.stamp typ code body, free⟩, by rw [Mod.log1_arr, List.getLast?_concat], rfl, rfl⟩

/-- A message that waits at a port changes the links only. -/
theorem Mod.enqueue_frame (m : Mod) (p : Nat) (g : Msg) {ps : List Part} (fs : List Fld) (hp : Part.lnk ∈ ps) : m.only ps fs (m.enqueue p g) := by
  refine ⟨?_, Mod.onlyFields_of_regs fs rfl⟩
  intro q hq; cases q <;> first | rfl | exact absurd hp hq

@[simp] theorem Mod.enqueue_get (m : Mod) (p : Nat) (g : Msg) (f : Fld) : (m.enqueue p g).get f = m.get f := rfl
@[simp] theorem Mod.nextMseq_get (m : Mod) (c : Nat) (f : Fld) : (m.nextMseq c).2.get f = m.get f := rfl

/-- The copies of a ring broadcast change the links only. -/
theorem Mod.putRing_frame (m : Mod) (g : Msg) {ps : List Part} (fs : List Fld) (hp : Part.lnk ∈ ps) : m.only ps fs (m.putRing g) := by
  have h1 : ∀ (q : Mod) (b : Bool) (p : Nat) (g : Msg), q.only ps fs (if b then q.enqueue p g else q) := by
    intro q b p g
    split
    · exact Mod.enqueue_frame _ _ _ fs hp
    · exact Mod.only_refl q ps fs
  exact Mod.only_trans (h1 m _ 0 g) (h1 _ _ 1 _)

/-- A ring broadcast changes the links only. -/
theorem Mod.sendRing_frame (m : Mod) (c : Nat) (body : List Nat) {ps : List Part} (fs : List Fld) (hp : Part.lnk ∈ ps) :
    m.only ps fs (m.sendRing c body) := by
  have hq : m.only ps fs (m.nextMseq c).2 := by
    refine ⟨?_, Mod.onlyFields_of_regs fs rfl⟩
    intro q hq; cases q <;> first | rfl | exact absurd hp hq
  exact Mod.only_trans hq (Mod.putRing_frame _ _ fs hp)

/-- A message onto the ring changes the links only, whether or not a port is up. -/
theorem Mod.ringUnicast_frame (m : Mod) (p : Nat) (g : Msg) {ps : List Part} (fs : List Fld) (hp : Part.lnk ∈ ps) :
    m.only ps fs (m.ringUnicast p g) := by
  unfold Mod.ringUnicast
  split
  · exact Mod.only_refl m ps fs
  · exact Mod.enqueue_frame m _ _ fs hp

/-! ## Power states (R399) -/

/-- A BAL pause changes the chain and its BAL_ACT bit only (R242). -/
theorem Mod.balPause_frame (m : Mod) {ps : List Part} {fs : List Fld} (hp : Part.wch ∈ ps) (hf : R.WCH_STAT_BAL_ACT ∈ fs) :
    m.only ps fs m.balPause := by
  have hx : ∀ (q : Mod) (w : WchS), q.only ps fs { q with wch := w } := fun q w =>
    ⟨by intro p hq; cases p <;> first | rfl | exact absurd hp hq, Mod.onlyFields_of_regs fs rfl⟩
  have hc : ∀ (q : Mod) (r : Nat) (b : List Nat), q.only ps fs (q.chainAll r b) := by
    intro q r b
    unfold Mod.chainAll
    split
    · exact Mod.only_refl q ps fs
    · exact hx q _
    · exact Mod.only_trans (hx q _) (hx _ _)
  unfold Mod.balPause
  exact Mod.only_trans (Mod.only_trans (Mod.only_trans (hc m 0 _) (hc _ 1 _)) (hx _ _)) (Mod.only_put _ _ _ ps hf)

/-- Leaving RUN and STANDBY changes the roles and a lead's ELECTING bit only (R25). -/
theorem Mod.leaveRoles_frame (m : Mod) {ps : List Part} {fs : List Fld} (hp : Part.roles ∈ ps) (hf : R.MOD_ROLE_STAT_ELECTING ∈ fs) :
    m.only ps fs m.leaveRoles := by
  have h1 : m.only ps fs { m with roles.leaving := true } :=
    ⟨by intro p hq; cases p <;> first | rfl | exact absurd hp hq, Mod.onlyFields_of_regs fs rfl⟩
  unfold Mod.leaveRoles
  simp only
  split
  · exact Mod.only_trans h1 (Mod.only_put _ _ _ ps hf)
  · exact h1

/-- The fields that a change of power state writes. -/
def pstateFlds : List Fld := [R.WCH_STAT_BAL_ACT, R.MOD_ROLE_STAT_ELECTING, R.MGT_PSTATE_PREV, R.MGT_PSTATE_STATE, R.MGT_PSTATE_CAUSE]

/-- A change of power state writes MGT_PSTATE, sends a record to the log, may pause the chain, and is announced to the ring. -/
theorem Mod.setPState_frame (m : Mod) (new cause : Nat) (rec : Bool) {ps : List Part} {fs : List Fld} (hw : Part.wch ∈ ps) (hl : Part.log ∈ ps)
    (hr : Part.roles ∈ ps) (hf : ∀ f ∈ pstateFlds, f ∈ fs) : m.only ps fs (m.setPState new cause rec) := by
  have h1 : ∀ q : Mod, q.only ps fs (q.puts [(R.MGT_PSTATE_PREV, m.pstate), (R.MGT_PSTATE_STATE, new), (R.MGT_PSTATE_CAUSE, cause)]) :=
    fun q => Mod.only_puts q _ ps (by
      intro e he
      simp only [List.mem_cons, List.not_mem_nil, or_false] at he
      rcases he with rfl | rfl | rfl <;> exact hf _ (by simp [pstateFlds]))
  have h0 : m.only ps fs (if bleedState m.pstate && !bleedState new then m.balPause else m) := by
    split
    · exact Mod.balPause_frame m hw (hf _ (by simp [pstateFlds]))
    · exact Mod.only_refl m ps fs
  have h2 : ∀ q : Mod, q.only ps fs (if new = 2 ∨ new = 3 then { q with roles.leaving := false } else q.leaveRoles) := by
    intro q
    split
    · exact ⟨by intro p hq; cases p <;> first | rfl | exact absurd hr hq, Mod.onlyFields_of_regs fs rfl⟩
    · exact Mod.leaveRoles_frame q hr (hf _ (by simp [pstateFlds]))
  unfold Mod.setPState
  simp only
  split
  · exact Mod.only_trans (Mod.only_trans (Mod.only_trans h0 (h1 _)) (h2 _)) (Mod.log1_frame _ _ _ _ _ fs hl)
  · exact Mod.only_trans (Mod.only_trans h0 (h1 _)) (h2 _)

/-! ## Banks of like things -/

/-- A bank has its length, whatever list it is made from. -/
@[simp] theorem length_bank {α : Type} (n : Nat) (l : List α) (d : α) : (bank n l d).length = n := by
  simp only [bank, List.length_append, List.length_take, List.length_replicate]; omega

/-- Inside its length a bank reads what the list gives there. -/
theorem getD_bank {α : Type} (n : Nat) (l : List α) (d : α) (i : Nat) (h : i < n) : (bank n l d).getD i d = l.getD i d := by
  simp only [bank, List.getD_eq_getElem?_getD, List.getElem?_append, List.length_take, List.getElem?_take, List.getElem?_replicate]
  by_cases k : i < l.length
  · rw [if_pos (by omega), if_pos h]
  · rw [if_neg (by omega), List.getElem?_eq_none (by omega)]
    split <;> rfl

/-- A bank after one of its things was changed. -/
theorem getD_modify_bank {α : Type} (n : Nat) (l : List α) (d : α) (i j : Nat) (f : α → α) (h : j < n) :
    ((bank n l d).modify i f).getD j d = if i = j then f (l.getD j d) else l.getD j d := by
  have hb := getD_bank n l d j h
  rw [List.getD_eq_getElem?_getD] at hb ⊢
  rw [List.getElem?_modify]
  have hl : j < (bank n l d).length := by simpa using h
  rw [List.getElem?_eq_getElem hl] at hb ⊢
  simp only [Option.getD_some] at hb
  split <;> simp [hb]

/-- A bank after one of its things was replaced. -/
theorem getD_set_bank {α : Type} (n : Nat) (l : List α) (d : α) (i j : Nat) (v : α) (h : j < n) :
    ((bank n l d).set i v).getD j d = if i = j then v else l.getD j d := by
  have hb := getD_bank n l d j h
  rw [List.getD_eq_getElem?_getD] at hb ⊢
  rw [List.getElem?_set]
  have hl : j < (bank n l d).length := by simpa using h
  rw [List.getElem?_eq_getElem hl] at hb ⊢
  split
  · subst_vars; simp [h]
  · exact hb

/-- A port after a port was changed: its change is seen, every other port stays. -/
theorem Mod.port_setPort (m : Mod) (p q : Nat) (f : Port → Port) (h : q < 7) :
    (m.setPort p f).port q = if p = q then f (m.port q) else m.port q := getD_modify_bank 7 _ _ _ _ _ h

theorem Mod.phase_setPhase (m : Mod) (n k : Nat) (f : Phase → Phase) (h : k < 40) :
    (m.setPhase n f).phase k = if n = k then f (m.phase k) else m.phase k := getD_modify_bank 40 _ _ _ _ _ h

theorem Mod.conv_setConv (m : Mod) (c k : Nat) (f : Conv → Conv) (h : k < 4) :
    (m.setConv c f).conv k = if c = k then f (m.conv k) else m.conv k := getD_modify_bank 4 _ _ _ _ _ h

theorem Mod.wring_setRing (m : Mod) (r k : Nat) (f : WRing → WRing) (h : k < 2) :
    (m.setRing r f).wring k = if r = k then f (m.wring k) else m.wring k := getD_modify_bank 2 _ _ _ _ _ h

theorem Mod.bp_setBp (m : Mod) (p k : Nat) (f : BPole → BPole) (h : k < 2) :
    (m.setBp p f).bp k = if p = k then f (m.bp k) else m.bp k := getD_modify_bank 2 _ _ _ _ _ h

/-- A stake's record after a record was put in place; every other record stays. -/
theorem Mod.stake_setStake (m : Mod) (n k : Nat) (r : List Nat) : (m.setStake n r).stake k = if n = k then r else m.stake k := by
  unfold Mod.setStake Mod.stake
  simp only [Mod.put_stk, Sparse.get_set]

/-! ## Canonical forms -/

/-- The report lines keep the canonical form of the register file. -/
theorem Mod.wf_reportLines (m : Mod) (r : Rep) (h : Sparse.wf regReset m.regs = true) : Sparse.wf regReset (m.reportLines r).regs = true := by
  have hs : ∀ (q : Mod) (b : Nat), Sparse.wf regReset q.regs = true → Sparse.wf regReset (q.syncActive b).regs = true :=
    fun q b x => Mod.wf_put _ _ _ (Mod.wf_put _ _ _ (Mod.wf_put _ _ _ x))
  have first : ∀ q : Mod, q = (if r.ind = .clr then m else
      let m := m.put R.FLT_LATCH_BLK (setBit (m.get R.FLT_LATCH_BLK) r.blk true)
      if r.cls = 2 then
        (m.put R.FLT_FATAL_BLK (setBit (m.get R.FLT_FATAL_BLK) r.blk true)).put R.FLT_STAT_SAFE_REQ 1
      else m) → Sparse.wf regReset q.regs = true := by
    intro q hq
    subst hq
    split
    · exact h
    · simp only
      split
      · exact Mod.wf_put _ _ _ (Mod.wf_put _ _ _ (Mod.wf_put _ _ _ h))
      · exact Mod.wf_put _ _ _ h
  unfold Mod.reportLines
  have f0 := first _ rfl
  revert f0
  generalize (if r.ind = .clr then m else
      let m := m.put R.FLT_LATCH_BLK (setBit (m.get R.FLT_LATCH_BLK) r.blk true)
      if r.cls = 2 then
        (m.put R.FLT_FATAL_BLK (setBit (m.get R.FLT_FATAL_BLK) r.blk true)).put R.FLT_STAT_SAFE_REQ 1
      else m) = q
  intro f0
  simp only
  split
  · exact f0
  · refine hs _ _ ?_
    split <;> exact f0
  · exact hs _ _ f0

/-- The collector's intake leaves the registers. -/
theorem Mod.enterReport_regs (m : Mod) (r : Rep) : (m.enterReport r).regs = m.regs := by
  unfold Mod.enterReport
  repeat' split
  all_goals first | rfl | (simp only; split <;> rfl)

/-- A counter keeps the canonical form of the register file where its report does. -/
theorem Mod.wf_countBy (m : Mod) (a n : Nat) (tell : Mod → Rep → Mod)
    (ht : ∀ q r, Sparse.wf regReset q.regs = true → Sparse.wf regReset (tell q r).regs = true) (h : Sparse.wf regReset m.regs = true) :
    Sparse.wf regReset (m.countBy a n tell).regs = true := by
  unfold Mod.countBy
  simp only
  split
  · exact Mod.wf_setWord m a _ h
  · have hq := Mod.wf_setWord m a (BitVec.ofNat 32 (2 ^ 32 - 1)) h
    revert hq
    generalize m.setWord a (BitVec.ofNat 32 (2 ^ 32 - 1)) = q
    intro hq
    unfold Mod.satMark
    split
    · exact hq
    · have h2 : ∀ x : Mod, Sparse.wf regReset x.regs = true →
          Sparse.wf regReset (if x.is (R.BLK_STAT_SAT (a / 4096)) then x else x.put (R.BLK_STAT_SAT_OFF (a / 4096)) (a % 4096)).regs = true := by
        intro x hx
        split
        · exact hx
        · exact Mod.wf_put _ _ _ hx
      have h3 : ∀ x : Mod, Sparse.wf regReset x.regs = true →
          Sparse.wf regReset (if x.silent 14 0 then x else tell x { blk := 14, inst := 0, kind := 0x09, addr := a, cls := 0 }).regs = true := by
        intro x hx
        split
        · exact hx
        · exact ht _ _ hx
      exact h3 _ (Mod.wf_put _ (R.BLK_STAT_SAT (a / 4096)) 1 (h2 _ hq))

/-- A report in the collector keeps the canonical form of the register file. -/
theorem Mod.wf_pushReport (m : Mod) (r : Rep) (h : Sparse.wf regReset m.regs = true) : Sparse.wf regReset (m.pushReport r).regs = true := by
  have he : ∀ (q : Mod) (x : Rep), Sparse.wf regReset q.regs = true → Sparse.wf regReset (q.enterReport x).regs = true :=
    fun q x hq => by rw [Mod.enterReport_regs]; exact hq
  unfold Mod.pushReport
  split
  · exact Mod.wf_put _ _ _ (Mod.wf_countBy _ _ _ _ (fun q x hq => he _ _ (Mod.wf_reportLines q x hq)) (he m r h))
  · exact he m r h

/-- A report keeps the canonical form of the register file. -/
theorem Mod.wf_report (m : Mod) (r : Rep) (h : Sparse.wf regReset m.regs = true) : Sparse.wf regReset (m.report r).regs = true := by
  unfold Mod.report
  split
  · exact h
  · exact Mod.wf_pushReport _ r (Mod.wf_reportLines m r h)

/-- A counter keeps the canonical form of the register file. -/
theorem Mod.wf_bumpBy (m : Mod) (a n : Nat) (h : Sparse.wf regReset m.regs = true) : Sparse.wf regReset (m.bumpBy a n).regs = true :=
  Mod.wf_countBy m a n _ (fun _ x hq => Mod.wf_pushReport _ x (Mod.wf_reportLines _ x hq)) h

/-- Clearing a slot keeps the canonical form of the tide table. -/
theorem Mod.wf_clearSlot (m : Mod) (n : Nat) (h : Sparse.wf (fun _ => 0) m.ttb.tab = true) :
    Sparse.wf (fun _ => 0) (m.clearSlot n).ttb.tab = true := by
  have hk : Sparse.wf (fun _ => 0) (Sparse.keep (fun a => a / 4096 != n) m.ttb.tab) = true := Sparse.wf_keep _ _ h
  unfold Mod.clearSlot Mod.setSlot Mod.showSlot
  simp only
  split <;> simpa only [Mod.puts_ttb] using hk

/-- After a slot is cleared its entries read 0 and every other entry reads as before (R98). -/
theorem Mod.tabEntry_clearSlot (m : Mod) (n a : Nat) : (m.clearSlot n).tabEntry a = if a / 4096 = n then 0 else m.tabEntry a := by
  have hk : Sparse.get (fun _ => 0) (Sparse.keep (fun a => a / 4096 != n) m.ttb.tab) a = if a / 4096 = n then 0 else m.tabEntry a := by
    rw [Sparse.get_keep]
    unfold Mod.tabEntry
    by_cases e : a / 4096 = n <;> simp [e]
  unfold Mod.clearSlot Mod.setSlot Mod.showSlot Mod.tabEntry
  simp only
  split <;> simpa only [Mod.puts_ttb, Mod.tabEntry] using hk

end Sys2Proof.Machine
end

