-- ==== Sys2Proof/WellFormed.lean ====
section
/-!
DEFINITION. Well-formed commands: operands that the module's inputs can present. Most operands are bounded by their types; the rest are
checked here. The meanings are total and take any operand.
-/
namespace Sys2Proof
open Sys2Proof.Machine

/-- A 16-bit sample code of a converter (R192). -/
def sampleOk (v : Int) : Bool := decide (-32768 ≤ v) && decide (v ≤ 32767)

/-- A message payload: at most 240 bytes (R283). -/
def payloadOk (b : List Byte) : Bool := decide (b.length ≤ 240)

/-- The payload of a register transaction (Table 09-8): 8 bytes and up to 56 words. -/
def txOk (b : List Byte) : Bool := decide (8 ≤ b.length) && decide (b.length ≤ 232)

/-- A block of a sweep (Table 07-4): a monitor slot of the two rings. -/
def blockForm (b : Block) : Bool := decide (b.slot < 64) && b.bytes.all (fun x => decide (x < 256))

/-- What a bring-up can find: at most 32 monitors a ring (R210). -/
def scanOk (r : RingScan) : Bool := decide (r.cntA ≤ 32) && decide (r.cntB ≤ 32)

/-- A snapshot: 50 rows of 96 samples, 96 boundary samples, 64 slow samples (R118, R192); failed reads of stores 0 to 11 (Table 11-1). -/
def snapOk (x : Snap) : Bool :=
  x.rows.length == 50 && x.rows.all (fun r => r.length == 96 && r.all sampleOk) && x.inst.length == 96 && x.inst.all sampleOk &&
    x.ls.length == 64 && x.ls.all sampleOk && x.ue.all (fun e => decide (e.1 < 4)) &&
    x.corr.all (fun e => decide (e.1 < 8) && decide (e.2.1 < 2))

/-- Operands that the types leave too wide. -/
def Instr.wellFormed : Instr → Bool
  | .frameBoundary x => snapOk x
  | .sensorSample v => v.length == 16 && v.all sampleOk
  | .sweepDataComposed b => b.all blockForm && decide ((b.map (·.slot)).Nodup)
  | .chainBringup _ r => scanOk r
  | .chainBringupRetry _ r => scanOk r
  | .wchCmdEnum a b => scanOk a && scanOk b
  | .phOcShore _ v => v.all sampleOk
  | .brakeEnd _ v => sampleOk v
  | .dmaMiss _ _ c => decide (c < 8000)
  | .scrubRead st f => (decide (st.val < 8) || st.val == 12 || st.val == 13 || st.val == 15) && f.all (fun e => decide (e.1 < 128))
  | .cliffTrip c p _ => c.val == 10 || p.val == 0
  | .comparatorRelease c p _ => c.val == 10 || p.val == 0
  | .statusFrameReceive _ b => b.length == 15
  | .regReadRequest _ _ _ b => txOk b
  | .regWriteRequest _ _ _ b => txOk b
  | .registerWrite a _ => decide (a.toNat % 4 = 0)
  | .pmbTransaction _ _ _ d _ => decide (d.length ≤ 34)
  | .heartbeatReceive _ b => payloadOk b
  | .mirrorReceive b => payloadOk b
  | .telemReceive b => payloadOk b
  | .shareReceive b => payloadOk b
  | .markerReceive b _ => payloadOk b
  | .arriveReceive b => payloadOk b
  | .releaseReceive b => payloadOk b
  | .routeReceive _ b => payloadOk b
  | .planReceive b => payloadOk b
  | .hostCmdReceive b => payloadOk b
  | .faultMessageReceive b => payloadOk b
  | .powerOnReset _ _ => true
  | .level3Reset => true
  | .bootRomStage _ _ => true
  | .bootLoaderStage => true
  | .bootFirmwareStage => true
  | .bootStage3 => true
  | .bootSetStage => true
  | .heartbeatSend => true
  | .leadHeartbeatTimeout => true
  | .electionComplete => true
  | .peerLost _ => true
  | .mirrorSend => true
  | .shareReplan => true
  | .hostRequestRedirect _ => true
  | .hostSilenceTimeout => true
  | .shareSilenceTimeout => true
  | .overflowClear => true
  | .busShore _ => true
  | .envStaleTimeout _ => true
  | .stoOffTimeout _ => true
  | .planBoundary => true
  | .telemSend => true
  | .rackDrawReport => true
  | .shareSend => true
  | .bwkCapHostWrite _ => true
  | .bwkClrDev _ => true
  | .missedEdge => true
  | .lullTimeout => true
  | .stepUpdateDone => true
  | .markerStepHoldEnd => true
  | .ttbCmdDropLock => true
  | .ttbCmdClearSlot _ => true
  | .ttbTabWrite _ => true
  | .ttbTabRead => true
  | .ttbLossDataAccess _ => true
  | .cenCtlStart => true
  | .coresStart => true
  | .cenCtlStop => true
  | .cenWinWrite _ => true
  | .cenWinRead => true
  | .cenSwapWrite _ => true
  | .bankSwap => true
  | .cmdLate _ => true
  | .overrun _ => true
  | .cenLawSelWrite _ => true
  | .hoDefer => true
  | .cenSpTgtWrite _ => true
  | .spLag => true
  | .cenStageSeal => true
  | .stageCheckDone => true
  | .phaseShedStart _ => true
  | .phaseRotation => true
  | .phsCmdRotNow => true
  | .phsCmdPkClr => true
  | .phsRearmWrite _ _ => true
  | .softStartShort _ => true
  | .phImb _ => true
  | .phSense _ => true
  | .phaseLinkDown _ => true
  | .phaseLinkTrained _ _ _ => true
  | .afeOpenDetect _ => true
  | .afeOpenEnd _ => true
  | .afeClrOpen => true
  | .afeMonSelWrite _ => true
  | .recorderFrozen => true
  | .capCmdFreeze => true
  | .capCmdRearm => true
  | .capWinRead _ => true
  | .comparatorSelfTest _ => true
  | .trpClrLatch => true
  | .sweepStart _ _ => true
  | .alarmReceive _ _ => true
  | .owtCycleStart => true
  | .wchCmdOwtNow => true
  | .wchCmdRearm _ => true
  | .wchBalDataWrite _ => true
  | .wchCellDataRead => true
  | .pllLock => true
  | .pllLockLoss => true
  | .pllRelockRetry _ => true
  | .refLost _ => true
  | .refRestore _ => true
  | .beaconSend _ => true
  | .beaconReceive _ _ _ _ _ _ _ _ => true
  | .timeSourceLost => true
  | .ppsEdge _ _ => true
  | .ppsLost => true
  | .ppsOutPulse => true
  | .timTodWrite _ => true
  | .timNowRead => true
  | .rootTimeout => true
  | .rootHoldoverTimeout => true
  | .stakeCommit _ => true
  | .stakeFire _ => true
  | .stakeExpire _ => true
  | .stkCmdArrive _ => true
  | .barrierDeadline _ => true
  | .portLight _ => true
  | .portTrained _ _ _ _ _ _ _ _ => true
  | .portDown _ => true
  | .laneLoss _ => true
  | .portRetrain _ => true
  | .portFailEnd _ => true
  | .lnkCmdRetrain _ => true
  | .idleSend _ => true
  | .linkFrameReceive _ _ _ => true
  | .retryTimeout _ _ => true
  | .stopmapSend => true
  | .chStall _ => true
  | .messageAged _ _ => true
  | .routeSend => true
  | .routeAgeOut _ => true
  | .pathHoldEnd _ => true
  | .planEnd => true
  | .faultMessageSend => true
  | .opticalDiag _ _ _ _ _ _ => true
  | .lnkCmdBase _ => true
  | .lnkCmdPoolMinClr => true
  | .reportIntake _ => true
  | .slackExpiry => true
  | .level1ResetDone _ _ => true
  | .shadowEnd _ _ => true
  | .dispHandled => true
  | .dispEscalate => true
  | .dispExtend => true
  | .dispHold => true
  | .fltClrLatch => true
  | .fltClrFatal => true
  | .fltClrFirst => true
  | .fltClrStat => true
  | .fltRecSeqWrite _ => true
  | .forceInject _ _ _ _ => true
  | .forceClear _ _ _ => true
  | .queueOvf => true
  | .dramScrubRead _ _ => true
  | .memCmdScrubNow => true
  | .fetchTrap _ => true
  | .fetchTrapDone => true
  | .mgtDmaHalt _ _ _ => true
  | .memCmdDmaResume _ => true
  | .logEnqueue => true
  | .logRecordWrite _ _ => true
  | .foldFlush => true
  | .tokenRefill => true
  | .operatingTimeSave => true
  | .logPowerupCheck => true
  | .logCmdErase => true
  | .logEraseDone => true
  | .logRdIdxWrite _ => true
  | .logRdStreamRead => true
  | .logNoteWrite _ => true
  | .lockstep _ => true
  | .wdogExpiry => true
  | .mgtWdogKick => true
  | .mgtCmdSensClr => true
  | .secCmdDataWrite _ => true
  | .provision _ _ => true
  | .certStore => true
  | .enterField _ => true
  | .debug => true
  | .eraseGrant => true
  | .svnAdvance _ => true
  | .returnCmd _ => true
  | .secDbgCmdWrite _ => true
  | .debugGrantExpiry => true
  | .attestationRequest _ => true
  | .attestationReady => true
  | .secMrExtend _ => true
  | .secMrSelWrite _ => true
  | .secAttDataRead => true
  | .secCertDataAccess _ _ => true
  | .mgtFwDataWrite _ => true
  | .mgtFwErase => true
  | .fwEraseDone => true
  | .mgtFwVerify => true
  | .fwVerifyDone _ => true
  | .mgtFwActivate => true
  | .mgtFwConfirm _ => true
  | .mgtFwCancel => true
  | .confirmTmo => true
  | .mgtDbgHalt _ => true
  | .mgtDbgStep _ => true
  | .mgtDbgResume _ => true
  | .mgtDbgDataAccess _ _ => true
  | .requestRun => true
  | .requestStandby => true
  | .requestService => true
  | .runEntry => true
  | .runExitDone => true
  | .holdupEntry => true
  | .holdupFlushDone _ => true
  | .holdupDomainsOff _ => true
  | .auxReturn => true
  | .holdupExhausted => true
  | .checkOccurrence => true
  | .pwrOnWrite _ => true
  | .domainPowerGood _ => true
  | .onFail _ => true
  | .pgLost _ => true
  | .auxOv => true
  | .huCharge => true
  | .huCapMeasure _ => true
  | .blkLockWrite _ _ => true
  | .blkCtlCntClr _ => true
  | .pmbSclTimeout => true
  | .pmStuck => true
  | .smbusAlertResponse => true
  | .page _ _ => true
  | .clearFaults _ => true
  | .pmbClrFaults => true
  | .capability => true
  | .voutMode => true
  | .statusByte => true
  | .statusWord => true
  | .statusVout => true
  | .statusIout => true
  | .statusInput => true
  | .statusTemperature => true
  | .statusCml => true
  | .readVin => true
  | .readIin => true
  | .readVout => true
  | .readIout => true
  | .readTemperature1 => true
  | .readTemperature2 => true
  | .readTemperature3 => true
  | .readPout => true
  | .readPin => true
  | .pmbusRevision => true
  | .mfrId => true
  | .mfrModel => true
  | .mfrRevision => true
  | .mfrReadSoc => true
  | .mfrReadPsto => true
  | .mfrReadPlan => true
  | .mfrState => true
  | .mfrFltSeq => true
  | .timeLost => true
  | .sclReleased => true
  | .auxOvClear => true

end Sys2Proof
end

