-- ==== Sys2Proof/Tests/Slice0.lean ====
section
/-!
SUPPORT. Tests of the model: ill-formed commands that the check refuses, single steps against figures of the spec, and for every statement
of the slice a state and operands that meet its hypotheses, clause by clause.
-/
namespace Sys2Proof.Tests
open Sys2Proof.Machine

set_option maxRecDepth 20000


/-- The state after reset with some register fields changed. -/
def st (l : List (Fld × Nat)) : State := { m := ({} : Mod).puts l }

/-- Boot stage 4 and every domain on: what most commands ask for. -/
def live : List (Fld × Nat) := [(R.MGT_BOOT_STAGE, 4), (R.PWR_STAT_PG, 0xFFFFF)]

/-- A stake record (Table 08-5) by MODE, ACTION, STATE, COUNT, ARRIVED, T and the home it names. -/
def stakeRec (mode action state count arrived t homeA homeS : Nat) : List Nat :=
  [mode, action, state, 0] ++ leBytes 2 count ++ leBytes 2 arrived ++ leBytes 8 t ++ zeros 12 ++ leBytes 2 homeA ++ leBytes 2 homeS

/-- A link frame in sequence (LSEQ 1) with a unicast of channel 3 from module 6 to module 5 (Tables 09-4 and 09-7, CRC-32 of IEEE 802.3). -/
def frameTo5 : List Byte := [1, 0, 0, 0, 0, 0, 0, 0, 3, 0, 5, 0, 6, 0, 0, 0, 1, 0, 0, 0, 0, 0, 0, 0, 230, 208, 24, 172]

/-- A STATUS frame with SEQ 0 whose first phase word has a driver fault (R201, Table 06-8). -/
def statusFrame : List Byte := [129, 0, 33, 0, 32, 0, 32, 0, 32, 0, 32, 0, 0, 132, 237]

/-- A container with one REGION section: 64 writable bytes at offset 0 of core 1 (R142, R145). -/
def regionImg : Sparse Nat := [(18, 1), (128, 5), (133, 1), (136, 16), (256, 1), (257, 2), (264, 64)]

/-- The row of TRP_V_CFG. -/
def row13040 : RegRow := ((rowOf 0x13040).map Prod.fst).getD ⟨0, 0, 0, true, []⟩

/-- A signature block without delegation: MAGIC, format 1, the rest zero (R369). -/
def sigBlk : List Nat := [0x01, 0x53, 0x4D, 0x46, 1, 0] ++ zeros 506

/-- A firmware image without code: BUILD 1, SVN 0, its block at 128 (Table 12-4). -/
def fwImg : Sparse Nat :=
  ([0x01, 0x46, 0x4D, 0x46, 1, 0, 0xB0, 0, 1, 0, 0, 0, 0, 0, 0, 0, 0, 0, 0, 0, 128] ++ zeros 107 ++ sigBlk).zipIdx.map (fun (e : Nat × Nat) => (e.2, e.1))

/-- A command window with CMD `k` and arguments, a zero challenge, a DEV of ones and a block without delegation (R380). -/
def token (k : Nat) (args : List Nat) : List Nat := [k, 0, 0, 0] ++ zeros 16 ++ List.replicate 16 1 ++ pad 28 args ++ sigBlk

/-- A container with one TASKS section: a task of kind `k` on core 0 (R142, R147). -/
def taskImg (k : Nat) : Sparse Nat := [(18, 1), (128, 7), (133, 1), (136, 32), (258, k)]

theorem witness_QueueRest :
    (∃ (s t : State) (c : Instr) (r : List Instr), s.pending = c :: r ∧ step s = .next t) :=
  ⟨{ State.reset with pending := [.auxReturn] }, _, .auxReturn, [], rfl, rfl⟩

theorem witness_OffServesNothing :
    (∃ (s : State) (c : Instr), s.m.pstate = 0 ∧ ∀ strap rc, c ≠ .powerOnReset strap rc) :=
  ⟨st [(R.MGT_PSTATE_STATE, 0)], .auxReturn, by decide, by simp⟩

theorem witness_FusesOnlyBurn :
    (∃ (f : Fuses) (s t : State), s.burnt f ∧ step s = .next t) :=
  ⟨{ provisioned := true, svn := 3 }, { State.reset with fuses := { provisioned := true, field := true, svn := 4 } }, _, by simp
  [State.burnt, Fuses.le], rfl⟩

theorem witness_RunRequests :
    (∃ (s : State), s.m.wrStatus 0x11044 11 = 0 ∧ s.m.pstate = 2 ∧ s.m.changing = false ∧ s.m.runWhy = 0) ∧
    (∃ (s : State), s.m.wrStatus 0x11044 11 = 0 ∧ s.m.pstate = 2 ∧ s.m.changing = false ∧ s.m.runWhy ≠ 0) ∧
    (∃ (s : State), s.m.wrStatus 0x11044 11 = 0 ∧ s.m.pstate = 4 ∧ s.m.changing = false) ∧
    (∃ (s : State), s.m.wrStatus 0x11044 11 = 0 ∧ s.m.pstate = 3 ∧ s.m.changing = false) ∧
    (∃ (s : State), s.m.wrStatus 0x11044 10 = 0 ∧ s.m.pstate = 3 ∧ s.m.changing = false ∧ s.m.bwk.ovf = false) ∧
    (∃ (s : State), s.m.wrStatus 0x11044 10 = 0 ∧ s.m.pstate = 4 ∧ s.m.changing = false ∧ s.m.fatalHeld = false) ∧
    (∃ (s : State), s.m.wrStatus 0x11044 10 = 0 ∧ s.m.pstate = 4 ∧ s.m.changing = false ∧ s.m.fatalHeld = true) ∧
    (∃ (s : State), s.m.wrStatus 0x11044 13 = 0 ∧ s.m.pstate = 2 ∧ s.m.changing = false) ∧
    (∃ (s : State), s.m.wrStatus 0x11044 13 = 0 ∧ s.m.pstate = 3 ∧ s.m.changing = false) ∧
    (∃ (s : State), s.m.wrStatus 0x11044 13 = 0 ∧ s.m.pstate = 4 ∧ s.m.changing = false ∧ s.m.fatalHeld = false) ∧
    (∃ (s : State), s.m.wrStatus 0x11044 10 = 0 ∧ s.m.pstate = 5 ∧ s.m.changing = false) ∧
    (∃ (s : State), s.m.wrStatus 0x11044 10 = 0 ∧ s.m.pstate = 3 ∧ s.m.changing = false ∧ s.m.bwk.ovf = true) :=
  ⟨⟨st (live ++ [(R.BLK_LOCK_LOCK 19, 1), (R.BLK_LOCK_LOCK 6, 1), (R.MOD_ROLE_CFG_MODE, 1), (R.CEN_STAT_IMG_A, 1), (R.CEN_CFG_CORE_EN,
    0), (R.PHS_LNK_STAT_UP, 255), (R.TIM_STAT_VALID, 1)]), by decide⟩,
    ⟨st live, by decide⟩,
    ⟨st (live ++ [(R.MGT_PSTATE_STATE, 4)]), by decide⟩,
    ⟨st (live ++ [(R.MGT_PSTATE_STATE, 3)]), by decide⟩,
    ⟨st (live ++ [(R.MGT_PSTATE_STATE, 3)]), by decide⟩,
    ⟨st (live ++ [(R.MGT_PSTATE_STATE, 4)]), by decide⟩,
    ⟨st (live ++ [(R.MGT_PSTATE_STATE, 4), (R.TRP_LATCH_LATCH, 1)]), by decide⟩,
    ⟨st live, by decide⟩,
    ⟨st (live ++ [(R.MGT_PSTATE_STATE, 3)]), by decide⟩,
    ⟨st (live ++ [(R.MGT_PSTATE_STATE, 4)]), by decide⟩,
    ⟨st (live ++ [(R.MGT_PSTATE_STATE, 5)]), by decide⟩,
    ⟨{ st (live ++ [(R.MGT_PSTATE_STATE, 3)]) with m.bwk.ovf := true }, by decide⟩⟩

theorem witness_RunEntryAndExit :
    (∃ (s : State) (t0 : Nat), s.m.pwr.change = .entry true t0 ∧ s.m.frame % 200 = 0 ∧ t0 + 500 * tickUs ≤ s.m.time.ticks ∧ s.m.runWhy = 0
    ∧ s.m.pstate = 2) ∧
    (∃ (s : State) (t0 : Nat), s.on ∧ s.m.pwr.change = .entry true t0 ∧ s.m.frame % 200 = 0 ∧ t0 + 500 * tickUs ≤ s.m.time.ticks ∧
    s.m.runWhy ≠ 0) ∧
    (∃ (s : State) (g : Nat) (j : Nat), s.m.pwr.change = .exit g j ∧ s.m.pstate = 3 ∧ 0 < j ∧ (s.m.atRest = true ∨ 1600 ≤ j) ∧ (g = 2 ∨ g
    = 5)) :=
  ⟨⟨{ st (live ++ [(R.BLK_LOCK_LOCK 19, 1), (R.BLK_LOCK_LOCK 6, 1), (R.MOD_ROLE_CFG_MODE, 1), (R.CEN_STAT_IMG_A, 1), (R.CEN_CFG_CORE_EN, 0), (R.PHS_LNK_STAT_UP, 255), (R.TIM_STAT_VALID, 1)]) with m.pwr.change := .entry true 0, m.time.ticks := 12800000 },
    0, by decide⟩,
    ⟨{ st live with m.pwr.change := .entry true 0, m.time.ticks := 12800000 }, 0, by decide⟩,
    ⟨{ st (live ++ [(R.MGT_PSTATE_STATE, 3)]) with m.pwr.change := .exit 5 1 }, 5, 1, by decide⟩⟩

theorem witness_HoldUp :
    (∃ (s : State), s.on ∧ s.m.pstate ≠ 1) ∧
    (∃ (s : State), s.m.pstate = 1 ∧ s.m.pwr.flushed = false) ∧
    (∃ (s : State), s.m.pstate = 1) ∧
    (∃ (s : State), s.m.pstate = 1) ∧
    (∃ (s : State), s.m.pstate = 1) ∧
    (∃ (s : State), s.m.pstate = 1) :=
  ⟨⟨st (live ++ [(R.MGT_PSTATE_STATE, 3)]), by decide⟩,
    ⟨st (live ++ [(R.MGT_PSTATE_STATE, 1)]), by decide⟩,
    ⟨st (live ++ [(R.MGT_PSTATE_STATE, 1)]), by decide⟩,
    ⟨st (live ++ [(R.MGT_PSTATE_STATE, 1)]), by decide⟩,
    ⟨st (live ++ [(R.MGT_PSTATE_STATE, 1)]), by decide⟩,
    ⟨st (live ++ [(R.MGT_PSTATE_STATE, 1)]), by decide⟩⟩

theorem witness_DomainSwitching :
    (∃ (s : State) (d : Nat), s.m.wrStatus 0x2044 (s.m.get R.PWR_ON_ON + 2 ^ d) = 0 ∧ s.on ∧ switchable d = true ∧ (∀ p ∈ domainParents d,
    s.m.domainOn p = true) ∧ bit (s.m.get R.PWR_ON_ON) d = false ∧ s.m.get R.PWR_STAT_BUSY = 0 ∧ s.m.pstate ≠ 1 ∧ s.m.flt.l3 = false ∧
    s.m.flt.l3Sys = false) ∧
    (∃ (s : State), s.m.wrStatus 0x2044 (s.m.get R.PWR_ON_ON + 16) = 0 ∧ s.on ∧ bit (s.m.get R.PWR_ON_ON) 4 = false ∧ s.m.domainOn 17 =
    false ∧ s.m.get R.PWR_STAT_BUSY = 0 ∧ s.m.takes 2 0) ∧
    (∃ (s : State) (d : Fin 20), s.on ∧ s.m.pwr.switches = [(d.val, true)]) ∧
    (∃ (s : State) (d : Fin 20), s.on ∧ s.m.pwr.switches = [(d.val, true)] ∧ s.m.takes 2 0) ∧
    (∃ (s : State) (d : Fin 20), s.on ∧ s.m.domainOn d = true ∧ s.m.takes 2 0) ∧
    (∃ (s : State) (d : Nat), s.m.wrStatus 0x2044 (s.m.get R.PWR_ON_ON - 2 ^ d) = 0 ∧ s.on ∧ switchable d = true ∧ 8 ≤ d ∧ bit (s.m.get
    R.PWR_ON_ON) d = true ∧ s.m.domainOn d = true ∧ s.m.get R.PWR_STAT_BUSY = 0 ∧ s.m.pstate ≠ 1 ∧ s.m.pstate ≠ 3 ∧ s.m.flt.l3 = false ∧
    s.m.flt.l3Sys = false) :=
  ⟨⟨st (live ++ [(R.PWR_STAT_PG, 0x000AFFFF), (R.PWR_STAT_PG, 0x000E000F)]), 16, by decide⟩,
    ⟨st (live ++ [(R.PWR_STAT_PG, 0xF)]), by decide⟩,
    ⟨{ st live with m.pwr.switches := [(13, true)] }, 13, by decide⟩,
    ⟨{ st live with m.pwr.switches := [(8, true)] }, 8, by decide⟩,
    ⟨st live, 18, by decide⟩,
    ⟨st (live ++ [(R.MGT_PSTATE_STATE, 4), (R.PWR_ON_ON, 0xFFFFF)]), 12, by decide⟩⟩

theorem witness_AuxiliaryInput :
    (∃ (s : State), s.on ∧ s.m.condOn 2 0 4 0 = false ∧ s.m.takes 2 0) ∧
    (∃ (s : State), s.on ∧ s.m.condOn 2 0 4 0 = true ∧ s.m.takes 2 0) :=
  ⟨⟨st live, by decide⟩,
    ⟨{ st live with m.flt.conds := [⟨2, 0, 4, 0, 1, false⟩] }, by decide⟩⟩

theorem witness_StoreAndChecks :
    (∃ (s : State), s.on ∧ s.m.is R.PWR_STAT_CHARGING = true ∧ s.m.get R.PWR_HU_STORE_V < 4500 ∧ s.m.pwr.chgTick + tickS ≤ s.m.time.ticks
    + 64000 ∧ s.m.condOn 2 0 5 0 = false ∧ s.m.takes 2 0) ∧
    (∃ (s : State) (cap : Fin 4096), s.on ∧ 800 ≤ cap.val) ∧
    (∃ (s : State) (cap : Fin 4096), s.on ∧ cap.val < 800 ∧ s.m.takes 2 0) ∧
    (∃ (s : State) (c : Check), s.on ∧ s.m.pwr.checks = [c]) :=
  ⟨⟨{ st (live ++ [(R.PWR_STAT_CHARGING, 1), (R.PWR_HU_STORE_V, 4499)]) with m.time.ticks := 12800000000000 }, by decide⟩,
    ⟨st live, 800, by decide⟩,
    ⟨st live, 799, by decide⟩,
    ⟨{ st live with m.pwr.checks := [⟨0x0101, 0, 5, 4⟩] }, ⟨0x0101, 0, 5, 4⟩, by decide⟩⟩

theorem witness_PairWatchdogSensors :
    (∃ (s : State), s.on ∧ s.m.mgt.lockstep = false ∧ s.m.takes 17 0) ∧
    (∃ (s : State), s.on ∧ s.m.mgt.wdogOn = true ∧ s.m.pstate ≠ 1 ∧ s.m.get R.MGT_DBG_CTL_HALTED = 0 ∧ s.m.mgt.wdogKick + s.m.wdogPeriod <
    s.m.time.ticks + 64000 ∧ s.m.takes 17 0) ∧
    (∃ (s : State), s.on ∧ s.m.mgt.wdogOn = true ∧ s.m.get R.MGT_DBG_CTL_HALTED = 1) ∧
    (∃ (s : State), s.on ∧ s.m.domainOn 1 = true) ∧
    (∃ (s : State) (v : List Int), s.on ∧ s.m.domainOn 1 = true ∧ (∀ n < 16, -32768 ≤ v.getD n 0 ∧ v.getD n 0 ≤ 32767)) ∧
    (∃ (s : State), s.on ∧ s.m.wrStatus 0x110F4 1 = 0) :=
  ⟨⟨st live, by decide⟩,
    ⟨{ st live with m.mgt.wdogOn := true, m.time.ticks := 12800000000000 }, by decide⟩,
    ⟨{ st (live ++ [(R.MGT_DBG_CTL_HALTED, 1)]) with m.mgt.wdogOn := true }, by decide⟩,
    ⟨st live, by decide⟩,
    ⟨st live, [-32768, 32767], by decide⟩,
    ⟨st live, by decide⟩⟩

theorem witness_Debug :
    (∃ (s : State), s.on ∧ s.m.wrStatus 0x11180 1 = 0) ∧
    (∃ (s : State) (c : Fin 4), s.on ∧ s.m.wrStatus 0x11180 (1 + 32 * (c.val + 1)) = 0 ∧ s.m.get (coreSt c) = 2) ∧
    (∃ (s : State), s.on ∧ s.m.wrStatus 0x11180 2 = 0 ∧ s.m.get R.MGT_DBG_CTL_HALTED = 1) ∧
    (∃ (s : State), s.on ∧ s.m.wrStatus 0x11180 2 = 0 ∧ s.m.get R.MGT_DBG_CTL_HALTED = 0) ∧
    (∃ (s : State) (c : Fin 4), s.on ∧ s.m.wrStatus 0x11180 (4 + 32 * (c.val + 1)) = 0 ∧ c.val ∈ s.m.mgt.coresHalted) ∧
    (∃ (s : State) (v : Word), s.on ∧ s.m.wrStatus 0x11188 v.toNat = 0 ∧ s.m.get R.MGT_DBG_ADDR_SPACE = 0 ∧ s.m.get R.MGT_DBG_ADDR_OFFSET
    < 0x200000 ∧ s.m.get R.MGT_DBG_ADDR_OFFSET % 4 = 0 ∧ s.m.keptDead 12 (s.m.get R.MGT_DBG_ADDR_OFFSET) 4 = []) ∧
    (∃ (s : State), s.on ∧ s.m.rdStatus 0x11188 = 0 ∧ s.m.get R.MGT_DBG_ADDR_SPACE = 0 ∧ s.m.get R.MGT_DBG_ADDR_OFFSET < 0x200000 ∧
    s.m.get R.MGT_DBG_ADDR_OFFSET % 4 = 0 ∧ s.m.deadAt 12 (s.m.get R.MGT_DBG_ADDR_OFFSET) 4 = []) ∧
    (∃ (s : State) (v : Word), s.on ∧ s.m.wrStatus 0x11188 v.toNat = 0 ∧ s.m.dbgThere = false) ∧
    (∃ (s : State), s.on ∧ s.m.rdStatus 0x11188 = 0 ∧ s.m.dbgThere = true) ∧
    (∃ (s : State) (v : Word), s.on ∧ s.m.wrStatus 0x11188 v.toNat = 0 ∧ s.m.dbgThere = true) ∧
    (∃ (s : State) (c : Fin 4), s.on ∧ s.m.wrStatus 0x11180 (2 + 32 * (c.val + 1)) = 0 ∧ c.val ∈ s.m.mgt.coresHalted) ∧
    (∃ (s : State), s.on ∧ s.m.wrStatus 0x11180 4 = 0 ∧ s.m.get R.MGT_DBG_CTL_HALTED = 1) :=
  ⟨⟨st (live ++ [(R.SEC_DBG_LEVEL, 2)]), by decide⟩,
    ⟨st (live ++ [(R.SEC_DBG_LEVEL, 2), (R.CEN_STAT_CORE3_ST, 2)]), 3, by decide⟩,
    ⟨st (live ++ [(R.SEC_DBG_LEVEL, 2), (R.MGT_DBG_CTL_HALTED, 1)]), by decide⟩,
    ⟨st (live ++ [(R.SEC_DBG_LEVEL, 2)]), by decide⟩,
    ⟨{ st (live ++ [(R.SEC_DBG_LEVEL, 2)]) with m.mgt.coresHalted := [0] }, 0, by decide⟩,
    ⟨st (live ++ [(R.SEC_DBG_LEVEL, 2), (R.MGT_DBG_ADDR_OFFSET, 0x1FFFF8)]), 0xDEADBEEF, by decide⟩,
    ⟨{ st (live ++ [(R.SEC_DBG_LEVEL, 2), (R.MGT_DBG_ADDR_OFFSET, 8)]) with m.mgt.iram := [(9, 7)] }, by decide⟩,
    ⟨st (live ++ [(R.SEC_DBG_LEVEL, 2), (R.MGT_DBG_ADDR_OFFSET, 0x3FFFFFC)]), 1, by decide⟩,
    ⟨st (live ++ [(R.SEC_DBG_LEVEL, 2), (R.MGT_DBG_ADDR_SPACE, 3), (R.MGT_DBG_ADDR_OFFSET, 0x3FFFFC)]), by decide⟩,
    ⟨st (live ++ [(R.SEC_DBG_LEVEL, 2), (R.MGT_DBG_ADDR_SPACE, 3), (R.MGT_DBG_ADDR_OFFSET, 0x3FFFFC)]), 0x80000001, by decide⟩,
    ⟨{ st (live ++ [(R.SEC_DBG_LEVEL, 2)]) with m.mgt.coresHalted := [0] }, 0, by decide⟩,
    ⟨st (live ++ [(R.SEC_DBG_LEVEL, 2), (R.MGT_DBG_CTL_HALTED, 1)]), by decide⟩⟩

theorem witness_CliffTrips :
    (∃ (s : State) (p : Fin 11) (n : Fin 40) (v : Int), s.on ∧ s.m.is (trpBit p.val) = false ∧ s.m.trp.ph.contains n.val = false ∧
    s.m.trpEnabled p n = true ∧ s.m.trpLimit p.val < trpInput p v) ∧
    (∃ (s : State) (p : Fin 11) (v : Int), s.on ∧ trpInput p v ≤ s.m.trpLimit p.val) ∧
    (∃ (s : State) (p : Fin 10) (v : Int), s.on ∧ s.m.is (trpBit p.val) = true ∧ 100 * trpInput p v ≤ 98 * s.m.trpLimit p.val ∧ s.m.takes
    19 0 ∧ s.m.condOn 19 0 (trpKind p) p.val = true) ∧
    (∃ (s : State) (n : Fin 40) (v : Int), s.on ∧ n.val ∈ s.m.trp.ph ∧ 100 * trpInput 10 v ≤ 98 * s.m.trpLimit 10) ∧
    (∃ (s : State) (t0 : Nat), s.on ∧ s.m.pwr.change = .entry false t0) ∧
    (∃ (s : State) (t0 : Nat), s.on ∧ s.m.pwr.change = .entry false t0 ∧ s.m.takes 19 0) ∧
    (∃ (s : State), s.on ∧ s.m.wrStatus 0x130C4 1 = 0 ∧ s.m.pstate = 3) ∧
    (∃ (s : State), s.on ∧ s.m.wrStatus 0x130C4 1 = 0 ∧ s.m.pstate ≠ 3 ∧ bits (s.m.word 0x13080).toNat 0 11 = 0) :=
  ⟨⟨st live, 9, 0, 11001, by decide⟩,
    ⟨st live, 0, 42000, by decide⟩,
    ⟨{ st (live ++ [((trpBit 1), 1)]) with m.flt.conds := [⟨19, 0, 2, 1, 2, false⟩] }, 1, 41160, by decide⟩,
    ⟨{ st (live ++ [((trpBit 10), 1)]) with m.trp.ph := [39] }, 39, -7000, by decide⟩,
    ⟨{ st live with m.pwr.change := .entry false 7 }, 7, by decide⟩,
    ⟨{ st live with m.pwr.change := .entry false 7 }, 7, by decide⟩,
    ⟨st (live ++ [(R.MGT_PSTATE_STATE, 3), (R.TRP_LATCH_LATCH, 5)]), by decide⟩,
    ⟨st (live ++ [(R.TRP_LATCH_LATCH, 5)]), by decide⟩⟩

theorem witness_Resets :
    (∃ (s : State), s.m.resetDue = true) ∧
    (∃ (s : State), s.m.resetDue = false) ∧
    (∃ (s : State), s.on ∧ (s.m.flt.l3 = true ∧ s.m.l3Logged = true) ∨ s.m.flt.l3Sys = true ∧ s.m.pstate ≠ 1) ∧
    (∃ (s : State), s.on ∧ (s.m.flt.l3 = false ∨ s.m.l3Logged = false) ∧ s.m.flt.l3Sys = false) :=
  ⟨⟨{ st ([(R.MGT_PSTATE_STATE, 0)]) with m.nv.pcyc := 4294967295 }, by decide⟩,
    ⟨{ st live with m.nv.pcyc := 1 }, by decide⟩,
    ⟨{ st live with m.flt.l3Sys := true }, by decide⟩,
    ⟨st live, by decide⟩⟩

theorem witness_BootRom (hs : ∀ b, Config.sha384 b = List.replicate 48 1) (hv : ∀ k d s, Config.ecdsaOk k d s = true) :
    (∃ (s : State), s.on ∧ s.m.get R.MGT_BOOT_STAGE = 0 ∧ s.m.mgt.romDone = false) ∧
    (∃ (s : State) (eA eB : Bool), s.on ∧ s.m.get R.MGT_BOOT_STAGE = 0 ∧ s.m.mgt.romDone = false ∧ s.romCode eA eB s.m.chosenSlot = 0) ∧
    (∃ (s : State) (eA eB : Bool), s.on ∧ s.m.get R.MGT_BOOT_STAGE = 0 ∧ s.m.mgt.romDone = false ∧ s.romCode eA eB s.m.chosenSlot ≠ 0 ∧
    s.romCode eA eB (!s.m.chosenSlot) = 0) ∧
    (∃ (s : State), s.m.pstate = 2 ∧ s.m.get R.MGT_BOOT_STAGE = 0 ∧ s.m.mgt.romDone = false ∧ s.m.nv.slotA.broken = true ∧
    s.m.nv.slotB.broken = true ∧ s.m.nv.trialFail = none) :=
  ⟨⟨st ([(R.MGT_PSTATE_STATE, 2)]), by decide⟩,
    ⟨{ st [] with fuses.vendorRoot := List.replicate 48 1, m.nv.slotA.bytes := fwImg }, false, true, by decide, by decide, rfl,
    by simp only [State.romCode, Mod.bootCode, Mod.slotCode, fwSigned, pagesGood, sigGood, hs, hv]; decide +kernel⟩,
    ⟨{ st [] with fuses.vendorRoot := List.replicate 48 1, m.nv.slotA.broken := true, m.nv.slotB.bytes := fwImg }, false, false, by
    decide, by decide, rfl, by decide +kernel,
    by simp only [State.romCode, Mod.bootCode, Mod.slotCode, fwSigned, pagesGood, sigGood, hs, hv]; decide +kernel⟩,
    ⟨{ State.reset with m.nv.slotA.broken := true, m.nv.slotB.broken := true }, by decide⟩⟩

theorem witness_BootToReady :
    (∃ (s : State), s.on ∧ s.m.get R.MGT_BOOT_STAGE = 0 ∧ s.m.mgt.romDone = true) ∧
    (∃ (s : State), s.on ∧ s.m.get R.MGT_BOOT_STAGE = 1) ∧
    (∃ (s : State), s.on ∧ s.m.get R.MGT_BOOT_STAGE = 2 ∧ s.m.pstate ≠ 1) ∧
    (∃ (s : State), s.on ∧ s.m.get R.MGT_BOOT_STAGE = 3 ∧ s.m.get R.MGT_BOOT_BSET_ERR = 0 ∧ s.m.get R.PWR_STAT_BUSY = 0 ∧ s.m.pstate ≠ 1 ∧
    bootSet s.m.activeSlot = [] ∧ s.m.bankOk s.m.actBank = true) ∧
    (∃ (s : State), s.on ∧ s.m.get R.MGT_BOOT_STAGE = 3 ∧ s.m.get R.MGT_BOOT_BSET_ERR = 0 ∧ s.m.get R.PWR_STAT_BUSY = 0 ∧ s.m.pstate ≠ 1 ∧
    bootSet s.m.activeSlot = [] ∧ s.m.bankOk s.m.actBank = false) ∧
    (∃ (s : State), s.on ∧ s.m.get R.MGT_BOOT_STAGE = 3 ∧ s.m.get R.MGT_BOOT_BSET_ERR = 0 ∧ s.m.get R.PWR_STAT_BUSY = 0 ∧ s.m.pstate ≠ 1) :=
  ⟨⟨{ State.reset with m.mgt.romDone := true }, by decide⟩,
    ⟨{ st ([(R.MGT_BOOT_STAGE, 1)]) with m.mgt.romDone := true, m.nv.slotA.bytes := (List.range 512).map (fun i => (i, 0)) }, by decide⟩,
    ⟨{ st ([(R.MGT_BOOT_STAGE, 2)]) with m.mgt.romDone := true }, by decide⟩,
    ⟨st (live ++ [(R.MGT_BOOT_STAGE, 3), (R.CEN_STAT_IMG_A, 1)]), by decide⟩,
    ⟨st (live ++ [(R.MGT_BOOT_STAGE, 3)]), by decide⟩,
    ⟨st (live ++ [(R.MGT_BOOT_STAGE, 3)]), by decide⟩⟩

theorem witness_Heartbeats :
    (∃ (s : State), s.on ∧ s.m.portUp 0 = true ∧ s.m.portUp 1 = true) ∧
    (∃ (s : State) (b : List Byte), s.on ∧ b.getD 0 0 = 0x57 ∧ (b.getD 1 0).toNat = s.m.pos ∧ s.m.pos ≤ 9 ∧ s.m.condOn 1 0 1 s.m.pos =
    false ∧ s.m.takes 1 0) ∧
    (∃ (s : State) (b : List Byte), s.on ∧ b.length = 8 ∧ b.getD 0 0 = 0x57 ∧ (b.getD 1 0).toNat ≠ s.m.pos ∧ (b.getD 1 0).toNat ≤ 9 ∧
    s.m.get R.MOD_STRAP_STRAP_ERR = 0) ∧
    (∃ (s : State) (p : Fin 10), s.on ∧ p.val ≠ s.m.pos ∧ (s.m.peer p).map s.m.peerSilent = some true) ∧
    (∃ (s : State) (p : Fin 10), s.on ∧ (s.m.peer p).map s.m.peerSilent ≠ some true) ∧
    (∃ (s : State) (b : List Byte), s.on ∧ b.length = 8 ∧ b.getD 0 0 = 0x57 ∧ (b.getD 1 0).toNat ≠ s.m.pos ∧ (b.getD 1 0).toNat ≤ 9 ∧
    s.m.get R.MOD_STRAP_STRAP_ERR = 0) :=
  ⟨⟨st (live ++ [(R.LNK_PSTAT_STATE 0, 2), (R.LNK_PSTAT_STATE 1, 3)]), by decide⟩,
    ⟨st (live ++ [(R.MOD_STRAP_RING_POS, 9)]), [0x57, 9, 0, 0, 0, 0, 0, 0], by decide⟩,
    ⟨st live, [0x57, 9, 1, 0, 0, 0, 7, 1], by decide⟩,
    ⟨{ st live with m.roles.peers := [{ pos := 3 }] }, 3, by decide⟩,
    ⟨{ st live with m.roles.peers := [{ pos := 3, eastT := some 0 }] }, 3, by decide⟩,
    ⟨st live, [0x57, 3, 3, 15, 15, 0, 5, 0], by decide⟩⟩

theorem witness_ElectionAndRedirect :
    (∃ (s : State) (p : Nat), s.on ∧ s.m.leadPos = some p ∧ p ≠ s.m.pos ∧ (s.m.peer p).map s.m.peerSilent ≠ some false) ∧
    (∃ (s : State), s.on ∧ s.m.get R.MOD_ROLE_STAT_ELECTING = 1) ∧
    (∃ (s : State), s.on ∧ s.m.leadPos = none) ∧
    (∃ (s : State) (p : Nat), s.on ∧ s.m.leadPos = some p ∧ (s.m.peer p).map s.m.peerSilent = some false) ∧
    (∃ (s : State), s.on ∧ s.m.servesHost = false ∧ s.m.portUp 6 = true ∧ s.m.get R.MOD_ROLE_STAT_LEAD_POS = 15) ∧
    (∃ (s : State), s.on ∧ s.m.servesHost = false ∧ s.m.portUp 6 = true) :=
  ⟨⟨{ st (live ++ [(R.MOD_ROLE_STAT_LEAD_POS, 3), (R.MOD_STRAP_RING_POS, 5)]) with m.roles.peers := [{ pos := 3 }] }, 3, by decide⟩,
    ⟨st (live ++ [(R.MOD_ROLE_STAT_ELECTING, 1)]), by decide⟩,
    ⟨st (live ++ [(R.MOD_ROLE_STAT_LEAD_POS, 15)]), by decide⟩,
    ⟨{ st (live ++ [(R.MOD_ROLE_STAT_LEAD_POS, 3), (R.MOD_STRAP_RING_POS, 5)]) with m.roles.peers := [{ pos := 3, westT := some 0 }] }, 3,
    by decide⟩,
    ⟨st (live ++ [(R.LNK_PSTAT_STATE 6, 2), (R.LNK_ADDR_ADDR, 77)]), by decide⟩,
    ⟨{ st (live ++ [(R.LNK_PSTAT_STATE 6, 2), (R.MOD_ROLE_STAT_LEAD_POS, 3)]) with m.roles.peers := [{ pos := 3, addr := 77, hostUp := true }] },
    by decide⟩⟩

theorem witness_MirrorAndShares :
    (∃ (s : State) (d : Peer), s.on ∧ s.m.isLead = true ∧ s.m.service = true ∧ s.m.peer (s.m.get R.MOD_ROLE_STAT_DEPUTY_POS) = some d ∧
    d.addr ≠ s.m.addr) ∧
    (∃ (s : State) (b : List Byte), s.on ∧ b.length = 128 ∧ b.getD 0 0 = 0x55 ∧ s.m.role = 2) ∧
    (∃ (c : Instr) (s : State), (c = .shareSend ∨ c = .shareReplan) ∧ s.on ∧ s.m.serves = true) ∧
    (∃ (s : State) (b : List Byte), s.on ∧ b.length = 56 ∧ b.getD 0 0 = 0x54 ∧ s.m.planSrc = 2 ∧ s.m.pos ≤ 9 ∧ s.m.get
    R.MOD_ROLE_STAT_ELECTING = 0) ∧
    (∃ (s : State) (b : List Byte), s.on ∧ b.length = 56 ∧ b.getD 0 0 = 0x54 ∧ s.m.planSrc ≠ 2) :=
  ⟨⟨{ st (live ++ [(R.MOD_ROLE_STAT_ROLE, 3), (R.MOD_ROLE_CFG_MODE, 2), (R.MOD_ROLE_STAT_DEPUTY_POS, 4)]) with m.roles.peers := [{ pos := 4, addr := 9 }] },
    { pos := 4, addr := 9 }, by decide⟩,
    ⟨st (live ++ [(R.MOD_ROLE_STAT_ROLE, 2)]), 0x55 :: List.replicate 127 3, by decide⟩,
    ⟨.shareReplan,
    { st (live ++ [(R.MOD_ROLE_STAT_ROLE, 3), (R.MOD_ROLE_CFG_MODE, 2), (R.CEN_STAT_CORE0_ST, 2)]) with m.cen.bank := taskImg 6 }, by
    decide⟩,
    ⟨st (live ++ [(R.BWK_CFG_SRC, 2), (R.MOD_STRAP_RING_POS, 9)]), 0x54 :: List.replicate 55 0xF0, by decide⟩,
    ⟨st (live ++ [(R.BWK_CFG_SRC, 1)]), 0x54 :: List.replicate 55 0, by decide⟩⟩

theorem witness_SilenceAndTelemetry :
    (∃ (s : State), s.m.hostSilent = true ∧ (s.m.isLead = true ∨ s.m.planSrc = 1)) ∧
    (∃ (s : State), s.m.pstate = 3 ∧ s.m.planSrc = 2 ∧ s.m.bwk.shareTick + 3 * tickMs ≤ s.m.time.ticks) ∧
    (∃ (s : State), s.on ∧ s.m.portUp 0 = true ∧ s.m.portUp 1 = true) ∧
    (∃ (s : State) (b : List Byte) (q : Peer), s.on ∧ b.length = 34 ∧ b.getD 0 0 = 0x56 ∧ s.m.roles.peers = [q] ∧ q.pos = (b.getD 1
    0).toNat) ∧
    (∃ (s : State), s.on ∧ s.m.serves = true ∧ s.m.portUp 6 = true) :=
  ⟨⟨{ st (live ++ [(R.MGT_PSTATE_STATE, 3), (R.MOD_ROLE_CFG_HOST_TMO, 5), (R.BWK_CFG_SRC, 1)]) with m.time.ticks := 12800000000 }, by
    decide⟩,
    ⟨{ st (live ++ [(R.MGT_PSTATE_STATE, 3), (R.BWK_CFG_SRC, 2)]) with m.time.ticks := 12800000000 }, by decide⟩,
    ⟨st (live ++ [(R.LNK_PSTAT_STATE 0, 2), (R.LNK_PSTAT_STATE 1, 2), (R.MOD_STRAP_RING_POS, 3)]), by decide⟩,
    ⟨{ st live with m.roles.peers := [{ pos := 5 }] }, 0x56 :: 5 :: List.replicate 32 1, { pos := 5 }, by decide⟩,
    ⟨{ st (live ++ [(R.MOD_ROLE_STAT_ROLE, 3), (R.MOD_ROLE_CFG_MODE, 2), (R.LNK_PSTAT_STATE 6, 2), (R.CEN_STAT_CORE0_ST, 2)]) with m.cen.bank := taskImg 6, m.bwk.worst := [1] },
    by decide⟩⟩

theorem witness_PlansAndCaps :
    (∃ (s : State) (b : List Byte), s.on ∧ s.m.isLead = true ∧ b.length = 48 ∧ b.getD 0 0 = 0x51 ∧ bit (b.getD 1 0).toNat 0 = false ∧
    s.m.get R.LNK_FLEET_CFG_PLAN_SRC = 0 ∧ le (natBytes b) 8 8 % planStep = 0 ∧ s.m.nowNs / planStep * planStep ≤ le (natBytes b) 8 8 ∧ (∀
    i < 8, le (natBytes b) (16 + 4 * i) 2 ≤ le (natBytes b) (18 + 4 * i) 2)) ∧
    (∃ (s : State) (b : List Byte), s.on ∧ s.m.isLead = true ∧ b.length = 48 ∧ b.getD 0 0 = 0x51 ∧ bit (b.getD 1 0).toNat 0 = true ∧
    s.m.get R.LNK_FLEET_CFG_PLAN_SRC = 0 ∧ le (natBytes b) 8 8 % planStep = 0 ∧ s.m.nowNs / planStep * planStep ≤ le (natBytes b) 8 8 ∧ (∀
    i < 6, le (natBytes b) (16 + 4 * i) 2 ≤ le (natBytes b) (18 + 4 * i) 2)) ∧
    (∃ (s : State) (b : List Byte), s.on ∧ s.m.isLead = true ∧ b.length = 48 ∧ b.getD 0 0 = 0x52 ∧ bit (b.getD 1 0).toNat 0 = false ∧
    s.m.get R.LNK_FLEET_CFG_PLAN_SRC = 1 ∧ s.m.get R.LNK_FLEET_CFG_BASIS ≠ 0 ∧ le (natBytes b) 8 8 % planStep = 0 ∧ s.m.nowNs / planStep *
    planStep ≤ le (natBytes b) 8 8 ∧ (∀ i < 8, le (natBytes b) (16 + 4 * i) 2 ≤ le (natBytes b) (18 + 4 * i) 2)) ∧
    (∃ (s : State) (p : PlanPt), s.on ∧ s.m.isLead = true ∧ s.m.plan.points.getLast? = some p ∧ p.t ≤ s.m.nowNs) ∧
    (∃ (s : State) (v : Word), s.on ∧ s.m.wrStatus 0x6064 v.toNat = 0 ∧ s.m.get R.MOD_ROLE_STAT_ELECTING = 0) ∧
    (∃ (s : State) (v : Word), s.on ∧ s.m.wrStatus 0x6064 v.toNat = 0 ∧ s.m.get R.MOD_ROLE_STAT_ELECTING = 1) ∧
    (∃ (s : State) (b : List Byte), s.on ∧ b.length = 12 ∧ b.getD 0 0 = 0x53 ∧ b.getD 1 0 = 2 ∧ le (natBytes b) 8 4 = 0 ∧ le (natBytes b)
    4 2 ≤ 2000 ∧ s.m.get R.MOD_ROLE_STAT_ELECTING = 0) ∧
    (∃ (s : State) (b : List Byte), s.on ∧ b.length = 12 ∧ b.getD 0 0 = 0x53 ∧ le (natBytes b) 8 4 ≠ 0) ∧
    (∃ (s : State) (b : List Byte), s.on ∧ b.length = 12 ∧ b.getD 0 0 = 0x53 ∧ le (natBytes b) 8 4 = 0) :=
  ⟨⟨st (live ++ [(R.MOD_ROLE_STAT_ROLE, 3)]), [0x51, 0, 0, 0, 0, 0, 0, 0] ++ [0x80, 0x96, 0x98, 0, 0, 0, 0, 0] ++ List.replicate 32 1, by
    decide⟩,
    ⟨st (live ++ [(R.MOD_ROLE_STAT_ROLE, 3)]), [0x51, 1, 7, 0, 0, 0, 0, 0, 128, 150, 152, 0, 0, 0, 0, 0, 0, 0, 9, 0, 1, 0, 9, 0, 2, 0, 9,
    0, 3, 0, 9, 0, 4, 0, 9, 0, 5, 0, 9, 0, 44, 1, 0, 0, 0, 0, 0, 0], by decide⟩,
    ⟨st (live ++ [(R.MOD_ROLE_STAT_ROLE, 3), (R.LNK_FLEET_CFG_PLAN_SRC, 1), (R.LNK_FLEET_CFG_BASIS, 32768)]), [0x52, 0, 7, 0, 0, 0, 0, 0,
    128, 150, 152, 0, 0, 0, 0, 0, 0, 0, 9, 1, 1, 0, 9, 1, 2, 0, 9, 1, 3, 0, 9, 1, 4, 0, 9, 1, 5, 0, 9, 1, 6, 0, 9, 1, 7, 0, 9, 1], by
    decide⟩,
    ⟨{ st (live ++ [(R.MOD_ROLE_STAT_ROLE, 3)]) with m.plan.points := [⟨0, 1, 2⟩] }, ⟨0, 1, 2⟩, by decide⟩,
    ⟨st live, 500, by decide⟩,
    ⟨st (live ++ [(R.MOD_ROLE_STAT_ELECTING, 1)]), 500, by decide⟩,
    ⟨st (live ++ [(R.MOD_ROLE_CFG_MODE, 1)]), [0x53, 2, 0, 0, 0xD0, 7, 0, 0, 0, 0, 0, 0], by decide⟩,
    ⟨st live, [0x53, 2, 0, 0, 0, 0, 0, 0, 0, 0, 0, 1], by decide⟩,
    ⟨st (live ++ [(R.BWK_CFG_SRC, 1)]), [0x53, 1, 0xE8, 0xFF, 0, 0, 0, 0, 0, 0, 0, 0], by decide⟩⟩

theorem witness_BreakwaterConditions :
    (∃ (s : State), s.m.pstate = 3 ∧ s.m.bwk.ovf = true ∧ 200 ≤ s.m.bwk.ovfClear) ∧
    (∃ (s : State), s.on ∧ s.m.bwk.ovfClear < 200) ∧
    (∃ (s : State) (p : Fin 2), s.m.pstate = 3 ∧ 10 ≤ (s.m.bp p).shoreRun ∧ s.m.condOn 6 p 1 0 = false ∧ s.m.takes 6 p) ∧
    (∃ (s : State) (p : Fin 2), s.on ∧ s.m.coresRun = true ∧ s.m.olderThan p s.m.staleEff = true ∧ s.m.bwk.stale.getD p false = false ∧
    s.m.takes 6 p ∧ s.m.condOn 6 p 6 0 = false) ∧
    (∃ (s : State) (p : Fin 2), s.on ∧ s.m.coresRun = true ∧ (s.m.olderThan p s.m.offEff = true ∨ s.m.pins.stoHold = false) ∧
    s.m.bwk.off.getD p false = false ∧ s.m.takes 6 p ∧ s.m.condOn 6 p 7 0 = false) ∧
    (∃ (s : State), s.on ∧ s.m.wrStatus 0x60C4 1 = 0) :=
  ⟨⟨{ st (live ++ [(R.MGT_PSTATE_STATE, 3)]) with m.bwk.ovf := true, m.bwk.ovfClear := 200 }, by decide⟩,
    ⟨{ st live with m.bwk.ovfClear := 199 }, by decide⟩,
    ⟨{ st (live ++ [(R.MGT_PSTATE_STATE, 3)]) with m.bwk.pole := [{ shoreRun := 10 }, {}] }, 0, by decide⟩,
    ⟨st (live ++ [(R.CEN_STAT_CORE0_ST, 2)]), 1, by decide⟩,
    ⟨{ st (live ++ [(R.CEN_STAT_CORE0_ST, 2)]) with m.bwk.pole := [{ pEbb := 3 }, { pFld := 4 }] }, 1, by decide⟩,
    ⟨st (live ++ [(R.BWK_DEV_DEV_MAX, 9)]), by decide⟩⟩

theorem witness_PortTraining :
    (∃ (s : State) (p : Fin 7), s.on ∧ s.m.portOn p = true ∧ s.m.pst p ≤ 1) ∧
    (∃ (s : State) (p : Fin 7) (pp : Fin 8) (h : Bool), s.on ∧ s.m.portOn p = true ∧ s.m.pst p = 1 ∧ (s.m.port p).light = true ∧ portFits
    p pp h = true) ∧
    (∃ (s : State) (p : Fin 7) (pp : Fin 8) (h : Bool), s.on ∧ s.m.portOn p = true ∧ s.m.pst p = 1 ∧ (s.m.port p).light = true ∧ portFits
    p pp h = true ∧ s.m.get R.LNK_CFG_ONE_LANE_OK = 1) ∧
    (∃ (s : State) (p : Fin 7) (one : Bool) (pp : Fin 8) (h : Bool), s.on ∧ s.m.portOn p = true ∧ s.m.pst p = 1 ∧ (s.m.port p).light =
    true ∧ portFits p pp h = false ∧ one = false ∧ s.m.takes 13 p ∧ s.m.condOn 13 p 5 0 = false) ∧
    (∃ (s : State) (p : Fin 7), s.on ∧ s.m.portUp p = true ∧ s.m.takes 13 p) ∧
    (∃ (s : State) (p : Fin 7), s.on ∧ s.m.pst p = 2 ∧ s.m.get R.LNK_CFG_ONE_LANE_OK = 1 ∧ s.m.takes 13 p ∧ s.m.condOn 13 p 2 0 = false ∧
    s.m.mayRaise (raiseKey 13 p 2) tickS = true) ∧
    (∃ (s : State) (p : Fin 7), s.on ∧ s.m.portUp p = true ∧ (16 < ((s.m.port p).crcTicks.filter (fun x => decide (s.m.time.ticks < x +
    tickMs))).length ∨ (∃ f ∈ (s.m.port p).retry, 8 ≤ f.tries))) ∧
    (∃ (s : State) (p : Fin 7), s.on ∧ s.m.portUp p = true ∧ s.m.wrStatus 0xD0F4 (1 + 4 * p.val) = 0) ∧
    (∃ (s : State) (p : Fin 7), s.on ∧ s.m.pst p = 4 ∧ (s.m.port p).failTick + tickS ≤ s.m.time.ticks) :=
  ⟨⟨st (live ++ [(R.LNK_CFG_PORT_EN, 127)]), 6, by decide⟩,
    ⟨{ st (live ++ [(R.LNK_CFG_PORT_EN, 127), (R.LNK_PSTAT_STATE 2, 1)]) with m.lnk.ports := [{}, {}, { light := true }, {}, {}, {}, {}] },
    2, 5, false, by decide⟩,
    ⟨{ st (live ++ [(R.LNK_CFG_PORT_EN, 127), (R.LNK_PSTAT_STATE 6, 1), (R.LNK_CFG_ONE_LANE_OK, 1)]) with m.lnk.ports := [{}, {}, {}, {}, {}, {}, { light := true }] },
    6, 0, true, by decide⟩,
    ⟨{ st (live ++ [(R.LNK_CFG_PORT_EN, 127), (R.LNK_PSTAT_STATE 0, 1)]) with m.lnk.ports := [{ light := true }, {}, {}, {}, {}, {}, {}] },
    0, false, 0, false, by decide⟩,
    ⟨{ st (live ++ [(R.LNK_PSTAT_STATE 6, 3)]) with m.lnk.ports := [{}, {}, {}, {}, {}, {}, { light := true }] }, 6, by decide⟩,
    ⟨st (live ++ [(R.LNK_PSTAT_STATE 0, 2), (R.LNK_CFG_ONE_LANE_OK, 1)]), 0, by decide⟩,
    ⟨{ st (live ++ [(R.LNK_PSTAT_STATE 0, 2)]) with m.lnk.ports := [{ retry := [{ lseq := 1, cls := 0, msg := { chan := 6, scope := .host, dst := 0, src := 0, mseq := 0, body := [] }, tries := 8 }] }, {}, {}, {}, {}, {}, {}] },
    0, by decide⟩,
    ⟨st (live ++ [(R.LNK_PSTAT_STATE 6, 2)]), 6, by decide⟩,
    ⟨{ st (live ++ [(R.LNK_PSTAT_STATE 3, 4), (R.LNK_PSTAT_ROLE_ERR 3, 1)]) with m.time.ticks := 12800000000000 }, 3, by decide⟩⟩

theorem witness_LinkFrames :
    (∃ (s : State) (p : Fin 7), s.on ∧ s.m.portUp p = true) ∧
    (∃ (s : State) (p : Fin 7) (b : List Byte), s.on ∧ s.m.portUp p = true ∧ (b.length < 12 ∨ crc32 ((natBytes b).take (b.length - 4)) ≠
    le (natBytes b) (b.length - 4) 4)) ∧
    (∃ (s : State) (p : Fin 2) (b : List Byte) (g : Msg), s.on ∧ s.m.portUp p = true ∧ 12 ≤ b.length ∧ crc32 ((natBytes b).take (b.length
    - 4)) = le (natBytes b) (b.length - 4) 4 ∧ bits (le (natBytes b) 0 4) 24 4 = 0 ∧ bits (le (natBytes b) 0 4) 0 12 = ((s.m.port p).rxSeq
    + 1) % 4096 ∧ parseMsg (((natBytes b).drop 8).take (b.length - 12)) = some g ∧ g.scope = .unicast ∧ g.dst = s.m.addr ∧ g.chan < 14 ∧
    g.hops ≠ 0 ∧ g.src ≠ s.m.addr ∧ g.relay = 0) ∧
    (∃ (s : State) (p : Fin 7) (f : Sent), s.on ∧ s.m.portUp p = true ∧ (s.m.port p).retry.getLast? = some f) ∧
    (∃ (s : State) (p : Fin 7) (f : Sent) (l : List Sent), s.on ∧ s.m.portUp p = true ∧ (s.m.port p).retry = f :: l) ∧
    (∃ (k : Nat) (x : Nat), k < 2 ^ 58 ∧ x < 2 ^ 64) ∧
    (∃ (s : State) (p : Fin 7), s.on ∧ s.m.portUp p = true) ∧
    (∃ (s : State) (c : Fin 256), s.on ∧ s.m.chStopped c = true ∧ s.m.chClass c ≠ 0 ∧ s.m.takes 13 7 ∧ s.m.condOn 13 7 7 c = false ∧
    s.m.stoppedAt c + 10 * tickMs ≤ s.m.time.ticks ∧ s.m.mayRaise (raiseKey 13 7 7) tickS = true) ∧
    (∃ (s : State) (p : Fin 7) (c : Fin 256) (g : Msg), s.on ∧ 2 ≤ s.m.chClass c ∧ g ∈ (s.m.port p).txq ∧ g.chan = c.val ∧ g.src ≠
    s.m.addr ∧ g.tick + 100 * tickMs ≤ s.m.time.ticks) :=
  ⟨⟨{ st (live ++ [(R.LNK_PSTAT_STATE 6, 2)]) with m.lnk.ports := [{}, {}, {}, {}, {}, {}, { rxSeq := 4095 }] }, 6, by decide⟩,
    ⟨st (live ++ [(R.LNK_PSTAT_STATE 0, 2)]), 0, [1, 2, 3], by decide⟩,
    ⟨st (live ++ [(R.LNK_PSTAT_STATE 0, 2), (R.LNK_ADDR_ADDR, 5)]), 0, frameTo5,
    { chan := 3, scope := .unicast, dst := 5, src := 6, mseq := 0, hops := 1, body := [] }, by decide⟩,
    ⟨{ st (live ++ [(R.LNK_PSTAT_STATE 0, 2)]) with m.lnk.ports := [{ retry := [{ lseq := 4094, cls := 0, msg := { chan := 6, scope := .host, dst := 0, src := 0, mseq := 0, body := [] } }, { lseq := 4095, cls := 0, msg := { chan := 6, scope := .host, dst := 0, src := 0, mseq := 0, body := [] } }] }, {}, {}, {}, {}, {}, {}] },
    0, { lseq := 4095, cls := 0, msg := { chan := 6, scope := .host, dst := 0, src := 0, mseq := 0, body := [] } }, by decide⟩,
    ⟨{ st (live ++ [(R.LNK_PSTAT_STATE 0, 2)]) with m.lnk.ports := [{ retry := [{ lseq := 4094, cls := 0, msg := { chan := 6, scope := .host, dst := 0, src := 0, mseq := 0, body := [] } }, { lseq := 4095, cls := 0, msg := { chan := 6, scope := .host, dst := 0, src := 0, mseq := 0, body := [] } }] }, {}, {}, {}, {}, {}, {}] },
    0, { lseq := 4094, cls := 0, msg := { chan := 6, scope := .host, dst := 0, src := 0, mseq := 0, body := [] } },
    [{ lseq := 4095, cls := 0, msg := { chan := 6, scope := .host, dst := 0, src := 0, mseq := 0, body := [] } }], by decide⟩,
    ⟨0x3FFFFFFFFFFFFFF, 0xFFFFFFFFFFFFFFFF, by decide⟩,
    ⟨st (live ++ [(R.LNK_PSTAT_STATE 0, 2)]), 0, by decide⟩,
    ⟨{ st live with m.lnk.stopped := [(255, 0)], m.time.ticks := 12800000000000 }, 255, by decide⟩,
    ⟨{ st (live ++ [(R.LNK_CHCFG_CLASS 255, 2), (R.LNK_ADDR_ADDR, 5)]) with m.lnk.ports := [{ txq := [{ chan := 255, scope := .unicast, dst := 1, src := 6, mseq := 0, body := [] }] }, {}, {}, {}, {}, {}, {}], m.time.ticks := 12800000000000 },
    0, 255, { chan := 255, scope := .unicast, dst := 1, src := 6, mseq := 0, body := [] }, by decide⟩⟩

theorem witness_RoutesAndFaultMessages :
    (∃ (s : State), s.on ∧ s.m.isLead = true ∧ s.m.get R.LNK_TREE_STAT_UP_LINK < 8) ∧
    (∃ (s : State), s.on ∧ s.m.isLead = true ∧ s.m.get R.LNK_TREE_STAT_UP_LINK < 4) ∧
    (∃ (s : State) (x : Byte) (y : Byte), s.on ∧ s.m.isLead = true ∧ s.m.get R.LNK_TREE_STAT_UP_LINK = 15 ∧ s.m.route ((x.toNat + 256 *
    y.toNat) % 16384) = (15, 0) ∧ s.m.rackAddrs.contains ((x.toNat + 256 * y.toNat) % 16384) = false) ∧
    (∃ (s : State) (b : List Byte) (n : Nat), s.on ∧ s.m.isLead = true ∧ b.getD 0 0 = 0x58 ∧ (b.getD 1 0).toNat = n ∧ 1 ≤ n ∧ n ≤ 10) ∧
    (∃ (s : State) (a : Fin 16384), s.on ∧ (s.m.route a).1 < 8 ∧ (s.m.route a).2 + 350 * tickMs ≤ s.m.time.ticks) ∧
    (∃ (s : State) (g : Msg) (x : Nat) (d : Fin 16385), s.on ∧ g.dst < 16384 ∧ s.m.isLead = true ∧ s.m.posOfAddr g.dst = none ∧ (s.m.route
    g.dst).1 < 4 ∧ s.m.lnk.heldq = [g] ∧ s.m.lnk.holds = [(g.dst, x)] ∧ x + 50 * tickUs ≤ s.m.time.ticks ∧ d.val = g.dst) ∧
    (∃ (s : State) (d : Fin 16385), s.on ∧ (∀ h ∈ s.m.lnk.holds, h.1 = d.val → h.2 + 50 * tickUs ≤ s.m.time.ticks)) ∧
    (∃ (s : State), s.on ∧ s.m.flt.faultTx ≠ [] ∧ s.m.isLead = true ∧ s.m.portUp 6 = true) ∧
    (∃ (s : State), s.on ∧ s.m.isLead = true ∧ s.m.portUp 6 = true) ∧
    (∃ (s : State), s.on ∧ s.m.flt.faultTx ≠ []) :=
  ⟨⟨st (live ++ [(R.MOD_ROLE_STAT_ROLE, 3), (R.LNK_TREE_STAT_UP_LINK, 7)]), by decide⟩,
    ⟨st (live ++ [(R.MOD_ROLE_STAT_ROLE, 3), (R.LNK_TREE_STAT_UP_LINK, 3)]), by decide⟩,
    ⟨st (live ++ [(R.MOD_ROLE_STAT_ROLE, 3), (R.LNK_TREE_STAT_UP_LINK, 15), (R.LNK_ADDR_ADDR, 5)]), 0xFF, 0x3F, by decide⟩,
    ⟨st (live ++ [(R.MOD_ROLE_STAT_ROLE, 3), (R.LNK_TREE_STAT_UP_LINK, 2), (R.LNK_ADDR_ADDR, 5)]), [0x58, 2, 0xFF, 0x3F, 5, 0], 2, by
    decide⟩,
    ⟨{ st live with m.lnk.routes := [(16383, (7, 4))], m.time.ticks := 12800000000000 }, 16383, by decide⟩,
    ⟨{ st (live ++ [(R.MOD_ROLE_STAT_ROLE, 3)]) with m.lnk.routes := [(9, (3, 4))], m.lnk.holds := [(9, 2)], m.lnk.heldq := [{ chan := 9, scope := .unicast, dst := 9, src := 6, mseq := 0, body := [] }], m.time.ticks := 12800000000000 },
    { chan := 9, scope := .unicast, dst := 9, src := 6, mseq := 0, body := [] }, 2, 9, by decide⟩,
    ⟨{ st live with m.lnk.holds := [(9, 2), (16384, 3)], m.time.ticks := 12800000000000 }, 16384, by decide⟩,
    ⟨{ st (live ++ [(R.MOD_ROLE_STAT_ROLE, 3), (R.LNK_PSTAT_STATE 6, 2)]) with m.flt.faultTx := [{ seq := 1, blk := 2, inst := 0, cls := 0, tvalid := true, kind := 1, addr := 0, frame := 5, time := 6 }] },
    by decide⟩,
    ⟨st (live ++ [(R.MOD_ROLE_STAT_ROLE, 3), (R.LNK_PSTAT_STATE 6, 2)]), by decide⟩,
    ⟨{ st (live ++ [(R.MOD_ROLE_STAT_ROLE, 1)]) with m.flt.faultTx := [{ seq := 1, blk := 2, inst := 0, cls := 0, tvalid := true, kind := 1, addr := 0, frame := 5, time := 6 }] },
    by decide⟩⟩

theorem witness_Optics :
    (∃ (s : State) (p : Fin 7), s.on ∧ s.m.portUp p = true) ∧
    (∃ (s : State) (p : Fin 7), s.on ∧ s.m.portUp p = true ∧ (s.m.port p).badLoc = 7 ∧ s.m.condOn 13 p 0x0C 0 = false ∧ s.m.takes 13 p) ∧
    (∃ (s : State) (p : Fin 7), s.on ∧ s.m.wrStatus 0xD0F4 (2 + 4 * p.val) = 0) ∧
    (∃ (s : State), s.on ∧ s.m.wrStatus 0xD0F4 32 = 0) :=
  ⟨⟨st (live ++ [(R.LNK_PSTAT_STATE 6, 2)]), 6, by decide⟩,
    ⟨{ st (live ++ [(R.LNK_PSTAT_STATE 0, 2)]) with m.lnk.ports := [{ badLoc := 7 }, {}, {}, {}, {}, {}, {}] }, 0, by decide⟩,
    ⟨st live, 6, by decide⟩,
    ⟨st live, by decide⟩⟩

theorem witness_References :
    (∃ (s : State), s.on ∧ s.m.is R.CLK_STAT_PLL_LOCK = false) ∧
    (∃ (s : State), s.on ∧ s.m.is R.CLK_STAT_PLL_LOCK = true ∧ s.m.takes 3 0) ∧
    (∃ (s : State), s.on ∧ s.m.is R.CLK_STAT_PLL_LOCK = false ∧ s.m.time.pllTick + tickS ≤ s.m.time.ticks) ∧
    (∃ (s : State), s.on) ∧
    (∃ (s : State) (src : Fin 3), s.on ∧ (src.val = 1 → s.m.is R.MOD_STRAP_ROOT_CAP = true)) :=
  ⟨⟨st (live ++ [(R.CLK_STAT_PLL_LOCK, 0)]), by decide⟩,
    ⟨st (live ++ [(R.CLK_STAT_PLL_LOCK, 1)]), by decide⟩,
    ⟨{ st (live ++ [(R.CLK_STAT_PLL_LOCK, 0)]) with m.time.ticks := 12800000000000 }, by decide⟩,
    ⟨st (live ++ [(R.CLK_STAT_PLL_LOCK, 1), (R.CLK_STAT_XO_OK, 1)]), by decide⟩,
    ⟨st (live ++ [(R.CLK_STAT_PLL_LOCK, 1), (R.CLK_STAT_XO_OK, 1), (R.MOD_STRAP_ROOT_CAP, 1)]), 1, by decide⟩⟩

theorem witness_BeaconsAndHoldover :
    (∃ (s : State), s.on) ∧
    (∃ (s : State) (link : Fin 11) (gen : Fin 65536) (root : Fin 16384), s.on ∧ link.val < 2 ∧ s.m.portUp link = true ∧ s.m.isSource link
    = true ∧ s.m.isLead = false ∧ s.m.get R.TIM_STAT_STATE = 2 ∧ gen.val = s.m.get R.TIM_ROOT_GEN ∧ root.val = s.m.get R.TIM_ROOT_ADDR) ∧
    (∃ (s : State) (link : Fin 11) (ofs : Int) (gen : Fin 65536) (root : Fin 16384), s.on ∧ link.val < 2 ∧ s.m.portUp link = true ∧
    s.m.isSource link = true ∧ s.m.get R.TIM_STAT_STATE ≤ 1 ∧ s.m.inRun = false ∧ offsAgree ((ofs - s.m.asymTicks link) ::
    s.m.time.offs.take 7) = true ∧ gen.val = s.m.get R.TIM_ROOT_GEN ∧ root.val = s.m.get R.TIM_ROOT_ADDR) ∧
    (∃ (s : State) (o : Fin 2), s.on ∧ s.m.get R.TIM_STAT_SRC + o.val = 2 ∧ s.m.isLead = false ∧ s.m.portUp o = true ∧ s.m.time.curPort ≠
    1 - o.val ∧ s.m.time.lastBeacon + 300 * tickUs ≤ s.m.time.ticks) ∧
    (∃ (s : State), s.on ∧ s.m.get R.TIM_STAT_SRC = 3 ∧ s.m.get R.TIM_STAT_STATE = 2 ∧ s.m.inReset 4 0 = false ∧ s.m.pageOn 4 = true ∧
    s.m.time.lastBeacon + 3 * tickMs ≤ s.m.time.ticks ∧ s.m.mayRaise (raiseKey 4 0 2) tickS = true) ∧
    (∃ (s : State), s.on ∧ s.m.get R.TIM_STAT_STATE = 3 ∧ s.m.timeValid = true ∧ 10 * clampN 30 255 (s.m.get R.TIM_CFG_TOL_NS) <
    s.m.errEst) :=
  ⟨⟨st (live ++ [(R.LNK_PSTAT_STATE 0, 2)]), by decide⟩,
    ⟨{ st (live ++ [(R.LNK_PSTAT_STATE 0, 2), (R.MOD_ROLE_STAT_LEAD_POS, 3), (R.TIM_STAT_STATE, 2)]) with m.time.curPort := 0 }, 0, 0, 0,
    by decide⟩,
    ⟨{ st (live ++ [(R.LNK_PSTAT_STATE 1, 2), (R.MOD_ROLE_STAT_LEAD_POS, 3), (R.TIM_STAT_STATE, 1)]) with m.time.curPort := 1, m.time.offs := [949, 949, 949, 1000, 1000, 1000, 1000] },
    1, 1000, 0, 0, by decide +kernel⟩,
    ⟨{ st (live ++ [(R.LNK_PSTAT_STATE 1, 2), (R.TIM_STAT_SRC, 1), (R.TIM_STAT_STATE, 1)]) with m.time.ticks := 12800000000000 }, 1, by
    decide⟩,
    ⟨{ st (live ++ [(R.TIM_STAT_SRC, 3), (R.TIM_STAT_STATE, 2), (R.TIM_STAT_VALID, 1)]) with m.time.ticks := 12800000000000 }, by decide⟩,
    ⟨{ st (live ++ [(R.TIM_STAT_STATE, 3), (R.TIM_STAT_VALID, 1)]) with m.time.holdUs := 60000000 }, by decide⟩⟩

theorem witness_FacilityTimeAndRoots :
    (∃ (s : State) (hi : Word), s.m.wrStatus 0x405C hi.toNat = 0 ∧ s.on ∧ (s.m.is R.TIM_STAT_ROOT && s.m.get R.TIM_STAT_STATE == 2) =
    false) ∧
    (∃ (s : State) (hi : Word), s.m.wrStatus 0x405C hi.toNat = 0 ∧ s.on ∧ s.m.is R.TIM_STAT_ROOT = true ∧ s.m.get R.TIM_STAT_STATE = 2) ∧
    (∃ (s : State) (n : Nat), s.on ∧ s.m.is R.MOD_STRAP_ROOT_CAP = true ∧ s.m.is R.TIM_STAT_ROOT = true ∧ s.m.get R.TIM_STAT_STATE ≠ 2 ∧
    s.m.time.everLocked = false ∧ s.m.time.todPending = some n) ∧
    (∃ (s : State) (dev : Int), s.on ∧ s.m.is R.MOD_STRAP_ROOT_CAP = true ∧ s.m.is R.TIM_STAT_ROOT = true ∧ s.m.get R.TIM_STAT_STATE = 2 ∧
    (dev - s.m.getI R.TIM_PPS_PPS_DLY).natAbs ≤ 1000) ∧
    (∃ (s : State) (dev : Int), s.on ∧ s.m.is R.MOD_STRAP_ROOT_CAP = true ∧ s.m.is R.TIM_STAT_ROOT = true ∧ s.m.get R.TIM_STAT_STATE = 2 ∧
    1000 < (dev - s.m.getI R.TIM_PPS_PPS_DLY).natAbs) ∧
    (∃ (s : State), s.on ∧ s.m.is R.TIM_STAT_ROOT = true ∧ s.m.is R.CLK_STAT_FAC_OK = true ∧ s.m.time.ppsTick + 1100 * tickMs ≤
    s.m.time.ticks) ∧
    (∃ (s : State), s.on ∧ s.m.is R.TIM_STAT_ROOT = true ∧ s.m.is R.CLK_STAT_FAC_OK = false ∧ s.m.time.ppsTick + 1100 * tickMs ≤
    s.m.time.ticks ∧ s.m.get R.TIM_STAT_STATE = 2) ∧
    (∃ (s : State) (k : Nat), s.on ∧ s.m.is R.TIM_PPS_OUT_EN = true ∧ s.m.nowNs ≤ k * 10 ^ 9 ∧ k * 10 ^ 9 < s.m.nowNs + 5000) ∧
    (∃ (s : State), s.m.rdStatus 0x4084 = 0 ∧ s.on) ∧
    (∃ (c : Instr) (s : State), s.on ∧ s.m.is R.MOD_ROLE_STAT_FLEET_ROOT_ACT = true ∧ (s.m.get R.MOD_ROLE_CFG_FLEET_ROOT = 1 ∨ s.m.get
    R.MOD_ROLE_CFG_FLEET_ROOT = 2) ∧ s.m.is R.TIM_STAT_ROOT = false ∧ (c = .rootTimeout ∧ s.m.time.lastRoot + max 5 (s.m.get
    R.TIM_ROOT_CFG_ROOT_TMO) * tickMs ≤ s.m.time.ticks) ∨ (c = .rootHoldoverTimeout ∧ 0 < s.m.time.rootHold ∧ s.m.pins.ppsGood = true ∧
    s.m.is R.CLK_STAT_FAC_OK = true ∧ s.m.time.rootHold + max 100 (s.m.get R.TIM_ROOT_CFG_REF_TMO) * tickMs ≤ s.m.time.ticks)) :=
  ⟨⟨st (live ++ [(R.TIM_STAT_ROOT, 1)]), 1, by decide⟩,
    ⟨st (live ++ [(R.TIM_STAT_ROOT, 1), (R.TIM_STAT_STATE, 2)]), 1, by decide⟩,
    ⟨{ st (live ++ [(R.MOD_STRAP_ROOT_CAP, 1), (R.TIM_STAT_ROOT, 1), (R.TIM_PPS_IN_POL, 1)]) with m.time.todPending := some 1800000000 },
    1800000000, by decide⟩,
    ⟨st (live ++ [(R.MOD_STRAP_ROOT_CAP, 1), (R.TIM_STAT_ROOT, 1), (R.TIM_STAT_STATE, 2)]), -1000, by decide⟩,
    ⟨st (live ++ [(R.MOD_STRAP_ROOT_CAP, 1), (R.TIM_STAT_ROOT, 1), (R.TIM_STAT_STATE, 2)]), 1001, by decide⟩,
    ⟨{ st (live ++ [(R.TIM_STAT_ROOT, 1), (R.CLK_STAT_FAC_OK, 1)]) with m.time.ticks := 12800000000000 }, by decide⟩,
    ⟨{ st (live ++ [(R.TIM_STAT_ROOT, 1), (R.CLK_STAT_FAC_OK, 0), (R.TIM_STAT_STATE, 2)]) with m.time.ticks := 12800000000000 }, by
    decide⟩,
    ⟨st (live ++ [(R.TIM_PPS_OUT_EN, 1)]), 0, by decide⟩,
    ⟨{ st live with m.time.ticks := 64000000000 }, by decide⟩,
    ⟨.rootTimeout,
    { st (live ++ [(R.MOD_ROLE_STAT_FLEET_ROOT_ACT, 1), (R.MOD_ROLE_CFG_FLEET_ROOT, 2), (R.LNK_ADDR_ADDR, 9)]) with m.time.ticks := 12800000000000 },
    by decide⟩⟩

theorem witness_StakesArmAndFire :
    (∃ (s : State) (d7 : Word), s.m.wrStatus 0x50E0 d7.toNat = 0 ∧ s.on ∧ stMode (stkRec s.m d7) = 1 ∧ s.m.commitRefused (s.m.get
    R.STK_ADDR_STAKE) (stkRec s.m d7) = false ∧ s.m.stakeNow (stkRec s.m d7) ≤ stT (stkRec s.m d7)) ∧
    (∃ (s : State) (d7 : Word), s.m.wrStatus 0x50E0 d7.toNat = 0 ∧ s.on ∧ s.m.commitRefused (s.m.get R.STK_ADDR_STAKE) (stkRec s.m d7) =
    true) ∧
    (∃ (s : State) (n : Nat) (t0 : Nat), s.on ∧ n < 8192 ∧ s.m.nextMarker = none ∧ s.m.nextStake = some (t0, n) ∧ s.m.stk.fired < 32 ∧
    (stMode (s.m.stake n) ≠ 1 ∨ stRepeat (s.m.stake n) = false)) ∧
    (∃ (s : State) (n : Nat) (t0 : Nat), s.on ∧ s.m.nextMarker = none ∧ s.m.nextStake = some (t0, n) ∧ stMode (s.m.stake n) = 1) ∧
    (∃ (s : State) (n : Fin 8192) (t0 : Nat), s.on ∧ (∀ w ∈ s.m.ttb.mks, w.stake ≠ n.val) ∧ s.m.fireAt n = some t0 ∧ (stMode (s.m.stake n)
    = 1 ∨ stMode (s.m.stake n) = 3) ∧ stLocal (s.m.stake n) = false ∧ s.m.timeValid = false ∧ t0 < s.m.nowNs + 5000) ∧
    (∃ (s : State) (n : Nat) (t0 : Nat), s.on ∧ s.m.nextMarker = some (t0, n)) ∧
    (∃ (s : State) (d7 : Word), s.m.wrStatus 0x50E0 d7.toNat = 0 ∧ s.on ∧ (stMode (stkRec s.m d7) = 2 ∨ stMode (stkRec s.m d7) = 4 ∨
    stMode (stkRec s.m d7) = 3 ∧ stAuto (stkRec s.m d7) = false) ∧ s.m.commitRefused (s.m.get R.STK_ADDR_STAKE) (stkRec s.m d7) = false) :=
  ⟨⟨{ st (live ++ [(R.STK_ADDR_STAKE, 8175), (R.TIM_STAT_VALID, 1)]) with m.stk.buf := [1, 0, 10000, 0, 0, 0, 0, 0] }, 0, by decide⟩,
    ⟨st (live ++ [(R.STK_ADDR_STAKE, 8176)]), 0, by decide⟩,
    ⟨{ st (live ++ [(R.TIM_STAT_VALID, 1)]) with m.stk.recs := [(5, stakeRec 1 1 1 0 0 4999 0 0)] }, 5, 4999, by decide⟩,
    ⟨{ st (live ++ [(R.TIM_STAT_VALID, 1)]) with m.stk.recs := [(5, stakeRec 1 1 1 0 0 4999 0 0)] }, 5, 4999, by decide⟩,
    ⟨{ st live with m.stk.recs := [(8191, stakeRec 3 1 1 0 0 0 7 9)], m.stk.rel := [(8191, 4999)] }, 8191, 4999, by decide⟩,
    ⟨{ st (live ++ [(R.TIM_STAT_VALID, 1)]) with m.ttb.mks := [⟨{ flags := 0, job := 7, step := 0, kind := 2, edgeT := 4999, pos := 4095, period := 0, delta := 0, dur := 0 }, 1, 8191, none⟩] },
    8191, 4999, by decide⟩,
    ⟨{ st (live ++ [(R.STK_ADDR_STAKE, 8175), (R.TIM_STAT_VALID, 1)]) with m.stk.buf := [3, 0, 10000, 0, 0, 0, 0, 0] }, 0, by decide⟩⟩

theorem witness_Barriers :
    (∃ (s : State) (n : Fin 8192), s.m.wrStatus 0x50A4 (1 + 2 * n.val) = 0 ∧ s.on ∧ stMode (s.m.stake n) = 3 ∧ stState (s.m.stake n) = 1 ∧
    stHomeAddr (s.m.stake n) ≠ s.m.addr) ∧
    (∃ (s : State) (b : List Byte) (n : Nat), s.on ∧ b.getD 0 0 = 0x41 ∧ le (natBytes b) 2 2 = s.m.addr ∧ n = le (natBytes b) 4 2 % 8192 ∧
    stState (s.m.stake n) = 1 ∧ stMode (s.m.stake n) = 2 ∧ s.m.relOf n = none ∧ stArrived (s.m.stake n) + 1 < stCount (s.m.stake n)) ∧
    (∃ (s : State) (b : List Byte) (n : Nat), s.on ∧ b.getD 0 0 = 0x41 ∧ le (natBytes b) 2 2 = s.m.addr ∧ n = le (natBytes b) 4 2 % 8192 ∧
    stState (s.m.stake n) = 1 ∧ stMode (s.m.stake n) = 2 ∧ s.m.relOf n = none ∧ stScope (s.m.stake n) = 0 ∧ stArrived (s.m.stake n) + 1 =
    stCount (s.m.stake n) ∧ (∀ k, stMode (s.m.stake k) ≠ 3)) ∧
    (∃ (s : State) (b : List Byte), s.on ∧ b.getD 0 0 = 0x42 ∧ bit (b.getD 1 0).toNat 0 = true) ∧
    (∃ (s : State) (b : List Byte) (n : Nat), s.on ∧ b.length = 32 ∧ b.getD 0 0 = 0x42 ∧ bit (b.getD 1 0).toNat 0 = false ∧ (∀ k, k ≠ n →
    stState (s.m.stake k) ≠ 1) ∧ stState (s.m.stake n) = 1 ∧ stMode (s.m.stake n) = 3 ∧ stHomeAddr (s.m.stake n) = le (natBytes b) 2 2 %
    16384 ∧ stHomeStake (s.m.stake n) = le (natBytes b) 4 2 % 8192 ∧ s.m.stakeNow (s.m.stake n) ≤ le (natBytes b) 16 8) ∧
    (∃ (s : State) (n : Fin 8192), s.on ∧ stState (s.m.stake n) = 1 ∧ stMode (s.m.stake n) = 4 ∧ s.m.relOf n = none ∧ stT (s.m.stake n) <
    s.m.stakeNow (s.m.stake n) + 5000) ∧
    (∃ (s : State) (b : List Byte) (n : Nat), s.on ∧ b.getD 0 0 = 0x41 ∧ le (natBytes b) 2 2 = s.m.addr ∧ n = le (natBytes b) 4 2 % 8192 ∧
    (stState (s.m.stake n) ≠ 1 ∨ stMode (s.m.stake n) ≠ 2 ∧ stMode (s.m.stake n) ≠ 4 ∨ s.m.relOf n ≠ none)) :=
  ⟨⟨{ st live with m.stk.recs := [(5, stakeRec 3 1 1 0 0 0 7 9)] }, 5, by decide⟩,
    ⟨{ st (live ++ [(R.LNK_ADDR_ADDR, 7)]) with m.stk.recs := [(9, stakeRec 2 1 1 3 1 0 0 0)] }, [0x41, 0, 7, 0, 9, 0], 9, by decide⟩,
    ⟨{ st (live ++ [(R.LNK_ADDR_ADDR, 7)]) with m.stk.recs := [(9, stakeRec 2 1 1 2 1 0 0 0)] }, [0x41, 0, 7, 0, 9, 0], 9, by decide, by
    decide, by decide, by decide, by decide, by decide, by decide, by decide, by decide, fun k =>
    (by by_cases h : 9 = k <;> simp [Mod.stake, Sparse.get, h, stakeDflt, stMode, zeros, stakeRec])⟩,
    ⟨{ st live with m.stk.recs := [(5, stakeRec 3 1 1 0 0 0 7 9)] }, [0x42, 1, 7, 0, 9, 0], by decide⟩,
    ⟨{ st live with m.stk.recs := [(5, stakeRec 3 1 1 0 0 0 7 9)] }, [0x42, 0, 7, 0, 9, 0, 0, 0, 0, 0, 0, 0, 0, 0, 0, 0, 1, 0, 0, 0, 0, 0,
    0, 0, 0, 0, 0, 0, 0, 0, 0, 0], 5, by decide, by decide, by decide, by decide, fun k hk =>
    (by simp [Mod.stake, Sparse.get, Ne.symm hk, stakeDflt, stState, zeros]), by decide, by decide, by decide, by decide, by decide⟩,
    ⟨{ st live with m.stk.recs := [(8191, stakeRec 4 1 1 3 1 4999 0 0)] }, 8191, by decide⟩,
    ⟨{ st (live ++ [(R.LNK_ADDR_ADDR, 7)]) with m.stk.recs := [(9, stakeRec 2 1 2 3 1 0 0 0)] }, [0x41, 0, 7, 0, 9, 0], 9, by decide⟩⟩

theorem witness_TideTablePhases :
    (∃ (s : State), s.on ∧ (s.m.tstate = 3 ∨ s.m.tstate = 4) ∧ s.m.ttb.refSeen = false ∧ s.m.perTol * turn ≤ (s.m.ttb.theta : Rat)) ∧
    (∃ (s : State), s.m.ttb.drop = false ∧ s.m.ttb.outcome = some false ∧ s.m.tstate = 3 ∧ periodOk s.m.ttb.t = true) ∧
    (∃ (s : State), (s.m.ttb.drop = true ∨ s.m.ttb.outcome = some false ∧ s.m.tstate = 4 ∧ 1 ≤ s.m.ttb.bad)) ∧
    (∃ (s : State), s.on ∧ s.m.tstate = 5 ∧ s.m.ttb.lullTick + max 1 (s.m.ttbField R.TTB_LULL_LULL_MAX) * tickS ≤ s.m.nowTicks) ∧
    (∃ (s : State), s.m.wrStatus 0x70F4 1 = 0 ∧ s.on ∧ s.m.tstate ≠ 0) ∧
    (∃ (s : State) (u : TUpd), s.on ∧ s.m.ttb.upd = some u) ∧
    (∃ (s : State), s.on ∧ s.m.ttb.mkRamps.all (fun r => decide (r.start + max 1 (s.m.ttbField R.TTB_LULL_MK_HOLD) * tickMs ≤
    s.m.nowTicks)) = true ∧ (∀ e ∈ s.m.ttb.mkFall, e.2 ≤ s.m.nowTicks)) ∧
    (∃ (s : State) (b : List Byte), s.on ∧ markerBad (natBytes b) = true) ∧
    (∃ (s : State) (b : List Byte), s.on ∧ markerBad (natBytes b) = false ∧ s.m.timeValid = true ∧ s.m.ttb.seen.contains ((markerOf
    (natBytes b)).job, (markerOf (natBytes b)).step, (markerOf (natBytes b)).kind) = true) ∧
    (∃ (s : State) (b : List Byte) (d : Fin 2), s.on ∧ markerBad (natBytes b) = false ∧ s.m.timeValid = true ∧ s.m.ttb.seen.contains
    ((markerOf (natBytes b)).job, (markerOf (natBytes b)).step, (markerOf (natBytes b)).kind) = false ∧ s.m.markerDisp (((markerOf
    (natBytes b)).edgeT : Int) - s.m.nowNs) = d.val ∧ (markerOf (natBytes b)).job = s.m.get R.TTB_JOB_JOB_ID ∧ bit (markerOf (natBytes
    b)).flags 1 = false) ∧
    (∃ (s : State) (b : List Byte), s.on ∧ markerBad (natBytes b) = false ∧ s.m.timeValid = true ∧ s.m.ttb.seen.contains ((markerOf
    (natBytes b)).job, (markerOf (natBytes b)).step, (markerOf (natBytes b)).kind) = false ∧ s.m.markerDisp (((markerOf (natBytes
    b)).edgeT : Int) - s.m.nowNs) = 2) ∧
    (∃ (s : State) (b : List Byte), s.on ∧ markerBad (natBytes b) = false ∧ (s.m.timeValid = false ∨ s.m.ttb.seen.contains ((markerOf
    (natBytes b)).job, (markerOf (natBytes b)).step, (markerOf (natBytes b)).kind) = false) ∧ 3 ≤ s.m.markerDisp (((markerOf (natBytes
    b)).edgeT : Int) - s.m.nowNs)) ∧
    (∃ (s : State) (b : List Byte), s.on ∧ markerBad (natBytes b) = false ∧ s.m.isLead = true) :=
  ⟨⟨{ st (live ++ [(R.TTB_STAT_STATE, 3)]) with m.ttb.refSeen := false, m.ttb.theta := 2 ^ 40 }, by decide +kernel⟩,
    ⟨{ st (live ++ [(R.TTB_STAT_STATE, 3)]) with m.ttb.outcome := some false, m.ttb.t := 12800000000 }, by decide⟩,
    ⟨{ st (live ++ [(R.TTB_STAT_STATE, 4)]) with m.ttb.outcome := some false, m.ttb.bad := 1 }, by decide⟩,
    ⟨{ st (live ++ [(R.TTB_STAT_STATE, 5)]) with m.time.ticks := 128000000000000 }, by decide⟩,
    ⟨st (live ++ [(R.TTB_STAT_STATE, 4)]), by decide⟩,
    ⟨{ st live with m.ttb.upd := some { acc := [], lam := 1 / 8, relearn := false, slot := 3, per := 5 } },
    { acc := [], lam := 1 / 8, relearn := false, slot := 3, per := 5 }, by decide +kernel⟩,
    ⟨{ st live with m.ttb.mkRamps := [⟨3, 5, 0, 10⟩], m.ttb.mkFall := [(2, 1280000000000)], m.time.ticks := 1280000000000 }, by decide⟩,
    ⟨st live, [0x31, 0], by decide⟩,
    ⟨{ st (live ++ [(R.TIM_STAT_VALID, 1)]) with m.ttb.seen := [(7, 0, 0)] }, [0x31, 0, 7, 0] ++ List.replicate 28 0, by decide⟩,
    ⟨st (live ++ [(R.TIM_STAT_VALID, 1), (R.TTB_JOB_JOB_ID, 7)]), [0x31, 0, 7, 0, 0, 0, 0, 0, 0x80, 0x96, 0x98, 0, 0, 0, 0, 0, 0, 0, 0, 0,
    0, 0, 0, 0, 0, 0, 0, 0, 0, 0, 0, 0], 1, by decide⟩,
    ⟨st (live ++ [(R.TIM_STAT_VALID, 1), (R.TTB_JOB_JOB_ID, 7)]), [0x31, 0, 7, 0, 0, 0, 0, 0, 0x80, 0, 0, 0, 0, 0, 0, 0, 0, 0, 0, 0, 0, 0,
    0, 0, 0, 0, 0, 0, 0, 0, 0, 0], by decide⟩,
    ⟨st live, [0x31, 0, 7, 0, 0, 0, 0, 0, 0x80, 0, 0, 0, 0, 0, 0, 0, 0, 0, 0, 0, 0, 0, 0, 0, 0, 0, 0, 0, 0, 0, 0, 0], by decide⟩,
    ⟨st (live ++ [(R.MOD_ROLE_STAT_ROLE, 3)]), [0x31, 0, 7, 0, 0, 0, 0, 0, 0x80, 0, 0, 0, 0, 0, 0, 0, 0, 0, 0, 0, 0, 0, 0, 0, 0, 0, 0, 0,
    0, 0, 0, 0], by decide⟩⟩

theorem witness_TableWindows :
    (∃ (s : State) (hi : Word), s.m.wrStatus 0x7108 hi.toNat = 0 ∧ s.on ∧ s.m.get R.TTB_TAB_ADDR_ADDR / 4096 ≠ s.m.tslot) ∧
    (∃ (s : State), s.m.rdStatus 0x7108 = 0 ∧ s.on) ∧
    (∃ (s : State), s.m.rdStatus 0x7110 = 0 ∧ s.on) ∧
    (∃ (s : State) (v : Word), s.m.wrStatus 0x7110 v.toNat = 0 ∧ s.on) :=
  ⟨⟨st (live ++ [(R.TTB_TAB_ADDR_ADDR, 16383), (R.TTB_TAB_DATA_LO_DATA, 7)]), 0xFFFFFFFF, by decide⟩,
    ⟨{ st (live ++ [(R.TTB_TAB_ADDR_ADDR, 16383)]) with m.ttb.tab := [(16383, 5 * 2 ^ 32)] }, by decide⟩,
    ⟨{ st (live ++ [(R.TTB_LOSS_ADDR_ADDR, 1023)]) with m.ttb.loss := [(1023, 77)] }, by decide⟩,
    ⟨st (live ++ [(R.TTB_LOSS_ADDR_ADDR, 1023)]), 0xFFFFFFFF, by decide⟩⟩

theorem witness_SlotClearing :
    (∃ (s : State) (n : Fin 4), s.m.wrStatus 0x70F4 (2 + 4 * n.val) = 0 ∧ s.on ∧ n.val ≠ s.m.tslot) ∧
    (∃ (s : State) (n : Fin 4), s.m.wrStatus 0x70F4 (2 + 4 * n.val) = 0 ∧ s.on ∧ n.val = s.m.tslot ∧ s.m.tstate ≠ 0) ∧
    (∃ (s : State) (hi : Word), s.m.wrStatus 0x7108 hi.toNat = 0 ∧ s.on ∧ s.m.get R.TTB_TAB_ADDR_ADDR / 4096 = s.m.tslot) :=
  ⟨⟨{ st (live ++ [(R.TTB_STAT_SLOT, 2), (R.TTB_STAT_STATE, 4)]) with m.ttb.tab := [(4096, 3), (16383, 5)] }, 3, by decide⟩,
    ⟨{ st (live ++ [(R.TTB_STAT_SLOT, 3), (R.TTB_STAT_STATE, 4)]) with m.ttb.tab := [(4096, 3), (16383, 5)] }, 3, by decide⟩,
    ⟨st (live ++ [(R.TTB_STAT_SLOT, 3), (R.TTB_TAB_ADDR_ADDR, 12288)]), 1, by decide⟩⟩

theorem witness_EngineCommands :
    (∃ (s : State), s.m.wrStatus 0x8044 1 = 0 ∧ s.on ∧ s.m.inRun = false ∧ s.m.bankOk s.m.actBank = true) ∧
    (∃ (s : State), s.m.wrStatus 0x8044 1 = 0 ∧ s.on ∧ s.m.inRun = true) ∧
    (∃ (s : State) (f : Nat), s.on ∧ s.m.cen.start = some f ∧ f ≤ s.m.frame ∧ s.m.inRun = false ∧ s.m.bankOk s.m.actBank = true) ∧
    (∃ (s : State), s.m.wrStatus 0x8044 2 = 0 ∧ s.on ∧ s.m.inRun = false) ∧
    (∃ (s : State), s.m.wrStatus 0x8100 0 = 0 ∧ s.on) ∧
    (∃ (s : State) (v : Word), s.m.wrStatus 0x8100 v.toNat = 0 ∧ s.on ∧ v ≠ 0) ∧
    (∃ (s : State) (f : Nat), s.on ∧ s.m.cen.swap = some f ∧ f ≤ s.m.frame ∧ s.m.coresRun = false ∧ s.m.bankOk (1 - s.m.actBank) = true) ∧
    (∃ (s : State) (f : Nat), s.on ∧ s.m.cen.swap = some f ∧ f ≤ s.m.frame ∧ s.m.coresRun = true ∧ (s.m.cen.unpub || s.m.cen.miss) = false
    ∧ s.m.bankOk (1 - s.m.actBank) = true ∧ rdAt (s.m.bankByte (1 - s.m.actBank)) 12 4 = s.m.build ∧ s.m.is R.CEN_STAGE_STAGE_OK = true) ∧
    (∃ (s : State) (f : Nat), s.on ∧ s.m.cen.swap = some f ∧ f ≤ s.m.frame ∧ (s.m.cen.unpub || s.m.cen.miss) = false ∧ (s.m.bankOk (1 -
    s.m.actBank) = false ∨ s.m.coresRun = true ∧ rdAt (s.m.bankByte (1 - s.m.actBank)) 12 4 ≠ s.m.build) ∧ s.m.takes 8 4) ∧
    (∃ (s : State) (f : Nat), s.on ∧ s.m.cen.swap = some f ∧ f ≤ s.m.frame ∧ s.m.coresRun = true ∧ (s.m.cen.unpub || s.m.cen.miss) = false
    ∧ s.m.bankOk (1 - s.m.actBank) = true ∧ rdAt (s.m.bankByte (1 - s.m.actBank)) 12 4 = s.m.build ∧ s.m.is R.CEN_STAGE_STAGE_OK = false) ∧
    (∃ (s : State) (f : Nat), s.on ∧ s.m.cen.swap = some f ∧ f ≤ s.m.frame ∧ s.m.coresRun = true ∧ (s.m.cen.unpub || s.m.cen.miss) = true
    ∧ s.m.takes 8 4) ∧
    (∃ (s : State), s.m.wrStatus 0x8228 1 = 0 ∧ s.on ∧ s.m.bankOk (1 - s.m.actBank) = true) ∧
    (∃ (s : State), s.m.wrStatus 0x8228 1 = 0 ∧ s.on ∧ s.m.bankOk (1 - s.m.actBank) = false ∧ s.m.takes 8 4) ∧
    (∃ (s : State), s.on ∧ s.m.is R.CEN_STAGE_BUSY = true ∧ s.m.bankOk (1 - s.m.actBank) = true ∧ s.m.takes 8 4) ∧
    (∃ (s : State) (c : Fin 4), s.on ∧ s.m.get (coreSt c) = 2 ∧ s.m.get (R.CEN_LEN_CMD_DECL c) ≠ 0x1FFF ∧ s.m.takes 8 c) ∧
    (∃ (s : State) (c : Fin 4), s.on ∧ s.m.get (coreSt c) = 2 ∧ s.m.takes 8 c) ∧
    (∃ (s : State) (c : Fin 4) (ch : Fin 8), s.on ∧ s.m.get (coreSt c) = 2 ∧ bit (s.m.get R.CEN_DMA_STAT_HALT) (c.val * 8 + ch.val) =
    false ∧ s.m.takes 8 c) :=
  ⟨⟨st (live ++ [(R.CEN_STAT_IMG_A, 1)]), by decide⟩,
    ⟨st (live ++ [(R.MGT_PSTATE_STATE, 3)]), by decide⟩,
    ⟨{ st (live ++ [(R.CEN_STAT_IMG_A, 1), (R.CEN_CFG_CORE_EN, 5)]) with m.cen.start := some 0 }, 0, by decide⟩,
    ⟨{ st live with m.cen.start := some 2000 }, by decide⟩,
    ⟨{ st (live ++ [(R.CEN_STAT_SWAP_PEND, 1), (R.CEN_SWAP_FRAME, 200)]) with m.cen.swap := some 200 }, by decide⟩,
    ⟨st live, 0xFFFFFFFF, by decide⟩,
    ⟨{ st (live ++ [(R.CEN_STAT_IMG_B, 1)]) with m.cen.swap := some 0 }, 0, by decide⟩,
    ⟨{ st (live ++ [(R.CEN_STAT_CORE0_ST, 2), (R.CEN_STAT_IMG_B, 1), (R.CEN_STAGE_STAGE_OK, 1)]) with m.cen.swap := some 0 }, 0, by
    decide⟩,
    ⟨{ st (live ++ [(R.CEN_STAT_CORE0_ST, 2)]) with m.cen.swap := some 0 }, 0, by decide⟩,
    ⟨{ st (live ++ [(R.CEN_STAT_CORE0_ST, 2), (R.CEN_STAT_IMG_B, 1)]) with m.cen.swap := some 0 }, 0, by decide⟩,
    ⟨{ st (live ++ [(R.CEN_STAT_CORE0_ST, 2)]) with m.cen.swap := some 0, m.cen.miss := true }, 0, by decide⟩,
    ⟨st (live ++ [(R.CEN_STAT_IMG_B, 1)]), by decide⟩,
    ⟨st live, by decide⟩,
    ⟨st (live ++ [(R.CEN_STAT_IMG_B, 1), (R.CEN_STAGE_BUSY, 1)]), by decide⟩,
    ⟨st (live ++ [(R.CEN_STAT_CORE3_ST, 2), (R.MGT_PSTATE_STATE, 3), (R.CEN_LEN_CMD_DECL 3, 1584)]), 3, by decide⟩,
    ⟨st (live ++ [(R.CEN_STAT_CORE0_ST, 2)]), 0, by decide⟩,
    ⟨st (live ++ [(R.CEN_STAT_CORE3_ST, 2)]), 3, 7, by decide⟩⟩

theorem witness_EngineWindowsAndLaws :
    (∃ (s : State) (hi : Word), s.m.wrStatus 0x8188 hi.toNat = 0 ∧ s.on ∧ s.m.is R.CEN_WIN_ADDR_SPACE = true ∧ s.m.get R.CEN_WIN_ADDR_ADDR
    / 8 * 8 < coreBank) ∧
    (∃ (s : State) (hi : Word), s.m.wrStatus 0x8188 hi.toNat = 0 ∧ s.on ∧ s.m.is R.CEN_WIN_ADDR_SPACE = false ∧ s.m.sramWritable (s.m.get
    R.CEN_WIN_ADDR_CORE) (s.m.get R.CEN_WIN_ADDR_ADDR / 8 * 8) = true) ∧
    (∃ (s : State) (hi : Word), s.m.wrStatus 0x8188 hi.toNat = 0 ∧ s.on ∧ s.m.is R.CEN_WIN_ADDR_SPACE = false ∧ s.m.sramWritable (s.m.get
    R.CEN_WIN_ADDR_CORE) (s.m.get R.CEN_WIN_ADDR_ADDR / 8 * 8) = false) ∧
    (∃ (s : State), s.m.rdStatus 0x8188 = 0 ∧ s.on) ∧
    (∃ (s : State) (v : Word), s.m.wrStatus 0x8204 v.toNat = 0 ∧ s.on) ∧
    (∃ (s : State), s.on ∧ s.m.is R.CEN_PRG_STAT_HO_PEND = true ∧ 20000 ≤ s.m.cen.selFrames ∧ s.m.takes 8 4) ∧
    (∃ (s : State) (v : Word), s.m.wrStatus 0x8218 v.toNat = 0 ∧ s.on ∧ s.m.spBand.1 ≤ ((v.toNat % 65536 : Nat) : Rat) / 100 ∧ ((v.toNat %
    65536 : Nat) : Rat) / 100 ≤ s.m.spBand.2) ∧
    (∃ (s : State) (v : Word), s.m.wrStatus 0x8218 v.toNat = 0 ∧ s.on ∧ s.m.spBand.1 ≤ s.m.spBand.2 ∧ s.m.spBand.2 < ((v.toNat % 65536 :
    Nat) : Rat) / 100) ∧
    (∃ (s : State) (v : Word), s.m.wrStatus 0x8218 v.toNat = 0 ∧ s.on ∧ s.m.spBand.1 ≤ s.m.spBand.2 ∧ ((v.toNat % 65536 : Nat) : Rat) /
    100 < s.m.spBand.1) ∧
    (∃ (s : State), s.on ∧ s.m.inRun = true ∧ 200 * clampN 1 10000 (s.m.get R.CEN_SP_LAG_LAG_MS) ≤ s.m.cen.lagRun) ∧
    (∃ (w : Nat), w < 65536 ∧ w ≠ 32768) :=
  ⟨⟨st (live ++ [(R.CEN_WIN_ADDR_SPACE, 1), (R.CEN_WIN_ADDR_ADDR, 131064), (R.CEN_WIN_ADDR_CORE, 3)]), 0x01020304, by decide⟩,
    ⟨{ st (live ++ [(R.CEN_STAT_IMG_A, 1), (R.CEN_WIN_ADDR_CORE, 1), (R.CEN_WIN_ADDR_ADDR, 8)]) with m.cen.bank := regionImg },
    0x01020304, by decide⟩,
    ⟨st (live ++ [(R.CEN_WIN_ADDR_ADDR, 0x3FFFF8)]), 1, by decide⟩,
    ⟨{ st (live ++ [(R.CEN_WIN_ADDR_ADDR, 0x3FFFF8)]) with m.cen.sram := [(0x3FFFFC, 9)] }, by decide⟩,
    ⟨st live, 7, by decide⟩,
    ⟨{ st (live ++ [(R.CEN_PRG_STAT_HO_PEND, 1)]) with m.cen.selFrames := 20000 }, by decide⟩,
    ⟨st live, 40000, by decide +kernel⟩,
    ⟨st live, 60000, by decide +kernel⟩,
    ⟨st live, 1, by decide +kernel⟩,
    ⟨{ st (live ++ [(R.MGT_PSTATE_STATE, 3), (R.CEN_SP_LAG_LAG_MS, 1)]) with m.cen.lagRun := 200 }, by decide⟩,
    ⟨33000, by decide⟩⟩

theorem witness_PhaseStates :
    (∃ (s : State) (c : Fin 4), s.on ∧ s.m.inRun = true ∧ s.m.shedDwell ≤ (s.m.conv c).dwell ∧ (s.m.conv c).shedJ = none ∧ (s.m.conv
    c).rot = none) ∧
    (∃ (k : Instr) (s : State), (k = .phaseRotation ∧ s.m.get R.PHS_ROT_ROT_S ≠ 0) ∨ (k = .phsCmdRotNow ∧ s.m.wrStatus 0x908C 2 = 0) ∧
    s.on ∧ s.m.inRun = true ∧ (∀ c < 4, (s.m.conv c).run = [] ∨ ((s.m.conv c).rot = none ∧ (s.m.conv c).shedJ = none ∧ s.m.is
    R.CEN_PRG_STAT_SS_DONE = true ∧ ∀ n ∈ convPhases c, s.m.phaseActive n = true → n ∈ (s.m.conv c).run))) ∧
    (∃ (k : Instr) (s : State) (c : Fin 4) (h : Nat) (r : List Nat), (k = .phaseRotation ∧ s.m.get R.PHS_ROT_ROT_S ≠ 0) ∨ (k =
    .phsCmdRotNow ∧ s.m.wrStatus 0x908C 2 = 0) ∧ s.on ∧ s.m.inRun = true ∧ s.m.is R.CEN_PRG_STAT_SS_DONE = true ∧ (s.m.conv c).run = h ::
    r ∧ (s.m.conv c).rot = none ∧ (∃ n ∈ convPhases c, s.m.phaseActive n = true ∧ n ∉ h :: r)) ∧
    (∃ (s : State), s.m.wrStatus 0x908C 1 = 0 ∧ s.on) ∧
    (∃ (s : State) (hi : Bool) (v : Word), s.m.wrStatus (if hi then 0x9094 else 0x9090) v.toNat = 0 ∧ s.on) ∧
    (∃ (s : State) (n : Fin 24) (v : Int) (k : Nat), s.on ∧ (s.m.phase n).brake = some k ∧ -s.m.pbMin ≤ s.m.calQ n (4 * v) * 125 / 32768) ∧
    (∃ (s : State) (n : Fin 24) (v : Int) (k : Nat), s.on ∧ (s.m.phase n).brake = some k ∧ s.m.calQ n (4 * v) * 125 / 32768 < -s.m.pbMin ∧
    s.m.brkMax ≤ k) ∧
    (∃ (s : State) (p : Fin 2), s.m.inRun = true ∧ s.m.softStart = true ∧ 20 * clampN 1 100 (s.m.get R.PHS_SC_SC_MS) ≤ s.m.phs.scRun.getD
    p 0 ∧ s.m.takes 9 8) ∧
    (∃ (s : State) (n : Fin 40) (l : List Int), s.on ∧ s.m.isolated n = false ∧ clampN 1 15 (s.m.get R.PHS_PROT_OC_N) ≤ l.length ∧ (∀ v ∈
    l.drop (l.length - clampN 1 15 (s.m.get R.PHS_PROT_OC_N)), s.m.ocLimit < absQ (s.m.calQ n (4 * v) * 125 / 32768)) ∧ s.m.takes 9
    (phaseLink n)) ∧
    (∃ (s : State) (n : Fin 40), s.on ∧ 200 ≤ (s.m.phase n).imbRun ∧ s.m.condOn 9 (phaseLink n) 5 n = false ∧ s.m.takes 9 (phaseLink n) ∧
    s.m.mayRaise ((n.val + 1) * 2 ^ 24 + raiseKey 9 (phaseLink n) 5) tickS = true) ∧
    (∃ (s : State) (p : Fin 2), s.on ∧ 10 ≤ s.m.phs.sumRun.getD p 0 ∧ s.m.condOn 9 8 6 (12 * p.val) = false ∧ s.m.takes 9 8) :=
  ⟨⟨{ st (live ++ [(R.MGT_PSTATE_STATE, 3)]) with m.phs.conv := [{}, {}, {}, { dwell := 100000, run := [32, 33] }] }, 3, by decide⟩,
    ⟨.phsCmdRotNow, st (live ++ [(R.MGT_PSTATE_STATE, 3)]), by decide⟩,
    ⟨.phsCmdRotNow,
    { st (live ++ [(R.MGT_PSTATE_STATE, 3), (R.CEN_PRG_STAT_SS_DONE, 1), (R.PHS_LNK_STAT_UP, 255), (R.PHS_LNK_STAT_ARMED, 255)]) with m.phs.conv := [{ run := [0] }, {}, {}, {}] },
    0, 0, [], by decide⟩,
    ⟨st live, by decide⟩,
    ⟨st (live ++ [(⟨0x909C, 7, 1⟩, 1)]), true, 0x80, by decide⟩,
    ⟨{ st live with m.phs.ph := { brake := some 3 } :: List.replicate 39 {} }, 0, 0, 3, by decide +kernel⟩,
    ⟨{ st live with m.phs.ph := { brake := some 100000 } :: List.replicate 39 {} }, 0, -32768, 100000, by decide +kernel⟩,
    ⟨{ st (live ++ [(R.MGT_PSTATE_STATE, 3), (R.CEN_SP_CFG_SS_ILIM, 20)]) with m.phs.scRun := [0, 2000] }, 1, by decide⟩,
    ⟨st live, 39, List.replicate 15 32767, by decide +kernel⟩,
    ⟨{ st live with m.phs.ph := { imbRun := 200 } :: List.replicate 39 {} }, 0, by decide⟩,
    ⟨{ st live with m.phs.sumRun := [0, 10] }, 1, by decide⟩⟩

theorem witness_PhaseLinks :
    (∃ (s : State) (l : Fin 8) (b : List Byte), s.on ∧ s.m.pageOn 9 = true ∧ s.m.statusOk l (natBytes b) = false) ∧
    (∃ (s : State) (l : Fin 8) (b : List Byte), s.on ∧ s.m.pageOn 9 = true ∧ s.m.statusOk l (natBytes b) = true) ∧
    (∃ (s : State) (l : Fin 8), s.on ∧ s.m.linkUp l = true ∧ 2 ≤ (s.m.phs.links.getD l {}).missed) ∧
    (∃ (s : State) (l : Fin 8) (d : List Nat), s.on ∧ s.m.pageOn 9 = true ∧ s.m.linkUp l = false ∧ d.length = 16 ∧ linkDelay d ≤ 1280) ∧
    (∃ (s : State) (d : List Nat) (c : Bool), s.on ∧ (d.length ≠ 16 ∨ 1280 < linkDelay d ∨ c = false)) :=
  ⟨⟨st live, 7, [0x81], by decide⟩,
    ⟨{ st live with m.phs.links := { seq := 1 } :: List.replicate 7 {} }, 0, statusFrame, by decide⟩,
    ⟨{ st (live ++ [(R.PHS_LNK_STAT_UP, 255)]) with m.phs.links := [{}, {}, {}, {}, {}, {}, {}, { missed := 2 }] }, 7, by decide⟩,
    ⟨st (live ++ [(R.PHS_LNK_STAT_UP, 1)]), 7, [5120, 5120, 5120, 5120, 5120, 5120, 5120, 5120, 5120, 5120, 5120, 5120, 5120, 5120, 5120,
    9999], by decide +kernel⟩,
    ⟨st live, [5122, 5122, 5122, 5122, 5122, 5122, 5122, 5122, 5122, 5122, 5122, 5122, 5122, 5122, 5122, 5122], true, by decide +kernel⟩⟩

theorem witness_SamplesAndRecorder :
    (∃ (s : State) (c : Fin 160), s.on ∧ s.m.is R.AFE_CFG_OPEN_EN = true ∧ s.m.openN ≤ s.m.afe.lowRun.getD c 0 ∧ c.val ∉ s.m.afe.openCond
    ∧ s.m.condOn 10 0 1 c = false ∧ s.m.takes 10 0) ∧
    (∃ (s : State) (c : Fin 160), s.on ∧ s.m.openN ≤ s.m.afe.okRun.getD c 0 ∧ c.val ∈ s.m.afe.openCond ∧ s.m.condOn 10 0 1 c = true ∧
    s.m.takes 10 0) ∧
    (∃ (s : State), s.m.wrStatus 0xA0D0 1 = 0 ∧ s.on) ∧
    (∃ (s : State) (ch : Byte), s.m.wrStatus 0xA0C0 ch.toNat = 0 ∧ s.on) ∧
    (∃ (s : State), s.m.wrStatus 0xB08C 1 = 0 ∧ s.on ∧ s.m.cap.post = none ∧ s.m.is R.CAP_STAT_FROZEN = false) ∧
    (∃ (s : State), s.on ∧ s.m.cap.post = some 0) ∧
    (∃ (s : State), s.m.wrStatus 0xB08C 2 = 0 ∧ s.on) ∧
    (∃ (s : State), s.m.rdStatus 0xB0C4 = 0 ∧ s.on ∧ s.m.get R.CAP_WIN_ADDR_ADDR * 64 + 64 ≤ ringBytes + sideBytes ∧ s.m.cap.rdWord < 16) :=
  ⟨⟨{ st (live ++ [(R.AFE_CFG_OPEN_EN, 1)]) with m.afe.lowRun := List.replicate 160 1000 }, 159, by decide⟩,
    ⟨{ st live with m.afe.okRun := List.replicate 160 1000, m.afe.openCond := [56], m.flt.conds := [⟨10, 0, 1, 56, 2, false⟩] }, 56, by
    decide⟩,
    ⟨{ st (live ++ [(⟨0xA080, 0, 32⟩, 3)]) with m.afe.openCond := [1] }, by decide⟩,
    ⟨st live, 159, by decide⟩,
    ⟨st live, by decide⟩,
    ⟨{ st live with m.cap.post := some 0 }, by decide⟩,
    ⟨st (live ++ [(R.CAP_STAT_FROZEN, 1)]), by decide⟩,
    ⟨{ st (live ++ [(R.CAP_WIN_ADDR_ADDR, 9)]) with m.cap.rdWord := 15 }, by decide⟩⟩

theorem witness_ChainRings :
    (∃ (c : Instr) (s : State) (r : Fin 2) (x : RingScan), (c = .chainBringup r x ∨ (c = .chainBringupRetry r x ∧ s.m.condOn 12 r 3 (32 *
    r.val) = true ∧ s.m.ringReady r = false ∧ (s.m.wring r).upTick + tickS ≤ s.m.time.ticks)) ∧ s.on ∧ s.m.chainOn = true ∧ s.m.nMon r ≠ 0
    ∧ s.m.ringBad r = false ∧ x.closed = true ∧ x.cntA = s.m.nMon r ∧ x.cntB = s.m.nMon r) ∧
    (∃ (c : Instr) (s : State) (r : Fin 2) (x : RingScan), (c = .chainBringup r x ∨ (c = .chainBringupRetry r x ∧ s.m.condOn 12 r 3 (32 *
    r.val) = true ∧ s.m.ringReady r = false ∧ (s.m.wring r).upTick + tickS ≤ s.m.time.ticks)) ∧ s.on ∧ s.m.chainOn = true ∧ s.m.nMon r ≠ 0
    ∧ s.m.ringBad r = false ∧ x.closed = false ∧ x.cntA + x.cntB ≤ s.m.nMon r) ∧
    (∃ (s : State) (r : Fin 2) (x : RingScan), s.on ∧ s.m.chainOn = true ∧ s.m.nMon r ≠ 0 ∧ x.closed = true ∧ (x.cntA ≠ s.m.nMon r ∨
    x.cntB ≠ s.m.nMon r) ∧ s.m.condOn 12 r 3 (32 * r.val) = false ∧ s.m.takes 12 r) ∧
    (∃ (s : State) (x : RingScan) (y : RingScan), s.m.wrStatus 0xC0C4 1 = 0 ∧ s.on ∧ s.m.inRun = false ∧ s.m.chainOn = true ∧ (∀ r < 2,
    s.m.nMon r ≠ 0 ∧ s.m.ringBad r = false) ∧ x.closed = true ∧ x.cntA = s.m.nMon 0 ∧ x.cntB = s.m.nMon 0 ∧ y.closed = true ∧ y.cntA =
    s.m.nMon 1 ∧ y.cntB = s.m.nMon 1) ∧
    (∃ (s : State), s.m.wrStatus 0xC0C4 1 = 0 ∧ s.on ∧ s.m.inRun = true) ∧
    (∃ (s : State) (r : Fin 2) (a : Byte), s.on ∧ s.m.chainOn = true ∧ bit a.toNat 7 = false ∧ bit a.toNat 6 = false ∧ a.toNat % 64 <
    s.m.nMon r ∧ (∀ e ∈ (s.m.wring r).lost, e.1 ≠ a.toNat % 64)) ∧
    (∃ (s : State) (r : Fin 2) (a : Byte), s.on ∧ s.m.chainOn = true ∧ bit a.toNat 7 = true ∧ a.toNat % 64 < s.m.nMon r) :=
  ⟨⟨.chainBringup 1 ⟨32, 32, true, 100, 0⟩, st (live ++ [(R.WCH_CFG_EN, 1), (R.WCH_RING1_CFG_N_MON, 32)]), 1, ⟨32, 32, true, 100, 0⟩, by
    decide⟩,
    ⟨.chainBringup 1 ⟨30, 1, false, 100, 50⟩, st (live ++ [(R.WCH_CFG_EN, 1), (R.WCH_RING1_CFG_N_MON, 32)]), 1, ⟨30, 1, false, 100, 50⟩,
    by decide⟩,
    ⟨st (live ++ [(R.WCH_CFG_EN, 1), (R.WCH_RING0_CFG_N_MON, 4)]), 0, ⟨4, 3, true, 100, 0⟩, by decide⟩,
    ⟨st (live ++ [(R.WCH_CFG_EN, 1), (R.WCH_RING0_CFG_N_MON, 4), (R.WCH_RING1_CFG_N_MON, 5)]), ⟨4, 4, true, 100, 0⟩, ⟨5, 5, true, 100, 0⟩,
    by decide⟩,
    ⟨st (live ++ [(R.MGT_PSTATE_STATE, 3)]), by decide⟩,
    ⟨st (live ++ [(R.WCH_CFG_EN, 1), (R.WCH_RING0_CFG_N_MON, 4), (R.WCH_STAT_ST0, 1), (R.WCH_STAT_READY0, 1)]), 0, 3, by decide⟩,
    ⟨{ st (live ++ [(R.WCH_CFG_EN, 1), (R.WCH_RING0_CFG_N_MON, 4), (R.WCH_STAT_ST0, 2), (R.WCH_STAT_READY0, 1)]) with m.wch.rings := [{ lost := [(3, 0)] }, {}] },
    0, 0x83, by decide⟩⟩

theorem witness_ChainServices :
    (∃ (s : State), s.on ∧ s.m.chainOn = true ∧ s.m.frame % (200 * s.m.tSw) = 0 ∧ (s.m.wring 0).lost = [] ∧ (s.m.wring 1).lost = [] ∧
    (s.m.ringReady 0 = true ∨ s.m.ringReady 1 = true)) ∧
    (∃ (s : State) (p : RingPing), s.on ∧ s.m.chainOn = true ∧ s.m.frame % (200 * s.m.tSw) = 0 ∧ (s.m.wring 0).lost ≠ [] ∧ p.reach = true
    ∧ s.m.ringReady 0 = true ∧ s.m.allRestored 0 = true ∧ (s.m.wring 0).restTick + 10 * max 1 (s.m.get R.WCH_LIM_CFG_RECLOSE) * tickMs ≤
    s.m.time.ticks) ∧
    (∃ (s : State), s.on ∧ s.m.wch.inFlight = true) ∧
    (∃ (c : Instr) (s : State), (c = .owtCycleStart ∧ s.m.get R.WCH_OWT_CFG_OWT_S ≠ 0 ∧ s.m.wch.owtTick + s.m.get R.WCH_OWT_CFG_OWT_S *
    tickS ≤ s.m.time.ticks) ∨ (c = .wchCmdOwtNow ∧ s.m.wrStatus 0xC0C4 2 = 0) ∧ s.on ∧ s.m.chainOn = true ∧ (s.m.nMon 0 ≠ 0 ∨ s.m.nMon 1 ≠
    0)) ∧
    (∃ (s : State) (n : Fin 64), s.m.wrStatus 0xC0C4 (4 + 8 * n.val) = 0 ∧ s.on) ∧
    (∃ (s : State) (v : Word), s.m.wrStatus 0xC0DC v.toNat = 0 ∧ s.on ∧ s.m.get R.WCH_BAL_CFG_SRC = 1) ∧
    (∃ (s : State) (v : Word), s.m.wrStatus 0xC0DC v.toNat = 0 ∧ s.on ∧ s.m.get R.WCH_BAL_CFG_SRC ≠ 1) ∧
    (∃ (s : State), s.m.rdStatus 0xC0D4 = 0 ∧ s.on) :=
  ⟨⟨{ st (live ++ [(R.WCH_CFG_EN, 1), (R.WCH_RING0_CFG_N_MON, 4), (R.WCH_STAT_READY0, 1)]) with m.wch.rings := [{ due := some 1 }, {}] },
    by decide⟩,
    ⟨{ st (live ++ [(R.WCH_CFG_EN, 1), (R.WCH_RING0_CFG_N_MON, 4), (R.WCH_STAT_ST0, 2), (R.WCH_STAT_READY0, 1)]) with m.wch.rings := [{ lost := [(3, 3)] }, {}], m.time.ticks := 128000000000000 },
    ⟨true, 100, 0⟩, by decide⟩,
    ⟨{ st (live ++ [(R.WCH_CFG_EN, 1), (R.WCH_RING0_CFG_N_MON, 4), (R.WCH_STAT_ST0, 1), (R.WCH_STAT_READY0, 1)]) with m.wch.inFlight := true },
    by decide⟩,
    ⟨.wchCmdOwtNow, st (live ++ [(R.WCH_CFG_EN, 1), (R.WCH_RING0_CFG_N_MON, 4)]), by decide⟩,
    ⟨st (live ++ [(⟨0xC800, 0, 32⟩, 0)]), 63, by decide⟩,
    ⟨st (live ++ [(R.WCH_BAL_CFG_SRC, 1), (R.WCH_BAL_ADDR_MON, 63)]), 0x000A8001, by decide⟩,
    ⟨st (live ++ [(R.WCH_BAL_CFG_SRC, 0)]), 0x000A8001, by decide⟩,
    ⟨st (live ++ [(R.WCH_CELL_ADDR_CELL, 1023)]), by decide⟩⟩

theorem witness_Boundaries :
    (∃ (s : State), s.on ∧ s.m.domainOn 17 = false ∧ s.m.get R.LOG_USEC_USEC + 5 < 3600000000) ∧
    (∃ (s : State), s.on ∧ s.m.domainOn 17 = false ∧ s.m.get R.LOG_USEC_USEC = 3600000000 - 5 ∧ s.m.get R.LOG_HOURS_HOURS < 2 ^ 32 - 1) ∧
    (∃ (s : State), s.on ∧ s.m.clocked = true) ∧
    (∃ (s : State), s.on ∧ s.m.clocked = true) ∧
    (∃ (s : State), s.on ∧ s.m.clocked = false) :=
  ⟨⟨st (live ++ [(R.PWR_STAT_PG, 0xF), (R.LOG_USEC_USEC, 3599999994)]), by decide⟩,
    ⟨st (live ++ [(R.PWR_STAT_PG, 0xF), (R.LOG_USEC_USEC, 3599999995)]), by decide⟩,
    ⟨st (live ++ [(R.CLK_STAT_PLL_LOCK, 1)]), by decide⟩,
    ⟨{ st (live ++ [(R.CLK_STAT_PLL_LOCK, 1)]) with m.ttb.lossDue := [(4, 9)] }, by decide⟩,
    ⟨st (live ++ [(R.CLK_STAT_PLL_LOCK, 0)]), by decide⟩⟩

theorem witness_Intake :
    (∃ (s : State) (r : Rep) (rs : List Rep), s.on ∧ s.m.flt.lane = [] ∧ s.m.flt.queue = r :: rs ∧ r.cls = 0 ∧ r.ind = .event ∧
    s.m.shadowed r = false) ∧
    (∃ (s : State) (r : Rep) (rs : List Rep), s.on ∧ s.m.flt.lane = [] ∧ s.m.flt.queue = r :: rs ∧ r.cls = 1 ∧ r.ind = .event ∧
    s.m.shadowed r = false ∧ s.m.pendOf r.blk r.inst r.kind = none ∧ s.m.flt.pend.length < 32 ∧ s.m.get R.FLT_CFG_SLACK ≠ 0) ∧
    (∃ (s : State) (r : Rep) (rs : List Rep), s.m.flt.lane = r :: rs ∧ r.cls = 2 ∧ r.ind = .event ∧ r.blk < 21 ∧ (s.m.pstate = 2 ∨
    s.m.pstate = 3) ∧ s.m.flt.pend.length < 32 ∧ s.m.get R.FLT_CFG_SLACK ≠ 0) ∧
    (∃ (s : State) (r : Rep) (rs : List Rep) (p : Pend), s.on ∧ s.m.flt.lane = [] ∧ s.m.flt.queue = r :: rs ∧ r.ind = .clr ∧ s.m.pendOf
    r.blk r.inst r.kind = some p ∧ s.m.is R.FLT_CFG_ESC_ON_CLR = false ∧ p.noCancel = false) ∧
    (∃ (s : State) (r : Rep) (rs : List Rep), s.on ∧ s.m.flt.lane = [] ∧ s.m.flt.queue = r :: rs ∧ r.cls = 0 ∧ r.ind = .event ∧
    s.m.flt.resets = []) ∧
    (∃ (s : State), s.on ∧ s.m.flt.ovfDue = true ∧ s.m.flt.queue.length < 256 ∧ s.m.takes 14 0) :=
  ⟨⟨{ st live with m.flt.queue := [{ blk := 2, inst := 0, kind := 3, addr := 9, cls := 0 }] },
    { blk := 2, inst := 0, kind := 3, addr := 9, cls := 0 }, [], by decide⟩,
    ⟨{ st (live ++ [(R.FLT_CFG_SLACK, 500)]) with m.flt.queue := [{ blk := 12, inst := 0, kind := 3, addr := 9, cls := 1 }] },
    { blk := 12, inst := 0, kind := 3, addr := 9, cls := 1 }, [], by decide⟩,
    ⟨{ st (live ++ [(R.MGT_PSTATE_STATE, 3), (R.FLT_CFG_SLACK, 500)]) with m.flt.lane := [{ blk := 20, inst := 0, kind := 3, addr := 9, cls := 2 }] },
    { blk := 20, inst := 0, kind := 3, addr := 9, cls := 2 }, [], by decide⟩,
    ⟨{ st (live ++ [(R.FLT_CFG_ESC_ON_CLR, 0)]) with m.flt.queue := [{ blk := 12, inst := 0, kind := 3, addr := 9, cls := 1, ind := .clr }], m.flt.pend := [⟨3, 12, 0, 3, 9, 1, true, 100, false, false, false⟩] },
    { blk := 12, inst := 0, kind := 3, addr := 9, cls := 1, ind := .clr }, [], ⟨3, 12, 0, 3, 9, 1, true, 100, false, false, false⟩, by
    decide⟩,
    ⟨{ st live with m.flt.queue := [{ blk := 2, inst := 0, kind := 3, addr := 9, cls := 0 }] },
    { blk := 2, inst := 0, kind := 3, addr := 9, cls := 0 }, [], by decide⟩,
    ⟨{ st live with m.flt.ovfDue := true }, by decide⟩⟩

theorem witness_Ladder :
    (∃ (s : State) (p : Pend), s.on ∧ firstPend s.m.flt.pend = some p ∧ p.deadline < s.m.time.ticks + 64000 ∧ p.cls = 1 ∧ s.m.l1Allowed
    p.blk = false) ∧
    (∃ (s : State) (p : Pend), s.on ∧ firstPend s.m.flt.pend = some p ∧ p.deadline < s.m.time.ticks + 64000 ∧ p.cls = 1 ∧ p.blk = 16 ∧ bit
    (s.m.get R.FLT_L1_EN_EN) 16 = true ∧ s.m.pstate ≠ 1 ∧ s.m.pageOn 16 = true ∧ s.m.recentResets 16 p.inst < max 1 (s.m.get
    R.FLT_REP_CFG_RST_MAX) ∧ s.m.inReset 16 p.inst = false) ∧
    (∃ (s : State) (p : Pend), s.m.wrStatus 0xE0D4 1 = 0 ∧ s.on ∧ s.m.dispPend = some p ∧ p.cls = 1) ∧
    (∃ (s : State) (p : Pend), s.m.wrStatus 0xE0D4 2 = 0 ∧ s.on ∧ s.m.dispPend = some p ∧ p.cls = 1 ∧ s.m.l1Allowed p.blk = false) ∧
    (∃ (s : State) (p : Pend), s.m.wrStatus 0xE0D4 3 = 0 ∧ s.on ∧ s.m.dispPend = some p ∧ p.extended = false) ∧
    (∃ (s : State) (p : Pend), s.m.wrStatus 0xE0D4 4 = 0 ∧ s.on ∧ s.m.dispPend = some p ∧ p.cls = 2) ∧
    (∃ (c : Instr) (k : Nat) (s : State), (c, k) ∈ [(Instr.dispHandled, 1), (.dispEscalate, 2), (.dispExtend, 3), (.dispHold, 4)] ∧
    s.m.wrStatus 0xE0D4 k = 0 ∧ s.on ∧ s.m.dispPend = none) ∧
    (∃ (s : State) (b : Fin 21) (i : Fin 64) (r : Reset), s.on ∧ s.m.flt.resets.find? (fun t => t.held && t.blk == b.val && t.inst ==
    i.val) = some r) ∧
    (∃ (s : State) (b : Fin 21) (i : Fin 64) (r : Reset), s.on ∧ s.m.flt.resets.find? (fun t => !t.held && s.m.shadowOver t && t.blk ==
    b.val && t.inst == i.val) = some r) :=
  ⟨⟨{ st (live ++ [(R.FLT_L1_EN_EN, 0)]) with m.flt.pend := [⟨3, 12, 0, 3, 9, 1, true, 63999, false, false, false⟩] }, ⟨3, 12, 0, 3, 9,
    1, true, 63999, false, false, false⟩, by decide⟩,
    ⟨{ st (live ++ [(R.FLT_L1_EN_EN, 0x10000)]) with m.flt.pend := [⟨3, 16, 0, 3, 9, 1, true, 63999, false, false, false⟩] }, ⟨3, 16, 0,
    3, 9, 1, true, 63999, false, false, false⟩, by decide⟩,
    ⟨{ st (live ++ [(R.FLT_DISP_SEQ_SEQ, 3)]) with m.flt.pend := [⟨3, 16, 0, 3, 9, 1, true, 63999, false, false, false⟩] }, ⟨3, 16, 0, 3,
    9, 1, true, 63999, false, false, false⟩, by decide⟩,
    ⟨{ st (live ++ [(R.FLT_DISP_SEQ_SEQ, 3), (R.FLT_L1_EN_EN, 0)]) with m.flt.pend := [⟨3, 16, 0, 3, 9, 1, true, 63999, false, false, false⟩] },
    ⟨3, 16, 0, 3, 9, 1, true, 63999, false, false, false⟩, by decide⟩,
    ⟨{ st (live ++ [(R.FLT_DISP_SEQ_SEQ, 3)]) with m.flt.pend := [⟨3, 16, 0, 3, 9, 2, true, 63999, false, false, false⟩] }, ⟨3, 16, 0, 3,
    9, 2, true, 63999, false, false, false⟩, by decide⟩,
    ⟨{ st (live ++ [(R.FLT_DISP_SEQ_SEQ, 3)]) with m.flt.pend := [⟨3, 16, 0, 3, 9, 2, true, 63999, false, false, false⟩] }, ⟨3, 16, 0, 3,
    9, 2, true, 63999, false, false, false⟩, by decide⟩,
    ⟨.dispExtend, 3, st live, by decide⟩,
    ⟨{ st live with m.flt.resets := [⟨13, 7, true, [], 0, 4, 0⟩] }, 13, 7, ⟨13, 7, true, [], 0, 4, 0⟩, by decide⟩,
    ⟨{ st live with m.flt.resets := [⟨13, 7, false, [], 0, 4, 0⟩], m.time.ticks := 12800000000000 }, 13, 7, ⟨13, 7, false, [], 0, 4, 0⟩,
    by decide⟩⟩

theorem witness_ClearsAndForces :
    (∃ (s : State), s.m.wrStatus 0xE0E0 1 = 0 ∧ s.on) ∧
    (∃ (s : State), s.m.wrStatus 0xE0E0 2 = 0 ∧ s.on) ∧
    (∃ (s : State), s.m.wrStatus 0xE0E0 4 = 0 ∧ s.on) ∧
    (∃ (s : State), s.m.wrStatus 0xE0E0 8 = 0 ∧ s.on) ∧
    (∃ (s : State) (v : Word), s.m.wrStatus 0xE100 v.toNat = 0 ∧ s.on) ∧
    (∃ (s : State) (p : Fin 21) (k : Fin 256) (i : Fin 64) (c : Bool) (cl : Nat), s.m.wrStatus (p.val * 4096 + 0x18) (k.val + 256 * i.val
    + 2 ^ 14 * b2n c + 2 ^ 16) = 0 ∧ s.on ∧ p.val ≠ 19 ∧ kindClass p k = some cl ∧ selfKind p k = false ∧ s.m.is (R.BLK_STAT_RESET p) =
    false ∧ s.m.capF = true ∧ s.m.takes p i) ∧
    (∃ (s : State) (p : Fin 21) (k : Fin 256) (i : Fin 64) (c : Bool), s.m.wrStatus (p.val * 4096 + 0x18) (k.val + 256 * i.val + 2 ^ 14 *
    b2n c + 2 ^ 16) = 0 ∧ s.on ∧ s.m.forceAllowed p = false ∧ s.m.takes 14 0) ∧
    (∃ (s : State) (p : Fin 21), s.on ∧ s.m.pageOn p = false ∧ s.m.takes 14 0) ∧
    (∃ (s : State) (p : Fin 21) (k : Fin 256) (i : Fin 64) (c : Cond), s.m.wrStatus (p.val * 4096 + 0x18) (k.val + 256 * i.val + 2 ^ 15) =
    0 ∧ s.on ∧ s.m.flt.conds.find? (fun c => c.forced && c.blk == p.val && c.kind == k.val && c.inst == i.val) = some c ∧ s.m.takes p i) :=
  ⟨⟨st (live ++ [(R.FLT_LATCH_BLK, 3), (R.FLT_ACTIVE_BLK, 1)]), by decide⟩,
    ⟨{ st (live ++ [(R.FLT_FATAL_BLK, 3), (R.FLT_STAT_SAFE_REQ, 1)]) with m.flt.conds := [⟨1, 0, 2, 0, 2, false⟩] }, by decide⟩,
    ⟨st (live ++ [(⟨0xE090, 0, 32⟩, 7)]), by decide⟩,
    ⟨st (live ++ [(R.FLT_STAT_LEVEL, 1)]), by decide⟩,
    ⟨{ st live with m.flt.window := [{ seq := 3, blk := 2, inst := 0, cls := 1, tvalid := true, kind := 3, addr := 9, frame := 5, time := 6 }] },
    3, by decide⟩,
    ⟨st live, 2, 3, 0, false, 0, by decide⟩,
    ⟨st (live ++ [(R.SEC_LIFE_LC, 2), (R.SEC_DBG_LEVEL, 0)]), 19, 2, 0, true, by decide⟩,
    ⟨st (live ++ [(R.PWR_STAT_PG, 0xF)]), 7, by decide⟩,
    ⟨{ st live with m.flt.conds := [⟨2, 0, 4, 7, 1, true⟩] }, 2, 4, 0, ⟨2, 0, 4, 7, 1, true⟩, by decide⟩⟩

theorem witness_StoredData :
    (∃ (s : State) (st : Fin 18), s.on ∧ s.m.is R.MEM_CFG_SCRUB_EN = true ∧ s.m.storeOn st = true ∧ twinStore st = true) ∧
    (∃ (s : State) (st : Fin 18) (o : Nat), s.on ∧ s.m.is R.MEM_CFG_SCRUB_EN = true ∧ s.m.storeOn st = true ∧ twinStore st = true ∧ o <
    128 ∧ s.m.fenced st 0 (s.m.mem.scrubRow.getD st 0) = false ∧ s.m.fenced st 1 (s.m.mem.scrubRow.getD st 0) = false ∧
    (s.m.mem.corr.filter (fun e => decide (s.m.time.ticks < e.2 + tickS) && e.1 == ⟨st, 0, s.m.mem.scrubRow.getD st 0⟩)).length < 2 ∧
    s.m.mem.scrubRow.getD st 0 < 2 ^ 15) ∧
    (∃ (s : State) (st : Fin 18) (o : Nat), s.on ∧ s.m.is R.MEM_CFG_SCRUB_EN = true ∧ s.m.storeOn st = true ∧ twinStore st = true ∧ o <
    128 ∧ s.m.fenced st 0 (s.m.mem.scrubRow.getD st 0) = false ∧ s.m.fenced st 1 (s.m.mem.scrubRow.getD st 0) = false ∧ 2 ≤
    (s.m.mem.corr.filter (fun e => decide (s.m.time.ticks < e.2 + tickS) && e.1 == ⟨st, 0, s.m.mem.scrubRow.getD st 0⟩)).length ∧
    s.m.mem.scrubRow.getD st 0 < 2 ^ 15 ∧ s.m.takes 15 st) ∧
    (∃ (s : State) (st : Fin 18) (o : Nat), s.on ∧ s.m.is R.MEM_CFG_SCRUB_EN = true ∧ s.m.storeOn st = true ∧ twinStore st = true ∧ o <
    128 ∧ s.m.fenced st 0 (s.m.mem.scrubRow.getD st 0) = true ∧ s.m.fenced st 1 (s.m.mem.scrubRow.getD st 0) = false) ∧
    (∃ (s : State) (st : Fin 18) (o : Nat), s.on ∧ s.m.is R.MEM_CFG_SCRUB_EN = true ∧ s.m.storeOn st = true ∧ twinStore st = true ∧ o <
    128 ∧ s.m.mem.scrubRow.getD st 0 < 2 ^ 15 ∧ s.m.takes 15 st) ∧
    (∃ (s : State) (i : Fin 20), s.on ∧ s.m.is R.MEM_CFG_SCRUB_EN = true ∧ s.m.storeOn (32 + i.val) = true) ∧
    (∃ (s : State) (i : Fin 20), s.on ∧ s.m.is R.MEM_CFG_SCRUB_EN = true ∧ s.m.storeOn (32 + i.val) = true ∧ s.m.mem.dramWord.getD i 0 < 2
    ^ 28) ∧
    (∃ (s : State) (i : Fin 20), s.on ∧ s.m.is R.MEM_CFG_SCRUB_EN = true ∧ s.m.storeOn (32 + i.val) = true ∧ s.m.mem.dramWord.getD i 0 < 2
    ^ 28 ∧ s.m.takes 15 (32 + i.val)) ∧
    (∃ (s : State), s.m.wrStatus 0xF0C4 0x10 = 0 ∧ s.on) ∧
    (∃ (s : State), s.on ∧ s.m.storeOn 12 = true ∧ s.m.takes 15 12) ∧
    (∃ (s : State) (p : Nat), s.on ∧ s.m.mem.trap = some p ∧ s.m.takes 15 12) ∧
    (∃ (s : State) (ch : Fin 8) (st : Fin 52), s.on ∧ bit (s.m.get R.MEM_DMA_HALT_HALT) ch = false ∧ s.m.domainOn 1 = true ∧ (twinStore st
    = true ∨ 32 ≤ st.val) ∧ s.m.takes 15 st) ∧
    (∃ (s : State) (ch : Fin 8), s.m.wrStatus 0xF0C4 (1 + 2 * ch.val) = 0 ∧ s.on) :=
  ⟨⟨st (live ++ [(R.MEM_CFG_SCRUB_EN, 1)]), 13, by decide⟩,
    ⟨st (live ++ [(R.MEM_CFG_SCRUB_EN, 1)]), 12, 127, by decide⟩,
    ⟨{ st (live ++ [(R.MEM_CFG_SCRUB_EN, 1)]) with m.mem.corr := [(⟨12, 0, 0⟩, 0), (⟨12, 0, 0⟩, 1)] }, 12, 127, by decide⟩,
    ⟨{ st (live ++ [(R.MEM_CFG_SCRUB_EN, 1)]) with m.mem.fences := [⟨12, 0, 0⟩] }, 12, 127, by decide⟩,
    ⟨st (live ++ [(R.MEM_CFG_SCRUB_EN, 1)]), 0, 0, by decide⟩,
    ⟨st (live ++ [(R.MEM_CFG_SCRUB_EN, 1)]), 19, by decide⟩,
    ⟨st (live ++ [(R.MEM_CFG_SCRUB_EN, 1)]), 19, by decide⟩,
    ⟨st (live ++ [(R.MEM_CFG_SCRUB_EN, 1)]), 0, by decide⟩,
    ⟨{ st live with m.mem.scrubRow := List.replicate 18 5 }, by decide⟩,
    ⟨st live, by decide⟩,
    ⟨{ st live with m.mem.trap := some 5 }, 5, by decide⟩,
    ⟨st live, 7, 12, by decide⟩,
    ⟨st (live ++ [(R.MEM_DMA_HALT_HALT, 255)]), 7, by decide⟩⟩

theorem witness_LogQueue :
    (∃ (s : State) (a : LogArr) (as : List LogArr), s.on ∧ s.m.log.arr = a :: as ∧ a.entry.typ ≠ 1 ∧ s.m.log.fold = none ∧ s.m.is
    R.LOG_STAT_FULL = false ∧ s.m.log.queue.length < 1024) ∧
    (∃ (s : State) (a : LogArr) (as : List LogArr) (f : Fold), s.on ∧ s.m.log.arr = a :: as ∧ a.entry.typ = 2 ∧ s.m.log.fold = some f ∧
    f.code = a.entry.code ∧ f.addr = le a.entry.body 0 4 ∧ f.rept + 1 < 2 ^ 32 ∧ a.entry.opUs - f.firstUs < 2 ^ 32) ∧
    (∃ (s : State) (a : LogArr) (as : List LogArr), s.on ∧ s.m.log.arr = a :: as ∧ a.entry.typ = 1 ∧ a.free = false ∧ bit
    (a.entry.body.getD 7 0) 0 = false ∧ s.m.logBurst ≤ Sparse.get (fun _ => 0) s.m.log.used a.entry.code) ∧
    (∃ (s : State) (a : LogArr) (as : List LogArr), s.on ∧ s.m.log.arr = a :: as ∧ a.entry.typ ≠ 1 ∧ s.m.foldInto a.entry = none ∧ s.m.is
    R.LOG_STAT_FULL = false ∧ 1024 ≤ s.m.log.queue.length) ∧
    (∃ (s : State) (r : LogRec) (rest : List LogRec), s.on ∧ s.m.log.queue = r :: rest ∧ s.m.logWrites = true ∧ s.m.is R.LOG_STAT_FULL =
    false ∧ s.m.get R.LOG_HEAD_HEAD < 524288 ∧ s.m.takes 15 17) ∧
    (∃ (s : State) (r : LogRec) (rest : List LogRec), s.on ∧ s.m.log.queue = r :: rest ∧ s.m.logWrites = true ∧ s.m.is R.LOG_STAT_FULL =
    false ∧ s.m.get R.LOG_HEAD_HEAD = 524287 ∧ s.m.is R.LOG_STAT_NEAR_FULL = true ∧ s.m.takes 16 0) ∧
    (∃ (s : State) (r : LogRec) (rest : List LogRec), s.on ∧ s.m.log.queue = r :: rest ∧ s.m.logWrites = true ∧ s.m.is R.LOG_STAT_FULL =
    false ∧ s.m.get R.LOG_HEAD_HEAD + 1 < 262144) ∧
    (∃ (s : State) (r : LogRec) (rest : List LogRec), s.on ∧ s.m.log.queue = r :: rest ∧ s.m.logWrites = true ∧ s.m.is R.LOG_STAT_FULL =
    false ∧ s.m.get R.LOG_HEAD_HEAD + 1 < 262144 ∧ s.m.takes 16 0) ∧
    (∃ (s : State) (r : LogRec) (rest : List LogRec), s.on ∧ s.m.log.queue = r :: rest ∧ s.m.logWrites = true ∧ s.m.is R.LOG_STAT_FULL =
    true) ∧
    (∃ (s : State) (f : Fold) (i : Nat), s.on ∧ s.m.log.fold = some f ∧ f.slot = some i ∧ f.rept < 2 ^ 32 ∧ f.lastDt < 2 ^ 32) ∧
    (∃ (s : State), s.on) :=
  ⟨⟨{ st live with m.log.arr := [⟨⟨8, 1, 0, 0, 0, 0, 0, 0, []⟩, false⟩] }, ⟨⟨8, 1, 0, 0, 0, 0, 0, 0, []⟩, false⟩, [], by decide⟩,
    ⟨{ st live with m.log.arr := [⟨⟨2, 257, 0, 0, 0, 0, 0, 0, []⟩, false⟩], m.log.fold := some { code := 257, addr := 0, firstUs := 0 } },
    ⟨⟨2, 257, 0, 0, 0, 0, 0, 0, []⟩, false⟩, [], { code := 257, addr := 0, firstUs := 0 }, by decide⟩,
    ⟨{ st live with m.log.arr := [⟨⟨1, 257, 0, 0, 0, 0, 0, 0, []⟩, false⟩], m.log.used := [(257, 100000)] }, ⟨⟨1, 257, 0, 0, 0, 0, 0, 0,
    []⟩, false⟩, [], by decide⟩,
    ⟨{ st live with m.log.arr := [⟨⟨8, 1, 0, 0, 0, 0, 0, 0, []⟩, false⟩], m.log.queue := List.replicate 1024 ⟨8, 1, 0, 0, 0, 0, 0, 0, []⟩ },
    ⟨⟨8, 1, 0, 0, 0, 0, 0, 0, []⟩, false⟩, [], by decide⟩,
    ⟨{ st (live ++ [(R.LOG_STAT_READY, 1), (R.LOG_HEAD_HEAD, 3)]) with m.log.queue := [⟨8, 1, 0, 0, 0, 0, 0, 0, []⟩] }, ⟨8, 1, 0, 0, 0, 0,
    0, 0, []⟩, [], by decide⟩,
    ⟨{ st (live ++ [(R.LOG_STAT_READY, 1), (R.LOG_STAT_NEAR_FULL, 1), (R.LOG_HEAD_HEAD, 524287)]) with m.log.queue := [⟨8, 1, 0, 0, 0, 0, 0, 0, []⟩] },
    ⟨8, 1, 0, 0, 0, 0, 0, 0, []⟩, [], by decide⟩,
    ⟨{ st (live ++ [(R.LOG_STAT_READY, 1), (R.LOG_HEAD_HEAD, 262142)]) with m.log.queue := [⟨8, 1, 0, 0, 0, 0, 0, 0, []⟩] }, ⟨8, 1, 0, 0,
    0, 0, 0, 0, []⟩, [], by decide⟩,
    ⟨{ st (live ++ [(R.LOG_STAT_READY, 1), (R.LOG_HEAD_HEAD, 7)]) with m.log.queue := [⟨8, 1, 0, 0, 0, 0, 0, 0, []⟩] }, ⟨8, 1, 0, 0, 0, 0,
    0, 0, []⟩, [], by decide⟩,
    ⟨{ st (live ++ [(R.LOG_STAT_READY, 1), (R.LOG_STAT_FULL, 1)]) with m.log.queue := [⟨8, 1, 0, 0, 0, 0, 0, 0, []⟩] }, ⟨8, 1, 0, 0, 0, 0,
    0, 0, []⟩, [], by decide⟩,
    ⟨{ st live with m.log.fold := some { code := 257, addr := 0, firstUs := 0, rept := 2, slot := some 5 }, m.nv.slots := [(5, 0xA5 :: List.replicate 63 1)] },
    { code := 257, addr := 0, firstUs := 0, rept := 2, slot := some 5 }, 5, by decide⟩,
    ⟨{ st live with m.log.used := [(257, 1), (258, 3)] }, by decide⟩⟩

theorem witness_LogStore :
    (∃ (s : State), s.on) ∧
    (∃ (s : State), s.on ∧ s.m.is R.LOG_STAT_READY = false ∧ slotTorn (s.m.logSlot (s.m.get R.LOG_HEAD_HEAD)) = false ∧
    s.m.log.queue.length < 1024) ∧
    (∃ (s : State), s.on ∧ s.m.is R.LOG_STAT_READY = false ∧ s.m.get R.LOG_HEAD_HEAD < 262143 ∧ slotTorn (s.m.logSlot (s.m.get
    R.LOG_HEAD_HEAD)) = true ∧ s.m.takes 16 0) ∧
    (∃ (s : State), s.m.wrStatus 0x100C4 1 = 0 ∧ s.on ∧ s.m.inRun = false ∧ s.m.is R.LOG_STAT_ERASING = false) ∧
    (∃ (s : State), s.m.wrStatus 0x100C4 1 = 0 ∧ s.on ∧ s.m.inRun = true) ∧
    (∃ (s : State), s.on ∧ s.m.is R.LOG_STAT_ERASING = true) ∧
    (∃ (s : State) (v : Word), s.m.wrStatus 0x10100 v.toNat = 0 ∧ s.on) ∧
    (∃ (s : State), s.m.rdStatus 0x10148 = 0 ∧ s.on ∧ s.m.log.rdWord < 15) ∧
    (∃ (s : State), s.m.rdStatus 0x10148 = 0 ∧ s.on ∧ s.m.log.rdWord = 15) ∧
    (∃ (s : State) (v : Word), s.m.wrStatus 0x100EC v.toNat = 0 ∧ s.on ∧ (s.m.log.noteTicks.filter (fun t => decide (s.m.time.ticks < t +
    tickS))).length < 16) ∧
    (∃ (s : State) (v : Word), s.m.wrStatus 0x100EC v.toNat = 0 ∧ s.on ∧ 16 ≤ (s.m.log.noteTicks.filter (fun t => decide (s.m.time.ticks <
    t + tickS))).length) :=
  ⟨⟨st live, by decide⟩,
    ⟨st (live ++ [(R.LOG_STAT_READY, 0)]), by decide⟩,
    ⟨{ st (live ++ [(R.LOG_STAT_READY, 0), (R.LOG_HEAD_HEAD, 262142)]) with m.nv.slots := [(262142, 0xFF :: List.replicate 63 1)] }, by
    decide⟩,
    ⟨st live, by decide⟩,
    ⟨st (live ++ [(R.MGT_PSTATE_STATE, 3)]), by decide⟩,
    ⟨{ st (live ++ [(R.LOG_STAT_ERASING, 1), (R.LOG_HEAD_HEAD, 6)]) with m.nv.slots := [(5, 0xA5 :: List.replicate 63 1)] }, by decide⟩,
    ⟨{ st live with m.nv.slots := [(5, 0xA5 :: List.replicate 63 1)] }, 5, by decide⟩,
    ⟨{ st live with m.log.rdWord := 14 }, by decide⟩,
    ⟨{ st (live ++ [(R.LOG_RD_IDX_IDX, 524287)]) with m.log.rdWord := 15 }, by decide⟩,
    ⟨{ st live with m.log.noteTicks := List.replicate 15 0 }, 9, by decide⟩,
    ⟨{ st live with m.log.noteTicks := List.replicate 16 0 }, 9, by decide⟩⟩

theorem witness_FirmwareWindow (hs : ∀ b, Config.sha384 b = List.replicate 48 1) (hv : ∀ k d s, Config.ecdsaOk k d s = true) :
    (∃ (s : State) (v : Word), s.m.wrStatus 0x110A4 v.toNat = 0 ∧ s.on ∧ s.m.pstate ≠ 1 ∧ s.m.mgt.staging.length < 65536 ∧ (s.m.slotOf
    s.m.idleSlot).broken = false) ∧
    (∃ (s : State) (v : Word), s.m.wrStatus 0x110A4 v.toNat = 0 ∧ s.on ∧ (s.m.pstate = 1 ∨ 65536 ≤ s.m.mgt.staging.length ∨ (s.m.slotOf
    s.m.idleSlot).broken = true)) ∧
    (∃ (s : State), s.m.wrStatus 0x110A8 1 = 0 ∧ s.on ∧ s.m.pstate ≠ 1 ∧ s.m.mgt.fwOp = 0) ∧
    (∃ (s : State), s.on ∧ s.m.mgt.fwOp = 1) ∧
    (∃ (s : State), s.m.wrStatus 0x110A8 2 = 0 ∧ s.on ∧ s.m.pstate ≠ 1 ∧ s.m.mgt.fwOp = 0) ∧
    (∃ (c : Instr) (k : Nat) (s : State), (c, k) ∈ [(Instr.mgtFwErase, 1), (.mgtFwVerify, 2)] ∧ s.m.wrStatus 0x110A8 k = 0 ∧ s.on ∧
    (s.m.pstate = 1 ∨ s.m.mgt.fwOp ≠ 0)) ∧
    (∃ (s : State) (e : Bool), s.on ∧ s.m.mgt.fwOp = 2 ∧ s.m.mgt.staging = [] ∧ s.m.slotCode s.fuses s.m.idleSlot e = 0 ∧ s.m.bootSigned
    s.fuses (s.m.slotOf s.m.idleSlot).byte = true) ∧
    (∃ (s : State) (e : Bool), s.on ∧ s.m.mgt.fwOp = 2 ∧ s.m.takes 17 0 ∧ (s.m.slotCode s.fuses s.m.idleSlot e ≠ 0 ∨ s.m.bootSigned
    s.fuses (s.m.slotOf s.m.idleSlot).byte = false)) :=
  ⟨⟨st (live ++ [(R.MGT_FW_ADDR_ADDR, 0x1FFFFFC)]), 9, by decide⟩,
    ⟨st (live ++ [(R.MGT_PSTATE_STATE, 1)]), 9, by decide⟩,
    ⟨st live, by decide⟩,
    ⟨{ st live with m.mgt.fwOp := 1, m.nv.slotB.broken := true }, by decide⟩,
    ⟨{ st live with m.mgt.staging := [(8, 0x01020304)] }, by decide⟩,
    ⟨.mgtFwVerify, 2, { st live with m.mgt.fwOp := 2 }, by decide⟩,
    ⟨{ st live with fuses.vendorRoot := List.replicate 48 1, m.mgt.fwOp := 2, m.nv.slotB.bytes := fwImg }, false, by decide, rfl, rfl,
    by simp only [Mod.slotCode, fwSigned, pagesGood, sigGood, hs, hv]; decide, by decide⟩,
    ⟨{ st live with m.mgt.fwOp := 2 }, false, by decide⟩⟩

theorem witness_FirmwareTrial :
    (∃ (s : State), s.m.wrStatus 0x110A8 4 = 0 ∧ s.on ∧ s.m.is R.MGT_FW_STAT_VERIFIED = true ∧ s.m.quiet = true) ∧
    (∃ (s : State), s.m.wrStatus 0x110A8 4 = 0 ∧ s.on ∧ (s.m.is R.MGT_FW_STAT_VERIFIED = false ∨ s.m.quiet = false)) ∧
    (∃ (s : State), s.m.wrStatus 0x110A8 8 = 0 ∧ s.on ∧ s.m.is R.MGT_BOOT_TRIAL = true ∧ s.m.pstate ≠ 1) ∧
    (∃ (s : State) (n : Nat), s.m.wrStatus 0x110A8 8 = 0 ∧ s.on ∧ s.m.is R.MGT_BOOT_TRIAL = true ∧ s.m.pstate ≠ 1 ∧ s.m.is
    R.MGT_FW_CFG_AUTO_SVN = true ∧ (s.m.slotOf (s.m.is R.MGT_BOOT_SLOT)).svn = n ∧ n ≤ 64 ∧ n ≤ s.m.get R.SEC_SVN_FW_SVN ∧ s.m.get
    R.SEC_SVN_FUSE_CNT < n ∧ s.m.takes 18 0) ∧
    (∃ (s : State), s.m.wrStatus 0x110A8 16 = 0 ∧ s.on ∧ s.m.is R.MGT_BOOT_TRIAL = true ∧ s.m.pstate ≠ 1) ∧
    (∃ (c : Instr) (k : Nat) (s : State), (c, k) ∈ [(Instr.mgtFwConfirm true, 8), (.mgtFwConfirm false, 8), (.mgtFwCancel, 16)] ∧
    s.m.wrStatus 0x110A8 k = 0 ∧ s.on ∧ (s.m.is R.MGT_BOOT_TRIAL = false ∨ s.m.pstate = 1)) ∧
    (∃ (s : State), s.on ∧ s.m.is R.MGT_BOOT_TRIAL = true ∧ s.m.time.ticks + 64000 < s.m.mgt.trialTick + max 10 (s.m.get
    R.MGT_FW_CFG_CONFIRM_S) * tickS) ∧
    (∃ (s : State), s.on ∧ s.m.is R.MGT_BOOT_TRIAL = true ∧ s.m.mgt.confirmTmo = false ∧ s.m.mgt.trialTick + max 10 (s.m.get
    R.MGT_FW_CFG_CONFIRM_S) * tickS ≤ s.m.time.ticks ∧ s.m.takes 17 0) :=
  ⟨⟨{ st (live ++ [(R.MGT_FW_STAT_VERIFIED, 1)]) with m.pins.stoHold := true }, by decide⟩,
    ⟨st live, by decide⟩,
    ⟨st (live ++ [(R.MGT_BOOT_TRIAL, 1), (R.MGT_BOOT_SLOT, 1)]), by decide⟩,
    ⟨{ st (live ++ [(R.MGT_BOOT_TRIAL, 1), (R.MGT_BOOT_SLOT, 1), (R.MGT_FW_CFG_AUTO_SVN, 1), (R.SEC_SVN_FW_SVN, 64), (R.SEC_SVN_FUSE_CNT, 63)]) with m.nv.slotB.svn := 64 },
    64, by decide⟩,
    ⟨{ st (live ++ [(R.MGT_BOOT_TRIAL, 1)]) with m.nv.trial := some false }, by decide⟩,
    ⟨.mgtFwCancel, 16, st live, by decide⟩,
    ⟨{ st (live ++ [(R.MGT_BOOT_TRIAL, 1), (R.MGT_FW_CFG_CONFIRM_S, 10)]) with m.nv.trial := some true, m.mgt.trialTick := 5 }, by decide⟩,
    ⟨{ st (live ++ [(R.MGT_BOOT_TRIAL, 1), (R.MGT_FW_CFG_CONFIRM_S, 10)]) with m.nv.trial := some true, m.time.ticks := 12800000000000 },
    by decide⟩⟩

theorem witness_TrustCommands (hs : ∀ b, Config.sha384 b = List.replicate 48 1) (hv : ∀ k d s, Config.ecdsaOk k d s = true)
    (hp : ∀ k, Config.publicKey k = [1]) (hc : ∀ c, Config.certKey c = [1]) :
    (∃ (s : State), s.trusts 1) ∧
    (∃ (s : State), s.trusts 1 ∧ s.m.takes 18 0 ∧ s.m.flt.queue.length < 500) ∧
    (∃ s : State, s.trusts 2) ∧
    (∃ s : State, s.trusts 3) ∧
    (∃ s : State, s.trusts 4) ∧
    (∃ s : State, s.trusts 5) ∧
    (∃ (s : State), s.trusts 6 ∧ s.m.get R.SEC_SVN_FUSE_CNT < s.m.cmdArgs.getD 0 0) ∧
    (∃ (s : State), s.trusts 6 ∧ s.m.cmdArgs.getD 0 0 ≤ s.m.get R.SEC_SVN_FUSE_CNT) ∧
    (∃ s : State, s.trusts 7) :=
  ⟨⟨{ st live with m.sec.cmd := 1 :: List.replicate 575 0 }, by decide⟩,
    ⟨{ st live with m.sec.cmd := 1 :: List.replicate 575 0 }, by decide⟩,
    ⟨{ st (live ++ [(R.SEC_LIFE_LC, 1)]) with m.sec.cmd := token 2 [3], m.sec.dik := [1] }, by decide, by decide, by decide,
    by simp only [Mod.cmdResult, Mod.devOk, sigGood, hs, hv, hp, hc]; decide⟩,
    ⟨{ st (live ++ [(R.SEC_LIFE_LC, 1), (R.SEC_LIFE_ID_VALID, 1), (R.BLK_LOCK_LOCK 18, 1)] ++ (List.range 12).map (fun i => (R.SEC_OWNER_KEY_HASH i, 0x01010101))) with m.sec.cmd := token 3 [], m.sec.dik := [1] },
    by decide, by decide, by decide, by simp only [Mod.cmdResult, Mod.devOk, sigGood, hs, hv, hp, hc]; decide⟩,
    ⟨{ st (live ++ [(R.SEC_LIFE_LC, 1)]) with m.sec.cmd := token 4 [1, 0, 60, 0], m.sec.dik := [1] }, by decide, by decide, by decide,
    by simp only [Mod.cmdResult, Mod.devOk, sigGood, hs, hv, hp, hc]; decide⟩,
    ⟨{ st (live ++ [(R.SEC_LIFE_LC, 2)]) with m.sec.cmd := token 5 [], m.sec.dik := [1], fuses.ownerRoot := List.replicate 48 1 }, by
    decide, by decide, by decide, by simp only [Mod.cmdResult, Mod.devOk, sigGood, hs, hv, hp, hc]; decide⟩,
    ⟨{ st (live ++ [(R.SEC_SVN_FW_SVN, 64)]) with m.sec.cmd := (6 :: List.replicate 575 0).set 36 64 }, by decide⟩,
    ⟨{ st (live ++ [(R.SEC_SVN_FW_SVN, 64), (R.SEC_SVN_FUSE_CNT, 5)]) with m.sec.cmd := (6 :: List.replicate 575 0).set 36 5 }, by decide⟩,
    ⟨{ st (live ++ [(R.SEC_LIFE_LC, 1), (R.MGT_PSTATE_STATE, 5)]) with m.sec.cmd := token 7 [3], m.sec.dik := [1] }, by decide, by decide,
    by decide, by simp only [Mod.cmdResult, Mod.devOk, sigGood, hs, hv, hp, hc]; decide⟩⟩

theorem witness_TrustRefusals :
    (∃ (c : Instr) (k : Nat) (f : Bool) (e : Bool) (s : State), (c, k) ∈ [(Instr.provision f e, 1), (.certStore, 2), (.enterField f, 3),
    (.debug, 4), (.eraseGrant, 5), (.svnAdvance f, 6), (.returnCmd f, 7)] ∧ s.on ∧ s.m.cmdCode = k ∧ s.m.wrStatus 0x120A8 1 = 0 ∧
    s.m.cmdResult s.fuses ≠ 0 ∧ s.m.takes 18 0) ∧
    (∃ (c : Instr) (k : Nat) (f : Bool) (e : Bool) (s : State), (c, k) ∈ [(Instr.provision f e, 1), (.certStore, 2), (.enterField f, 3),
    (.debug, 4), (.eraseGrant, 5), (.svnAdvance f, 6), (.returnCmd f, 7)] ∧ s.on ∧ s.m.cmdCode ≠ k) ∧
    (∃ (s : State) (v : Word), s.m.wrStatus 0x12088 v.toNat = 0 ∧ s.on ∧ bit v.toNat 2 = true ∧ v.toNat % 4 < s.m.dbgLevel ∧ v.toNat % 4 ≠
    3 ∧ s.m.takes 18 0) ∧
    (∃ (s : State) (v : Word), s.m.wrStatus 0x12088 v.toNat = 0 ∧ s.on ∧ bit v.toNat 2 = true ∧ s.m.dbgLevel < v.toNat % 4 ∧ s.m.lc = 2) ∧
    (∃ (s : State), s.on ∧ s.m.is R.SEC_DBG_GRANTED = true ∧ s.m.sec.grantEnd ≠ 0 ∧ s.m.sec.grantEnd < s.m.time.ticks + 64000 ∧ s.m.get
    R.SEC_DBG_DEFAULT ≠ 2) :=
  ⟨⟨.eraseGrant, 5, true, true, { st live with m.sec.cmd := [5, 0] ++ List.replicate 574 9 }, by decide⟩,
    ⟨.eraseGrant, 5, true, true, st live, by decide⟩,
    ⟨st (live ++ [(R.SEC_DBG_LEVEL, 2)]), 5, by decide⟩,
    ⟨st (live ++ [(R.SEC_LIFE_LC, 2), (R.SEC_DBG_LEVEL, 0)]), 5, by decide⟩,
    ⟨{ st (live ++ [(R.SEC_DBG_GRANTED, 1), (R.SEC_DBG_LEVEL, 2), (R.MGT_DBG_CTL_HALTED, 1), (R.SEC_DBG_DEFAULT, 0)]) with m.sec.grantEnd := 63999 },
    by decide⟩⟩

theorem witness_TrustWindows :
    (∃ (s : State) (v : Word), s.m.wrStatus 0x120A4 v.toNat = 0 ∧ s.on ∧ s.m.get R.SEC_CMD_ADDR_ADDR + 4 ≤ 576) ∧
    (∃ (s : State) (v : Word), s.m.wrStatus 0x12100 v.toNat = 0 ∧ s.on) ∧
    (∃ (s : State) (v : Word), s.m.wrStatus 0x1216C v.toNat = 0 ∧ s.on ∧ s.m.pstate ≠ 1) ∧
    (∃ (s : State) (v : Word), s.m.wrStatus 0x1216C v.toNat = 0 ∧ s.on ∧ s.m.pstate = 1) ∧
    (∃ (s : State) (v : Word) (h : List Nat), s.m.wrStatus 0x121AC v.toNat = 0 ∧ s.on ∧ s.m.is R.SEC_ATT_STAT_BUSY = false ∧ 2 ≤ s.m.get
    R.MGT_BOOT_STAGE ∧ s.m.pstate ≠ 1 ∧ h = s.m.reportHead (((bank 12 s.m.sec.nonce 0).set 11 v.toNat).flatMap (leBytes 4))) ∧
    (∃ (s : State) (v : Word), s.m.wrStatus 0x121AC v.toNat = 0 ∧ s.on ∧ (s.m.is R.SEC_ATT_STAT_BUSY = true ∨ s.m.get R.MGT_BOOT_STAGE < 2
    ∨ s.m.pstate = 1)) ∧
    (∃ (s : State), s.on ∧ s.m.is R.SEC_ATT_STAT_BUSY = true) ∧
    (∃ (s : State), s.m.rdStatus 0x121B8 = 0 ∧ s.on) ∧
    (∃ (s : State), s.m.rdStatus 0x121CC = 0 ∧ s.on) ∧
    (∃ (s : State) (v : Word), s.m.wrStatus 0x121CC v.toNat = 0 ∧ s.on ∧ s.m.pstate ≠ 1 ∧ s.m.get R.SEC_CERT_SEL_ENTRY ≠ 0 ∧ s.m.get
    R.SEC_CERT_ADDR_ADDR + 4 ≤ 4096) ∧
    (∃ (s : State) (v : Word), s.m.wrStatus 0x121CC v.toNat = 0 ∧ s.on ∧ s.m.pstate = 1) :=
  ⟨⟨st (live ++ [(R.SEC_CMD_ADDR_ADDR, 572)]), 0x01020304, by decide⟩,
    ⟨st live, 7, by decide⟩,
    ⟨st live, 7, by decide⟩,
    ⟨st (live ++ [(R.MGT_PSTATE_STATE, 1)]), 7, by decide⟩,
    ⟨st live, 7, _, by decide, by decide, by decide, by decide, by decide, rfl⟩,
    ⟨st (live ++ [(R.SEC_ATT_STAT_BUSY, 1)]), 7, by decide⟩,
    ⟨{ st (live ++ [(R.SEC_ATT_STAT_BUSY, 1)]) with m.sec.reportNext := [1] }, by decide⟩,
    ⟨{ st (live ++ [(R.SEC_ATT_ADDR_ADDR, 1020)]) with m.sec.report := List.replicate 1024 7 }, by decide⟩,
    ⟨st (live ++ [(R.SEC_CERT_ADDR_ADDR, 4092)]), by decide⟩,
    ⟨st (live ++ [(R.SEC_CERT_ADDR_ADDR, 4092), (R.SEC_CERT_SEL_ENTRY, 3)]), 0x01020304, by decide⟩,
    ⟨st (live ++ [(R.MGT_PSTATE_STATE, 1)]), 7, by decide⟩⟩

theorem witness_RegisterAccess :
    (∃ (s : State) (a : Word), s.on ∧ a.toNat % 4 ≠ 0) ∧
    (∃ (s : State) (a : Word), s.on ∧ a.toNat % 4 = 0 ∧ s.m.pageOn (a.toNat / 4096) = false) ∧
    (∃ (s : State) (a : Word) (v : Word), s.on ∧ a.toNat % 4 = 0 ∧ s.m.wrStatus a.toNat v.toNat = 1) ∧
    (∃ (s : State) (a : Word) (v : Word), s.on ∧ a.toNat % 4 = 0 ∧ s.m.wrStatus a.toNat v.toNat = 3 ∧ ¬ (0x11180 ≤ a.toNat ∧ a.toNat ≤
    0x11188)) ∧
    (∃ (s : State) (a : Word) (v : Word) (r : RegRow) (k : Nat), s.on ∧ a.toNat % 4 = 0 ∧ s.m.wrStatus a.toNat v.toNat = 0 ∧ a.toNat /
    4096 ∈ [0, 2, 15, 19] ∧ a.toNat ∉ [0x2044, 0xF0C4, 0x130C4] ∧ 0x40 ≤ a.toNat % 4096 ∧ rowOf a.toNat = some (r, k)) ∧
    (∃ (s : State) (h : Bool) (src : Fin 16384) (tag : Fin 65536) (b : List Byte), s.on ∧ s.m.storedResp h src tag = none ∧ txBad
    (natBytes b) false = true) ∧
    (∃ (s : State) (h : Bool) (src : Fin 16384) (tag : Fin 65536) (b : List Byte) (a : Nat), s.on ∧ s.m.storedResp h src tag = none ∧
    txBad (natBytes b) false = false ∧ (natBytes b).getD 2 0 = 1 ∧ le (natBytes b) 4 4 = a ∧ s.m.pageServes (a / 4096) = true ∧ a / 4096 ∈
    [2, 19] ∧ 0x40 ≤ a % 4096) ∧
    (∃ (s : State) (h : Bool) (src : Fin 16384) (tag : Fin 65536) (b : List Byte), s.on ∧ s.m.storedResp h src tag = none ∧ txBad
    (natBytes b) true = true) ∧
    (∃ (s : State) (src : Fin 16384) (tag : Fin 65536) (b : List Byte), s.on ∧ s.m.storedResp false src tag = none ∧ txBad (natBytes b)
    true = false ∧ s.m.pageServes (le (natBytes b) 4 4 / 4096) = true ∧ txDbg (natBytes b) = 0) ∧
    (∃ (s : State) (src : Fin 16384) (tag : Fin 65536) (b : List Byte) (a v : Nat), s.on ∧ s.m.storedResp true src tag = none ∧ txBad
    (natBytes b) true = false ∧ (natBytes b).getD 2 0 = 1 ∧ le (natBytes b) 4 4 = a ∧ le (natBytes b) 8 4 = v ∧ s.m.wrStatus a v = 0 ∧ a /
    4096 = 19 ∧ 0x40 ≤ a % 4096 ∧ a ≠ 0x130C4 ∧ s.m.locked 19 = false ∧ (∃ r k, rowOf a = some (r, k) ∧ r.fields.any (fun f => takesWrites
    f.acc) = true)) ∧
    (∃ (s : State) (h : Bool) (src : Fin 16384) (tag : Fin 65536) (g : Msg), s.on ∧ s.m.storedResp h src tag = some g) :=
  ⟨⟨st live, 0x6067, by decide⟩,
    ⟨st live, 0x15000, by decide⟩,
    ⟨State.reset, 0x6040, 0, by decide⟩,
    ⟨st (live ++ [(R.SEC_LIFE_LC, 2)]), 0x12044, 0, by decide⟩,
    ⟨st live, 0x13040, 0xFFFFFFFF, row13040, 0, by decide⟩,
    ⟨st live, true, 1, 2, [1, 3, 0], by decide⟩,
    ⟨st live, false, 1, 2, [1, 0, 1, 0, 0x40, 0x30, 1, 0], 0x13040, by decide⟩,
    ⟨st live, true, 1, 2, [1, 3, 0], by decide⟩,
    ⟨st live, 1, 2, [1, 0, 1, 0, 0x40, 0x30, 1, 0, 9, 0, 0, 0], by decide⟩,
    ⟨st live, 1, 2, [1, 0, 1, 0, 0x40, 0x30, 1, 0, 9, 0, 0, 0], 0x13040, 9, by decide, by decide, by decide, by decide, by decide, by
    decide, by decide, by decide, by decide, by decide, by decide, _, _, rfl, by decide⟩,
    ⟨{ st live with m.lnk.responses := [(true, 1, 2, { chan := 12, scope := .host, dst := 0, src := 0, mseq := 0, body := [1] })] }, true,
    1, 2, { chan := 12, scope := .host, dst := 0, src := 0, mseq := 0, body := [1] }, by decide⟩⟩

theorem witness_CounterClear :
    (∃ (s : State) (p : Fin 21), s.m.wrStatus (p.val * 4096 + 0x0C) 1 = 0 ∧ s.on) :=
  ⟨st (live ++ [(⟨0xF0C0, 0, 1⟩, 1)]), 20, by decide⟩

theorem witness_Locks :
    (∃ (s : State) (p : Fin 21) (v : Word), s.m.wrStatus (p.val * 4096 + 0x1C) v.toNat = 0 ∧ s.on ∧ bit v.toNat 0 = true ∧ bit v.toNat 1 =
    false ∧ s.m.locked p = true) ∧
    (∃ (s : State) (p : Fin 21) (v : Word), s.m.wrStatus (p.val * 4096 + 0x1C) v.toNat = 0 ∧ s.on ∧ bit v.toNat 0 = false ∧ bit v.toNat 1
    = true) ∧
    (∃ (s : State) (p : Fin 21) (v : Word), s.m.wrStatus (p.val * 4096 + 0x1C) v.toNat = 0 ∧ s.on ∧ bit v.toNat 0 = true ∧ s.m.locked p =
    false ∧ p.val ∉ [1, 6, 13]) ∧
    (∃ (s : State) (v : Word), s.m.wrStatus 0x101C v.toNat = 0 ∧ s.on ∧ bit v.toNat 0 = true ∧ s.m.locked 1 = false) ∧
    (∃ (s : State) (v : Word), s.m.wrStatus 0x601C v.toNat = 0 ∧ s.on ∧ bit v.toNat 0 = true ∧ s.m.locked 6 = false ∧ ¬ (s.m.get
    R.BWK_SOC_CFG_SOC_MIN < s.m.get R.BWK_SOC_CFG_SOC_SET ∧ s.m.get R.BWK_SOC_CFG_SOC_SET < s.m.get R.BWK_SOC_CFG_SOC_MAX) ∧ s.m.takes 6
    2) ∧
    (∃ (s : State) (v : Word), s.m.wrStatus 0xD01C v.toNat = 0 ∧ s.on ∧ bit v.toNat 0 = true ∧ s.m.locked 13 = false ∧ min 3000 (s.m.get
    R.LNK_CFG_POOL_LOW) < 7 * max 16 (s.m.get R.LNK_CFG_PORT_WIN) + 64 ∧ s.m.takes 13 7) :=
  ⟨⟨st (live ++ [(R.BLK_LOCK_LOCK 20, 1)]), 20, 1, by decide⟩,
    ⟨st (live ++ [(R.BLK_LOCK_REFUSED 6, 1)]), 6, 2, by decide⟩,
    ⟨st live, 16, 1, by decide⟩,
    ⟨st live, 1, by decide⟩,
    ⟨st (live ++ [(R.BWK_SOC_CFG_SOC_MIN, 50), (R.BWK_SOC_CFG_SOC_SET, 50)]), 1, by decide⟩,
    ⟨st (live ++ [(R.LNK_CFG_POOL_LOW, 0)]), 1, by decide⟩⟩

theorem witness_BreakwaterLock :
    (∃ (s t : State) (v : Word), s.m.locked 6 = false ∧ exec (.blkLockWrite 6 v) s = .next t ∧ t.m.locked 6 = true) ∧
    (∃ (s : State) (c : Mod) (v : Word), s.m.wrStatus 0x601C v.toNat = 0 ∧ s.on ∧ bit v.toNat 0 = true ∧ s.m.locked 6 = false ∧ s.m.takes
    6 2 ∧ c = s.m.clampPage 6 ∧ 28 / 5 < absQ ((c.get R.BWK_VSET_V_NOM : Rat) / 100 - 400) + c.kD * 250 + (c.get R.BWK_VSET_V_TB : Rat) /
    100) :=
  ⟨⟨st (live ++ [(R.BWK_VSET_V_NOM, 40000)]), _, 1, by decide, rfl, by decide +kernel⟩,
    ⟨st (live ++ [(R.BWK_VSET_V_NOM, 40800)]), _, 1, by decide, by decide, by decide, by decide, by decide, rfl, by decide +kernel⟩⟩

theorem witness_PmbusPort :
    (∃ (c : Instr) (k : Nat) (s : State), (c, k) ∈ [(Instr.capability, 0x19), (.voutMode, 0x20), (.statusByte, 0x78), (.statusWord, 0x79),
    (.statusVout, 0x7A), (.statusIout, 0x7B), (.statusInput, 0x7C), (.statusTemperature, 0x7D), (.statusCml, 0x7E), (.readVin, 0x88),
    (.readIin, 0x89), (.readVout, 0x8B), (.readIout, 0x8C), (.readTemperature1, 0x8D), (.readTemperature2, 0x8E), (.readTemperature3,
    0x8F), (.readPout, 0x96), (.readPin, 0x97), (.pmbusRevision, 0x98), (.mfrId, 0x99), (.mfrModel, 0x9A), (.mfrRevision, 0x9B),
    (.mfrReadSoc, 0xD0), (.mfrReadPsto, 0xD1), (.mfrReadPlan, 0xD2), (.mfrState, 0xD3), (.mfrFltSeq, 0xD4), (.page none none, 0)] ∧ s.on) ∧
    (∃ (s : State) (v : List Nat) (i : Fin 7), s.on ∧ s.m.pmbOn = true ∧ v = ([[0xD0], [0x19], [0x44], [6, 86, 79, 76, 71, 73, 76], [6,
    70, 83, 56, 45, 77, 49], [4, 77, 49, 66, 48], [s.m.get R.PMB_STATUS_X_CML]] : List (List Nat)).getD i []) ∧
    (∃ (s : State), s.on ∧ s.m.pmbOn = true) ∧
    (∃ (s : State) (v : Byte), s.on ∧ s.m.pmbOn = true ∧ v.toNat < 2) ∧
    (∃ (s : State) (v : Byte), s.on ∧ s.m.pmbOn = true ∧ 2 ≤ v.toNat) ∧
    (∃ (s : State), s.on ∧ s.m.pmbOn = true) ∧
    (∃ (s : State) (a : Fin 128), s.on ∧ a.val ≠ s.m.get R.PMB_STAT_ADDR) ∧
    (∃ (s : State) (a : Fin 128) (c : Byte) (b : List Nat), s.on ∧ s.m.pmbOn = true ∧ a.val = s.m.get R.PMB_STAT_ADDR ∧ s.m.pmbData
    c.toNat = some b) ∧
    (∃ (s : State) (a : Fin 128) (c : Byte), s.on ∧ s.m.pmbOn = true ∧ a.val = s.m.get R.PMB_STAT_ADDR ∧ s.m.pmbData c.toNat = none) ∧
    (∃ (s : State) (p : Bool), s.on ∧ s.m.pmbOn = true ∧ (s.m.is R.PMB_CFG_PEC_REQ = true → p = true)) ∧
    (∃ (s : State), s.m.wrStatus 0x140C4 1 = 0 ∧ s.on) ∧
    (∃ (s : State), s.on ∧ s.m.pmbOn = true ∧ s.m.alertLow = true) ∧
    (∃ (s : State), s.on ∧ (s.m.pmbOn = false ∨ s.m.alertLow = false)) ∧
    (∃ (s : State), s.on) ∧
    (∃ (s : State), s.on ∧ s.m.pins.sclLow = true ∧ s.m.condOn 20 0 3 0 = false ∧ s.m.takes 20 0) ∧
    (∃ (s : State), s.on ∧ s.m.condOn 20 0 3 0 = true ∧ s.m.takes 20 0) :=
  ⟨⟨.readVout, 0x8B, st (live ++ [(R.PMB_CFG_EN, 1)]), by decide⟩,
    ⟨st (live ++ [(R.PMB_CFG_EN, 1)]), [4, 77, 49, 66, 48], 5, by decide⟩,
    ⟨st (live ++ [(R.PMB_CFG_EN, 1)]), by decide⟩,
    ⟨st (live ++ [(R.PMB_CFG_EN, 1)]), 1, by decide⟩,
    ⟨st (live ++ [(R.PMB_CFG_EN, 1)]), 2, by decide⟩,
    ⟨st (live ++ [(R.PMB_CFG_EN, 1)]), by decide⟩,
    ⟨st (live ++ [(R.PMB_STAT_ADDR, 64)]), 65, by decide⟩,
    ⟨st (live ++ [(R.PMB_CFG_EN, 1), (R.PMB_STAT_ADDR, 64)]), 64, 0x19, [0xD0], by decide⟩,
    ⟨st (live ++ [(R.PMB_CFG_EN, 1), (R.PMB_STAT_ADDR, 64)]), 64, 0x01, by decide⟩,
    ⟨st (live ++ [(R.PMB_CFG_EN, 1)]), true, by decide⟩,
    ⟨st live, by decide⟩,
    ⟨st (live ++ [(R.PMB_CFG_EN, 1), (R.PMB_STATUS_X_CML, 2)]), by decide⟩,
    ⟨st (live ++ [(R.PMB_CFG_EN, 0)]), by decide⟩,
    ⟨st live, by decide⟩,
    ⟨{ st live with m.pins.sclLow := true }, by decide⟩,
    ⟨{ st live with m.pins.sclLow := true, m.flt.conds := [⟨20, 0, 3, 0, 1, false⟩] }, by decide⟩⟩


/-! ## Ill-formed commands are refused by the check -/

/-- A snapshot of the right form: 50 rows of 96 samples, 96 boundary samples, 64 slow samples (R118, R192). -/
def goodSnap : Snap :=
  { rows := List.replicate 50 (List.replicate 96 0), inst := List.replicate 96 0, ls := List.replicate 64 0, ue := [], corr := [] }

theorem test_wf_good_snap : (Instr.frameBoundary goodSnap).wellFormed = true := by decide +kernel
theorem test_wf_rows : (Instr.frameBoundary { goodSnap with rows := [] }).wellFormed = false := by decide +kernel
theorem test_wf_inst : (Instr.frameBoundary { goodSnap with inst := [0] }).wellFormed = false := by decide +kernel
theorem test_wf_ls : (Instr.frameBoundary { goodSnap with ls := List.replicate 64 32768 }).wellFormed = false := by decide +kernel
theorem test_wf_ue : (Instr.frameBoundary { goodSnap with ue := [(4, true, 0)] }).wellFormed = false := by decide +kernel
theorem test_wf_corr : (Instr.frameBoundary { goodSnap with corr := [(8, 0, 0)] }).wellFormed = false := by decide +kernel
theorem test_wf_sensors : (Instr.sensorSample [1, 2]).wellFormed = false ∧ (Instr.sensorSample (List.replicate 16 40000)).wellFormed = false := by
  decide
theorem test_wf_sweep : (Instr.sweepDataComposed [⟨64, false, []⟩]).wellFormed = false ∧
    (Instr.sweepDataComposed [⟨3, false, []⟩, ⟨3, true, []⟩]).wellFormed = false := by decide
theorem test_wf_bringup : (Instr.chainBringup 0 ⟨33, 0, true, 0, 0⟩).wellFormed = false ∧
    (Instr.chainBringupRetry 0 ⟨0, 33, true, 0, 0⟩).wellFormed = false := by decide
theorem test_wf_enum : (Instr.wchCmdEnum ⟨1, 1, true, 0, 0⟩ ⟨1, 40, true, 0, 0⟩).wellFormed = false := by decide
theorem test_wf_samples : (Instr.phOcShore 0 [32768]).wellFormed = false ∧ (Instr.brakeEnd 0 (-32769)).wellFormed = false := by decide
theorem test_wf_cycle : (Instr.dmaMiss 0 0 8000).wellFormed = false := by decide
theorem test_wf_scrub : (Instr.scrubRead 8 []).wellFormed = false ∧ (Instr.scrubRead 0 [(128, true, false)]).wellFormed = false := by decide
theorem test_wf_cliff : (Instr.cliffTrip 0 1 0).wellFormed = false ∧ (Instr.comparatorRelease 9 39 0).wellFormed = false := by decide
theorem test_wf_status : (Instr.statusFrameReceive 0 []).wellFormed = false := by decide
theorem test_wf_transactions : (Instr.regReadRequest true 0 0 [1]).wellFormed = false ∧
    (Instr.regWriteRequest true 0 0 (List.replicate 233 0)).wellFormed = false := by decide
theorem test_wf_address : (Instr.registerWrite 0x6066 0).wellFormed = false := by decide
theorem test_wf_pmb : (Instr.pmbTransaction 0 true 0 (List.replicate 35 0) none).wellFormed = false := by decide
theorem test_wf_payloads : (∀ c ∈ [Instr.mirrorReceive (List.replicate 241 0), .telemReceive (List.replicate 241 0),
    .shareReceive (List.replicate 241 0), .arriveReceive (List.replicate 241 0), .releaseReceive (List.replicate 241 0),
    .planReceive (List.replicate 241 0), .hostCmdReceive (List.replicate 241 0), .faultMessageReceive (List.replicate 241 0),
    .heartbeatReceive false (List.replicate 241 0), .routeReceive 0 (List.replicate 241 0)], c.wellFormed = false) := by decide

/-! ## Single steps, figures from the spec -/

/-- The state after the command at the front of an otherwise empty queue. -/
def after (c : Instr) (s : State) : Mod :=
  match step { s with pending := [c] } with
  | .next t => t.m
  | _ => {}

/-- An empty queue idles (log 2). -/
theorem test_idle : step State.reset = .next State.reset := by rfl

/-- No row has bits: no word spells a command. -/
theorem test_no_words : Sys2Proof.decodeTableWord 32 7 = none ∧ State.reset.withFetchWord 32 7 = State.reset := by decide

/-- R400: before stage 4 a request for RUN is refused with WHY 4. -/
theorem test_run_before_ready : (after .requestRun (st [(R.PWR_STAT_PG, 0xFFFFF)])).get R.MGT_PREQ_WHY = 4 := by decide

/-- Table 12-2: a request for SERVICE in STANDBY is taken at the next boundary, not at once. -/
theorem test_service_waits : (after .requestService (st live)).pstate = 2 := by decide

/-- R98: CLEAR_SLOT of slot 2 leaves slot 1. -/
theorem test_clear_slot : (after (.ttbCmdClearSlot 2) { st live with m.ttb.tab := [(4097, 6), (8193, 7)] }).ttb.tab = [(4097, 6)] := by decide +kernel

/-- R460: a write that takes place answers STATUS 0. -/
theorem test_plain_write : (after (.registerWrite 0x6060 0) (st live)).resp = 0 := by decide

/-- R460: an unaligned address answers STATUS 4, an absent page STATUS 2. -/
theorem test_status : (after (.registerWrite 0x6062 0) (st live)).resp = 4 ∧ (after (.registerWrite 0x15000 0) (st live)).resp = 2 := by decide

/-- R442: AUX_OV is an uncorrected condition of PWR, KIND 4. -/
theorem test_aux_ov : (after .auxOv (st live)).flt.queue = [{ blk := 2, inst := 0, kind := 4, addr := 0, cls := 1, ind := .start }] := by decide

/-- R303: a report taken in leaves the queue of reports. -/
theorem test_intake : (after (.reportIntake false)
    { st live with m.flt.queue := [{ blk := 2, inst := 0, kind := 4, addr := 0, cls := 0 }] }).flt.queue = [] := by decide

/-- Table 15-8: MFR_ID answers a block of 6 bytes, "VOLGIL". -/
theorem test_mfr_id : (after .mfrId (st (live ++ [(R.PMB_CFG_EN, 1)]))).pmb.resp = some [6, 86, 79, 76, 71, 73, 76] := by decide

/-- R387: a burn of the anti-rollback count leaves the larger count. -/
theorem test_fuses_kept : (match step { State.reset with pending := [.auxReturn], fuses := { svn := 9 } } with
    | .next t => t.fuses.svn
    | _ => 0) = 9 := by decide

/-- R197: FREEZE keeps the frame of the trigger. -/
theorem test_freeze_frame : (after .capCmdFreeze { st live with m.time.ticks := 64000 * 9 }).get R.CAP_TRIG_FRAME = 9 := by decide

/-- Tables 11-5 and 11-12: a NOTE record is of type 8 and carries its code. -/
theorem test_note : ((after (.logNoteWrite 5) (st (live ++ [(R.LOG_NOTE_CODE_CODE, 77)]))).log.arr.map (fun a => (a.entry.typ, a.entry.code))) =
    [(8, 77)] := by decide

/-- R342: the scrubber goes on with the next row. -/
theorem test_scrub_next : (after (.scrubRead 0 []) (st (live ++ [(R.MEM_CFG_SCRUB_EN, 1)]))).mem.scrubRow.getD 0 0 = 1 := by decide

/-- The published check values of the two polynomials over the characters 1 to 9. -/
theorem test_crcs : crc32 [49, 50, 51, 52, 53, 54, 55, 56, 57] = 0xCBF43926 ∧
    crcMsb 16 0x1021 0xFFFF [49, 50, 51, 52, 53, 54, 55, 56, 57] = 0x29B1 := by decide

/-- R430: IDCODE of module revision M1 with stepping B0. -/
theorem test_idcode : State.reset.m.jtagAnswer .idcode = some (some 0x1F5080A7) := by decide

/-- R144: the fields of an operation descriptor: three row blocks of core SRAM at 16, COUNT 300, SHIFT −2, FX8 to ACC48. -/
theorem test_descriptor : opDesc [16, 0, 64, 2, 0, 0, 0, 0, 8, 0, 0, 0, 44, 1, 254, 33] 0 = ⟨0x02400010, 0, 8, 300, -2, 0x21⟩ ∧
    adrSpace 0x02400010 = 1 ∧ adrOff 0x02400010 = 16 ∧ Desc.blocks ⟨0x02400010, 0, 8, 300, -2, 0x21⟩ = 3 ∧
    Desc.src ⟨0, 0, 0, 0, 0, 0x21⟩ = 1 ∧ Desc.df ⟨0, 0, 0, 0, 0, 0x21⟩ = 2 := by decide

/-- R110: an FX16 sum outside its range takes the nearest end and sets the saturation flag. -/
theorem test_add_saturates : encodeAll 0 0 0 0 [elemValue 0x10 16 32000 1000 0] = ([0xFF, 0x7F], true) := by decide +kernel

/-- Table 04-3: 2.5 and −2.5 in the three modes. -/
theorem test_rounding : [rna (5 / 2), rna (-5 / 2), rne (5 / 2), rne (-5 / 2), rdn (5 / 2), rdn (-5 / 2)] = [3, -3, 2, -2, 2, -3] := by
  decide +kernel

/-- R272: a descrambler that starts from another state reads the second block right. -/
theorem test_scrambler : (unscramble (unscramble 9 (scramble 5 7).1).2 (scramble (scramble 5 7).2 0x0123456789ABCDEF).1).1 =
    0x0123456789ABCDEF := by decide +kernel

end Sys2Proof.Tests
end

section
/-!
PROOFS. Frames of the operations that roles, shares and requests for a power state are made of: what each changes at most, in the order of
the model's definitions; a command's proof then joins the frames of its steps.
-/
namespace Sys2Proof.Machine

/-! ## One part of the module changes -/

/-- Two modules that differ in one part beside the register file. -/
theorem Mod.only_of_part {a b : Mod} {ps : List Part} {fs : List Fld} (p : Part) (hp : p ∈ ps) (hr : b.regs = a.regs)
    (h : ∀ q, q ≠ p → Mod.samePart b a q) : a.only ps fs b :=
  ⟨fun q hq => h q fun e => hq (e ▸ hp), Mod.onlyFields_of_regs fs hr⟩

theorem Mod.only_freeCtr (m : Mod) (x : Nat) {ps : List Part} (fs : List Fld) (hp : Part.freeCtr ∈ ps) :
    m.only ps fs { m with freeCtr := x } := Mod.only_of_part .freeCtr hp rfl (by rintro ⟨⟩ h <;> trivial)

theorem Mod.only_resp (m : Mod) (x : Nat) {ps : List Part} (fs : List Fld) (hp : Part.resp ∈ ps) :
    m.only ps fs { m with resp := x } := Mod.only_of_part .resp hp rfl (by rintro ⟨⟩ h <;> trivial)

theorem Mod.only_roles (m : Mod) (x : RoleS) {ps : List Part} (fs : List Fld) (hp : Part.roles ∈ ps) :
    m.only ps fs { m with roles := x } := Mod.only_of_part .roles hp rfl (by rintro ⟨⟩ h <;> trivial)

theorem Mod.only_plan (m : Mod) (x : PlanS) {ps : List Part} (fs : List Fld) (hp : Part.plan ∈ ps) :
    m.only ps fs { m with plan := x } := Mod.only_of_part .plan hp rfl (by rintro ⟨⟩ h <;> trivial)

theorem Mod.only_lnk (m : Mod) (x : LnkS) {ps : List Part} (fs : List Fld) (hp : Part.lnk ∈ ps) :
    m.only ps fs { m with lnk := x } := Mod.only_of_part .lnk hp rfl (by rintro ⟨⟩ h <;> trivial)

theorem Mod.only_sec (m : Mod) (x : SecS) {ps : List Part} (fs : List Fld) (hp : Part.sec ∈ ps) :
    m.only ps fs { m with sec := x } := Mod.only_of_part .sec hp rfl (by rintro ⟨⟩ h <;> trivial)

theorem Mod.only_pwr (m : Mod) (x : PwrS) {ps : List Part} (fs : List Fld) (hp : Part.pwr ∈ ps) :
    m.only ps fs { m with pwr := x } := Mod.only_of_part .pwr hp rfl (by rintro ⟨⟩ h <;> trivial)

theorem Mod.only_bwk (m : Mod) (x : BwkS) {ps : List Part} (fs : List Fld) (hp : Part.bwk ∈ ps) :
    m.only ps fs { m with bwk := x } := Mod.only_of_part .bwk hp rfl (by rintro ⟨⟩ h <;> trivial)

/-- A step repeated along a list stays in the frame of each step. -/
theorem Mod.only_foldl {α : Type} {ps : List Part} {fs : List Fld} (f : Mod → α → Mod) (l : List α)
    (h : ∀ q : Mod, ∀ a ∈ l, q.only ps fs (f q a)) (m : Mod) : m.only ps fs (l.foldl f m) := by
  induction l generalizing m with
  | nil => exact Mod.only_refl m ps fs
  | cons a l ih =>
    exact Mod.only_trans (h m a List.mem_cons_self) (ih (fun q b hb => h q b (List.mem_cons_of_mem _ hb)) _)

/-! ## What a frame gives -/

/-- A change of the module alone, inside its frame. -/
theorem State.frame_of_only {s : State} {m : Mod} {ps : List Part} {fs : List Fld} (h : s.m.only ps fs m) :
    s.frame ps fs { s with m := m } := ⟨rfl, rfl, h.1, h.2⟩

/-- A field apart from those of the frame keeps its value. -/
theorem Mod.only_get {a b : Mod} {ps : List Part} {fs : List Fld} (h : a.only ps fs b) (g : Fld) (hg : ∀ f ∈ fs, f.apart g) :
    b.get g = a.get g := h.2 g hg

/-- Fields in different registers, or in different bits of one, decided. -/
theorem Fld.apart_of_all {fs : List Fld} {g : Fld}
    (h : (fs.all fun f => decide (f.addr ≠ g.addr ∨ g.lo + g.w ≤ f.lo ∨ f.lo + f.w ≤ g.lo)) = true) : ∀ f ∈ fs, f.apart g :=
  fun f hf => of_decide_eq_true (p := f.addr ≠ g.addr ∨ g.lo + g.w ≤ f.lo ∨ f.lo + f.w ≤ g.lo) (List.all_eq_true.mp h f hf)

/-- A condition's START or CLR changes the collector and the fields of its reports. -/
theorem Mod.condEnd_only (m : Mod) (blk inst kind addr cls : Nat) : m.only [.flt] (repFlds blk) (m.condEnd blk inst kind addr cls) :=
  (Mod.condEnd_frame m blk inst kind addr cls fun _ h => h).symm

theorem Mod.condStart_only (m : Mod) (blk inst kind addr cls : Nat) : m.only [.flt] (repFlds blk) (m.condStart blk inst kind addr cls) :=
  (Mod.condStart_frame m blk inst kind addr cls fun _ h => h).symm

/-! ## The breakwater's states (R57) -/

theorem Mod.syncDp_only (m : Mod) : m.only [] [R.BWK_DP_STAT_DP_STATE] m.syncDp := Mod.only_put m _ _ [] List.mem_cons_self

/-- In RUN an exit shows before every other state. -/
theorem Mod.syncDp_exit {m : Mod} (hr : m.inRun = true) (he : m.exitJ.isSome = true) : m.syncDp = m.put R.BWK_DP_STAT_DP_STATE 7 := by
  simp [Mod.syncDp, hr, he]

/-- The fields that entering or ending HOLD writes. -/
def holdFlds : List Fld := [R.BWK_DP_STAT_HOLD, R.BWK_DP_STAT_DP_STATE]

theorem Mod.hold_only (m : Mod) (v : Nat) : m.only [] holdFlds (m.put R.BWK_DP_STAT_HOLD v).syncDp :=
  Mod.only_trans (Mod.only_put m _ v [] (by simp [holdFlds]))
    (Mod.only_mono (Mod.syncDp_only _) (fun _ h => h) (by simp [holdFlds]))

theorem Mod.enterHold_only (m : Mod) : m.only [] holdFlds m.enterHold := by
  unfold Mod.enterHold
  split
  · exact Mod.hold_only m 1
  · exact Mod.only_refl m _ _

theorem Mod.endHold_only (m : Mod) : m.only [] holdFlds m.endHold := by
  unfold Mod.endHold
  split
  · exact Mod.only_refl m _ _
  · exact Mod.hold_only m 0

/-! ## An election starts (R25, R28) -/

/-- The fields that the start of an election writes. -/
def electFlds : List Fld := R.MOD_ROLE_STAT_ELECTING :: holdFlds

theorem Mod.electStart_only (m : Mod) : m.only [] electFlds (m.setElecting true) :=
  Mod.only_trans (Mod.only_put m _ 1 [] (by simp [electFlds]))
    (Mod.only_mono (Mod.enterHold_only _) (fun _ h => h) (fun _ h => by simp [electFlds, h]))

theorem Mod.startElection_only (m : Mod) : m.only [] electFlds m.startElection := by
  unfold Mod.startElection
  split
  · exact Mod.only_refl m _ _
  · exact Mod.electStart_only m

/-- A one-bit field that is not 0 is 1. -/
theorem Mod.get_eq_one_of_is {m : Mod} {f : Fld} (hw : f.w = 1) (h : m.is f = true) : m.get f = 1 := by
  have hlt : m.get f < 2 ^ f.w := Nat.mod_lt _ (Nat.two_pow_pos _)
  rw [hw] at hlt
  simp only [Mod.is, bne_iff_ne, ne_eq] at h
  omega

theorem Mod.startElection_electing (m : Mod) : m.startElection.get R.MOD_ROLE_STAT_ELECTING = 1 := by
  unfold Mod.startElection
  split
  next h => exact Mod.get_eq_one_of_is rfl h
  next =>
    have hold := Mod.only_get (Mod.enterHold_only (m.flag R.MOD_ROLE_STAT_ELECTING true)) R.MOD_ROLE_STAT_ELECTING
      (Fld.apart_of_all (by decide))
    exact hold.trans (Mod.get_put_same m _ 1 (by decide))

end Sys2Proof.Machine
end

section
/-!
PROOFS. Requests for a power state (R400, R401, R403): why one is refused, what an accepted one starts, the statement RunRequests.
-/
namespace Sys2Proof.Machine

/-! ## Answers to a request (R400) -/

theorem Mod.change_of_settled {m : Mod} (h : m.changing = false) : m.pwr.change = .none := by
  simpa [Mod.changing] using h

/-- A request's word that the access rules let through acts as `preq`. -/
theorem Does.ofPreq {c : Instr} {s : State} {P : State → Prop} {v t : Nat}
    (h : exec c s = onMod (fun m => m.guarded 0x11044 v (fun m => m.preq t)) s) (hw : s.m.wrStatus 0x11044 v = 0) (hon : s.on)
    (hp : P { s with m := { s.m.preq t with resp := 0 } }) : Does c s P :=
  Does.ofMod h hon (by rw [Mod.guarded_ok _ hw]; exact hp)

/-- A refused request shows its WHY and changes nothing else. -/
theorem Does.refused {c : Instr} {s : State} {v t w : Nat}
    (h : exec c s = onMod (fun m => m.guarded 0x11044 v (fun m => m.preq t)) s) (hw : s.m.wrStatus 0x11044 v = 0) (hon : s.on)
    (ht : t = 2 ∨ t = 3 ∨ t = 5) (hwhy : s.m.preqWhy t = w) (h0 : w ≠ 0) (h16 : w < 16) :
    Does c s fun t => t.m.get R.MGT_PREQ_REFUSED = 1 ∧ t.m.get R.MGT_PREQ_WHY = w ∧
      s.frame [.resp] [R.MGT_PREQ_REFUSED, R.MGT_PREQ_WHY] t := by
  have hq : s.m.preq t = (s.m.put R.MGT_PREQ_REFUSED 1).put R.MGT_PREQ_WHY w := by
    unfold Mod.preq
    obtain ⟨k, rfl⟩ := Nat.exists_eq_succ_of_ne_zero h0
    rw [if_pos ht, hwhy]
    rfl
  refine Does.ofPreq h hw hon ?_
  rw [hq]
  refine ⟨?_, ?_, State.frame_of_only (Mod.only_trans (Mod.only_trans (Mod.only_put s.m _ _ _ (by simp)) (Mod.only_put _ _ _ _ (by simp)))
    (Mod.only_resp _ 0 _ (by simp)))⟩
  · exact (Mod.get_put_ne (s.m.put R.MGT_PREQ_REFUSED 1) _ _ w (by decide)).trans (Mod.get_put_same s.m _ 1 (by decide))
  · exact (Mod.get_put_same (s.m.put R.MGT_PREQ_REFUSED 1) _ w (by decide)).trans (Nat.mod_eq_of_lt h16)

/-- An accepted request acts, shows WHY 0 and answers STATUS 0. -/
theorem Does.accepted {c : Instr} {s : State} {P : State → Prop} {v t : Nat}
    (h : exec c s = onMod (fun m => m.guarded 0x11044 v (fun m => m.preq t)) s) (hw : s.m.wrStatus 0x11044 v = 0) (hon : s.on)
    (ht : t = 2 ∨ t = 3 ∨ t = 5) (hwhy : s.m.preqWhy t = 0)
    (hp : P { s with m := { (s.m.preqGo t).put R.MGT_PREQ_WHY 0 with resp := 0 } }) : Does c s P := by
  have hq : s.m.preq t = (s.m.preqGo t).put R.MGT_PREQ_WHY 0 := by
    unfold Mod.preq
    rw [if_pos ht, hwhy]
    rfl
  refine Does.ofPreq h hw hon ?_
  rw [hq]
  exact hp

/-- The answer of an accepted request joins the frame of what it started. -/
theorem Mod.answer_only {a b : Mod} {ps : List Part} {fs : List Fld} (h : a.only ps fs b) (hp : Part.resp ∈ ps)
    (hf : R.MGT_PREQ_WHY ∈ fs) : a.only ps fs { b.put R.MGT_PREQ_WHY 0 with resp := 0 } :=
  Mod.only_trans h (Mod.only_trans (Mod.only_put b _ 0 ps hf) (Mod.only_resp _ 0 fs hp))

theorem Mod.answer_why (b : Mod) : ({ b.put R.MGT_PREQ_WHY 0 with resp := 0 } : Mod).get R.MGT_PREQ_WHY = 0 :=
  Mod.get_put_same b _ 0 (by decide)

/-- The answer leaves every field but WHY. -/
theorem Mod.answer_get (b : Mod) (g : Fld) (hg : R.MGT_PREQ_WHY.apart g) :
    ({ b.put R.MGT_PREQ_WHY 0 with resp := 0 } : Mod).get g = b.get g := Mod.get_put_ne b _ g 0 hg

/-! ## What an accepted request starts (R401, R403) -/

/-- The announcement of SERVICE changes the roles, and a lead's starts an election. -/
theorem Mod.announce_only (m : Mod) (t : Nat) : m.only [.roles] electFlds (m.announce t) := by
  unfold Mod.announce
  split
  · have flag := Mod.only_roles m { m.roles with leaving := true } (ps := [.roles]) electFlds (by simp)
    simp only
    split
    · exact Mod.only_trans flag (Mod.only_mono (Mod.startElection_only _) (by simp) (fun _ h => h))
    · exact flag
  · exact Mod.only_refl m _ _

theorem Mod.announce_pstate (m : Mod) (t : Nat) : (m.announce t).pstate = m.pstate :=
  Mod.only_get (Mod.announce_only m t) _ (Fld.apart_of_all (by decide))

theorem Mod.announce_pwr (m : Mod) (t : Nat) : (m.announce t).pwr = m.pwr := (Mod.announce_only m t).1 .pwr (by simp)
theorem Mod.announce_time (m : Mod) (t : Nat) : (m.announce t).time = m.time := (Mod.announce_only m t).1 .time (by simp)

/-- Only a request for SERVICE from STANDBY or RUN is announced. -/
theorem Mod.announce_none {m : Mod} {t : Nat} (h : t ≠ 5 ∨ m.pstate ≠ 2 ∧ m.pstate ≠ 3) : m.announce t = m := by
  unfold Mod.announce
  rw [if_neg]
  simp only [Bool.and_eq_true, Bool.or_eq_true, decide_eq_true_eq, beq_iff_eq]
  omega

theorem Mod.announce_leaving {m : Mod} (h : m.pstate = 2 ∨ m.pstate = 3) : (m.announce 5).roles.leaving = true := by
  unfold Mod.announce
  rw [if_pos (by simpa using h)]
  simp only
  split
  · exact congrArg RoleS.leaving ((Mod.startElection_only { m with roles.leaving := true }).1 .roles (by simp))
  · rfl

theorem Mod.announce_member {m : Mod} (h : m.pstate = 2 ∨ m.pstate = 3) (hl : m.isLead = false) :
    m.announce 5 = { m with roles.leaving := true } := by
  have hl' : ({ m with roles.leaving := true } : Mod).isLead = false := hl
  unfold Mod.announce
  rw [if_pos (by simpa using h)]
  simp [hl']

theorem Mod.announce_lead {m : Mod} (h : m.pstate = 2 ∨ m.pstate = 3) (hl : m.isLead = true) :
    (m.announce 5).get R.MOD_ROLE_STAT_ELECTING = 1 := by
  have hl' : ({ m with roles.leaving := true } : Mod).isLead = true := hl
  unfold Mod.announce
  rw [if_pos (by simpa using h)]
  simp only [hl', if_true]
  exact Mod.startElection_electing _

/-- What an accepted request starts while no change is under way. -/
theorem Mod.preqGo_settled {m : Mod} (t : Nat) (hc : m.changing = false) :
    m.preqGo t = if t = m.pstate then m.announce t
      else if t = 3 then { m.announce t with pwr.change := .entry false m.time.ticks }
      else if m.inRun then (m.announce t).startExit t
      else { m.announce t with pwr.change := .toState t } := by
  have he : (m.announce t).entering = false := by
    unfold Mod.entering
    rw [Mod.announce_pwr, Mod.change_of_settled hc]
  have hr : (m.announce t).inRun = m.inRun := by unfold Mod.inRun; rw [Mod.announce_pstate]
  unfold Mod.preqGo
  simp only [he, hr, Mod.announce_pstate, Mod.announce_time, Bool.false_eq_true, if_false]

/-! ## The exit from RUN (R403) -/

/-- The fields that the end of OVERFLOW writes. -/
def ovfFlds : List Fld := R.BWK_DP_STAT_OVF_EBB :: R.BWK_DP_STAT_OVF_FLOOD :: repFlds 6

theorem Mod.dropOverflow_only (m : Mod) : m.only [.bwk, .flt] ovfFlds m.dropOverflow := by
  unfold Mod.dropOverflow
  split
  · refine Mod.only_trans (Mod.only_trans (Mod.only_bwk m { m.bwk with ovf := false } _ (by simp)) (Mod.only_puts _ _ _ ?_))
      (Mod.only_mono (Mod.condEnd_only _ 6 2 4 0 0) (by simp) (fun _ h => by simp [ovfFlds, h]))
    simp [ovfFlds]
  · exact Mod.only_refl m _ _

theorem Mod.dropOverflow_idle {m : Mod} (h : m.bwk.ovf = false) : m.dropOverflow = m := by
  simp [Mod.dropOverflow, h]

theorem Mod.dropOverflow_ovf (m : Mod) : m.dropOverflow.bwk.ovf = false := by
  unfold Mod.dropOverflow
  split
  · exact congrArg BwkS.ovf ((Mod.condEnd_only _ 6 2 4 0 0).1 .bwk (by simp))
  next h => simpa using h

/-- OVERFLOW that ends at once shows neither direction. -/
theorem Mod.dropOverflow_flags {m : Mod} (h : m.bwk.ovf = true) :
    m.dropOverflow.get R.BWK_DP_STAT_OVF_EBB = 0 ∧ m.dropOverflow.get R.BWK_DP_STAT_OVF_FLOOD = 0 := by
  unfold Mod.dropOverflow
  rw [if_pos h]
  refine ⟨(Mod.only_get (Mod.condEnd_only _ 6 2 4 0 0) _ (Fld.apart_of_all (by decide))).trans ?_,
    (Mod.only_get (Mod.condEnd_only _ 6 2 4 0 0) _ (Fld.apart_of_all (by decide))).trans (Mod.get_put_same _ _ _ (by decide))⟩
  exact (Mod.get_put_ne _ _ _ _ (by decide)).trans (Mod.get_put_same _ _ _ (by decide))

/-- The first step of an exit in RUN: the plan point is zero, EXIT shows, the rest is the end of OVERFLOW. -/
theorem Mod.startExit_eq {m : Mod} (t : Nat) (hr : m.inRun = true) :
    m.startExit t = ({ m.dropOverflow with
      pwr.change := .exit t 0, bwk.pdp := 0, bwk.starFrom := m.dropOverflow.bwk.star, bwk.capDown := true }).put R.BWK_DP_STAT_DP_STATE 7 := by
  refine Mod.syncDp_exit ?_ rfl
  have hp : m.dropOverflow.pstate = m.pstate := Mod.only_get (Mod.dropOverflow_only m) _ (Fld.apart_of_all (by decide))
  exact (congrArg (· == 3) hp).trans hr

/-- What an exit from RUN has done once its request is answered. -/
theorem Mod.startExit_starts {m : Mod} (t : Nat) (hr : m.inRun = true) :
    (m.startExit t).pwr.change = .exit t 0 ∧ (m.startExit t).bwk.pdp = 0 ∧ (m.startExit t).bwk.ovf = false ∧
      (m.startExit t).get R.BWK_DP_STAT_DP_STATE = 7 := by
  rw [Mod.startExit_eq t hr]
  exact ⟨rfl, rfl, Mod.dropOverflow_ovf m, Mod.get_put_same _ _ _ (by decide)⟩

/-- OVERFLOW that an exit ends shows neither direction (R403). -/
theorem Mod.startExit_flags {m : Mod} (t : Nat) (hr : m.inRun = true) (h : m.bwk.ovf = true) :
    (m.startExit t).get R.BWK_DP_STAT_OVF_EBB = 0 ∧ (m.startExit t).get R.BWK_DP_STAT_OVF_FLOOD = 0 := by
  rw [Mod.startExit_eq t hr]
  obtain ⟨he, hf⟩ := Mod.dropOverflow_flags h
  exact ⟨(Mod.get_put_ne _ _ _ _ (by decide)).trans he, (Mod.get_put_ne _ _ _ _ (by decide)).trans hf⟩

theorem Mod.only_pwr_bwk (m : Mod) (x : PwrS) (y : BwkS) {ps : List Part} (fs : List Fld) (hx : Part.pwr ∈ ps) (hy : Part.bwk ∈ ps) :
    m.only ps fs { m with pwr := x, bwk := y } :=
  Mod.only_trans (Mod.only_pwr m x fs hx) (Mod.only_bwk { m with pwr := x } y fs hy)

theorem Mod.startExit_only (m : Mod) (t : Nat) : m.only [.pwr, .bwk, .flt] (R.BWK_DP_STAT_DP_STATE :: ovfFlds) (m.startExit t) := by
  refine Mod.only_trans (Mod.only_mono (Mod.dropOverflow_only m) (by simp) (fun _ h => List.mem_cons_of_mem _ h)) ?_
  exact Mod.only_trans (Mod.only_pwr_bwk _ _ _ _ (by simp) (by simp)) (Mod.only_mono (Mod.syncDp_only _) (by simp) (by simp))

/-- Without OVERFLOW an exit touches DP_STATE alone of the registers. -/
theorem Mod.startExit_only_idle {m : Mod} (t : Nat) (h : m.bwk.ovf = false) :
    m.only [.pwr, .bwk] [R.BWK_DP_STAT_DP_STATE] (m.startExit t) := by
  unfold Mod.startExit
  rw [Mod.dropOverflow_idle h]
  exact Mod.only_trans (Mod.only_pwr_bwk _ _ _ _ (by simp) (by simp)) (Mod.only_mono (Mod.syncDp_only _) (by simp) (by simp))

/-! ## The requests one by one -/

/-- RUN in STANDBY that no row of Table 13-2 forbids waits for its entry (R401). -/
theorem Does.runAccepted {s : State} (hw : s.m.wrStatus 0x11044 11 = 0) (hp : s.m.pstate = 2) (hc : s.m.changing = false)
    (hy : s.m.runWhy = 0) :
    Does .requestRun s fun t => t.m.pwr.change = .entry false s.m.time.ticks ∧ t.m.get R.MGT_PREQ_WHY = 0 ∧ t.m.resp = 0 ∧
      t.m.pstate = 2 ∧ s.frame [.pwr, .resp] [R.MGT_PREQ_WHY] t := by
  have go : s.m.preqGo 3 = { s.m with pwr.change := .entry false s.m.time.ticks } := by
    rw [Mod.preqGo_settled 3 hc, Mod.announce_none (by simp), hp]
    simp
  refine Does.accepted (t := 3) rfl hw (by simp [hp]) (by simp) (by simp [Mod.preqWhy, Mod.reachable, hc, hp, hy]) ?_
  rw [go]
  exact ⟨rfl, Mod.answer_why _, rfl, (Mod.answer_get _ _ (.inl (by decide))).trans hp,
    State.frame_of_only (Mod.answer_only (Mod.only_pwr s.m _ _ (by simp)) (by simp) (by simp))⟩

/-- Why RUN is refused is one of the codes 0 to 14 of Table 13-2. -/
theorem Mod.runWhy_le (m : Mod) : m.runWhy ≤ 14 := by
  unfold Mod.runWhy
  repeat' refine (ite_le_sup _ _ _).trans (sup_le (by decide) ?_)
  decide

/-- A request for the present state has no effect (R400). -/
theorem Does.presentState {c : Instr} {s : State} {v t : Nat}
    (h : exec c s = onMod (fun m => m.guarded 0x11044 v (fun m => m.preq t)) s) (hw : s.m.wrStatus 0x11044 v = 0) (hon : s.on)
    (ht : t = 2 ∨ t = 3) (hp : s.m.pstate = t) (hc : s.m.changing = false) :
    Does c s fun t => t.m.get R.MGT_PREQ_WHY = 0 ∧ t.m.resp = 0 ∧ s.frame [.resp] [R.MGT_PREQ_WHY] t := by
  have go : s.m.preqGo t = s.m := by
    rw [Mod.preqGo_settled t hc, if_pos hp.symm, Mod.announce_none (by omega)]
  refine Does.accepted h hw hon (by omega) (by simp [Mod.preqWhy, Mod.reachable, hc, hp]) ?_
  rw [go]
  exact ⟨Mod.answer_why _, rfl, State.frame_of_only (Mod.answer_only (Mod.only_refl s.m _ _) (by simp) (by simp))⟩

/-- A request that meets no condition falls due in one frame where no exit and no announcement is called for (R400, R403). -/
theorem Does.fallsDue {c : Instr} {s : State} {v t : Nat}
    (h : exec c s = onMod (fun m => m.guarded 0x11044 v (fun m => m.preq t)) s) (hw : s.m.wrStatus 0x11044 v = 0) (hon : s.on)
    (hc : s.m.changing = false) (hwhy : s.m.preqWhy t = 0) (ht : t = 2 ∨ t = 5) (hn : s.m.pstate = 4 ∨ s.m.pstate = 5 ∧ t = 2) :
    Does c s fun q => q.m.pwr.change = .toState t ∧ q.m.get R.MGT_PREQ_WHY = 0 ∧ q.m.pstate = s.m.pstate ∧
      s.frame [.pwr, .resp] [R.MGT_PREQ_WHY] q := by
  have hr : s.m.inRun = false := by
    simp only [Mod.inRun, beq_eq_false_iff_ne]
    omega
  have go : s.m.preqGo t = { s.m with pwr.change := .toState t } := by
    rw [Mod.preqGo_settled t hc, Mod.announce_none (by omega), if_neg (by omega), if_neg (by omega), hr]
    rfl
  refine Does.accepted h hw hon (by omega) hwhy ?_
  rw [go]
  exact ⟨rfl, Mod.answer_why _, Mod.answer_get _ _ (.inl (by decide)),
    State.frame_of_only (Mod.answer_only (Mod.only_pwr s.m _ _ (by simp)) (by simp) (by simp))⟩

/-- What holds once a request that starts an exit from RUN is answered, whatever was announced before it (R403). -/
theorem Does.exits {c : Instr} {s : State} {P : State → Prop} {v t : Nat}
    (h : exec c s = onMod (fun m => m.guarded 0x11044 v (fun m => m.preq t)) s) (hw : s.m.wrStatus 0x11044 v = 0)
    (hp : s.m.pstate = 3) (hc : s.m.changing = false) (ht : t = 2 ∨ t = 5)
    (k : ∀ q : State, q = { s with m := { ((s.m.announce t).startExit t).put R.MGT_PREQ_WHY 0 with resp := 0 } } →
      q.m.pwr.change = .exit t 0 → q.m.bwk.pdp = 0 → q.m.get R.BWK_DP_STAT_DP_STATE = 7 → q.m.get R.MGT_PREQ_WHY = 0 →
      q.m.pstate = 3 → q.m.bwk.ovf = false → P q) : Does c s P := by
  have hr : s.m.inRun = true := by simp [Mod.inRun, hp]
  have hra : (s.m.announce t).inRun = true := by
    unfold Mod.inRun
    rw [Mod.announce_pstate, hp]
    rfl
  have go : s.m.preqGo t = (s.m.announce t).startExit t := by
    rw [Mod.preqGo_settled t hc, if_neg (by omega), if_neg (by omega), if_pos hr]
  refine Does.accepted h hw (by simp [hp]) (by omega) ?_ ?_
  · have h3 : t ≠ 3 := by omega
    simp [Mod.preqWhy, Mod.reachable, hc, hp, h3]
  · rw [go]
    obtain ⟨hch, hpdp, hovf, hdp⟩ := Mod.startExit_starts t hra
    have hst : ((s.m.announce t).startExit t).pstate = 3 :=
      (Mod.only_get (Mod.startExit_only _ t) _ (Fld.apart_of_all (by decide))).trans ((Mod.announce_pstate _ t).trans hp)
    exact k _ rfl hch hpdp ((Mod.answer_get _ _ (.inl (by decide))).trans hdp) (Mod.answer_why _)
      ((Mod.answer_get _ _ (.inl (by decide))).trans hst) hovf

/-- SERVICE from STANDBY falls due, and a lead that announces it starts an election (R25, R403). -/
theorem Does.serviceFromStandby {s : State} (hw : s.m.wrStatus 0x11044 13 = 0) (hp : s.m.pstate = 2) (hc : s.m.changing = false) :
    Does .requestService s fun t => t.m.pwr.change = .toState 5 ∧ t.m.get R.MGT_PREQ_WHY = 0 ∧ t.m.pstate = 2 ∧ t.m.roles.leaving = true ∧
      (s.m.isLead = true → t.m.get R.MOD_ROLE_STAT_ELECTING = 1) ∧
      (s.m.isLead = false → s.frame [.pwr, .roles, .resp] [R.MGT_PREQ_WHY] t) := by
  have hr : s.m.inRun = false := by simp [Mod.inRun, hp]
  have go : s.m.preqGo 5 = { s.m.announce 5 with pwr.change := .toState 5 } := by
    rw [Mod.preqGo_settled 5 hc, if_neg (by omega), if_neg (by omega), hr]
    rfl
  refine Does.accepted (t := 5) rfl hw (by simp [hp]) (by simp) (by simp [Mod.preqWhy, Mod.reachable, hc, hp]) ?_
  rw [go]
  refine ⟨rfl, Mod.answer_why _, (Mod.answer_get _ _ (.inl (by decide))).trans ((Mod.announce_pstate _ 5).trans hp),
    Mod.announce_leaving (.inl hp), fun hl => (Mod.answer_get _ _ (.inl (by decide))).trans (Mod.announce_lead (.inl hp) hl), fun hl => ?_⟩
  rw [Mod.announce_member (.inl hp) hl]
  exact State.frame_of_only (Mod.answer_only
    (Mod.only_trans (Mod.only_roles s.m _ _ (by simp)) (Mod.only_pwr { s.m with roles.leaving := true } _ _ (by simp))) (by simp) (by simp))

/-- Settles O7: each request is refused with its WHY or accepted, and an accepted one starts the entry, the exit or the change that its
present state calls for. -/
theorem runRequests : Obligations.RunRequests := by
  unfold Obligations.RunRequests
  refine ⟨fun s hw hp hc hy => Does.runAccepted hw hp hc hy, fun s hw hp hc hy => ?runForbidden, fun s hw hp hc => ?runFromSafeHold, fun s hw hp hc => ?runInRun,
    fun s hw hp hc ho => ?standbyFromRun, fun s hw hp hc hf => ?standbyFromSafeHold, fun s hw hp hc hf => ?standbyFatalHeld, fun s hw hp hc => Does.serviceFromStandby hw hp hc,
    fun s hw hp hc => ?serviceFromRun, fun s hw hp hc hf => ?serviceFromSafeHold, fun s hw hp hc => ?standbyFromService, fun s hw hp hc ho => ?standbyInOverflow⟩
  case runForbidden =>
    exact Does.refused (t := 3) rfl hw (by simp [hp]) (by simp) (by simp [Mod.preqWhy, Mod.reachable, hc, hp]) hy
      (Nat.lt_of_le_of_lt s.m.runWhy_le (by decide))
  case runFromSafeHold =>
    exact Does.refused (t := 3) rfl hw (by simp [hp]) (by simp) (by simp [Mod.preqWhy, Mod.reachable, hc, hp]) (by decide) (by decide)
  case runInRun => exact Does.presentState (t := 3) rfl hw (by simp [hp]) (.inr rfl) hp hc
  case standbyFromRun =>
    refine Does.exits (t := 2) rfl hw hp hc (.inl rfl) fun q hq hch hpdp hdp hy hst _ => ⟨hch, hpdp, hdp, hy, hst, ?_⟩
    rw [hq, Mod.announce_none (.inl (by decide))]
    exact State.frame_of_only (Mod.answer_only (Mod.only_mono (Mod.startExit_only_idle 2 ho) (by simp) (by simp)) (by simp) (by simp))
  case standbyFromSafeHold =>
    have hwhy : s.m.preqWhy 2 = 0 := by simp [Mod.preqWhy, Mod.reachable, hc, hp, hf]
    obtain ⟨q, hx, hch, hy, hst, hfr⟩ := Does.fallsDue (c := .requestStandby) (t := 2) rfl hw (by simp [hp]) hc hwhy (.inl rfl) (.inl hp)
    exact ⟨q, hx, hch, hy, hst.trans hp, hfr⟩
  case standbyFatalHeld =>
    exact Does.refused (t := 2) rfl hw (by simp [hp]) (by simp) (by simp [Mod.preqWhy, Mod.reachable, hc, hp, hf]) (by decide) (by decide)
  case serviceFromRun =>
    refine Does.exits (t := 5) rfl hw hp hc (.inr rfl) fun q hq hch hpdp hdp hy hst ho => ⟨hch, hpdp, hdp, hy, hst, ?_, ho⟩
    have hro : ((s.m.announce 5).startExit 5).roles = (s.m.announce 5).roles := (Mod.startExit_only _ 5).1 .roles (by simp)
    rw [hq]
    exact (congrArg RoleS.leaving hro).trans (Mod.announce_leaving (.inr hp))
  case serviceFromSafeHold =>
    have hwhy : s.m.preqWhy 5 = 0 := by simp [Mod.preqWhy, Mod.reachable, hc, hp, hf]
    obtain ⟨q, hx, hch, hy, -, hfr⟩ := Does.fallsDue (c := .requestService) (t := 5) rfl hw (by simp [hp]) hc hwhy (.inr rfl) (.inl hp)
    exact ⟨q, hx, hch, hy, hfr⟩
  case standbyFromService =>
    have hwhy : s.m.preqWhy 2 = 0 := by simp [Mod.preqWhy, Mod.reachable, hc, hp]
    obtain ⟨q, hx, hch, hy, -, hfr⟩ :=
      Does.fallsDue (c := .requestStandby) (t := 2) rfl hw (by simp [hp]) hc hwhy (.inl rfl) (.inr ⟨hp, rfl⟩)
    exact ⟨q, hx, hch, hy, hfr⟩
  case standbyInOverflow =>
    refine Does.exits (t := 2) rfl hw hp hc (.inl rfl) fun q hq hch hpdp hdp hy _ hov => ?_
    obtain ⟨he, hf⟩ := Mod.startExit_flags (m := s.m) 2 (by simp [Mod.inRun, hp]) ho
    rw [Mod.announce_none (.inl (by decide))] at hq
    subst hq
    exact ⟨hch, hpdp, hdp, hov, (Mod.answer_get _ _ (.inl (by decide))).trans he, (Mod.answer_get _ _ (.inl (by decide))).trans hf, hy⟩

end Sys2Proof.Machine
end

section
/-!
PROOFS. The level-3 reset of a module whose MGT domain is off (R311, R436), which refutes the statement Resets.
-/
namespace Sys2Proof.Machine

/-- The fields that show the fuses, the slots, the debug level and the challenge at a reset. -/
def storeFlds : List Fld :=
  [R.SEC_LIFE_LC, R.SEC_LIFE_OWNER_FUSED, R.SEC_LIFE_OWNER_PART, R.SEC_LIFE_KEEP_LOG, R.SEC_SVN_FUSE_CNT, R.SEC_DBG_DEFAULT,
    R.MOD_SERIAL_LO_SERIAL, R.MOD_SERIAL_HI_SERIAL, R.MOD_MFG_YEAR, R.MOD_MFG_WEEK, R.SEC_LIFE_ID_VALID, R.SEC_DBG_LEVEL] ++
    (List.range 12).map R.SEC_OWNER_KEY_HASH ++ (List.range 4).map R.SEC_CHAL_CHAL ++ fwFlds

theorem Mod.showFuses_only (m : Mod) (fu : Fuses) (ps : List Part) : m.only ps storeFlds (m.showFuses fu) := by
  unfold Mod.showFuses
  simp only
  split
  · exact Mod.only_puts m _ ps (by simp [storeFlds])
  · refine Mod.only_trans (Mod.only_puts m _ ps (by simp [storeFlds])) (Mod.only_foldl _ _ (fun q i hi => ?_) _)
    exact Mod.only_put q _ _ ps (List.mem_append_left _ (List.mem_append_left _ (List.mem_append_right _ (List.mem_map_of_mem hi))))

theorem Mod.showSlots_only (m : Mod) (ps : List Part) : m.only ps storeFlds m.showSlots :=
  Mod.only_puts m _ ps (by simp [storeFlds, fwFlds])

theorem Mod.newChal_only (m : Mod) : m.only [.freeCtr] storeFlds m.newChal := by
  have draw : m.only [.freeCtr] storeFlds m.fresh.2 := Mod.only_freeCtr m _ _ (by simp)
  refine Mod.only_trans draw (Mod.only_foldl _ _ (fun q i hi => ?_) _)
  exact Mod.only_put q _ _ _ (List.mem_append_left _ (List.mem_append_right _ (List.mem_map_of_mem hi)))

theorem Mod.showStores_only (m : Mod) (fu : Fuses) : m.only [.sec, .freeCtr] storeFlds (m.showStores fu) := by
  unfold Mod.showStores
  extract_lets lens known
  have hknown : m.only [.sec, .freeCtr] storeFlds known := Mod.only_sec m _ _ (by simp)
  have hfuses := Mod.only_trans hknown (known.showFuses_only fu _)
  have hlevel := Mod.only_trans hfuses (Mod.only_put _ R.SEC_DBG_LEVEL (lcDebug fu.lc) _ (by simp [storeFlds]))
  exact Mod.only_trans (Mod.only_trans hlevel (Mod.showSlots_only _ _)) (Mod.only_mono (Mod.newChal_only _) (by simp) (fun _ h => h))

/-- What the reset shows of fuses and stores leaves the boot stage. -/
theorem Mod.showStores_bootStage (m : Mod) (fu : Fuses) : (m.showStores fu).get R.MGT_BOOT_STAGE = m.get R.MGT_BOOT_STAGE :=
  Mod.only_get (Mod.showStores_only m fu) _ (Fld.apart_of_all (by decide))

/-- No domain is at power-good, MGT among them, BOOT_STAGE reads 4, and ACTIVATE has asked for the reset. -/
def mgtOff : State := { m := { ({} : Mod).puts [(R.PWR_STAT_PG, 0), (R.MGT_BOOT_STAGE, 4)] with flt.l3Sys := true } }

/-- The reset switches off only domains that are on, so the MGT page is not returned to its reset values here. -/
theorem mgtOff_keeps_bootStage : (mgtOff.m.levelThree mgtOff.fuses).get R.MGT_BOOT_STAGE = 4 := by
  unfold Mod.levelThree
  simp only
  rw [Mod.showStores_bootStage]
  decide +kernel

/-- The reset is due in that state and acts. -/
theorem exec_mgtOff : exec .level3Reset mgtOff = .next { mgtOff with m := mgtOff.m.levelThree mgtOff.fuses } := by
  have hon : ¬ mgtOff.m.pstate = 0 := by decide
  have due : ((mgtOff.m.flt.l3 && mgtOff.m.l3Logged) || mgtOff.m.flt.l3Sys) && mgtOff.m.pstate != 1 := by decide
  change onMod _ mgtOff = _
  rw [onMod, if_neg hon, if_pos due]

/-- Refutes O16: its third part says BOOT_STAGE 0 after every level-3 reset that acts; with the MGT domain off before it, which no premise
excludes, BOOT_STAGE keeps its value. -/
theorem not_resets : ¬ Obligations.Resets := by
  unfold Obligations.Resets
  rintro ⟨-, -, level3, -⟩
  obtain ⟨t, ht, -, -, stage, -⟩ := level3 mgtOff (by decide) (.inr (by decide)) (by decide)
  rw [exec_mgtOff] at ht
  obtain rfl := Host.Outcome.next.inj ht
  rw [mgtOff_keeps_bootStage] at stage
  exact absurd stage (by decide)

end Sys2Proof.Machine
end

section
/-!
PROOFS. The end of an election whose two leads rejoin (R29, R30), which refutes the statement ElectionAndRedirect.
-/
namespace Sys2Proof.Machine

/-- A field reads below its width. -/
theorem Mod.get_lt (m : Mod) (f : Fld) : m.get f < 2 ^ f.w := Nat.mod_lt _ (Nat.two_pow_pos _)

/-- An election runs, and two segments rejoin whose kept lead stands at position 16, where a healthy peer is listed. -/
def rejoinFar : State :=
  { m := { ({} : Mod).puts [(R.MOD_ROLE_STAT_ELECTING, 1)] with
      roles := { rejoin := some 16, peers := [{ pos := 16, healthy := true }] } } }

/-- The election chooses that position. -/
theorem rejoinFar_electLead : rejoinFar.m.electLead = 16 := by decide

/-- Refutes O20: its second part says LEAD_POS reads the chosen lead; a rejoin list may name position 16, which no premise excludes, and the
four bits of LEAD_POS cannot. -/
theorem not_electionAndRedirect : ¬ Obligations.ElectionAndRedirect := by
  unfold Obligations.ElectionAndRedirect
  rintro ⟨-, complete, -⟩
  obtain ⟨t, -, lead, -⟩ := complete rejoinFar (by decide) (by decide)
  rw [rejoinFar_electLead] at lead
  exact absurd (t.m.get_lt R.MOD_ROLE_STAT_LEAD_POS) (by rw [lead]; decide)

end Sys2Proof.Machine
end

section
/-!
PROOFS. What follows from the roles (R25, R26, R33, R38): frames of the fleet tree, the acting root, the end of an election, and of
everything that follows from the list of peers.
-/
namespace Sys2Proof.Machine

/-! ## The fleet tree (R295 to R297) -/

theorem Mod.nextMseq_only (m : Mod) (c : Nat) : m.only [.lnk] [] (m.nextMseq c).2 := Mod.only_lnk m _ [] (by simp)

theorem Mod.sendLink_only (m : Mod) (l : Nat) (g : Msg) : m.only [.lnk] [] (m.sendLink l g) := by
  unfold Mod.sendLink
  split
  · exact Mod.enqueue_frame m _ g [] (by simp)
  · split
    · exact Mod.ringUnicast_frame m _ _ [] (by simp)
    · exact Mod.only_refl m _ _

theorem Mod.sendRoute_only (m : Mod) : m.only [.lnk] [] m.sendRoute := by
  unfold Mod.sendRoute
  simp only
  split
  · exact Mod.only_trans (Mod.nextMseq_only m 11) (Mod.sendLink_only _ _ _)
  · exact Mod.only_refl m _ _

/-- The fields that a choice of the up link writes. -/
def treeFlds : List Fld :=
  [R.LNK_TREE_STAT_DEPTH, R.LNK_TREE_STAT_UP_LINK, R.LNK_TREE_STAT_CHILD, R.LNK_TREE_STAT_BLOCKED, R.LNK_TREE_STAT_ROOT_RACK,
    R.LNK_EVT_DETACHED] ++ repFlds 13

/-- The end and the start of TREE_DETACHED. -/
theorem Mod.detached_only (m : Mod) (b c : Bool) :
    m.only [.lnk, .flt] treeFlds (if b then m.condEnd 13 7 0x0B 0 1
      else if c then m else (m.put R.LNK_EVT_DETACHED 1).condStart 13 7 0x0B 0 1) := by
  split
  · exact Mod.only_mono (Mod.condEnd_only m 13 7 0x0B 0 1) (by simp) (fun _ h => by simp [treeFlds, h])
  · split
    · exact Mod.only_refl m _ _
    · exact Mod.only_trans (Mod.only_put m _ 1 _ (by simp [treeFlds]))
        (Mod.only_mono (Mod.condStart_only _ 13 7 0x0B 0 1) (by simp) (fun _ h => by simp [treeFlds, h]))

theorem Mod.treeChoose_only (m : Mod) : m.only [.lnk, .flt] treeFlds m.treeChoose := by
  unfold Mod.treeChoose
  extract_lets off l root up ok upn dep child blk old chosen links held
  split
  · exact Mod.only_trans (Mod.only_puts m _ _ (by simp [treeFlds]))
      (Mod.only_mono (Mod.condEnd_only _ 13 7 0x0B 0 1) (by simp) (fun _ h => by simp [treeFlds, h]))
  · have hchosen : m.only [.lnk, .flt] treeFlds chosen := Mod.only_puts m _ _ (by simp [treeFlds])
    have hheld : chosen.only [.lnk, .flt] treeFlds held := by
      unfold held
      split
      · exact Mod.only_trans (Mod.only_lnk chosen _ _ (by simp)) (Mod.only_mono (Mod.sendRoute_only _) (by simp) (by simp))
      · exact Mod.only_refl _ _ _
    exact Mod.only_trans hchosen (Mod.only_trans hheld (Mod.detached_only held _ _))

/-! ## Clocks that follow the acting root (R247, R251, R260) -/

theorem Mod.raiseLim_only (m : Mod) (win blk inst kind addr cls : Nat) :
    m.only [.flt] (repFlds blk) (m.raiseLim win blk inst kind addr cls) :=
  (Mod.raiseLim_frame m win blk inst kind addr cls fun _ h => h).symm

theorem Mod.endConds_only (m : Mod) (blk : Nat) (kinds : List Nat) : m.only [.flt] (repFlds blk) (m.endConds blk kinds) := by
  refine Mod.only_foldl _ _ (fun q c hc => ?_) m
  have hb : c.blk = blk := by
    have hmem := List.of_mem_filter hc
    simp only [Bool.and_eq_true, beq_iff_eq] at hmem
    obtain ⟨⟨hblk, -⟩, -⟩ := hmem
    exact hblk
  rw [← hb]
  exact Mod.condEnd_only q c.blk c.inst c.kind c.addr c.cls

/-- The fields that a switch of the PLL's reference writes. -/
def refFlds : List Fld := R.CLK_STAT_REF_ACT :: R.CLK_EVT_SWITCH :: (cntFlds R.CLK_SW_CNT_COUNT.addr ++ repFlds 3)

theorem Mod.chooseRef_only (m : Mod) (src : Nat) : m.only [.flt] refFlds (m.chooseRef src) := by
  unfold Mod.chooseRef
  extract_lets b counted
  split
  · exact Mod.only_refl m _ _
  · have hcounted : m.only [.flt] refFlds counted :=
      Mod.only_trans (Mod.only_put m R.CLK_STAT_REF_ACT b _ (by simp [refFlds])) (Mod.bumpBy_frame _ _ 1 (by simp)
        (fun _ h => List.mem_cons_of_mem _ (List.mem_cons_of_mem _ (List.mem_append_left _ h))))
    have told : counted.only [.flt] refFlds (counted.raiseLim tickS 3 0 2 src 0) :=
      Mod.only_mono (Mod.raiseLim_only counted tickS 3 0 2 src 0) (fun _ h => h) (fun _ h => by simp [refFlds, h])
    exact Mod.only_trans hcounted (Mod.only_trans told (Mod.only_put _ _ 1 _ (by simp [refFlds])))

/-- The fields that a change of TIM_STAT.VALID writes. -/
def validFlds : List Fld := R.TIM_STAT_VALID :: R.TIM_EVT_LOST :: (cntFlds R.TIM_LOSS_CNT_COUNT.addr ++ repFlds 4)

theorem Mod.syncValid_only (m : Mod) : m.only [.flt] validFlds m.syncValid := by
  unfold Mod.syncValid
  extract_lets v lost
  split
  · exact Mod.only_refl m _ _
  · split
    · exact Mod.only_trans (Mod.only_put m _ 1 _ (by simp [validFlds]))
        (Mod.only_mono (Mod.endConds_only _ 4 [1]) (by simp) (fun _ h => by simp [validFlds, h]))
    · have hlost : m.only [.flt] validFlds lost :=
        Mod.only_trans (Mod.only_trans (Mod.only_put m R.TIM_STAT_VALID 0 _ (by simp [validFlds])) (Mod.bumpBy_frame _ _ 1 (by simp)
          (fun _ h => List.mem_cons_of_mem _ (List.mem_cons_of_mem _ (List.mem_append_left _ h)))))
          (Mod.only_put _ R.TIM_EVT_LOST 1 _ (by simp [validFlds]))
      exact Mod.only_trans hlost
        (Mod.only_mono (Mod.condStart_only lost 4 0 1 _ 1) (fun _ h => h) (fun _ h => by simp [validFlds, h]))

/-! ## The acting root (R38, R260) -/

/-- The fields that a change of acting root writes. -/
def rootFlds : List Fld :=
  [R.TIM_ROOT_GEN, R.TIM_ROOT_ADDR, R.TIM_EVT_ROOT, R.TIM_STAT_ROOT, R.TIM_STAT_SRC, R.TIM_STAT_PPS_OK, R.MOD_ROLE_STAT_FLEET_ROOT_ACT,
    R.MOD_ROLE_STAT_ROOT_INACTIVE] ++ repFlds 4 ++ treeFlds ++ refFlds ++ validFlds

/-- The tree, the reference and VALID follow a change of TIM_STAT.ROOT. -/
theorem Mod.rootFollow_only (m : Mod) : m.only [.lnk, .flt] rootFlds (m.treeChoose.chooseRef 2).syncValid := by
  refine Mod.only_trans (Mod.only_trans (Mod.only_mono (Mod.treeChoose_only m) (fun _ h => h) ?_)
    (Mod.only_mono (Mod.chooseRef_only _ 2) (by simp) ?_)) (Mod.only_mono (Mod.syncValid_only _) (by simp) ?_)
  all_goals
    intro f h
    simp only [rootFlds, List.mem_append]
    tauto

theorem Mod.rootChange_only (m : Mod) (gen addr : Nat) : m.only [.lnk, .flt] rootFlds (m.rootChange gen addr) :=
  Mod.only_trans (Mod.only_puts m _ _ (by simp [rootFlds]))
    (Mod.only_mono (Mod.raiseLim_only _ tickS 4 0 4 _ 0) (by simp) (fun _ h => by simp only [rootFlds, List.mem_append]; tauto))

theorem Mod.becomeRoot_only (m : Mod) (gen : Nat) : m.only [.lnk, .flt] rootFlds (m.becomeRoot gen) :=
  Mod.only_trans (Mod.only_trans (Mod.rootChange_only m gen _) (Mod.only_puts _ _ _ (by simp [rootFlds]))) (Mod.rootFollow_only _)

theorem Mod.leaveRoot_only (m : Mod) : m.only [.lnk, .flt] rootFlds m.leaveRoot := by
  unfold Mod.leaveRoot
  split
  · exact Mod.only_trans (Mod.only_puts m _ _ (by simp [rootFlds])) (Mod.rootFollow_only _)
  · exact Mod.only_refl m _ _

theorem Mod.syncRoot_only (m : Mod) : m.only [.lnk, .flt] rootFlds m.syncRoot := by
  unfold Mod.syncRoot
  extract_lets sel want act shown
  have hshown : m.only [.lnk, .flt] rootFlds shown := Mod.only_puts m _ _ (by simp [rootFlds])
  split
  · exact Mod.only_trans hshown (Mod.leaveRoot_only shown)
  · split
    · exact Mod.only_trans hshown (Mod.becomeRoot_only shown _)
    · exact hshown

/-! ## Everything that follows from the peers (R26, R33, R39, R42) -/

/-- The fields that follow from the peers, beside PEERS and RING_STATE. -/
def roleFlds : List Fld :=
  [R.MOD_ROLE_STAT_DEPUTY_POS, R.MOD_ROLE_STAT_ROLE, R.MOD_ROLE_STAT_DEGRADED, R.MOD_ROLE_STAT_HOST_RELAY, R.MOD_ROLE_STAT_FLEET_RELAY] ++
    rootFlds

theorem Mod.syncRelays_only (m : Mod) : m.only [.lnk, .flt] roleFlds m.syncRelays :=
  Mod.only_puts m _ _ (by simp [roleFlds])

theorem Mod.treeChoose_roleFlds (m : Mod) : m.only [.lnk, .flt] roleFlds m.treeChoose :=
  Mod.only_mono (Mod.treeChoose_only m) (fun _ h => h) (fun f h => by simp only [roleFlds, rootFlds, List.mem_append]; tauto)

/-- Once PEERS and RING_STATE are shown, the roles, relays, acting root and tree follow. -/
theorem Mod.syncRoles_only (m : Mod) :
    (m.puts [(R.MOD_ROLE_STAT_PEERS, m.peersMask), (R.MOD_ROLE_STAT_RING_STATE, m.ringStateOf)]).only [.lnk, .flt] roleFlds m.syncRoles := by
  unfold Mod.syncRoles
  extract_lets shown dep old role n deg rooted c moved links dropped
  have hdep : shown.only [.lnk, .flt] roleFlds dep := by
    unfold dep
    split
    · exact Mod.only_put shown _ _ _ (by simp [roleFlds])
    · exact Mod.only_refl _ _ _
  clear_value dep
  have hrole : dep.only [.lnk, .flt] roleFlds role := Mod.only_put dep _ _ _ (by simp [roleFlds])
  clear_value role
  have hdeg : role.only [.lnk, .flt] roleFlds deg :=
    Mod.only_trans (Mod.only_put role R.MOD_ROLE_STAT_DEGRADED _ _ (by simp [roleFlds])) (Mod.syncRelays_only _)
  clear_value deg
  have hrooted : deg.only [.lnk, .flt] roleFlds rooted :=
    Mod.only_mono (Mod.syncRoot_only deg) (fun _ h => h) (fun f h => by simp [roleFlds, h])
  clear_value rooted
  have hdropped : rooted.only [.lnk, .flt] roleFlds dropped := by
    unfold dropped
    split
    · exact Mod.only_lnk rooted _ _ (by simp)
    · exact Mod.only_refl _ _ _
  have before : shown.only [.lnk, .flt] roleFlds dropped :=
    Mod.only_trans hdep (Mod.only_trans hrole (Mod.only_trans hdeg (Mod.only_trans hrooted hdropped)))
  split
  · exact Mod.only_trans before (Mod.treeChoose_roleFlds dropped)
  · exact before

theorem Mod.syncRoles_parts (m : Mod) : m.onlyParts [.lnk, .flt] m.syncRoles :=
  Mod.onlyParts_trans (Mod.onlyParts_puts m _ _) (Mod.syncRoles_only m).1

/-- PEERS shows the healthy modules of the list (R42). -/
theorem Mod.syncRoles_peers (m : Mod) : m.syncRoles.get R.MOD_ROLE_STAT_PEERS = m.peersMask % 2 ^ 10 :=
  ((Mod.syncRoles_only m).2 _ (Fld.apart_of_all (by decide))).trans
    ((Mod.get_put_ne (m.put R.MOD_ROLE_STAT_PEERS m.peersMask) R.MOD_ROLE_STAT_RING_STATE _ _ (by decide)).trans
      (Mod.get_put_same m R.MOD_ROLE_STAT_PEERS _ (by decide)))

end Sys2Proof.Machine
end

section
/-!
PROOFS. Heartbeats (R22, R23, R42): a ring broadcast leaves by both ports; a heartbeat that comes in, a peer that is lost; the statement
Heartbeats.
-/
namespace Sys2Proof.Machine

/-! ## Messages that leave and bytes that come in -/

/-- A message put in a port's queue stands at its end; the other ports stay. -/
theorem Mod.port_enqueue (m : Mod) (p q : Nat) (g : Msg) (h : q < 7) :
    (m.enqueue p g).port q = if p = q then { m.port q with txq := (m.port q).txq ++ [g] } else m.port q :=
  Mod.port_setPort m p q _ h

@[simp] theorem Mod.enqueue_mseq (m : Mod) (p : Nat) (g : Msg) : (m.enqueue p g).lnk.mseq = m.lnk.mseq := rfl

/-- The MSEQ of a channel counts on. -/
theorem Mod.mseq_nextMseq (m : Mod) (c : Nat) :
    Sparse.get (fun _ => 0) (m.nextMseq c).2.lnk.mseq c = (Sparse.get (fun _ => 0) m.lnk.mseq c + 1) % 65536 := by
  unfold Mod.nextMseq
  rw [Sparse.get_set, if_pos rfl]

theorem Mod.putRing_mseq (m : Mod) (g : Msg) : (m.putRing g).lnk.mseq = m.lnk.mseq := by
  unfold Mod.putRing
  simp only
  split <;> split <;> rfl

theorem Mod.sendRing_mseq (m : Mod) (c : Nat) (body : List Nat) :
    Sparse.get (fun _ => 0) (m.sendRing c body).lnk.mseq c = (Sparse.get (fun _ => 0) m.lnk.mseq c + 1) % 65536 :=
  (congrArg (fun x => Sparse.get (fun _ => 0) x c) (Mod.putRing_mseq _ _)).trans (Mod.mseq_nextMseq m c)

/-- With both ring ports up one copy leaves by each, the one to the west marked so (R284). -/
theorem Mod.sendRing_ports (m : Mod) (c : Nat) (body : List Nat) (h0 : m.portUp 0 = true) (h1 : m.portUp 1 = true) :
    let g : Msg := { chan := c, scope := .ring, dst := 0, src := m.addr, mseq := Sparse.get (fun _ => 0) m.lnk.mseq c, body := body }
    ((m.sendRing c body).port 0).txq = (m.port 0).txq ++ [g] ∧
      ((m.sendRing c body).port 1).txq = (m.port 1).txq ++ [{ g with west := true }] := by
  intro g
  have sent : m.sendRing c body = ((m.nextMseq c).2.enqueue 0 g).enqueue 1 { g with west := true } := by
    have up0 : (m.nextMseq c).2.portUp 0 = true := h0
    have up1 : ((m.nextMseq c).2.enqueue 0 g).portUp 1 = true := h1
    change (m.nextMseq c).2.putRing g = _
    unfold Mod.putRing
    rw [if_pos up0]
    simp only
    rw [if_pos up1]
  rw [sent]
  simp only [Mod.port_enqueue _ _ _ _ (show 0 < 7 by decide), Mod.port_enqueue _ _ _ _ (show 1 < 7 by decide)]
  exact ⟨rfl, rfl⟩

theorem getD_natBytes (b : List Byte) (i : Nat) : (natBytes b).getD i 0 = (b.getD i 0).toNat := by
  unfold natBytes
  rw [List.getD_eq_getElem?_getD, List.getD_eq_getElem?_getD, List.getElem?_map]
  cases b[i]? <;> rfl

/-- Two bytes of an operand as a little-endian number. -/
theorem le_natBytes_two (b : List Byte) (o : Nat) :
    le (natBytes b) o 2 = (b.getD o 0).toNat + 256 * (b.getD (o + 1) 0).toNat := by
  have h0 := (b.getD o 0).isLt
  have h1 := (b.getD (o + 1) 0).isLt
  simp only [le, getD_natBytes]
  omega

@[simp] theorem length_natBytes (b : List Byte) : (natBytes b).length = b.length := List.length_map _

theorem Mod.takeInbox_only (m : Mod) (c : Nat) (b : List Nat) : m.only [.lnk] [] (m.takeInbox c b) := Mod.only_lnk m _ [] (by simp)

/-! ## The end of an election (R28, R52, R62) -/

/-- The fields that the acceptance of a cap writes. -/
def capFlds : List Fld := [R.BWK_CAP_HOST_CAP, R.BWK_CAP_RACK_CAP, R.BWK_DP_STAT_CAP_BREACH] ++ repFlds 6

theorem Mod.endBreach_only (m : Mod) : m.only [.bwk, .flt] capFlds m.endBreach := by
  unfold Mod.endBreach
  split
  · exact Mod.only_trans (Mod.only_trans (Mod.only_bwk m _ _ (by simp)) (Mod.only_put _ _ 0 _ (by simp [capFlds])))
      (Mod.only_mono (Mod.condEnd_only _ 6 2 5 0 1) (by simp) (fun _ h => by simp [capFlds, h]))
  · exact Mod.only_refl m _ _

theorem Mod.acceptHostCap_only (m : Mod) (v : Nat) : m.only [.bwk, .flt] capFlds (m.acceptHostCap v) :=
  Mod.only_trans (Mod.only_put m _ v _ (by simp [capFlds])) (Mod.endBreach_only _)

theorem Mod.acceptRackCap_only (m : Mod) (c : Nat) : m.only [.bwk, .flt] capFlds (m.acceptRackCap c) := by
  unfold Mod.acceptRackCap
  split
  · exact Mod.only_refl m _ _
  · exact Mod.only_trans (Mod.only_put m _ c _ (by simp [capFlds])) (Mod.endBreach_only _)

/-- The fields that the start or the end of an election writes. -/
def electEndFlds : List Fld := electFlds ++ capFlds

theorem Mod.setElecting_only (m : Mod) (b : Bool) : m.only [.bwk, .flt] electEndFlds (m.setElecting b) := by
  have caps : ∀ f ∈ capFlds, f ∈ electEndFlds := fun _ h => List.mem_append_right _ h
  have holds : ∀ f ∈ holdFlds, f ∈ electEndFlds := fun _ h => List.mem_append_left _ (List.mem_cons_of_mem _ h)
  unfold Mod.setElecting
  extract_lets shown hostDone rackDone
  have hshown : m.only [.bwk, .flt] electEndFlds shown := Mod.only_put m _ _ _ (by simp [electEndFlds, electFlds])
  split
  · exact Mod.only_trans hshown (Mod.only_mono (Mod.enterHold_only shown) (by simp) holds)
  · have hhost : shown.only [.bwk, .flt] electEndFlds hostDone := by
      unfold hostDone
      split
      · exact Mod.only_refl _ _ _
      · exact Mod.only_trans (Mod.only_mono (Mod.acceptHostCap_only shown _) (fun _ h => h) caps) (Mod.only_bwk _ _ _ (by simp))
    have hrack : hostDone.only [.bwk, .flt] electEndFlds rackDone := by
      unfold rackDone
      split
      · exact Mod.only_refl _ _ _
      · exact Mod.only_trans (Mod.only_mono (Mod.acceptRackCap_only hostDone _) (fun _ h => h) caps) (Mod.only_bwk _ _ _ (by simp))
    have ended := Mod.only_trans hshown (Mod.only_trans hhost hrack)
    split
    · exact Mod.only_trans ended (Mod.only_mono (Mod.endHold_only rackDone) (by simp) holds)
    · exact ended

/-! ## A peer's heartbeat comes in (R23, R25, R26, R29) -/

/-- No peer of a position is left once those of that position are taken out. -/
theorem Mod.peer_filter_ne (m : Mod) (p : Nat) : (m.roles.peers.filter (fun q => q.pos != p)).find? (fun q => q.pos == p) = none := by
  rw [List.find?_eq_none]
  intro x hx
  simpa using List.of_mem_filter hx

/-- The list of peers after a heartbeat: its position shows the bits and the instant just heard. -/
theorem Mod.notePeer_peer (m : Mod) (west : Bool) (b : List Nat) :
    ∃ q, (m.notePeer west b).peer (b.getD 1 0) = some q ∧ q.healthy = bit (b.getD 2 0) 0 ∧ q.eligible = bit (b.getD 2 0) 1 ∧
      q.addr = le b 6 2 % 16384 ∧ (if west then q.westT else q.eastT) = some m.time.ticks := by
  unfold Mod.notePeer
  extract_lets f p old q
  have hold : old.pos = p := by
    unfold old
    cases h : m.peer p with
    | none => rfl
    | some x =>
      have := List.find?_some h
      simpa using this
  have hfound : (m.roles.peers.filter (fun x => x.pos != p) ++ [q]).find? (fun x => x.pos == p) = some q := by
    have hq : (q.pos == p) = true := beq_iff_eq.mpr hold
    rw [List.find?_append, Mod.peer_filter_ne, Option.none_or, List.find?_cons, hq]
  refine ⟨q, hfound, rfl, rfl, rfl, ?_⟩
  cases west <;> rfl

/-- What a peer's view of the lead does changes of the roles the kept lead alone. -/
theorem Mod.adoptView_only (m : Mod) (q : Peer) :
    ∃ r, Mod.onlyParts { m with roles.rejoin := r } [.pwr, .bwk, .flt] (m.adoptView q) := by
  have off (r : Option Nat) : Mod.onlyParts { m with roles.rejoin := r } [.pwr, .bwk, .flt] { m.checkOff 0x0203 with roles.rejoin := r } :=
    (Mod.only_pwr { m with roles.rejoin := r } _ [] (by simp)).1
  have start (a : Mod) : a.onlyParts [.pwr, .bwk, .flt] a.startElection := Mod.onlyParts_mono (Mod.startElection_only a).1 (by simp)
  have ended (a : Mod) : a.onlyParts [.pwr, .bwk, .flt] (a.setElecting false) := Mod.onlyParts_mono (Mod.setElecting_only a false).1 (by simp)
  unfold Mod.adoptView
  extract_lets kept lp cleared known shown
  split
  · exact ⟨m.roles.rejoin, Mod.onlyParts_refl m _⟩
  · split
    · have hknown : cleared.onlyParts [.pwr, .bwk, .flt] known := Mod.onlyParts_puts cleared _ _
      refine ⟨m.roles.rejoin, Mod.onlyParts_trans (off _) (Mod.onlyParts_trans hknown ?_)⟩
      split
      · exact ended known
      · exact Mod.onlyParts_refl known _
    · split
      · have hshown : cleared.onlyParts [.pwr, .bwk, .flt] shown := Mod.onlyParts_put cleared _ _ _
        refine ⟨m.roles.rejoin, Mod.onlyParts_trans (off _) (Mod.onlyParts_trans hshown ?_)⟩
        split
        · exact start shown
        · exact Mod.onlyParts_refl shown _
      · exact ⟨some (min lp q.pos), Mod.onlyParts_trans (off _) (start _)⟩

theorem Mod.judgeMode_parts (m : Mod) : m.onlyParts [.flt] m.judgeMode := by
  unfold Mod.judgeMode
  split
  · exact Mod.onlyParts_refl m _
  · split
    · exact Mod.onlyParts_trans (Mod.onlyParts_put m _ 1 _) (Mod.condStart_only _ 1 0 1 _ 1).1
    · exact Mod.onlyParts_refl m _

theorem Mod.judgeAddr_parts (m : Mod) (p a : Nat) : m.onlyParts [.flt] (m.judgeAddr p a) := by
  unfold Mod.judgeAddr
  split
  · split
    · exact Mod.onlyParts_refl m _
    · exact Mod.onlyParts_trans (Mod.onlyParts_put m _ 1 _) (Mod.condStart_only _ 13 7 0x0A a 1).1
  · exact Mod.onlyParts_refl m _

/-- Past its checks a peer's heartbeat acts on the list of peers, then on what follows from it. -/
def Mod.heardFrom (m : Mod) (west : Bool) (b : List Nat) : Mod :=
  ((m.takeInbox 1 b).notePeer west b).judgeAddr (b.getD 1 0) (le b 6 2)

theorem Mod.heardFrom_peers (m : Mod) (west : Bool) (b : List Nat) :
    (m.heardFrom west b).roles.peers = ((m.takeInbox 1 b).notePeer west b).roles.peers :=
  congrArg RoleS.peers (Mod.judgeAddr_parts _ _ _ .roles (by simp))

theorem Mod.heardFrom_parts (m : Mod) (west : Bool) (b : List Nat) : m.onlyParts [.roles, .lnk, .flt] (m.heardFrom west b) :=
  Mod.onlyParts_trans (Mod.onlyParts_mono (Mod.takeInbox_only m 1 b).1 (by simp))
    (Mod.onlyParts_trans (Mod.only_roles _ _ [] (by simp)).1 (Mod.onlyParts_mono (Mod.judgeAddr_parts _ _ _) (by simp)))

/-- The type and a position of 0 to 9 make a heartbeat. -/
theorem heartbeat_form {b : List Byte} (htype : b.getD 0 0 = 0x57) (h9 : (b.getD 1 0).toNat ≤ 9) :
    ¬ ((natBytes b).getD 0 0 != 0x57 || decide (9 < (natBytes b).getD 1 0)) = true := by
  have h57 : (natBytes b).getD 0 0 = 0x57 := by rw [getD_natBytes, htype]; rfl
  simp only [h57, getD_natBytes, Bool.or_eq_true, bne_iff_ne, decide_eq_true_eq]
  omega

/-- A heartbeat of another position is noted with its peer, and the list it is noted in stays through what follows from it. -/
theorem exec_heartbeatReceive {s : State} {west : Bool} {b : List Byte} (hon : s.on) (htype : b.getD 0 0 = 0x57)
    (hother : (b.getD 1 0).toNat ≠ s.m.pos) (h9 : (b.getD 1 0).toNat ≤ 9) (hstrap : s.m.get R.MOD_STRAP_STRAP_ERR = 0) :
    ∃ q, (s.m.heardFrom west (natBytes b)).peer (b.getD 1 0).toNat = some q ∧ q.healthy = bit (b.getD 2 0).toNat 0 ∧
      q.eligible = bit (b.getD 2 0).toNat 1 ∧ q.addr = ((b.getD 6 0).toNat + 256 * (b.getD 7 0).toNat) % 16384 ∧
      (if west then q.westT else q.eastT) = some s.m.time.ticks ∧
      exec (.heartbeatReceive west b) s =
        .next { s with m := ((s.m.heardFrom west (natBytes b)).adoptView q).judgeMode.syncRoles } := by
  obtain ⟨q, hpeer, hhealthy, helig, haddr, htime⟩ := (s.m.takeInbox 1 (natBytes b)).notePeer_peer west (natBytes b)
  have hfound : (s.m.heardFrom west (natBytes b)).peer ((natBytes b).getD 1 0) = some q := by
    unfold Mod.peer at hpeer ⊢
    rw [Mod.heardFrom_peers]
    exact hpeer
  have hpos : ¬ (natBytes b).getD 1 0 = (s.m.takeInbox 1 (natBytes b)).pos := by rw [getD_natBytes]; exact hother
  have herr : ¬ (s.m.takeInbox 1 (natBytes b)).is R.MOD_STRAP_STRAP_ERR = true := by
    have : (s.m.takeInbox 1 (natBytes b)).get R.MOD_STRAP_STRAP_ERR = 0 := hstrap
    simp [Mod.is, this]
  refine ⟨q, by rw [← getD_natBytes]; exact hfound, by rw [hhealthy, getD_natBytes], by rw [helig, getD_natBytes],
    by rw [haddr, le_natBytes_two], htime, ?_⟩
  rw [show exec (.heartbeatReceive west b) s = execHeartbeatReceive west b s from rfl, execHeartbeatReceive, onMod, if_neg hon]
  simp only
  rw [if_neg (heartbeat_form htype h9), if_neg hpos, if_neg herr]
  unfold Mod.heardFrom at hfound ⊢
  rw [hfound]

/-- What follows from a noted heartbeat leaves the list of peers, and changes no more than roles, links, collector, checks and breakwater. -/
theorem Mod.adoptAll_parts (m : Mod) (q : Peer) :
    (m.adoptView q).judgeMode.syncRoles.roles.peers = m.roles.peers ∧
      m.onlyParts [.roles, .lnk, .flt, .pwr, .bwk] (m.adoptView q).judgeMode.syncRoles := by
  obtain ⟨r, hview⟩ := m.adoptView_only q
  have hrest : (m.adoptView q).onlyParts [.lnk, .flt] (m.adoptView q).judgeMode.syncRoles :=
    Mod.onlyParts_trans (Mod.onlyParts_mono (Mod.judgeMode_parts _) (by simp)) (Mod.syncRoles_parts _)
  have hrejoin : (m.adoptView q).roles = { m.roles with rejoin := r } := hview .roles (by simp)
  have hlist : (m.adoptView q).roles.peers = m.roles.peers := by rw [hrejoin]
  refine ⟨(congrArg RoleS.peers (hrest .roles (by simp))).trans hlist, ?_⟩
  exact Mod.onlyParts_trans (Mod.only_roles m { m.roles with rejoin := r } [] (by simp)).1
    (Mod.onlyParts_trans (Mod.onlyParts_mono hview (by simp)) (Mod.onlyParts_mono hrest (by simp)))

/-- A heartbeat of another position is shown by its peer, and touches only what follows from it. -/
theorem Does.heartbeatHeard {s : State} {west : Bool} {b : List Byte} (hon : s.on) (htype : b.getD 0 0 = 0x57)
    (hother : (b.getD 1 0).toNat ≠ s.m.pos) (h9 : (b.getD 1 0).toNat ≤ 9) (hstrap : s.m.get R.MOD_STRAP_STRAP_ERR = 0) :
    Does (.heartbeatReceive west b) s fun t => ∃ q, t.m.peer (b.getD 1 0).toNat = some q ∧ q.healthy = bit (b.getD 2 0).toNat 0 ∧
      q.eligible = bit (b.getD 2 0).toNat 1 ∧ q.addr = ((b.getD 6 0).toNat + 256 * (b.getD 7 0).toNat) % 16384 ∧
      (if west then q.westT else q.eastT) = some s.m.time.ticks ∧ s.m.onlyParts [.roles, .lnk, .flt, .pwr, .bwk] t.m := by
  obtain ⟨q, hpeer, hhealthy, helig, haddr, htime, hexec⟩ := exec_heartbeatReceive (west := west) hon htype hother h9 hstrap
  obtain ⟨hsame, hparts⟩ := Mod.adoptAll_parts (s.m.heardFrom west (natBytes b)) q
  refine ⟨_, hexec, q, ?_, hhealthy, helig, haddr, htime,
    Mod.onlyParts_trans (Mod.onlyParts_mono (Mod.heardFrom_parts s.m west _) (by simp)) hparts⟩
  unfold Mod.peer at hpeer ⊢
  rw [hsame]
  exact hpeer

/-! ## The module's own position, and a lost peer (R22, R42) -/

/-- A heartbeat with the module's own position sets POS_CONFLICT and raises ROLE_CONFLICT (R22). -/
theorem Does.positionConflict {s : State} {west : Bool} {b : List Byte} (hon : s.on) (htype : b.getD 0 0 = 0x57)
    (hown : (b.getD 1 0).toNat = s.m.pos) (h9 : s.m.pos ≤ 9) (hc : s.m.condOn 1 0 1 s.m.pos = false) (ht : s.m.takes 1 0) :
    Does (.heartbeatReceive west b) s fun t => t.m.get R.MOD_ROLE_STAT_POS_CONFLICT = 1 ∧
      t.m.tells { blk := 1, inst := 0, kind := 1, addr := s.m.pos, cls := 1, ind := .start } ∧
      s.frame [.lnk, .flt] (R.MOD_ROLE_STAT_POS_CONFLICT :: repFlds 1) t := by
  have hpos : (natBytes b).getD 1 0 = (s.m.takeInbox 1 (natBytes b)).pos := by rw [getD_natBytes]; exact hown
  have hexec : exec (.heartbeatReceive west b) s =
      .next { s with m := ((s.m.takeInbox 1 (natBytes b)).put R.MOD_ROLE_STAT_POS_CONFLICT 1).condStart 1 0 1 s.m.pos 1 } := by
    rw [show exec (.heartbeatReceive west b) s = execHeartbeatReceive west b s from rfl, execHeartbeatReceive, onMod, if_neg hon]
    simp only
    rw [if_neg (heartbeat_form htype (hown ▸ h9)), if_pos hpos]
    rfl
  have told := Mod.condStart_only ((s.m.takeInbox 1 (natBytes b)).put R.MOD_ROLE_STAT_POS_CONFLICT 1) 1 0 1 s.m.pos 1
  refine ⟨_, hexec, ?_, ?_, State.frame_of_only (Mod.only_trans ?_ (Mod.only_mono told (by simp) (fun _ h => List.mem_cons_of_mem _ h)))⟩
  · exact (Mod.only_get told _ (Fld.apart_of_all (by decide))).trans (Mod.get_put_same _ _ 1 (by decide))
  · exact Mod.condStart_tells 1 0 1 s.m.pos 1 (Mod.takes_put _ 1 (.inl (by decide)) ht) hc
  · exact Mod.only_trans (Mod.only_mono (Mod.takeInbox_only s.m 1 _) (by simp) (by simp)) (Mod.only_put _ _ 1 _ List.mem_cons_self)

theorem bit_eq_testBit (v i : Nat) : bit v i = v.testBit i := (Nat.testBit_eq_decide_div_mod_eq).symm

theorem ofBits_succ (n : Nat) (f : Nat → Bool) : ofBits (n + 1) f = 2 ^ n * b2n (f n) + ofBits n f := by
  unfold ofBits
  rw [List.range_succ, List.foldl_append, List.foldl_cons, List.foldl_nil, Nat.mul_comm, Nat.add_comm]

theorem b2n_le (b : Bool) : b2n b ≤ 1 := by cases b <;> decide

theorem ofBits_lt (n : Nat) (f : Nat → Bool) : ofBits n f < 2 ^ n := by
  induction n with
  | zero => exact Nat.one_pos
  | succ n ih =>
    have := Nat.mul_le_mul_left (2 ^ n) (b2n_le (f n))
    rw [ofBits_succ, Nat.pow_succ]
    omega

/-- A bit of a word made from bits is the bit it was made from. -/
theorem bit_ofBits (n i : Nat) (f : Nat → Bool) (h : i < n) : bit (ofBits n f) i = f i := by
  rw [bit_eq_testBit]
  induction n with
  | zero => exact absurd h (Nat.not_lt_zero i)
  | succ n ih =>
    rw [ofBits_succ, Nat.testBit_two_pow_mul_add _ (ofBits_lt n f)]
    split
    next hlt => exact ih hlt
    next hge =>
      obtain rfl : i = n := by omega
      rw [Nat.sub_self]
      cases f i <;> rfl

/-- A peer taken out of the list is no longer shown in PEERS. -/
theorem Mod.peersMask_without {m : Mod} {p : Nat} (h : m.peer p = none) (hp : p < 10) (hn : p ≠ m.pos) : bit m.peersMask p = false := by
  have hnone : m.roles.peers.any (fun q => q.pos == p && q.healthy) = false := by
    rw [List.any_eq_false]
    intro q hq
    have := List.find?_eq_none.mp h q hq
    simp_all
  rw [Mod.peersMask, bit_ofBits 10 p _ hp, hnone]
  simp [hn]

/-- The peer of a position is gone once it is taken out of the list, and its ROLE record is on its way to the log (R42). -/
theorem Mod.dropPeer_peer (m : Mod) (p : Nat) : (m.dropPeer p).peer p = none := by
  unfold Mod.dropPeer
  split
  · exact Mod.peer_filter_ne m p
  next h => simpa using h

theorem Mod.dropPeer_only (m : Mod) (p : Nat) : m.only [.roles, .log] [] (m.dropPeer p) := by
  unfold Mod.dropPeer
  split
  · exact Mod.only_trans (Mod.only_roles m _ _ (by simp)) (Mod.log1_frame _ _ _ _ _ [] (by simp))
  · exact Mod.only_refl m _ _

theorem Mod.dropPeer_logs {m : Mod} {p : Nat} (h : (m.peer p).isSome = true) : (m.dropPeer p).logs 5 1 := by
  unfold Mod.dropPeer
  rw [if_pos h]
  exact Mod.log1_logs _ 5 1 _ _

theorem Mod.dropPeer_syncRoles (m : Mod) {p : Nat} (hp : p < 10) (hn : p ≠ m.pos) (h : (m.peer p).isSome = true) :
    (m.dropPeer p).syncRoles.peer p = none ∧ bit ((m.dropPeer p).syncRoles.get R.MOD_ROLE_STAT_PEERS) p = false ∧
      (m.dropPeer p).syncRoles.logs 5 1 ∧ m.onlyParts [.roles, .lnk, .flt, .log] (m.dropPeer p).syncRoles := by
  have hsync := Mod.syncRoles_parts (m.dropPeer p)
  have hroles : (m.dropPeer p).syncRoles.roles = (m.dropPeer p).roles := hsync .roles (by simp)
  have hlog : (m.dropPeer p).syncRoles.log = (m.dropPeer p).log := hsync .log (by simp)
  have hnone := m.dropPeer_peer p
  have hpos : (m.dropPeer p).pos = m.pos := Mod.only_get (m.dropPeer_only p) _ (by simp)
  refine ⟨?_, ?_, ?_, Mod.onlyParts_trans (Mod.onlyParts_mono (m.dropPeer_only p).1 (by simp)) (Mod.onlyParts_mono hsync (by simp))⟩
  · unfold Mod.peer at hnone ⊢
    rw [hroles]
    exact hnone
  · rw [Mod.syncRoles_peers, bit_eq_testBit, Nat.testBit_mod_two_pow, ← bit_eq_testBit,
      Mod.peersMask_without hnone hp (by rw [hpos]; exact hn), Bool.and_false]
  · unfold Mod.logs
    rw [hlog]
    exact Mod.dropPeer_logs h

theorem exec_peerLost (p : Fin 10) (s : State) : exec (.peerLost p) s =
    onMod (fun m => if ((m.peer p).map m.peerSilent).getD false then (m.dropPeer p).syncRoles else m) s := rfl

/-- Settles O19: a heartbeat is sent by both ports, one that comes in is judged by the position it names, a peer is lost after its silence. -/
theorem heartbeats : Obligations.Heartbeats := by
  unfold Obligations.Heartbeats
  refine ⟨fun s hon h0 h1 => ?sent, fun s w b hon h57 hp h9 hc ht => Does.positionConflict hon h57 hp h9 hc ht,
    fun s b hon _ h57 hp h9 he => ?heardEast, fun s p hon hp hs => ?lost, fun s p hon hs => ?notLost, fun s b hon _ h57 hp h9 he => ?heardWest⟩
  case sent =>
    obtain ⟨east, west⟩ := s.m.sendRing_ports 1 s.m.heartBody h0 h1
    exact Does.ofMod (f := fun m => m.sendRing 1 m.heartBody) rfl hon ⟨east, west, s.m.sendRing_mseq 1 _,
      State.frame_of_only (Mod.sendRing_frame s.m 1 _ [] (by simp))⟩
  case heardEast =>
    obtain ⟨t, hexec, q, hpeer, hhealthy, -, haddr, htime, hparts⟩ := Does.heartbeatHeard (west := false) hon h57 hp h9 he
    refine ⟨t, hexec, ?_, hparts⟩
    rw [hpeer, ← hhealthy, ← haddr, ← htime]
    rfl
  case lost =>
    obtain ⟨hnone, hbit, hlog, hparts⟩ := Mod.dropPeer_syncRoles (s.m) p.isLt hp (by
      cases h : s.m.peer p with
      | none => rw [h] at hs; exact absurd hs (by simp)
      | some q => rfl)
    exact Does.ofMod (exec_peerLost p s) hon (by rw [if_pos (by rw [hs]; rfl)]; exact ⟨hnone, hbit, hlog, hparts⟩)
  case notLost =>
    have heard : ¬ ((s.m.peer p).map s.m.peerSilent).getD false = true := by
      cases h : s.m.peer p with
      | none => simp
      | some q => rw [h] at hs; simpa using hs
    exact Does.ofMod (exec_peerLost p s) hon (by rw [if_neg heard])
  case heardWest =>
    obtain ⟨t, hexec, q, hpeer, -, helig, -, htime, -⟩ := Does.heartbeatHeard (west := true) hon h57 hp h9 he
    refine ⟨t, hexec, ?_⟩
    simp only
    rw [hpeer, ← helig, ← htime]
    rfl

end Sys2Proof.Machine
end

section
/-!
PROOFS. The mirror and the shares (R27, R28, R40, R55, R59): the statement MirrorAndShares.
-/
namespace Sys2Proof.Machine

/-! ## A unicast of the lead (R27, R285) -/

theorem Mod.sendLink_mseq (m : Mod) (l : Nat) (g : Msg) : (m.sendLink l g).lnk.mseq = m.lnk.mseq := by
  unfold Mod.sendLink Mod.ringUnicast
  repeat' split
  all_goals rfl

theorem Mod.ringUnicast_mseq (m : Mod) (p : Nat) (g : Msg) : (m.ringUnicast p g).lnk.mseq = m.lnk.mseq := by
  unfold Mod.ringUnicast
  split <;> rfl

/-- A message without a route: counted, reported once a second, its event bit set. -/
theorem Mod.noRoute_parts (m : Mod) (a : Nat) :
    m.onlyParts [.flt] (((m.bump R.LNK_NOROUTE_CNT_COUNT).raiseLim tickS 13 7 0x09 a 0).put ⟨0xD0F0, 8, 1⟩ 1) := by
  have counted : m.only [.flt] (cntFlds R.LNK_NOROUTE_CNT_COUNT.addr) (m.bump R.LNK_NOROUTE_CNT_COUNT) :=
    Mod.bumpBy_frame m _ 1 (by simp) (fun _ h => h)
  exact Mod.onlyParts_trans counted.1 (Mod.onlyParts_trans (Mod.raiseLim_only _ tickS 13 7 0x09 a 0).1 (Mod.onlyParts_put _ _ 1 _))

/-- A routed message changes links and collector only, and counts no MSEQ. -/
theorem Mod.routeUnicast_parts (m : Mod) (g : Msg) :
    m.onlyParts [.lnk, .flt] (m.routeUnicast g) ∧ (m.routeUnicast g).lnk.mseq = m.lnk.mseq := by
  have ring (p : Nat) : m.onlyParts [.lnk, .flt] (m.ringUnicast p g) := (Mod.ringUnicast_frame m p g [] (by simp)).1
  have link (l : Nat) : m.onlyParts [.lnk, .flt] (m.sendLink l g) := Mod.onlyParts_mono (m.sendLink_only l g).1 (by simp)
  unfold Mod.routeUnicast
  split
  · exact ⟨ring _, m.ringUnicast_mseq _ g⟩
  · split
    · extract_lets l held
      split
      · exact ⟨(Mod.only_lnk m _ [] (by simp)).1, rfl⟩
      split
      · exact ⟨link _, m.sendLink_mseq _ g⟩
      split
      · exact ⟨link _, m.sendLink_mseq _ g⟩
      split
      · have lost := m.noRoute_parts g.dst
        exact ⟨Mod.onlyParts_mono lost (by simp), congrArg LnkS.mseq (lost .lnk (by simp))⟩
      · exact ⟨Mod.onlyParts_refl m _, rfl⟩
    · exact ⟨ring _, m.ringUnicast_mseq _ g⟩

theorem Mod.sendUnicast_parts (m : Mod) (c dst : Nat) (body : List Nat) :
    m.onlyParts [.lnk, .flt] (m.sendUnicast c dst body) ∧
      Sparse.get (fun _ => 0) (m.sendUnicast c dst body).lnk.mseq c = (Sparse.get (fun _ => 0) m.lnk.mseq c + 1) % 65536 := by
  obtain ⟨hparts, hmseq⟩ := (m.nextMseq c).2.routeUnicast_parts
    { chan := c, scope := .unicast, dst := dst, src := m.addr, mseq := (m.nextMseq c).1, body := body }
  exact ⟨Mod.onlyParts_trans (Mod.onlyParts_mono (m.nextMseq_only c).1 (by simp)) hparts,
    (congrArg (fun x => Sparse.get (fun _ => 0) x c) hmseq).trans (Mod.mseq_nextMseq m c)⟩

/-! ## A SHARE acts on a shelf (R55, R56, R60) -/

theorem Mod.only_plan_bwk (m : Mod) (x : PlanS) (y : BwkS) {ps : List Part} (fs : List Fld) (hx : Part.plan ∈ ps) (hy : Part.bwk ∈ ps) :
    m.only ps fs { m with plan := x, bwk := y } :=
  Mod.only_trans (Mod.only_plan m x fs hx) (Mod.only_bwk { m with plan := x } y fs hy)

/-- A rack cap that arrives changes of the breakwater the waiting cap and the breach alone. -/
theorem Mod.takeRackCap_bwk (m : Mod) (c : Nat) :
    ∃ w br, (m.takeRackCap c).bwk = { m.bwk with rackWait := w, breach := br } := by
  have ended (a : Mod) : ∃ br, a.endBreach.bwk = { a.bwk with breach := br } := by
    unfold Mod.endBreach
    split
    · exact ⟨false, (Mod.condEnd_only _ 6 2 5 0 1).1 .bwk (by simp)⟩
    · exact ⟨a.bwk.breach, rfl⟩
  unfold Mod.takeRackCap
  split
  · exact ⟨some c, m.bwk.breach, rfl⟩
  · unfold Mod.acceptRackCap
    split
    · exact ⟨m.bwk.rackWait, m.bwk.breach, rfl⟩
    · obtain ⟨br, h⟩ := ended (m.put R.BWK_CAP_RACK_CAP c)
      exact ⟨m.bwk.rackWait, br, h⟩

theorem Mod.takeRackCap_only (m : Mod) (c : Nat) : m.only [.bwk, .flt] capFlds (m.takeRackCap c) := by
  unfold Mod.takeRackCap
  split
  · exact Mod.only_bwk m _ _ (by simp)
  · exact m.acceptRackCap_only c

/-- A SHARE is kept, and with another source than RACK that is all. -/
theorem Mod.takeShare_kept {m : Mod} (b : List Nat) (h : m.planSrc ≠ 2) :
    m.takeShare b = { m with plan.share := b, bwk.shareTick := m.time.ticks } := by
  unfold Mod.takeShare
  exact if_neg h

/-- The own entry of a SHARE in RACK source: the target, the share shown, the end of its silence. -/
def Mod.shareShown (m : Mod) (b : List Nat) : Mod :=
  (({ m with plan.share := b,
             bwk := { m.bwk with shareTick := m.time.ticks, tgt := some ((sext 16 (le b (16 + 4 * m.pos) 2) : Rat) / 10) } }).put
    R.BWK_SHARE_SHARE (le b (16 + 4 * m.pos) 2)).checkOff 0x0202

/-- In RACK source a SHARE sets the target and the cap and ends HOLD. -/
theorem Mod.takeShare_rack {m : Mod} (b : List Nat) (h : m.planSrc = 2) :
    m.takeShare b = ((m.shareShown b).takeRackCap (le b (16 + 4 * m.pos + 2) 2)).endHold := by
  unfold Mod.takeShare
  exact if_pos h

theorem Mod.shareShown_only (m : Mod) (b : List Nat) : m.only [.plan, .bwk, .pwr] [R.BWK_SHARE_SHARE] (m.shareShown b) := by
  unfold Mod.shareShown
  exact Mod.only_trans (Mod.only_plan_bwk m _ _ _ (by simp) (by simp))
    (Mod.only_trans (Mod.only_put _ R.BWK_SHARE_SHARE _ _ (by simp)) (Mod.only_pwr _ _ _ (by simp)))

/-- Outside an election HOLD ends (Table 02-4). -/
theorem Mod.endHold_hold {m : Mod} (h : m.get R.MOD_ROLE_STAT_ELECTING = 0) : m.endHold.get R.BWK_DP_STAT_HOLD = 0 := by
  unfold Mod.endHold
  rw [if_neg (by rw [Mod.is, h]; decide)]
  exact (Mod.only_get (Mod.syncDp_only _) _ (Fld.apart_of_all (by decide))).trans (Mod.get_put_same m _ 0 (by decide))

/-- What the cap and the end of HOLD leave of a SHARE's effect. -/
theorem Mod.shareEnd_only (m : Mod) (c : Nat) : m.only [.bwk, .flt] (capFlds ++ holdFlds) ((m.takeRackCap c).endHold) :=
  Mod.only_trans (Mod.only_mono (m.takeRackCap_only c) (fun _ h => h) (fun _ h => List.mem_append_left _ h))
    (Mod.only_mono (Mod.endHold_only _) (by simp) (fun _ h => List.mem_append_right _ h))

theorem Mod.takeShare_parts (m : Mod) (b : List Nat) :
    m.onlyParts [.plan, .bwk, .pwr, .flt] (m.takeShare b) ∧ (m.takeShare b).plan = { m.plan with share := b } := by
  by_cases h : m.planSrc = 2
  · rw [Mod.takeShare_rack b h]
    have hend := ((m.shareShown b).shareEnd_only (le b (16 + 4 * m.pos + 2) 2)).1
    exact ⟨Mod.onlyParts_trans (Mod.onlyParts_mono (m.shareShown_only b).1 (by simp)) (Mod.onlyParts_mono hend (by simp)),
      hend .plan (by simp)⟩
  · rw [Mod.takeShare_kept b h]
    exact ⟨(Mod.only_plan_bwk m _ _ [] (by simp) (by simp)).1, rfl⟩

/-! ## The lead's shares (R27, R55) -/

/-- The lead keeps and sends its plan's shares once, and takes its own. -/
theorem Mod.sendShares_does (m : Mod) :
    m.sendShares.plan.share = m.shareMsg.1 ∧ m.sendShares.plan.pRack = m.shareMsg.2.1 ∧ m.sendShares.plan.cRack = m.shareMsg.2.2 ∧
      Sparse.get (fun _ => 0) m.sendShares.lnk.mseq 4 = (Sparse.get (fun _ => 0) m.lnk.mseq 4 + 1) % 65536 ∧
      m.onlyParts [.plan, .lnk, .bwk, .pwr, .flt] m.sendShares := by
  let planned : Mod := { m with plan.pRack := m.shareMsg.2.1, plan.cRack := m.shareMsg.2.2 }
  have sent := (Mod.sendRing_frame planned 4 m.shareMsg.1 (ps := [.lnk]) [] (by simp)).1
  obtain ⟨taken, hplan⟩ := (planned.sendRing 4 m.shareMsg.1).takeShare_parts m.shareMsg.1
  have hsent : (planned.sendRing 4 m.shareMsg.1).plan = planned.plan := sent .plan (by simp)
  have hlnk : m.sendShares.lnk = (planned.sendRing 4 m.shareMsg.1).lnk := taken .lnk (by simp)
  have hall : m.sendShares.plan = { planned.plan with share := m.shareMsg.1 } := by
    rw [← hsent]
    exact hplan
  refine ⟨congrArg PlanS.share hall, congrArg PlanS.pRack hall, congrArg PlanS.cRack hall, ?_, ?_⟩
  · rw [hlnk]
    exact planned.sendRing_mseq 4 _
  · exact Mod.onlyParts_trans (Mod.only_plan m _ [] (by simp)).1
      (Mod.onlyParts_trans (Mod.onlyParts_mono sent (by simp)) (Mod.onlyParts_mono taken (by simp)))

/-- Both the periodic send and the re-plan send the shares, unless an election runs (R28). -/
theorem exec_share {c : Instr} (hc : c = .shareSend ∨ c = .shareReplan) (s : State) :
    exec c s = onMod (fun m => if m.serves && !m.is R.MOD_ROLE_STAT_ELECTING then m.sendShares else m) s := by
  rcases hc with rfl | rfl
  · rfl
  · rfl

/-! ## The commands -/

/-- The bytes that MIRROR_SEND carries (R27): the last SHARE, the plan in use, the rack's power and caps. -/
def mirrorBody (m : Mod) : List Nat :=
  [0x55] ++ zeros 7 ++ pad 56 m.plan.share ++ m.planBytes ++ leBytes 2 (enc 16 m.plan.pRack) ++ leBytes 2 m.plan.cRack ++
    leBytes 2 (rna (m.guaranteed * 10)).toNat ++ zeros 10

theorem exec_mirrorSend (s : State) : exec .mirrorSend s = onMod (fun m =>
    if m.isLead && m.service then
      match m.peer (m.get R.MOD_ROLE_STAT_DEPUTY_POS) with
      | none => m
      | some d => m.sendUnicast 4 d.addr (mirrorBody m)
    else m) s := rfl

/-- The deputy keeps a MIRROR message of full length (R27). -/
theorem exec_mirrorReceive {s : State} {b : List Byte} (hon : s.on) (hl : b.length = 128) (htype : b.getD 0 0 = 0x55) (hr : s.m.role = 2) :
    exec (.mirrorReceive b) s = .next { s with m := { s.m.takeInbox 4 (natBytes b) with plan.mirror := natBytes b } } := by
  have hrole : (s.m.takeInbox 4 (natBytes b)).role = 2 := hr
  have hform : (decide ((natBytes b).getD 0 0 = 0x55) && (natBytes b).length == 128 && (s.m.takeInbox 4 (natBytes b)).role == 2) = true := by
    rw [getD_natBytes, htype, length_natBytes, hl, hrole]
    rfl
  rw [show exec (.mirrorReceive b) s = execMirrorReceive b s from rfl, execMirrorReceive, onMod, if_neg hon]
  simp only
  rw [if_pos hform]

/-- A SHARE that comes in acts as `takeShare` once it is out of the inbox. -/
theorem exec_shareReceive {s : State} {b : List Byte} (hon : s.on) (hl : b.length = 56) (htype : b.getD 0 0 = 0x54) :
    exec (.shareReceive b) s = .next { s with m := (s.m.takeInbox 4 (natBytes b)).takeShare (natBytes b) } := by
  have hform : (decide ((natBytes b).getD 0 0 = 0x54) && (natBytes b).length == 56) = true := by
    rw [getD_natBytes, htype, length_natBytes, hl]
    rfl
  rw [show exec (.shareReceive b) s = execShareReceive b s from rfl, execShareReceive, onMod, if_neg hon]
  simp only
  rw [if_pos hform]

/-- In RACK source the own entry of a SHARE sets the target and is shown, and HOLD ends (R55, R56). -/
theorem Does.shareTaken {s : State} {b : List Byte} (hon : s.on) (hl : b.length = 56) (htype : b.getD 0 0 = 0x54)
    (hsrc : s.m.planSrc = 2) (he : s.m.get R.MOD_ROLE_STAT_ELECTING = 0) :
    Does (.shareReceive b) s fun t =>
      t.m.bwk.tgt = some ((sext 16 ((b.getD (16 + 4 * s.m.pos) 0).toNat + 256 * (b.getD (17 + 4 * s.m.pos) 0).toNat) : Rat) / 10) ∧
      t.m.get R.BWK_SHARE_SHARE = (b.getD (16 + 4 * s.m.pos) 0).toNat + 256 * (b.getD (17 + 4 * s.m.pos) 0).toNat ∧
      t.m.get R.BWK_DP_STAT_HOLD = 0 ∧ t.m.bwk.pdp = s.m.bwk.pdp ∧ t.m.plan.share = natBytes b := by
  have hle : le (natBytes b) (16 + 4 * s.m.pos) 2 =
      (b.getD (16 + 4 * s.m.pos) 0).toNat + 256 * (b.getD (17 + 4 * s.m.pos) 0).toNat := by
    rw [le_natBytes_two, show 16 + 4 * s.m.pos + 1 = 17 + 4 * s.m.pos by omega]
  have hlt : le (natBytes b) (16 + 4 * s.m.pos) 2 < 65536 := by
    have h0 := (b.getD (16 + 4 * s.m.pos) 0).isLt
    have h1 := (b.getD (17 + 4 * s.m.pos) 0).isLt
    rw [hle]
    omega
  let got : Mod := s.m.takeInbox 4 (natBytes b)
  let shown : Mod := got.shareShown (natBytes b)
  let capped : Mod := shown.takeRackCap (le (natBytes b) (16 + 4 * s.m.pos + 2) 2)
  have hexec : exec (.shareReceive b) s = .next { s with m := capped.endHold } := by
    rw [exec_shareReceive hon hl htype, Mod.takeShare_rack (m := got) _ hsrc]
    rfl
  have hend : shown.only [.bwk, .flt] (capFlds ++ holdFlds) capped.endHold := shown.shareEnd_only _
  have hbwk : ∃ w br, capped.endHold.bwk = { shown.bwk with rackWait := w, breach := br } := by
    obtain ⟨w, br, h⟩ := shown.takeRackCap_bwk (le (natBytes b) (16 + 4 * s.m.pos + 2) 2)
    exact ⟨w, br, (capped.endHold_only.1 .bwk (by simp)).trans h⟩
  obtain ⟨w, br, hbwk⟩ := hbwk
  have hidle : capped.get R.MOD_ROLE_STAT_ELECTING = 0 :=
    (Mod.only_get (shown.takeRackCap_only _) _ (Fld.apart_of_all (by decide))).trans
      ((Mod.only_get (got.shareShown_only _) _ (Fld.apart_of_all (by decide))).trans he)
  have hshare : shown.get R.BWK_SHARE_SHARE = le (natBytes b) (16 + 4 * s.m.pos) 2 :=
    (Mod.get_put_same _ R.BWK_SHARE_SHARE _ (by decide)).trans (Nat.mod_eq_of_lt hlt)
  refine ⟨_, hexec, ?_⟩
  rw [← hle]
  refine ⟨congrArg BwkS.tgt hbwk, (Mod.only_get hend _ (Fld.apart_of_all (by decide))).trans hshare, Mod.endHold_hold hidle,
    (congrArg BwkS.pdp hbwk).trans (show shown.bwk.pdp = s.m.bwk.pdp from rfl), congrArg PlanS.share (hend.1 .plan (by simp))⟩

/-- Settles O21: the lead mirrors its state and sends its plan's shares, the deputy keeps the one and a shelf takes the other. -/
theorem mirrorAndShares : Obligations.MirrorAndShares := by
  unfold Obligations.MirrorAndShares
  refine ⟨fun s d hon hl hs hd _ => ?mirrorSent, fun s b hon hl h55 hr => ?mirrorKept,
    fun c s hc hon hv => ⟨fun he => ?sharesSent, fun he => ?sharesStay⟩, fun s b hon hl h54 hsrc _ he => Does.shareTaken hon hl h54 hsrc he, fun s b hon hl h54 hsrc => ?shareKept⟩
  case mirrorSent =>
    refine Does.ofMod (exec_mirrorSend s) hon ?_
    rw [if_pos (by rw [hl, hs]; rfl), hd]
    obtain ⟨hparts, hmseq⟩ := s.m.sendUnicast_parts 4 d.addr (mirrorBody s.m)
    exact ⟨hmseq, hparts, rfl, rfl⟩
  case mirrorKept =>
    refine ⟨_, exec_mirrorReceive hon hl h55 hr, rfl, rfl, State.frame_of_only ?_⟩
    exact Mod.only_trans (Mod.only_mono (s.m.takeInbox_only 4 (natBytes b)) (by simp) (by simp)) (Mod.only_plan _ _ [] (by simp))
  case sharesSent =>
    refine Does.ofMod (exec_share hc s) hon ?_
    rw [if_pos (by rw [hv, Mod.is, he]; rfl)]
    exact s.m.sendShares_does
  case sharesStay =>
    refine Does.ofMod (exec_share hc s) hon ?_
    rw [if_neg (by rw [hv, Mod.is, he]; decide)]
  case shareKept =>
    refine ⟨_, exec_shareReceive hon hl h54, ?_⟩
    rw [Mod.takeShare_kept (m := s.m.takeInbox 4 (natBytes b)) _ hsrc]
    exact ⟨rfl, rfl, State.frame_of_only (Mod.only_trans (Mod.only_mono (s.m.takeInbox_only 4 (natBytes b)) (by simp) (by simp))
      (Mod.only_plan_bwk _ _ _ _ (by simp) (by simp)))⟩

end Sys2Proof.Machine
end

section
/-!
PROOFS. Silence of host and lead, TELEM and the rack report (R37, R39, R47, R67): the statement SilenceAndTelemetry.
-/
namespace Sys2Proof.Machine

/-! ## Checks and HOLD (R415, R418) -/

/-- A check that sets no PMBus status bit changes the checks and sends its record to the log. -/
theorem Mod.checkOn_only (m : Mod) {code : Nat} (addr : Nat) (value limit : Int) (h1 : code ≠ 0x0101) (h3 : code ≠ 0x0301) :
    m.only [.pwr, .log] [] (m.checkOn code addr value limit) := by
  have hpmb (a : Mod) : a.pmbCheck code addr limit = a := by
    unfold Mod.pmbCheck
    rw [if_neg h1, if_neg h3]
  unfold Mod.checkOn
  rw [hpmb]
  split
  · exact Mod.only_refl m _ _
  · exact Mod.only_trans (Mod.log1_frame m 0x02 code _ true [] (by simp)) (Mod.only_pwr _ _ [] (by simp))

theorem Mod.checkOn_active (m : Mod) (code addr : Nat) (value limit : Int) : (m.checkOn code addr value limit).checkActive code = true := by
  unfold Mod.checkOn Mod.checkActive
  split
  next h =>
    obtain ⟨c, hc, hcode⟩ := List.any_eq_true.mp h
    exact List.any_eq_true.mpr ⟨c, hc, (Bool.and_eq_true _ _ ▸ hcode).1⟩
  next =>
    exact List.any_eq_true.mpr ⟨⟨code, addr, value, limit⟩, List.mem_append_right _ (List.mem_singleton_self _), beq_self_eq_true code⟩

theorem Mod.enterHold_hold {m : Mod} (hr : m.inRun = true) : m.enterHold.get R.BWK_DP_STAT_HOLD = 1 := by
  unfold Mod.enterHold
  rw [if_pos hr]
  exact (Mod.only_get (Mod.syncDp_only _) _ (Fld.apart_of_all (by decide))).trans (Mod.get_put_same m _ 1 (by decide))

theorem Mod.enterHold_pstate (m : Mod) : m.enterHold.pstate = m.pstate :=
  Mod.only_get m.enterHold_only _ (Fld.apart_of_all (by decide))

/-- A silence check and the HOLD it may bring, in RUN. -/
theorem Mod.silence {m : Mod} {code : Nat} (addr : Nat) (value limit : Int) (hold : Bool) (hp : m.pstate = 3) (h1 : code ≠ 0x0101)
    (h3 : code ≠ 0x0301) :
    let t := if hold then (m.checkOn code addr value limit).enterHold else m.checkOn code addr value limit
    t.checkActive code = true ∧ t.pstate = 3 ∧ (hold = true → t.get R.BWK_DP_STAT_HOLD = 1) ∧ m.only [.pwr, .log] holdFlds t := by
  have hon := m.checkOn_only addr value limit h1 h3
  have hactive := m.checkOn_active code addr value limit
  have hstate : (m.checkOn code addr value limit).pstate = 3 := (Mod.only_get hon _ (by simp)).trans hp
  cases hold with
  | false => exact ⟨hactive, hstate, by simp, Mod.only_mono hon (fun _ h => h) (by simp)⟩
  | true =>
    have held := (m.checkOn code addr value limit).enterHold_only
    have hpwr : (m.checkOn code addr value limit).enterHold.pwr = (m.checkOn code addr value limit).pwr := held.1 .pwr (by simp)
    refine ⟨?_, (Mod.enterHold_pstate _).trans hstate, fun _ => Mod.enterHold_hold (by rw [Mod.inRun, hstate]; rfl),
      Mod.only_trans (Mod.only_mono hon (fun _ h => h) (by simp)) (Mod.only_mono held (by simp) (fun _ h => h))⟩
    unfold Mod.checkActive at hactive ⊢
    rw [if_pos rfl, hpwr]
    exact hactive

/-- The host's silence, where it is judged (R37). -/
theorem exec_hostSilenceTimeout {s : State} (hs : s.m.hostSilent = true) (hl : s.m.isLead = true ∨ s.m.planSrc = 1) (hon : s.on) :
    ∃ v : Int, exec .hostSilenceTimeout s = .next { s with m :=
      if (s.m.planSrc == 1) = true then (s.m.checkOn 0x0201 0 v v).enterHold else s.m.checkOn 0x0201 0 v v } := by
  have hsrc : ∀ v : Int, (s.m.checkOn 0x0201 0 v v).planSrc = s.m.planSrc := by
    intro v
    have h := Mod.only_get (s.m.checkOn_only (code := 0x0201) 0 v v (by decide) (by decide)) R.BWK_CFG_SRC (by simp)
    unfold Mod.planSrc
    rw [h]
  have hjudged : (s.m.isLead || s.m.planSrc == 1) = true := by simpa using hl
  rw [show exec .hostSilenceTimeout s = execHostSilenceTimeout s from rfl, execHostSilenceTimeout, onMod, if_neg hon]
  simp only [hs, if_true, hjudged, hsrc, beq_iff_eq]
  exact ⟨_, rfl⟩

/-! ## TELEM (R47, R67) -/

@[simp] theorem length_leBytes (n v : Nat) : (leBytes n v).length = n := by
  induction n generalizing v with
  | zero => rfl
  | succ n ih => simp [leBytes, ih]

/-- TELEM is a ring broadcast of channel 5 with 34 bytes, its type and the position first (Table 09-10). -/
theorem exec_telemSend {s : State} (hon : s.on) : ∃ body : List Nat, body.length = 34 ∧ body.take 2 = [0x56, s.m.pos] ∧
    exec .telemSend s = .next { s with m := s.m.sendRing 5 body } := by
  rw [show exec .telemSend s = execTelemSend s from rfl, execTelemSend, onMod, if_neg hon]
  refine ⟨_, ?_, ?_, rfl⟩
  · simp
  · rfl

theorem Mod.judgeDroop_only (m : Mod) : m.only [.flt] (R.BWK_DP_STAT_DROOP_MISMATCH :: repFlds 6) m.judgeDroop := by
  unfold Mod.judgeDroop
  extract_lets bad
  have told := (Mod.condSet_frame (m.flag R.BWK_DP_STAT_DROOP_MISMATCH bad) bad 6 2 9 0 0 fun _ h => h).symm
  exact Mod.only_trans (Mod.only_put m _ _ _ List.mem_cons_self) (Mod.only_mono told (fun _ h => h) (fun _ h => List.mem_cons_of_mem _ h))

theorem Mod.only_roles_bwk (m : Mod) (x : RoleS) (y : BwkS) {ps : List Part} (fs : List Fld) (hx : Part.roles ∈ ps)
    (hy : Part.bwk ∈ ps) : m.only ps fs { m with roles := x, bwk := y } :=
  Mod.only_trans (Mod.only_roles m x fs hx) (Mod.only_bwk { m with roles := x } y fs hy)

/-- TELEM of full length is kept with its peer and its deviation counts. -/
theorem exec_telemReceive {s : State} {b : List Byte} (hon : s.on) (hl : b.length = 34) (htype : b.getD 0 0 = 0x56) :
    exec (.telemReceive b) s = .next { s with m := Mod.judgeDroop { s.m.takeInbox 5 (natBytes b) with
      roles.peers := s.m.roles.peers.map (fun (q : Peer) => if q.pos == (b.getD 1 0).toNat then { q with telem := natBytes b } else q),
      bwk.worst := worseDev s.m.bwk.worst (b.getD 1 0).toNat ((sext 16 (le (natBytes b) 22 2) : Rat) / 10) } } := by
  have hform : ¬ ((natBytes b).getD 0 0 != 0x56 || (natBytes b).length != 34) = true := by
    rw [getD_natBytes, htype, length_natBytes, hl]
    decide
  rw [show exec (.telemReceive b) s = execTelemReceive b s from rfl, execTelemReceive, onMod, if_neg hon]
  simp only
  rw [if_neg hform, getD_natBytes]
  rfl

/-! ## The report to the host (R39, R67) -/

/-- The serving lead's report starts the worst deviation again and leaves on channel 10. -/
theorem exec_rackDrawReport {s : State} (hon : s.on) (hv : s.m.serves = true) : ∃ body : List Nat,
    exec .rackDrawReport s = .next { s with m := Mod.sendHost { s.m with bwk.worst := [] } 10 body } := by
  rw [show exec .rackDrawReport s = execRackDrawReport s from rfl, execRackDrawReport, onMod, if_neg hon]
  simp only
  rw [if_pos hv]
  exact ⟨_, rfl⟩

/-- A module that serves the host sends out of its own HOST port while that is up (R32, R291). -/
theorem Mod.sendHost_own {m : Mod} (c : Nat) (body : List Nat) (hs : m.servesHost = true) (hp : m.portUp 6 = true) :
    m.sendHost c body = (m.nextMseq c).2.enqueue 6
      { chan := c, scope := .host, dst := m.addr, src := m.addr, mseq := (m.nextMseq c).1, body := body } := by
  have hown : (((m.nextMseq c).2.servesHost || (m.nextMseq c).2.get R.MOD_ROLE_STAT_LEAD_POS == 15) && (m.nextMseq c).2.portUp 6) = true := by
    have hs' : (m.nextMseq c).2.servesHost = true := hs
    have hp' : (m.nextMseq c).2.portUp 6 = true := hp
    rw [hs', hp']
    rfl
  unfold Mod.sendHost
  exact if_pos hown

theorem Mod.serves_lead {m : Mod} (h : m.serves = true) : m.servesHost = true := by
  simp only [Mod.serves, Bool.and_eq_true] at h
  obtain ⟨⟨hlead, -⟩, -⟩ := h
  simp [Mod.servesHost, hlead]

/-! ## The commands -/

theorem Does.hostSilence {s : State} (hs : s.m.hostSilent = true) (hl : s.m.isLead = true ∨ s.m.planSrc = 1) :
    Does .hostSilenceTimeout s fun t => t.m.checkActive 0x0201 = true ∧ t.m.pstate = 3 ∧
      (s.m.planSrc = 1 → t.m.get R.BWK_DP_STAT_HOLD = 1) ∧ t.m.get R.BWK_CAP_HOST_CAP = s.m.get R.BWK_CAP_HOST_CAP ∧
      s.frame [.pwr, .log] holdFlds t := by
  have hp : s.m.pstate = 3 := by
    simp only [Mod.hostSilent, Mod.inRun, Bool.and_eq_true, beq_iff_eq] at hs
    obtain ⟨⟨hrun, -⟩, -⟩ := hs
    exact hrun
  obtain ⟨v, hexec⟩ := exec_hostSilenceTimeout hs hl (by simp [hp])
  obtain ⟨hactive, hstate, hheld, honly⟩ := s.m.silence (code := 0x0201) 0 v v (s.m.planSrc == 1) hp (by decide) (by decide)
  exact ⟨_, hexec, hactive, hstate, fun h => hheld (beq_iff_eq.mpr h), Mod.only_get honly _ (Fld.apart_of_all (by decide)),
    State.frame_of_only honly⟩

theorem Does.shareSilence {s : State} (hp : s.m.pstate = 3) (hsrc : s.m.planSrc = 2)
    (ht : s.m.bwk.shareTick + 3 * tickMs ≤ s.m.time.ticks) :
    Does .shareSilenceTimeout s fun t => t.m.checkActive 0x0202 = true ∧ t.m.get R.BWK_DP_STAT_HOLD = 1 ∧ t.m.pstate = 3 ∧
      s.frame [.pwr, .log] holdFlds t := by
  have hdue : (s.m.inRun && s.m.planSrc == 2 && decide (s.m.bwk.shareTick + 3 * tickMs ≤ s.m.time.ticks)) = true := by
    simp [Mod.inRun, hp, hsrc, ht]
  obtain ⟨hactive, hstate, hheld, honly⟩ := s.m.silence (code := 0x0202) (s.m.get R.MOD_ROLE_STAT_LEAD_POS) 3000 3000 true hp
    (by decide) (by decide)
  have hexec : exec .shareSilenceTimeout s =
      .next { s with m := (s.m.checkOn 0x0202 (s.m.get R.MOD_ROLE_STAT_LEAD_POS) 3000 3000).enterHold } := by
    rw [show exec .shareSilenceTimeout s = execShareSilenceTimeout s from rfl, execShareSilenceTimeout, onMod, if_neg (by simp [hp])]
    rw [if_pos hdue]
  exact ⟨_, hexec, hactive, hheld rfl, hstate, State.frame_of_only honly⟩

theorem Does.telemSent {s : State} (hon : s.on) (h0 : s.m.portUp 0 = true) (h1 : s.m.portUp 1 = true) :
    Does .telemSend s fun t => ∃ g, (t.m.port 0).txq = (s.m.port 0).txq ++ [g] ∧ g.chan = 5 ∧ g.scope = .ring ∧
      g.mseq = Sparse.get (fun _ => 0) s.m.lnk.mseq 5 ∧ g.body.length = 34 ∧ g.body.take 2 = [0x56, s.m.pos] ∧
      (t.m.port 1).txq = (s.m.port 1).txq ++ [{ g with west := true }] ∧ s.frame [.lnk] [] t := by
  obtain ⟨body, hlen, hhead, hexec⟩ := exec_telemSend hon
  obtain ⟨east, west⟩ := s.m.sendRing_ports 5 body h0 h1
  exact ⟨_, hexec, _, east, rfl, rfl, rfl, hlen, hhead, west, State.frame_of_only (Mod.sendRing_frame s.m 5 body [] (by simp))⟩

theorem Does.telemTaken {s : State} {b : List Byte} {q : Peer} (hon : s.on) (hl : b.length = 34) (h56 : b.getD 0 0 = 0x56)
    (hq : s.m.roles.peers = [q]) (hpos : q.pos = (b.getD 1 0).toNat) :
    Does (.telemReceive b) s fun t => t.m.roles.peers = [{ q with telem := natBytes b }] ∧
      t.m.bwk.worst = worseDev s.m.bwk.worst q.pos ((sext 16 (le (natBytes b) 22 2) : Rat) / 10) ∧
      s.frame [.roles, .lnk, .bwk, .flt] (R.BWK_DP_STAT_DROOP_MISMATCH :: repFlds 6) t := by
  have hpeers : s.m.roles.peers.map (fun (q : Peer) => if q.pos == (b.getD 1 0).toNat then { q with telem := natBytes b } else q) =
      [{ q with telem := natBytes b }] := by
    rw [hq, List.map_singleton, if_pos (beq_iff_eq.mpr hpos)]
  have hexec := exec_telemReceive hon hl h56
  rw [hpeers, ← hpos] at hexec
  have judged := Mod.judgeDroop_only { s.m.takeInbox 5 (natBytes b) with
      roles.peers := [{ q with telem := natBytes b }],
      bwk.worst := worseDev s.m.bwk.worst q.pos ((sext 16 (le (natBytes b) 22 2) : Rat) / 10) }
  refine ⟨_, hexec, congrArg RoleS.peers (judged.1 .roles (by simp)), congrArg BwkS.worst (judged.1 .bwk (by simp)), ?_⟩
  refine State.frame_of_only (Mod.only_trans ?_ (Mod.only_mono judged (by simp) (fun _ h => h)))
  exact Mod.only_trans (Mod.only_mono (s.m.takeInbox_only 5 (natBytes b)) (by simp) (by simp))
    (Mod.only_roles_bwk _ _ _ _ (by simp) (by simp))

theorem Does.rackReported {s : State} (hon : s.on) (hv : s.m.serves = true) (h6 : s.m.portUp 6 = true) :
    Does .rackDrawReport s fun t => t.m.bwk.worst = [] ∧
      (∃ g, (t.m.port 6).txq = (s.m.port 6).txq ++ [g] ∧ g.chan = 10 ∧ g.scope = .host) ∧ s.frame [.lnk, .bwk] [] t := by
  obtain ⟨body, hexec⟩ := exec_rackDrawReport hon hv
  let fresh : Mod := { s.m with bwk.worst := [] }
  let g : Msg := { chan := 10, scope := .host, dst := s.m.addr, src := s.m.addr, mseq := (fresh.nextMseq 10).1, body := body }
  have hsent : fresh.sendHost 10 body = (fresh.nextMseq 10).2.enqueue 6 g := Mod.sendHost_own 10 body (Mod.serves_lead hv) h6
  refine ⟨{ s with m := (fresh.nextMseq 10).2.enqueue 6 g }, by rw [hexec, ← hsent], rfl, ⟨g, ?_, rfl, rfl⟩, State.frame_of_only ?_⟩
  · simp only [Mod.port_enqueue _ _ _ _ (show 6 < 7 by decide)]
    rfl
  · exact Mod.only_trans (Mod.only_bwk s.m _ [] (by simp)) (Mod.only_mono (Mod.only_trans (fresh.nextMseq_only 10)
      (Mod.enqueue_frame _ 6 g [] (by simp))) (by simp) (by simp))

/-- Settles O22: a silent host or lead activates its check and holds the plan, TELEM is sent and kept, the lead reports. -/
theorem silenceAndTelemetry : Obligations.SilenceAndTelemetry := by
  unfold Obligations.SilenceAndTelemetry
  exact ⟨fun _ hs hl => Does.hostSilence hs hl, fun _ hp hsrc ht => Does.shareSilence hp hsrc ht,
    fun _ hon h0 h1 => Does.telemSent hon h0 h1, fun _ _ _ hon hl h56 hq hpos => Does.telemTaken hon hl h56 hq hpos,
    fun _ hon hv h6 => Does.rackReported hon hv h6⟩

end Sys2Proof.Machine
end

section
/-!
PROOFS. Conditions of the breakwater (R43, R48, R51, R58): the statement BreakwaterConditions.
-/
namespace Sys2Proof.Machine

/-! ## Commands with a condition -/

/-- A command whose condition holds acts. -/
theorem Does.ofCond {c : Instr} {s : State} {P : State → Prop} {g : Mod → Bool} {f : Mod → Mod}
    (h : exec c s = onMod (fun m => if g m then f m else m) s) (hon : s.on) (hg : g s.m = true) (hp : P { s with m := f s.m }) :
    Does c s P :=
  Does.ofMod h hon (by rw [if_pos hg]; exact hp)

/-- A command whose condition does not hold changes nothing (log 6). -/
theorem Does.ofNotCond {c : Instr} {s : State} {g : Mod → Bool} {f : Mod → Mod}
    (h : exec c s = onMod (fun m => if g m then f m else m) s) (hon : s.on) (hg : g s.m = false) : Does c s fun t => t = s :=
  Does.ofMod h hon (by rw [if_neg (by simp [hg])])

/-! ## A condition starts with the bits that show it -/

/-- The first field of a list of writes reads what was written, when no later write touches it. -/
theorem Mod.get_puts_head (m : Mod) {f : Fld} (v : Nat) (l : List (Fld × Nat)) (hw : f.lo + f.w ≤ 32)
    (h : ∀ g ∈ l.map Prod.fst, g.apart f) : (m.puts ((f, v) :: l)).get f = v % 2 ^ f.w :=
  (Mod.only_get (Mod.only_puts (m.put f v) l [] fun _ he => List.mem_map_of_mem he) f h).trans (Mod.get_put_same m f v hw)

/-- Which reports the collector takes is a matter of the collector and the power-good bits. -/
theorem Mod.takes_of_flt {a b : Mod} {blk inst : Nat} (hflt : b.flt = a.flt) (hpg : b.get R.PWR_STAT_PG = a.get R.PWR_STAT_PG)
    (k : a.takes blk inst) : b.takes blk inst := by
  simpa only [Mod.takes, Mod.inReset, Mod.pageOn, Mod.domainOn, hflt, hpg] using k

theorem Mod.takes_puts {m : Mod} {blk inst : Nat} (l : List (Fld × Nat)) (h : ∀ g ∈ l.map Prod.fst, g.apart R.PWR_STAT_PG)
    (k : m.takes blk inst) : (m.puts l).takes blk inst :=
  Mod.takes_of_flt (m.puts_flt l) (Mod.only_get (Mod.only_puts m l [] fun _ he => List.mem_map_of_mem he) _ h) k

/-- What a START with its bits changes. -/
theorem Mod.showStart_only (m : Mod) (l : List (Fld × Nat)) (blk inst kind addr cls : Nat) :
    m.only [.flt] (l.map Prod.fst ++ repFlds blk) ((m.puts l).condStart blk inst kind addr cls) :=
  Mod.only_trans (Mod.only_puts m l _ fun _ he => List.mem_append_left _ (List.mem_map_of_mem he))
    (Mod.only_mono (Mod.condStart_only _ blk inst kind addr cls) (fun _ h => h) fun _ h => List.mem_append_right _ h)

/-- A START with its bits is the newest report. -/
theorem Mod.showStart_tells {m : Mod} (l : List (Fld × Nat)) (blk inst kind addr cls : Nat)
    (hl : ∀ g ∈ l.map Prod.fst, g.apart R.PWR_STAT_PG) (ht : m.takes blk inst) (hc : m.condOn blk inst kind addr = false) :
    ((m.puts l).condStart blk inst kind addr cls).tells
      { blk := blk, inst := inst, kind := kind, addr := addr, cls := cls, ind := .start } := by
  refine Mod.condStart_tells blk inst kind addr cls (Mod.takes_puts l hl ht) ?_
  simpa only [Mod.condOn, Mod.puts_flt] using hc

/-- The newest report is a matter of the collector alone. -/
theorem Mod.tells_of_flt {a b : Mod} {r : Rep} (h : b.flt = a.flt) (k : a.tells r) : b.tells r := by
  unfold Mod.tells at k ⊢
  rw [h]
  exact k

/-! ## Envelopes (R49 to R51) -/

theorem Mod.only_cen (m : Mod) (x : CenS) {ps : List Part} (fs : List Fld) (hp : Part.cen ∈ ps) :
    m.only ps fs { m with cen := x } := Mod.only_of_part .cen hp rfl (by rintro ⟨⟩ h <;> trivial)

/-- A new envelope changes its pole's record alone. -/
theorem Mod.formEnv_eq (m : Mod) (p : Nat) : ∃ f, m.formEnv p = m.setBp p f := by
  unfold Mod.formEnv
  extract_lets g
  split
  extract_lets
  split
  · exact ⟨_, rfl⟩
  · exact ⟨_, rfl⟩

/-- A pole that is off has a zero envelope (R51). -/
theorem Mod.formEnv_off {m : Mod} {p : Nat} (hp : p < 2) (h : m.bwk.off.getD p false = true) :
    ((m.formEnv p).bp p).pEbb = 0 ∧ ((m.formEnv p).bp p).pFld = 0 := by
  have hz : m.formEnv p = m.setBp p (fun x => { x with pEbb := 0, pFld := 0 }) := by
    unfold Mod.formEnv
    simp only [h, if_true]
  rw [hz, Mod.bp_setBp m p p _ hp, if_pos rfl]
  exact ⟨rfl, rfl⟩

/-- The fields that show the envelopes. -/
def envFlds : List Fld :=
  [R.BWK_ENV_EBB_POS, R.BWK_ENV_EBB_NEG, R.BWK_ENV_FLOOD_POS, R.BWK_ENV_FLOOD_NEG, R.BWK_ENV_CELL_EBB_CELL, R.BWK_ENV_CELL_FLD_CELL,
    R.BWK_ENV_AGE_AGE, R.BWK_ENV_AGE_STALE_EFF, R.BWK_ENV_AGE_OFF_EFF]

/-- Values shown at once or with their frame (R119). -/
theorem Mod.shows_only (m : Mod) (l : List (Fld × Nat)) : m.only [.cen] (l.map Prod.fst) (m.shows l) := by
  unfold Mod.shows
  split
  · exact Mod.only_cen m _ _ (by simp)
  · exact Mod.only_puts m l _ fun _ he => List.mem_map_of_mem he

theorem Mod.showEnv_only (m : Mod) : m.only [.cen] envFlds m.showEnv := m.shows_only _

/-- An envelope formed and shown changes its pole's record and the fields that show it. -/
theorem Mod.envelope_only (m : Mod) (p : Nat) : m.only [.bwk, .cen] envFlds (m.formEnv p).showEnv := by
  obtain ⟨f, hf⟩ := m.formEnv_eq p
  rw [hf]
  exact Mod.only_trans (Mod.only_bwk m _ _ (by simp)) (Mod.only_mono (Mod.showEnv_only _) (by simp) (fun _ h => h))

/-- It leaves which poles are stale and which are off. -/
theorem Mod.envelope_flags (m : Mod) (p : Nat) :
    (m.formEnv p).showEnv.bwk.stale = m.bwk.stale ∧ (m.formEnv p).showEnv.bwk.off = m.bwk.off := by
  have hshow : (m.formEnv p).showEnv.bwk = (m.formEnv p).bwk := (Mod.showEnv_only _).1 .bwk (by simp)
  obtain ⟨f, hf⟩ := m.formEnv_eq p
  rw [hshow, hf]
  exact ⟨rfl, rfl⟩

/-! ## The commands -/

/-- The end of OVERFLOW once it has been clear for 200 frames (R58). -/
theorem Does.overflowCleared {s : State} (hp : s.m.pstate = 3) (ho : s.m.bwk.ovf = true) (hc : 200 ≤ s.m.bwk.ovfClear) :
    Does .overflowClear s fun t => t.m.bwk.ovf = false ∧ t.m.bwk.pdp = s.m.bwk.feedNow ∧ t.m.get R.BWK_DP_STAT_ENTRY = 1 ∧
      t.m.get R.BWK_DP_STAT_OVF_EBB = 0 ∧ t.m.get R.BWK_DP_STAT_OVF_FLOOD = 0 ∧
      s.frame [.bwk, .flt] ([R.BWK_DP_STAT_ENTRY, R.BWK_DP_STAT_OVF_EBB, R.BWK_DP_STAT_OVF_FLOOD, R.BWK_DP_STAT_DP_STATE] ++ repFlds 6) t := by
  let restarted : Mod := { s.m with bwk.ovf := false, bwk.pdp := s.m.bwk.feedNow, bwk.star := s.m.bwk.feedNow,
                                    bwk.starFrom := s.m.bwk.feedNow, bwk.ivEntry := true }
  let shown : Mod := restarted.puts [(R.BWK_DP_STAT_ENTRY, 1), (R.BWK_DP_STAT_OVF_EBB, 0), (R.BWK_DP_STAT_OVF_FLOOD, 0)]
  have hend : shown.only [.flt] (R.BWK_DP_STAT_DP_STATE :: repFlds 6) (shown.condEnd 6 2 4 0 0).syncDp :=
    Mod.only_trans (Mod.only_mono (shown.condEnd_only 6 2 4 0 0) (fun _ h => h) (fun _ h => List.mem_cons_of_mem _ h))
      (Mod.only_mono (Mod.syncDp_only _) (by simp) (by simp))
  have hbwk : (shown.condEnd 6 2 4 0 0).syncDp.bwk = restarted.bwk := hend.1 .bwk (by simp)
  refine Does.ofCond (show exec .overflowClear s = execOverflowClear s from rfl) (by simp [hp]) (by simp [Mod.inRun, hp, ho, hc]) ?_
  refine ⟨congrArg BwkS.ovf hbwk, congrArg BwkS.pdp hbwk, ?entry, ?ebb, ?flood, State.frame_of_only ?_⟩
  case entry =>
    exact (Mod.only_get hend _ (Fld.apart_of_all (by decide))).trans
      (restarted.get_puts_head 1 _ (by decide) (Fld.apart_of_all (by decide)))
  case ebb =>
    exact (Mod.only_get hend _ (Fld.apart_of_all (by decide))).trans
      ((restarted.put R.BWK_DP_STAT_ENTRY 1).get_puts_head 0 _ (by decide) (Fld.apart_of_all (by decide)))
  case flood =>
    exact (Mod.only_get hend _ (Fld.apart_of_all (by decide))).trans (Mod.get_put_same _ R.BWK_DP_STAT_OVF_FLOOD 0 (by decide))
  exact Mod.only_trans (Mod.only_bwk s.m _ _ (by simp)) (Mod.only_trans (Mod.only_puts restarted _ _ (by simp))
    (Mod.only_mono hend (by simp) (by simp +contextual)))

/-- BUS_SHORE of a pole (R48). -/
theorem Does.busShoreRaised {s : State} {p : Fin 2} (hp : s.m.pstate = 3) (hr : 10 ≤ (s.m.bp p).shoreRun)
    (hc : s.m.condOn 6 p 1 0 = false) (ht : s.m.takes 6 p) :
    Does (.busShore p) s fun t => t.m.get R.BWK_EVT_SHORE = 1 ∧
      t.m.tells { blk := 6, inst := p, kind := 1, addr := 0, cls := 1, ind := .start } ∧
      s.frame [.flt] ([R.BWK_EVT_SHORE, pmbVout p] ++ repFlds 6) t := by
  let status : Nat := (s.m.put R.BWK_EVT_SHORE 1).get (pmbVout p) ||| (if (s.m.bwk.shoreHi : Rat) / 100 < s.m.vBus p then 64 else 32)
  let shown : List (Fld × Nat) := [(R.BWK_EVT_SHORE, 1), (pmbVout p, status)]
  have hpmb : pmbVout p = R.PMB_STATUS_P_VOUT ∨ pmbVout p = R.PMB_STATUS_N_VOUT := by
    unfold pmbVout
    split
    · exact .inl rfl
    · exact .inr rfl
  have hpg : ∀ g ∈ shown.map Prod.fst, g.apart R.PWR_STAT_PG := by
    rcases hpmb with h | h <;> simp [shown, h, Fld.apart]
  have hevt : ∀ g ∈ ([(pmbVout p, status)] : List (Fld × Nat)).map Prod.fst, g.apart R.BWK_EVT_SHORE := by
    rcases hpmb with h | h <;> simp [h, Fld.apart]
  have hacts : Does (.busShore p) s fun t => t = { s with m := (s.m.puts shown).condStart 6 p 1 0 1 } :=
    Does.ofCond (show exec (.busShore p) s = execBusShore p s from rfl) (by simp [hp]) (by simp [Mod.inRun, hp, hr, hc]) rfl
  obtain ⟨t, hexec, rfl⟩ := hacts
  refine ⟨_, hexec, ?_, Mod.showStart_tells shown 6 p 1 0 1 hpg ht hc, State.frame_of_only (s.m.showStart_only shown 6 p 1 0 1)⟩
  exact (Mod.only_get ((s.m.puts shown).condStart_only 6 p 1 0 1) _ (Fld.apart_of_all (by decide))).trans
    (s.m.get_puts_head 1 _ (by decide) hevt)

/-- A pole put on another envelope: its bits, its condition, the new envelope (R51). -/
def Mod.fallBack (m : Mod) (p : Nat) (shown : List (Fld × Nat)) (kind cls : Nat) : Mod :=
  (((m.puts shown).condStart 6 p kind 0 cls).formEnv p).showEnv

theorem Mod.fallBack_parts (m : Mod) (p : Nat) (shown : List (Fld × Nat)) (kind cls : Nat) :
    m.onlyParts [.bwk, .cen, .flt] (m.fallBack p shown kind cls) :=
  Mod.onlyParts_trans (Mod.onlyParts_mono (m.showStart_only shown 6 p kind 0 cls).1 (by simp))
    (Mod.onlyParts_mono (Mod.envelope_only _ p).1 (by simp))

theorem Mod.fallBack_flags (m : Mod) (p : Nat) (shown : List (Fld × Nat)) (kind cls : Nat) :
    (m.fallBack p shown kind cls).bwk.stale = m.bwk.stale ∧ (m.fallBack p shown kind cls).bwk.off = m.bwk.off := by
  have hbwk : ((m.puts shown).condStart 6 p kind 0 cls).bwk = m.bwk := (m.showStart_only shown 6 p kind 0 cls).1 .bwk (by simp)
  obtain ⟨hstale, hoff⟩ := Mod.envelope_flags ((m.puts shown).condStart 6 p kind 0 cls) p
  exact ⟨hstale.trans (congrArg BwkS.stale hbwk), hoff.trans (congrArg BwkS.off hbwk)⟩

/-- Its bits stand, where neither a report nor an envelope shows in them. -/
theorem Mod.fallBack_get (m : Mod) (p : Nat) (shown : List (Fld × Nat)) (kind cls : Nat) (g : Fld)
    (hg : ∀ f ∈ repFlds 6 ++ envFlds, f.apart g) : (m.fallBack p shown kind cls).get g = (m.puts shown).get g :=
  (Mod.only_get (Mod.envelope_only _ p) g fun f hf => hg f (List.mem_append_right _ hf)).trans
    (Mod.only_get (Mod.condStart_only _ 6 p kind 0 cls) g fun f hf => hg f (List.mem_append_left _ hf))

theorem Mod.fallBack_tells {m : Mod} {p : Nat} (shown : List (Fld × Nat)) (kind cls : Nat)
    (hl : ∀ g ∈ shown.map Prod.fst, g.apart R.PWR_STAT_PG) (ht : m.takes 6 p) (hc : m.condOn 6 p kind 0 = false) :
    (m.fallBack p shown kind cls).tells { blk := 6, inst := p, kind := kind, addr := 0, cls := cls, ind := .start } :=
  Mod.tells_of_flt ((Mod.envelope_only _ p).1 .flt (by simp)) (Mod.showStart_tells shown 6 p kind 0 cls hl ht hc)

/-- A pole that is off falls back to a zero envelope. -/
theorem Mod.fallBack_off {m : Mod} {p : Nat} (shown : List (Fld × Nat)) (kind cls : Nat) (hp : p < 2)
    (h : m.bwk.off.getD p false = true) :
    ((m.fallBack p shown kind cls).bp p).pEbb = 0 ∧ ((m.fallBack p shown kind cls).bp p).pFld = 0 := by
  have hbwk : ((m.puts shown).condStart 6 p kind 0 cls).bwk = m.bwk := (m.showStart_only shown 6 p kind 0 cls).1 .bwk (by simp)
  have hbp : (m.fallBack p shown kind cls).bp p = (((m.puts shown).condStart 6 p kind 0 cls).formEnv p).bp p :=
    congrArg (fun x : BwkS => x.pole.getD p {}) ((Mod.showEnv_only _).1 .bwk (by simp))
  rw [hbp]
  exact Mod.formEnv_off hp (by rw [hbwk]; exact h)

/-- ENV_STALE of a pole where the weave runs (R43, R51). -/
theorem Does.envStaleRaised {s : State} {p : Fin 2} (hon : s.on) (hrun : s.m.coresRun = true)
    (hold : s.m.olderThan p s.m.staleEff = true) (hnew : s.m.bwk.stale.getD p false = false) (ht : s.m.takes 6 p)
    (hc : s.m.condOn 6 p 6 0 = false) :
    Does (.envStaleTimeout p) s fun t => t.m.bwk.stale.getD p false = true ∧ t.m.get R.BWK_DP_STAT_ENV_STALE = 1 ∧
      t.m.get R.BWK_EVT_STALE = 1 ∧ t.m.tells { blk := 6, inst := p, kind := 6, addr := 0, cls := 0, ind := .start } ∧
      s.m.onlyParts [.bwk, .cen, .flt] t.m := by
  let marked : Mod := { s.m with bwk.stale := (bank 2 s.m.bwk.stale false).set p true }
  let shown : List (Fld × Nat) := [(R.BWK_DP_STAT_ENV_STALE, 1), (R.BWK_EVT_STALE, 1)]
  have hacts : Does (.envStaleTimeout p) s fun t => t = { s with m := marked.fallBack p shown 6 0 } :=
    Does.ofCond (show exec (.envStaleTimeout p) s = execEnvStaleTimeout p s from rfl) hon (by simp only [hrun, hold, hnew]; rfl) rfl
  obtain ⟨t, hexec, rfl⟩ := hacts
  refine ⟨_, hexec, ?stale, ?bit, ?event, Mod.fallBack_tells shown 6 0 (Fld.apart_of_all (by decide)) ht hc, ?parts⟩
  case stale => rw [(marked.fallBack_flags p shown 6 0).1, getD_set_bank 2 _ _ _ _ _ p.isLt, if_pos rfl]
  case bit =>
    exact (marked.fallBack_get p shown 6 0 _ (Fld.apart_of_all (by decide))).trans
      (marked.get_puts_head 1 _ (by decide) (Fld.apart_of_all (by decide)))
  case event =>
    exact (marked.fallBack_get p shown 6 0 _ (Fld.apart_of_all (by decide))).trans
      (Mod.get_put_same _ R.BWK_EVT_STALE 1 (by decide))
  case parts => exact Mod.onlyParts_trans (Mod.only_bwk s.m _ [] (by simp)).1 (marked.fallBack_parts p shown 6 0)

/-- STO_OFF of a pole where the weave runs, with a zero envelope (R43, R51). -/
theorem Does.stoOffRaised {s : State} {p : Fin 2} (hon : s.on) (hrun : s.m.coresRun = true)
    (hcause : s.m.olderThan p s.m.offEff = true ∨ s.m.pins.stoHold = false) (hnew : s.m.bwk.off.getD p false = false)
    (ht : s.m.takes 6 p) (hc : s.m.condOn 6 p 7 0 = false) :
    Does (.stoOffTimeout p) s fun t => t.m.bwk.off.getD p false = true ∧ (t.m.bp p).pEbb = 0 ∧ (t.m.bp p).pFld = 0 ∧
      t.m.tells { blk := 6, inst := p, kind := 7, addr := 0, cls := 1, ind := .start } ∧ s.m.onlyParts [.bwk, .cen, .flt] t.m := by
  let marked : Mod := { s.m with bwk.off := (bank 2 s.m.bwk.off false).set p true }
  let shown : List (Fld × Nat) := [(if p.val = 0 then R.BWK_DP_STAT_STO_OFF_P else R.BWK_DP_STAT_STO_OFF_N, 1), (R.BWK_EVT_STALE, 1)]
  have hdue : (s.m.coresRun && (s.m.olderThan p s.m.offEff || !s.m.pins.stoHold) && !s.m.bwk.off.getD p false) = true := by
    rw [hrun, hnew]
    simpa using hcause
  have hacts : Does (.stoOffTimeout p) s fun t => t = { s with m := marked.fallBack p shown 7 1 } :=
    Does.ofCond (show exec (.stoOffTimeout p) s = execStoOffTimeout p s from rfl) hon hdue rfl
  have hoff : marked.bwk.off.getD p false = true := by rw [getD_set_bank 2 _ _ _ _ _ p.isLt, if_pos rfl]
  have hpg : ∀ g ∈ shown.map Prod.fst, g.apart R.PWR_STAT_PG := by
    unfold shown
    split <;> exact Fld.apart_of_all (by decide)
  obtain ⟨t, hexec, rfl⟩ := hacts
  obtain ⟨hebb, hfld⟩ := Mod.fallBack_off shown 7 1 p.isLt hoff
  exact ⟨_, hexec, (congrArg (List.getD · p.val false) (marked.fallBack_flags p shown 7 1).2).trans hoff, hebb, hfld,
    Mod.fallBack_tells shown 7 1 hpg ht hc,
    Mod.onlyParts_trans (Mod.only_bwk s.m _ [] (by simp)).1 (marked.fallBack_parts p shown 7 1)⟩

/-- BWK_CLR.DEV clears DEV_MAX (Table 02-31). -/
theorem Does.devCleared {s : State} (hon : s.on) (hw : s.m.wrStatus 0x60C4 1 = 0) :
    Does (.bwkClrDev true) s fun t => t.m.get R.BWK_DEV_DEV_MAX = 0 ∧ t.m.resp = 0 ∧ s.frame [.resp] [R.BWK_DEV_DEV_MAX] t := by
  refine Does.ofMod (show exec (.bwkClrDev true) s = execBwkClrDev true s from rfl) hon ?_
  rw [Mod.guarded_ok _ (show s.m.wrStatus 0x60C4 (b2n true) = 0 from hw)]
  exact ⟨Mod.get_put_same s.m R.BWK_DEV_DEV_MAX 0 (by decide), rfl,
    State.frame_of_only (Mod.only_trans (Mod.only_put s.m _ 0 _ (by simp)) (Mod.only_resp _ 0 _ (by simp)))⟩

/-- Settles O24: each condition's command acts by its bits, its report and its envelope, and OVERFLOW_CLEAR that is not due does not. -/
theorem breakwaterConditions : Obligations.BreakwaterConditions := by
  unfold Obligations.BreakwaterConditions
  refine ⟨fun s hp ho hc => Does.overflowCleared hp ho hc, fun s hon hc => ?notDue, fun s p hp hr hc ht => Does.busShoreRaised hp hr hc ht,
    fun s p hon hrun hold hnew ht hc => Does.envStaleRaised hon hrun hold hnew ht hc,
    fun s p hon hrun hcause hnew ht hc => Does.stoOffRaised hon hrun hcause hnew ht hc, fun s hon hw => Does.devCleared hon hw⟩
  case notDue =>
    exact Does.ofNotCond (show exec .overflowClear s = execOverflowClear s from rfl) hon (by simp [Nat.not_le.mpr hc])

end Sys2Proof.Machine
end

section
/-!
PROOFS. The lock of the BWK page (R46, R453, R454): the statement BreakwaterLock.
-/
namespace Sys2Proof.Machine

/-! ## The bus band of R46 -/

/-- The left side of R46: |V_NOM − 400 V| + k_D × 250 kW + V_TB, in V. -/
def Mod.busBand (m : Mod) : Rat :=
  absQ ((m.get R.BWK_VSET_V_NOM : Rat) / 100 - 400) + m.kD * 250 + (m.get R.BWK_VSET_V_TB : Rat) / 100

theorem Mod.busBand_congr {a b : Mod} (hnom : a.get R.BWK_VSET_V_NOM = b.get R.BWK_VSET_V_NOM)
    (hkd : a.get R.BWK_DROOP_KD = b.get R.BWK_DROOP_KD) (htb : a.get R.BWK_VSET_V_TB = b.get R.BWK_VSET_V_TB) :
    a.busBand = b.busBand := by
  simp only [Mod.busBand, Mod.kD, hnom, hkd, htb]

/-- The checks of the BWK page's lock include R46. -/
theorem Mod.busBand_of_lockOk {c : Mod} (h : c.lockOk 6 = true) : c.busBand ≤ 28 / 5 := by
  unfold Mod.lockOk at h
  rw [if_pos rfl, Bool.and_eq_true] at h
  exact of_decide_eq_true h.1

theorem Mod.holds_only (m : Mod) (l : List (Fld × Nat × Nat)) : m.only [] (l.map Prod.fst) (m.holds l) :=
  Mod.only_foldl _ l (fun q _ he => Mod.only_put q _ _ _ (List.mem_map_of_mem he)) m

/-- The first field of a list of clamps is held to its range, when no later clamp touches it. -/
theorem Mod.get_holds_head (m : Mod) {f : Fld} (lo hi : Nat) (l : List (Fld × Nat × Nat)) (hw : f.lo + f.w ≤ 32)
    (h : ∀ g ∈ l.map Prod.fst, g.apart f) : (m.holds ((f, lo, hi) :: l)).get f = clampN lo hi (m.get f) % 2 ^ f.w :=
  (Mod.only_get (Mod.holds_only (m.hold f lo hi) l) f h).trans (Mod.get_put_same m f _ hw)

/-- The clamps of the BWK page act on each field by itself, so that modules that agree in R46's fields agree in R46 once clamped. -/
theorem Mod.busBand_clampPage_congr {a b : Mod} (hnom : a.get R.BWK_VSET_V_NOM = b.get R.BWK_VSET_V_NOM)
    (hkd : a.get R.BWK_DROOP_KD = b.get R.BWK_DROOP_KD) (htb : a.get R.BWK_VSET_V_TB = b.get R.BWK_VSET_V_TB) :
    (a.clampPage 6).busBand = (b.clampPage 6).busBand := by
  have nom (m : Mod) : (m.clampPage 6).get R.BWK_VSET_V_NOM = clampN 39400 40600 (m.get R.BWK_VSET_V_NOM) % 2 ^ 16 :=
    m.get_holds_head 39400 40600 _ (by decide) (Fld.apart_of_all (by decide))
  have kd (m : Mod) : (m.clampPage 6).get R.BWK_DROOP_KD = m.get R.BWK_DROOP_KD :=
    Mod.only_get (m.holds_only _) _ (Fld.apart_of_all (by decide))
  have tb (m : Mod) : (m.clampPage 6).get R.BWK_VSET_V_TB = clampN 40 400 (m.get R.BWK_VSET_V_TB) % 2 ^ 12 := by
    have hnext : (m.hold R.BWK_VSET_V_NOM 39400 40600).get R.BWK_VSET_V_TB = m.get R.BWK_VSET_V_TB := Mod.get_put_ne m _ _ _ (by decide)
    rw [← hnext]
    exact (m.hold R.BWK_VSET_V_NOM 39400 40600).get_holds_head 40 400 _ (by decide) (Fld.apart_of_all (by decide))
  exact Mod.busBand_congr (by rw [nom, nom, hnom]) (by rw [kd, kd, hkd]) (by rw [tb, tb, htb])

/-! ## LOCK = 1 on the BWK page (R454) -/

/-- The fields that the judgement of SRC writes (R54). -/
def cfgErrFlds : List Fld := R.BWK_DP_STAT_CFG_ERR :: repFlds 6

/-- CFG_ERR with its report. -/
theorem Mod.cfgErr_only (m : Mod) : m.only [.flt] cfgErrFlds ((m.put R.BWK_DP_STAT_CFG_ERR 1).raise 6 2 8 0 0) :=
  Mod.only_trans (Mod.only_put m _ 1 _ List.mem_cons_self)
    (Mod.only_raise _ 6 2 8 0 0 (by simp) fun _ h => List.mem_cons_of_mem _ h)

theorem Mod.judgeSrc_only (m : Mod) : m.only [.flt] cfgErrFlds (m.judgeSrc 6) := by
  unfold Mod.judgeSrc
  rw [if_pos (by decide)]
  split
  · exact m.cfgErr_only
  · exact Mod.only_put m _ 0 _ List.mem_cons_self

/-- A refused lock of the BWK page: REFUSED, CFG_ERR with its report, STATUS 1. -/
def Mod.lockRefused (m : Mod) : Mod :=
  (((m.put (R.BLK_LOCK_REFUSED 6) 1).put R.BWK_DP_STAT_CFG_ERR 1).raise 6 2 8 0 0).refuse

/-- The fields that a refused lock of the BWK page writes. -/
def refusedFlds : List Fld := [R.BLK_LOCK_REFUSED 6, R.BWK_DP_STAT_CFG_ERR] ++ repFlds 6

theorem Mod.lockRefused_only (m : Mod) : m.only [.flt, .resp] refusedFlds m.lockRefused :=
  Mod.only_trans (Mod.only_put m _ 1 _ (by simp [refusedFlds]))
    (Mod.only_trans (Mod.only_mono (Mod.cfgErr_only _) (by simp) (fun _ h => List.mem_cons_of_mem _ h)) (Mod.refuse_frame _ _ (by simp)))

/-- An unlocked BWK page locks with values that meet R46, or is refused. -/
theorem Mod.lockPage_bwk {m : Mod} (h : m.locked 6 = false) :
    ((m.clampPage 6).busBand ≤ 28 / 5 ∧ (m.lockPage 6).busBand = (m.clampPage 6).busBand) ∨
      ((m.clampPage 6).lockOk 6 = false ∧ m.lockPage 6 = m.lockRefused) := by
  let c : Mod := m.clampPage 6
  unfold Mod.lockPage
  rw [if_neg (by simp [h])]
  by_cases hok : c.lockOk 6 = true
  · refine .inl ⟨Mod.busBand_of_lockOk hok, ?_⟩
    let locked : Mod := c.puts [(R.BLK_LOCK_LOCK 6, 1), (R.BLK_STAT_LOCKED 6, 1)]
    let measured : Mod := locked.extendM 3 (Config.sha384 (leBytes 2 6 ++ locked.rlBytes 6))
    have hlock : c.only [.sec, .flt] (R.BLK_LOCK_LOCK 6 :: R.BLK_STAT_LOCKED 6 :: cfgErrFlds) (measured.judgeSrc 6) :=
      Mod.only_trans (Mod.only_puts c _ _ (by simp)) (Mod.only_trans (Mod.only_sec locked _ _ (by simp))
        (Mod.only_mono measured.judgeSrc_only (by simp) (by simp +contextual)))
    rw [if_pos hok]
    exact Mod.busBand_congr (Mod.only_get hlock _ (Fld.apart_of_all (by decide))) (Mod.only_get hlock _ (Fld.apart_of_all (by decide)))
      (Mod.only_get hlock _ (Fld.apart_of_all (by decide)))
  · exact .inr ⟨by simpa using hok, if_neg hok⟩

/-- A write of BLK_LOCK: REFUSED cleared by its 1, before LOCK acts. -/
def Mod.lockCleared (m : Mod) (v : Nat) : Mod := if bit v 1 then m.put (R.BLK_LOCK_REFUSED 6) 0 else m

theorem Mod.lockCleared_only (m : Mod) (v : Nat) : m.only [] [R.BLK_LOCK_REFUSED 6] (m.lockCleared v) := by
  unfold Mod.lockCleared
  split
  · exact Mod.only_put m _ 0 _ List.mem_cons_self
  · exact Mod.only_refl m _ _

theorem Mod.locked_congr {a b : Mod} {p : Nat} (h : b.get (R.BLK_LOCK_LOCK p) = a.get (R.BLK_LOCK_LOCK p)) : b.locked p = a.locked p := by
  simp only [Mod.locked, Mod.is, h]

theorem Mod.lockRefused_locked (m : Mod) : m.lockRefused.locked 6 = m.locked 6 :=
  Mod.locked_congr (Mod.only_get m.lockRefused_only _ (Fld.apart_of_all (by decide)))

theorem Mod.lockCleared_locked (m : Mod) (v : Nat) : (m.lockCleared v).locked 6 = m.locked 6 :=
  Mod.locked_congr (Mod.only_get (m.lockCleared_only v) _ (Fld.apart_of_all (by decide)))

/-- A write that locks the BWK page leaves values that meet R46. -/
theorem Mod.busBand_of_lockWrite {m : Mod} {v : Nat} (h : m.locked 6 = false) (hl : (m.lockWrite 6 v).locked 6 = true) :
    (m.lockWrite 6 v).busBand ≤ 28 / 5 := by
  have hopen : (m.lockCleared v).locked 6 = false := (m.lockCleared_locked v).trans h
  have hact : m.lockWrite 6 v = if bit v 0 then (m.lockCleared v).lockPage 6 else m.lockCleared v := rfl
  rw [hact] at hl ⊢
  split at hl
  next hbit =>
    rw [if_pos hbit]
    rcases Mod.lockPage_bwk hopen with ⟨hmet, hsame⟩ | ⟨-, hrefused⟩
    · rw [hsame]; exact hmet
    · rw [hrefused, Mod.lockRefused_locked, hopen] at hl
      exact absurd hl (by decide)
  next => rw [hopen] at hl; exact absurd hl (by decide)

/-- RUN is refused while the BWK page is not locked (Table 13-2). -/
theorem Mod.runWhy_of_unlocked {m : Mod} (h : m.locked 6 = false) : m.runWhy ≠ 0 := by
  unfold Mod.runWhy
  simp only [h, Bool.not_false, Bool.true_or, if_true]
  repeat' split
  all_goals decide

/-! ## The command -/

theorem exec_blkLockWrite_bwk (s : State) (v : Word) :
    exec (.blkLockWrite 6 v) s = onMod (fun m => m.guardedR 0x601C v.toNat (fun m => m.lockWrite 6 v.toNat)) s := rfl

/-- The page locks only within the band of R46. -/
theorem busBand_of_blkLockWrite {s t : State} {v : Word} (h : s.m.locked 6 = false) (he : exec (.blkLockWrite 6 v) s = .next t)
    (hl : t.m.locked 6 = true) : t.m.busBand ≤ 28 / 5 := by
  rw [exec_blkLockWrite_bwk, onMod] at he
  split at he
  next =>
    obtain rfl : s = t := by simpa using he
    rw [h] at hl
    exact absurd hl (by decide)
  next =>
    obtain rfl : { s with m := s.m.guardedR 0x601C v.toNat (fun m => m.lockWrite 6 v.toNat) } = t := by simpa using he
    rcases s.m.guardedR_cases 0x601C v.toNat (fun m => m.lockWrite 6 v.toNat) with ⟨-, hg⟩ | ⟨-, hg⟩ | ⟨-, -, hg⟩
    · simp only [hg] at hl ⊢
      exact Mod.busBand_of_lockWrite (m := { s.m with resp := 0 }) h hl
    · have hauth : s.m.authRefused.locked 6 = s.m.locked 6 :=
        Mod.locked_congr (Mod.only_get (s.m.authRefused_frame (ps := [.flt]) (by simp) fun _ hf => hf) _ (Fld.apart_of_all (by decide)))
      simp only [hg] at hl
      exact absurd (hauth.symm.trans hl) (by rw [h]; decide)
    · simp only [hg] at hl
      exact absurd (h.symm.trans hl) (by decide)

/-- Outside the band of R46 LOCK = 1 is refused, with CFG_ERR and its report, and RUN with it. -/
theorem Does.bwkLockRefused {s : State} {v : Word} (hw : s.m.wrStatus 0x601C v.toNat = 0) (hon : s.on) (hbit : bit v.toNat 0 = true)
    (h : s.m.locked 6 = false) (ht : s.m.takes 6 2) (hband : 28 / 5 < (s.m.clampPage 6).busBand) :
    Does (.blkLockWrite 6 v) s fun t => t.m.resp = 1 ∧ t.m.get (R.BLK_LOCK_REFUSED 6) = 1 ∧ t.m.locked 6 = false ∧
      t.m.get R.BWK_DP_STAT_CFG_ERR = 1 ∧ t.m.tells { blk := 6, inst := 2, kind := 8, addr := 0, cls := 0 } ∧ t.m.runWhy ≠ 0 ∧
      s.frame [.flt, .resp] refusedFlds t := by
  let answered : Mod := { s.m with resp := 0 }
  let cleared : Mod := answered.lockCleared v.toNat
  have hclear : s.m.only [.resp] [R.BLK_LOCK_REFUSED 6] cleared :=
    Mod.only_trans (Mod.only_resp s.m 0 _ (by simp)) (Mod.only_mono (answered.lockCleared_only _) (by simp) (fun _ hf => hf))
  have hopen : cleared.locked 6 = false := (answered.lockCleared_locked _).trans h
  have hsame : (cleared.clampPage 6).busBand = (s.m.clampPage 6).busBand :=
    Mod.busBand_clampPage_congr (Mod.only_get hclear _ (Fld.apart_of_all (by decide)))
      (Mod.only_get hclear _ (Fld.apart_of_all (by decide))) (Mod.only_get hclear _ (Fld.apart_of_all (by decide)))
  have hpage : cleared.lockPage 6 = cleared.lockRefused := by
    rcases Mod.lockPage_bwk hopen with ⟨hmet, -⟩ | ⟨-, hrefused⟩
    · exact absurd (hsame ▸ hmet) (not_le.mpr hband)
    · exact hrefused
  have hacts : Does (.blkLockWrite 6 v) s fun t => t = { s with m := cleared.lockRefused } := by
    refine Does.ofMod (exec_blkLockWrite_bwk s v) hon ?_
    rw [Mod.guardedR_ok _ hw, ← hpage]
    exact congrArg (fun x : Mod => { s with m := x }) (if_pos hbit)
  have hunlocked : cleared.lockRefused.locked 6 = false := cleared.lockRefused_locked.trans hopen
  let shown : Mod := (cleared.put (R.BLK_LOCK_REFUSED 6) 1).put R.BWK_DP_STAT_CFG_ERR 1
  have hraise : shown.only [.flt] (repFlds 6) (shown.raise 6 2 8 0 0) := Mod.only_raise shown 6 2 8 0 0 (by simp) fun _ hf => hf
  have htakes : shown.takes 6 2 := by
    refine Mod.takes_puts [(R.BLK_LOCK_REFUSED 6, 1), (R.BWK_DP_STAT_CFG_ERR, 1)] (Fld.apart_of_all (by decide)) ?_
    exact Mod.takes_of_flt (hclear.1 .flt (by simp)) (Mod.only_get hclear _ (Fld.apart_of_all (by decide))) ht
  obtain ⟨t, hexec, rfl⟩ := hacts
  refine ⟨_, hexec, rfl, ?refused, hunlocked, ?cfgErr, Mod.raise_tells (m := shown) 6 2 8 0 0 htakes, Mod.runWhy_of_unlocked hunlocked, ?frame⟩
  case refused =>
    exact (Mod.only_get hraise _ (Fld.apart_of_all (by decide))).trans
      (cleared.get_puts_head 1 [(R.BWK_DP_STAT_CFG_ERR, 1)] (by decide) (Fld.apart_of_all (by decide)))
  case cfgErr =>
    exact (Mod.only_get hraise _ (Fld.apart_of_all (by decide))).trans (Mod.get_put_same _ R.BWK_DP_STAT_CFG_ERR 1 (by decide))
  case frame =>
    exact State.frame_of_only (Mod.only_trans (Mod.only_mono hclear (by simp) (by simp [refusedFlds]))
      (cleared.lockRefused_only))

/-- Settles O59: a lock that takes place was checked on the very values it leaves, and one outside R46's band is refused. -/
theorem breakwaterLock : Obligations.BreakwaterLock := by
  unfold Obligations.BreakwaterLock
  refine ⟨fun s t v h he hl => busBand_of_blkLockWrite h he hl, fun s c v hw hon hbit h ht hc hband => ?_⟩
  subst hc
  exact Does.bwkLockRefused hw hon hbit h ht hband

end Sys2Proof.Machine
end

section
/-!
PROOFS. Facility plans and host caps (R55, R56, R60, R62, R292): the statement PlansAndCaps.
-/
namespace Sys2Proof.Machine

/-! ## Checks that end, the host that is heard (R37, R415, R417) -/

theorem Mod.checkOff_inactive (m : Mod) (code : Nat) : (m.checkOff code).checkActive code = false := by
  unfold Mod.checkOff Mod.checkActive
  rw [List.any_eq_false]
  intro c hc
  simpa using List.of_mem_filter hc

theorem Mod.checkActive_congr {a b : Mod} (code : Nat) (h : b.pwr = a.pwr) : b.checkActive code = a.checkActive code := by
  simp only [Mod.checkActive, h]

theorem Mod.checkOff_only (m : Mod) (code : Nat) : m.only [.pwr] [] (m.checkOff code) := Mod.only_pwr m _ [] (by simp)

theorem Mod.hostHeard_only (m : Mod) : m.only [.bwk, .pwr] [] m.hostHeard :=
  Mod.only_trans (Mod.only_bwk m _ [] (by simp)) (Mod.only_mono (Mod.checkOff_only _ _) (by simp) (by simp))

/-! ## A plan message (R55, R292) -/

/-- The points that a plan message carries: 6 with a cap, else 8. -/
def planCount (b : List Nat) : Nat := if bit (b.getD 1 0) 0 then 6 else 8

/-- The bands of a plan message, LO and HI of each point. -/
def planBands (b : List Nat) : List (Nat × Nat) :=
  (List.range (planCount b)).map fun i => (le b (16 + 4 * i) 2, le b (18 + 4 * i) 2)

/-- A value of a plan in 0.1 kW: in a fleet plan a fraction of BASIS. -/
def Mod.planValue (m : Mod) (fleet : Bool) (v : Nat) : Nat :=
  if fleet then (rna ((v : Rat) * (m.get R.LNK_FLEET_CFG_BASIS : Rat) / 65536)).toNat else v

/-- The points of a plan message, one every 10 ms from T0. -/
def Mod.planPoints (m : Mod) (fleet : Bool) (b : List Nat) : List PlanPt :=
  (List.range (planCount b)).map fun i =>
    ⟨le b 8 8 + i * planStep, m.planValue fleet (le b (16 + 4 * i) 2), m.planValue fleet (le b (18 + 4 * i) 2)⟩

/-- The points are those of the bands. -/
theorem Mod.planPoints_of_bands (m : Mod) (fleet : Bool) (b : List Nat) :
    (List.range (planBands b).length).map (fun i => PlanPt.mk (le b 8 8 + i * planStep)
      (m.planValue fleet ((planBands b).getD i (0, 0)).1) (m.planValue fleet ((planBands b).getD i (0, 0)).2)) = m.planPoints fleet b := by
  have hlen : (planBands b).length = planCount b := by rw [planBands, List.length_map, List.length_range]
  rw [hlen]
  refine List.map_congr_left fun i hi => ?_
  have hband : (planBands b).getD i (0, 0) = (le b (16 + 4 * i) 2, le b (18 + 4 * i) 2) := by
    rw [planBands, List.getD_eq_getElem?_getD, List.getElem?_map, List.getElem?_range (List.mem_range.mp hi)]
    rfl
  rw [hband]

/-- A plan message that the lead takes in: its points replace those at and after T0; the host is heard, and check 0x0204 ends. -/
def Mod.planTaken (m : Mod) (fleet : Bool) (b : List Nat) (points : List PlanPt) : Mod :=
  Mod.checkOff (Mod.hostHeard { m with
    plan.points := m.plan.points.filter (fun (p : PlanPt) => decide (p.t < le b 8 8)) ++ points,
    plan.seq := le b 2 2, plan.cap := if bit (b.getD 1 0) 0 then m.planValue fleet (le b 40 2) else m.plan.cap, plan.ended := false }) 0x0204

theorem Mod.planTaken_only (m : Mod) (fleet : Bool) (b : List Nat) (points : List PlanPt) :
    m.only [.plan, .bwk, .pwr] [] (m.planTaken fleet b points) :=
  Mod.only_trans (Mod.only_plan m _ [] (by simp))
    (Mod.only_trans (Mod.only_mono (Mod.hostHeard_only _) (by simp) (by simp)) (Mod.only_mono (Mod.checkOff_only _ _) (by simp) (by simp)))

/-- The form of a plan message that the lead takes in: the type of its source, 48 bytes, T0 a multiple of 10 ms that has not begun to pass,
bands in order. -/
def Mod.planFits (m : Mod) (fleet : Bool) (b : List Nat) : Prop :=
  b.length = 48 ∧ b.getD 0 0 = (if fleet then 0x52 else 0x51) ∧ m.is R.LNK_FLEET_CFG_PLAN_SRC = fleet ∧
    (fleet = true → m.get R.LNK_FLEET_CFG_BASIS ≠ 0) ∧ le b 8 8 % planStep = 0 ∧ m.nowNs / planStep * planStep ≤ le b 8 8 ∧
    ∀ i < planCount b, le b (16 + 4 * i) 2 ≤ le b (18 + 4 * i) 2

theorem exec_planReceive {s : State} {b : List Byte} {fleet : Bool} (hon : s.on) (hlead : s.m.isLead = true)
    (hfit : s.m.planFits fleet (natBytes b)) :
    exec (.planReceive b) s = .next { s with m :=
      (s.m.takeInbox 7 (natBytes b)).planTaken fleet (natBytes b) (s.m.planPoints fleet (natBytes b)) } := by
  obtain ⟨hlen, htype, hsrc, hbasis, ht0, hpast, hbands⟩ := hfit
  let got : Mod := s.m.takeInbox 7 (natBytes b)
  have hfleet : ((natBytes b).getD 0 0 == 0x52) = fleet := by rw [htype]; cases fleet <;> rfl
  have hform : ¬ ((!got.isLead || (natBytes b).length != 48 || !((natBytes b).getD 0 0 == 0x51 || fleet)) = true) := by
    rw [show got.isLead = true from hlead, hlen, htype]
    cases fleet <;> decide
  have hscale : ¬ ((fleet && got.get R.LNK_FLEET_CFG_BASIS == 0) = true) := by
    rw [Bool.and_eq_true, beq_iff_eq]
    exact fun ⟨hf, h0⟩ => hbasis hf h0
  have hvalid : ¬ (le (natBytes b) 8 8 % planStep ≠ 0 ∨ le (natBytes b) 8 8 < got.nowNs / planStep * planStep ∨
      (planBands (natBytes b)).any (fun e => decide (e.2 < e.1)) = true) := by
    rintro (h | h | h)
    · exact h ht0
    · exact absurd (show s.m.nowNs / planStep * planStep ≤ le (natBytes b) 8 8 from hpast) (not_le.mpr h)
    · simp only [planBands, List.any_map, List.any_eq_true, List.mem_range, Function.comp_apply, decide_eq_true_eq] at h
      obtain ⟨i, hi, hlt⟩ := h
      exact absurd (hbands i hi) (not_le.mpr hlt)
  have hmatch : ¬ ((fleet != got.is R.LNK_FLEET_CFG_PLAN_SRC) = true) := by
    rw [show got.is R.LNK_FLEET_CFG_PLAN_SRC = fleet from hsrc]
    simp
  rw [show exec (.planReceive b) s = execPlanReceive b s from rfl, execPlanReceive, onMod, if_neg hon, ← Mod.planPoints_of_bands]
  refine congrArg (fun m : Mod => Host.Outcome.next { s with m := m }) ?_
  simp only [hfleet]
  exact (if_neg hform).trans ((if_neg hscale).trans ((if_neg hvalid).trans (if_neg hmatch)))

/-- A plan message of the right form gives its points, sequence number and cap, and ends check 0x0204. -/
theorem Does.planTaken {s : State} {b : List Byte} {fleet : Bool} (hon : s.on) (hlead : s.m.isLead = true)
    (hfit : s.m.planFits fleet (natBytes b)) :
    Does (.planReceive b) s fun t =>
      t.m.plan.points = s.m.plan.points.filter (fun p => decide (p.t < le (natBytes b) 8 8)) ++ s.m.planPoints fleet (natBytes b) ∧
      t.m.plan.seq = le (natBytes b) 2 2 ∧
      t.m.plan.cap = (if bit ((natBytes b).getD 1 0) 0 then s.m.planValue fleet (le (natBytes b) 40 2) else s.m.plan.cap) ∧
      t.m.checkActive 0x0204 = false ∧ s.frame [.plan, .lnk, .bwk, .pwr] [] t :=
  ⟨_, exec_planReceive hon hlead hfit, rfl, rfl, rfl, Mod.checkOff_inactive _ _,
    State.frame_of_only (Mod.only_trans (Mod.only_mono (s.m.takeInbox_only 7 (natBytes b)) (by simp) (by simp))
      (Mod.only_mono (Mod.planTaken_only _ fleet _ _) (by simp) (by simp)))⟩

/-- Table 09-9 in the bytes of an operand: a plan message of a source, without or with a cap, fits. -/
theorem Mod.planFits_of_bytes {m : Mod} {b : List Byte} {fleet capv : Bool} (hlen : b.length = 48)
    (htype : b.getD 0 0 = if fleet then 0x52 else 0x51) (hcapv : bit (b.getD 1 0).toNat 0 = capv)
    (hsrc : m.get R.LNK_FLEET_CFG_PLAN_SRC = b2n fleet) (hbasis : fleet = true → m.get R.LNK_FLEET_CFG_BASIS ≠ 0)
    (ht0 : le (natBytes b) 8 8 % planStep = 0) (hpast : m.nowNs / planStep * planStep ≤ le (natBytes b) 8 8)
    (hbands : ∀ i < (if capv then 6 else 8), le (natBytes b) (16 + 4 * i) 2 ≤ le (natBytes b) (18 + 4 * i) 2) :
    planCount (natBytes b) = (if capv then 6 else 8) ∧ m.planFits fleet (natBytes b) := by
  have hcount : planCount (natBytes b) = if capv then 6 else 8 := by rw [planCount, getD_natBytes, hcapv]
  refine ⟨hcount, by rw [length_natBytes, hlen], ?_, ?_, hbasis, ht0, hpast, by rw [hcount]; exact hbands⟩
  · rw [getD_natBytes, htype]
    cases fleet <;> rfl
  · rw [Mod.is, hsrc]
    cases fleet <;> rfl

/-! ## The end of a plan (R292, R415) -/

theorem Does.planEnded {s : State} {p : PlanPt} (hon : s.on) (hlead : s.m.isLead = true) (hlast : s.m.plan.points.getLast? = some p)
    (hpast : p.t ≤ s.m.nowNs) :
    Does .planEnd s fun t => t.m.plan.ended = true ∧ t.m.checkActive 0x0204 = true ∧ t.m.plan.points = s.m.plan.points ∧
      s.frame [.plan, .pwr, .log] [] t := by
  let ended : Mod := { s.m with plan.ended := true }
  have hcheck := ended.checkOn_only (code := 0x0204) s.m.plan.seq (s.m.plan.seq : Int) 0 (by decide) (by decide)
  have hplan : (ended.checkOn 0x0204 s.m.plan.seq (s.m.plan.seq : Int) 0).plan = ended.plan := hcheck.1 .plan (by simp)
  have hacts : Does .planEnd s fun t => t = { s with m := ended.checkOn 0x0204 s.m.plan.seq (s.m.plan.seq : Int) 0 } := by
    refine Does.ofMod (show exec .planEnd s = execPlanEnd s from rfl) hon ?_
    simp only [hlast]
    rw [if_pos (by simp [hpast, hlead])]
  obtain ⟨t, hexec, rfl⟩ := hacts
  exact ⟨_, hexec, congrArg PlanS.ended hplan, Mod.checkOn_active _ _ _ _ _, (congrArg PlanS.points hplan).trans rfl,
    State.frame_of_only (Mod.only_trans (Mod.only_plan s.m _ [] (by simp)) (Mod.only_mono hcheck (by simp) (by simp)))⟩

/-! ## Host caps (R60, R62, R64) -/

theorem Mod.endBreach_frame (m : Mod) : m.only [.bwk, .flt] (R.BWK_DP_STAT_CAP_BREACH :: repFlds 6) m.endBreach := by
  unfold Mod.endBreach
  split
  · exact Mod.only_trans (Mod.only_trans (Mod.only_bwk m _ _ (by simp)) (Mod.only_put _ _ 0 _ (by simp)))
      (Mod.only_mono (Mod.condEnd_only _ 6 2 5 0 1) (by simp) (fun _ h => List.mem_cons_of_mem _ h))
  · exact Mod.only_refl m _ _

/-- An accepted cap is shown. -/
theorem Mod.acceptHostCap_get (m : Mod) (v : Nat) : (m.acceptHostCap v).get R.BWK_CAP_HOST_CAP = v % 2 ^ 16 :=
  (Mod.only_get (Mod.endBreach_frame _) _ (Fld.apart_of_all (by decide))).trans (Mod.get_put_same m R.BWK_CAP_HOST_CAP v (by decide))

/-- Of the breakwater an accepted cap changes the breach alone. -/
theorem Mod.acceptHostCap_bwk (m : Mod) (v : Nat) : ∃ br, (m.acceptHostCap v).bwk = { m.bwk with breach := br } := by
  unfold Mod.acceptHostCap Mod.endBreach
  split
  · exact ⟨false, (Mod.condEnd_only _ 6 2 5 0 1).1 .bwk (by simp)⟩
  · exact ⟨m.bwk.breach, rfl⟩

/-- A host cap that arrives changes of the breakwater the waiting cap and the breach alone. -/
theorem Mod.takeHostCap_bwk (m : Mod) (c : Nat) : ∃ w br, (m.takeHostCap c).bwk = { m.bwk with capWait := w, breach := br } := by
  unfold Mod.takeHostCap
  split
  · exact ⟨some c, m.bwk.breach, rfl⟩
  · obtain ⟨br, h⟩ := m.acceptHostCap_bwk c
    exact ⟨m.bwk.capWait, br, h⟩

theorem Mod.takeHostCap_only (m : Mod) (c : Nat) : m.only [.bwk, .flt] capFlds (m.takeHostCap c) := by
  unfold Mod.takeHostCap
  split
  · exact Mod.only_bwk m _ _ (by simp)
  · exact m.acceptHostCap_only c

/-- A write of BWK_CAP_HOST takes the cap as a message does. -/
theorem exec_bwkCapHostWrite {s : State} {v : Word} (hon : s.on) (hw : s.m.wrStatus 0x6064 v.toNat = 0) :
    exec (.bwkCapHostWrite v) s = .next { s with m := { s.m.takeHostCap (v.toNat % 65536) with resp := 0 } } := by
  rw [show exec (.bwkCapHostWrite v) s = execBwkCapHostWrite v s from rfl, execBwkCapHostWrite, onMod, if_neg hon]
  simp only
  rw [Mod.guarded_ok _ hw]
  rfl

/-- Outside an election a host cap is accepted at once. -/
theorem Mod.takeHostCap_now {m : Mod} (c : Nat) (h : m.get R.MOD_ROLE_STAT_ELECTING = 0) : m.takeHostCap c = m.acceptHostCap c :=
  if_neg (by rw [Mod.is, h]; decide)

/-- In an election it waits. -/
theorem Mod.takeHostCap_waits {m : Mod} (c : Nat) (h : m.get R.MOD_ROLE_STAT_ELECTING = 1) :
    m.takeHostCap c = { m with bwk.capWait := some c } :=
  if_pos (by rw [Mod.is, h]; decide)

/-! ## HOST_CMD (R55, R56, R60, R62) -/

/-- The target of a HOST_CMD, by its FLAGS bit 0. -/
def Mod.cmdTarget (m : Mod) (b : List Nat) : Mod :=
  if bit (b.getD 1 0) 0 then
    let t := sext 16 (le b 2 2)
    let m := if 2000 < t then m.logCond 0x0105 2 t 2000 else m
    if m.planSrc = 1 then
      let c := min t 2000
      (({ m with bwk.tgt := some ((c : Rat) / 10) }).putI R.BWK_SHARE_SHARE c).endHold
    else m
  else m

/-- The cap of a HOST_CMD, by its FLAGS bit 1. -/
def Mod.cmdCap (m : Mod) (b : List Nat) : Mod :=
  if bit (b.getD 1 0) 1 then
    let c := le b 4 2
    let bad := decide (2001 ≤ c) && c != 0xFFFF
    let m := if bad then m.logCond 0x0105 4 (c : Int) 2000 else m
    m.takeHostCap (if bad then 2000 else c)
  else m

/-- The set point of a HOST_CMD, by its FLAGS bit 2. -/
def Mod.cmdSetPoint (m : Mod) (b : List Nat) : Mod :=
  if bit (b.getD 1 0) 2 && m.get R.MOD_ROLE_CFG_MODE == 1 then m.setSpTarget (le b 6 2) else m

/-- A HOST_CMD is heard, then its three fields act in turn. -/
theorem Mod.hostCmd_eq (m : Mod) (b : List Nat) : m.hostCmd b = ((m.hostHeard.cmdTarget b).cmdCap b).cmdSetPoint b := rfl

/-- The target changes of the breakwater P_TGT alone; no check. -/
theorem Mod.cmdTarget_keeps (m : Mod) (b : List Nat) :
    (∃ x, (m.cmdTarget b).bwk = { m.bwk with tgt := x }) ∧ (m.cmdTarget b).pwr = m.pwr := by
  have hset (a : Mod) (x : Rat) (c : Int) : ((({ a with bwk.tgt := some x }).putI R.BWK_SHARE_SHARE c).endHold).bwk = { a.bwk with tgt := some x } ∧
      ((({ a with bwk.tgt := some x }).putI R.BWK_SHARE_SHARE c).endHold).pwr = a.pwr :=
    ⟨(Mod.endHold_only _).1 .bwk (by simp), (Mod.endHold_only _).1 .pwr (by simp)⟩
  unfold Mod.cmdTarget
  split
  · extract_lets t logged c
    have hbwk : logged.bwk = m.bwk := by unfold logged; split <;> rfl
    have hpwr : logged.pwr = m.pwr := by unfold logged; split <;> rfl
    split
    · obtain ⟨h1, h2⟩ := hset logged ((c : Rat) / 10) c
      exact ⟨⟨_, h1.trans (by rw [hbwk])⟩, h2.trans hpwr⟩
    · exact ⟨⟨m.bwk.tgt, hbwk⟩, hpwr⟩
  · exact ⟨⟨m.bwk.tgt, rfl⟩, rfl⟩

/-- In DIRECT source the target is taken, at most 200 kW (R55). -/
theorem Mod.cmdTarget_direct {m : Mod} {b : List Nat} (hsrc : m.planSrc = 1) (hflag : bit (b.getD 1 0) 0 = true) :
    (m.cmdTarget b).bwk.tgt = some (((min (sext 16 (le b 2 2)) 2000 : Int) : Rat) / 10) := by
  unfold Mod.cmdTarget
  rw [if_pos hflag]
  extract_lets t logged c
  have hlogged : logged.planSrc = 1 := by unfold logged; split <;> exact hsrc
  rw [if_pos hlogged]
  exact congrArg BwkS.tgt ((Mod.endHold_only _).1 .bwk (by simp))

/-- The cap changes of the breakwater the waiting cap and the breach alone; no check. -/
theorem Mod.cmdCap_keeps (m : Mod) (b : List Nat) :
    (∃ w br, (m.cmdCap b).bwk = { m.bwk with capWait := w, breach := br }) ∧ (m.cmdCap b).pwr = m.pwr := by
  unfold Mod.cmdCap
  split
  · extract_lets c bad logged
    have hbwk : logged.bwk = m.bwk := by unfold logged; split <;> rfl
    have hpwr : logged.pwr = m.pwr := by unfold logged; split <;> rfl
    obtain ⟨w, br, h⟩ := logged.takeHostCap_bwk (if bad then 2000 else c)
    exact ⟨⟨w, br, h.trans (by rw [hbwk])⟩, ((logged.takeHostCap_only _).1 .pwr (by simp)).trans hpwr⟩
  · exact ⟨⟨m.bwk.capWait, m.bwk.breach, rfl⟩, rfl⟩

/-- The set point changes neither breakwater nor checks. -/
theorem Mod.setSpTarget_parts (m : Mod) (v : Nat) : m.onlyParts [.cen, .flt] (m.setSpTarget v) := by
  unfold Mod.setSpTarget
  extract_lets
  split
  extract_lets c aimed shown
  have haim : m.onlyParts [.cen, .flt] shown :=
    Mod.onlyParts_trans (Mod.only_cen m _ [] (by simp)).1 (Mod.onlyParts_trans (Mod.onlyParts_put aimed _ _ _) (Mod.onlyParts_put _ _ _ _))
  split
  · exact haim
  · exact Mod.onlyParts_trans haim (Mod.onlyParts_trans (Mod.onlyParts_put _ _ _ _)
      (Mod.onlyParts_mono (Mod.raiseLim_only _ (10 * tickS) 8 4 0x0B 0 0).1 (by simp)))

theorem Mod.cmdSetPoint_parts (m : Mod) (b : List Nat) : m.onlyParts [.cen, .flt] (m.cmdSetPoint b) := by
  unfold Mod.cmdSetPoint
  split
  · exact m.setSpTarget_parts _
  · exact Mod.onlyParts_refl m _

/-- After a HOST_CMD the host has been heard, and P_TGT is what its target made of it. -/
theorem Mod.hostCmd_heard (m : Mod) (b : List Nat) :
    (m.hostCmd b).bwk.hostTick = m.time.ticks ∧ (m.hostCmd b).checkActive 0x0201 = false ∧
      (m.hostCmd b).bwk.tgt = (m.hostHeard.cmdTarget b).bwk.tgt := by
  rw [Mod.hostCmd_eq]
  obtain ⟨⟨x, htgt⟩, hpwr⟩ := m.hostHeard.cmdTarget_keeps b
  obtain ⟨⟨w, br, hcap⟩, hpwr'⟩ := (m.hostHeard.cmdTarget b).cmdCap_keeps b
  have hset := ((m.hostHeard.cmdTarget b).cmdCap b).cmdSetPoint_parts b
  have hbwk := hset .bwk (by simp)
  have hend : (((m.hostHeard.cmdTarget b).cmdCap b).cmdSetPoint b).pwr = m.hostHeard.pwr :=
    (hset .pwr (by simp)).trans (hpwr'.trans hpwr)
  refine ⟨?_, (Mod.checkActive_congr 0x0201 hend).trans (Mod.checkOff_inactive _ _), ?_⟩
  · exact (congrArg BwkS.hostTick hbwk).trans ((congrArg BwkS.hostTick hcap).trans (congrArg BwkS.hostTick htgt))
  · exact (congrArg BwkS.tgt hbwk).trans ((congrArg BwkS.tgt hcap).trans rfl)

/-- A HOST_CMD of full length acts unless a reserved byte is set. -/
theorem exec_hostCmdReceive {s : State} {b : List Byte} (hon : s.on) (hlen : b.length = 12) (htype : b.getD 0 0 = 0x53) :
    exec (.hostCmdReceive b) s = .next { s with m :=
      if (le (natBytes b) 8 4 ≠ 0) then (s.m.takeInbox 8 (natBytes b)).logCond 0x0105 8 (le (natBytes b) 8 4 : Int) 0
      else (s.m.takeInbox 8 (natBytes b)).hostCmd (natBytes b) } := by
  have hform : ¬ (((natBytes b).getD 0 0 != 0x53 || (natBytes b).length != 12) = true) := by
    rw [getD_natBytes, htype, length_natBytes, hlen]
    decide
  rw [show exec (.hostCmdReceive b) s = execHostCmdReceive b s from rfl, execHostCmdReceive, onMod, if_neg hon]
  simp only
  rw [if_neg hform]

/-- A cap of at most 200 kW that comes alone, outside an election, is accepted at once. -/
theorem Mod.hostCmd_cap {m : Mod} {b : List Nat} (hflags : b.getD 1 0 = 2) (hcap : le b 4 2 ≤ 2000)
    (he : m.get R.MOD_ROLE_STAT_ELECTING = 0) : (m.hostCmd b).get R.BWK_CAP_HOST_CAP = le b 4 2 := by
  have htgt : m.hostHeard.cmdTarget b = m.hostHeard := if_neg (by rw [hflags]; decide)
  have hbad : (decide (2001 ≤ le b 4 2) && le b 4 2 != 0xFFFF) = false := by simp; omega
  have htake : m.hostHeard.cmdCap b = m.hostHeard.acceptHostCap (le b 4 2) := by
    unfold Mod.cmdCap
    rw [if_pos (by rw [hflags]; decide)]
    simp only [hbad, Bool.false_eq_true, if_false]
    exact Mod.takeHostCap_now _ he
  have hset : (m.hostHeard.cmdCap b).cmdSetPoint b = m.hostHeard.cmdCap b := if_neg (by rw [hflags]; simp [bit])
  rw [Mod.hostCmd_eq, htgt, hset, htake, Mod.acceptHostCap_get]
  exact Nat.mod_eq_of_lt (by omega)

/-! ## The statement -/

/-- The points of a facility plan carry its values as they are. -/
theorem Mod.planPoints_facility (m : Mod) {b : List Nat} {n : Nat} (hn : planCount b = n) :
    m.planPoints false b = (List.range n).map fun i =>
      PlanPt.mk (le b 8 8 + i * planStep) (le b (16 + 4 * i) 2) (le b (18 + 4 * i) 2) := by
  rw [Mod.planPoints, hn]
  rfl

/-- The last of the eight points of a plan without a cap. -/
theorem Mod.planPoints_getLast (m : Mod) (fleet : Bool) {b : List Nat} (hn : planCount b = 8) (l : List PlanPt) :
    (l ++ m.planPoints fleet b).getLast? =
      some ⟨le b 8 8 + 7 * planStep, m.planValue fleet (le b 44 2), m.planValue fleet (le b 46 2)⟩ := by
  rw [Mod.planPoints, hn, show 8 = 7 + 1 from rfl, List.range_succ, List.map_append, List.map_singleton, ← List.append_assoc,
    List.getLast?_concat]

/-- Settles O23: a plan message of the right form is taken in with its points, a plan ends at its last point, and host caps and targets are
accepted, wait or are refused. -/
theorem plansAndCaps : Obligations.PlansAndCaps := by
  unfold Obligations.PlansAndCaps
  refine ⟨fun s b hon hlead hlen htype hcapv hsrc ht0 hpast hbands => ?facility,
    fun s b hon hlead hlen htype hcapv hsrc ht0 hpast hbands => ?withCap,
    fun s b hon hlead hlen htype hcapv hsrc hbasis ht0 hpast hbands => ?fleet,
    fun s p hon hlead hlast hpast => Does.planEnded hon hlead hlast hpast, fun s v hon hw he => ?accepted, fun s v hon hw he => ?waits,
    fun s b hon hlen htype hflags hres hcap he => ?cmdCap, fun s b hon hlen htype hres => ?refused, fun s b hon hlen htype hres => ?target⟩
  case facility =>
    obtain ⟨hn, hfit⟩ := Mod.planFits_of_bytes (fleet := false) hlen htype hcapv hsrc (by simp) ht0 hpast hbands
    obtain ⟨t, hexec, hpoints, hseq, hcap, hcheck, hframe⟩ := Does.planTaken hon hlead hfit
    rw [s.m.planPoints_facility hn] at hpoints
    rw [getD_natBytes, hcapv] at hcap
    exact ⟨t, hexec, hpoints, hseq, hcap, hcheck, hframe⟩
  case withCap =>
    obtain ⟨hn, hfit⟩ := Mod.planFits_of_bytes (fleet := false) hlen htype hcapv hsrc (by simp) ht0 hpast hbands
    obtain ⟨t, hexec, hpoints, hseq, hcap, -, -⟩ := Does.planTaken hon hlead hfit
    rw [s.m.planPoints_facility hn] at hpoints
    rw [getD_natBytes, hcapv] at hcap
    refine ⟨t, hexec, hcap, hseq, ?_⟩
    rw [hpoints]
    exact List.drop_left' (by simp)
  case fleet =>
    obtain ⟨hn, hfit⟩ := Mod.planFits_of_bytes (fleet := true) hlen htype hcapv hsrc (fun _ => hbasis) ht0 hpast hbands
    obtain ⟨t, hexec, hpoints, hseq, hcap, -, -⟩ := Does.planTaken hon hlead hfit
    rw [getD_natBytes, hcapv] at hcap
    exact ⟨t, hexec, hseq, hcap, hpoints ▸ s.m.planPoints_getLast true hn _⟩
  case accepted =>
    refine ⟨_, exec_bwkCapHostWrite hon hw, ?_⟩
    rw [Mod.takeHostCap_now _ he]
    exact ⟨(s.m.acceptHostCap_get _).trans (Nat.mod_mod _ _), rfl,
      Mod.onlyParts_trans (Mod.onlyParts_mono (s.m.acceptHostCap_only _).1 (by simp)) (Mod.only_resp _ 0 [] (by simp)).1⟩
  case waits =>
    refine ⟨_, exec_bwkCapHostWrite hon hw, ?_⟩
    rw [Mod.takeHostCap_waits _ he]
    exact ⟨rfl, State.frame_of_only (Mod.only_trans (Mod.only_bwk s.m _ [] (by simp)) (Mod.only_resp _ 0 [] (by simp)))⟩
  case cmdCap =>
    obtain ⟨htick, hcheck, -⟩ := (s.m.takeInbox 8 (natBytes b)).hostCmd_heard (natBytes b)
    have hexec := exec_hostCmdReceive hon hlen htype
    rw [if_neg (not_not.mpr hres)] at hexec
    have hflag : (natBytes b).getD 1 0 = 2 := by rw [getD_natBytes, hflags]; rfl
    exact ⟨_, hexec, Mod.hostCmd_cap hflag hcap he, htick, hcheck⟩
  case refused =>
    have hexec := exec_hostCmdReceive hon hlen htype
    rw [if_pos hres] at hexec
    exact ⟨_, hexec, Mod.log1_logs _ _ _ _ _, State.frame_of_only
      (Mod.only_trans (Mod.only_mono (s.m.takeInbox_only 8 (natBytes b)) (by simp) (by simp)) (Mod.log1_frame _ _ _ _ _ [] (by simp)))⟩
  case target =>
    obtain ⟨htick, hcheck, htgt⟩ := (s.m.takeInbox 8 (natBytes b)).hostCmd_heard (natBytes b)
    have hexec := exec_hostCmdReceive hon hlen htype
    rw [if_neg (not_not.mpr hres)] at hexec
    exact ⟨_, hexec, htick, hcheck, fun hsrc hflag => htgt.trans (Mod.cmdTarget_direct hsrc (by rw [getD_natBytes]; exact hflag))⟩

end Sys2Proof.Machine
end

section
/-!
PROOFS. The windows of the tide table and of the loss table, and the clearing of a slot (R82, R98, R99, R462): what a window word and its
address do, what clearing a slot leaves, the statements TableWindows and SlotClearing.
-/
namespace Sys2Proof.Machine

/-! ## One part of the module changes -/

theorem Mod.only_ttb (m : Mod) (x : TtbS) {ps : List Part} (fs : List Fld) (hp : Part.ttb ∈ ps) :
    m.only ps fs { m with ttb := x } := Mod.only_of_part .ttb hp rfl (by rintro ⟨⟩ h <;> trivial)

theorem Mod.only_rdata (m : Mod) (x : Nat) {ps : List Part} (fs : List Fld) (hp : Part.rdata ∈ ps) :
    m.only ps fs { m with rdata := x } := Mod.only_of_part .rdata hp rfl (by rintro ⟨⟩ h <;> trivial)

/-- The word and the STATUS that a read hands out. -/
theorem Mod.only_answer (m : Mod) (x y : Nat) {ps : List Part} (fs : List Fld) (hx : Part.rdata ∈ ps) (hy : Part.resp ∈ ps) :
    m.only ps fs { m with rdata := x, resp := y } :=
  Mod.only_trans (Mod.only_rdata m x fs hx) (Mod.only_resp { m with rdata := x } y fs hy)

/-! ## The windows' addresses (R462, Table 03-20) -/

theorem Mod.advanceTab_addr (m : Mod) : m.advanceTab.get R.TTB_TAB_ADDR_ADDR = (m.get R.TTB_TAB_ADDR_ADDR + 1) % 2 ^ 14 :=
  Mod.get_put_same m _ _ (by decide)

theorem Mod.advanceTab_only (m : Mod) (ps : List Part) {fs : List Fld} (h : R.TTB_TAB_ADDR_ADDR ∈ fs) : m.only ps fs m.advanceTab :=
  Mod.only_put m _ _ ps h

theorem Mod.advanceLoss_addr (m : Mod) : m.advanceLoss.get R.TTB_LOSS_ADDR_ADDR = (m.get R.TTB_LOSS_ADDR_ADDR + 1) % 2 ^ 10 :=
  Mod.get_put_same m _ _ (by decide)

theorem Mod.advanceLoss_only (m : Mod) (ps : List Part) {fs : List Fld} (h : R.TTB_LOSS_ADDR_ADDR ∈ fs) : m.only ps fs m.advanceLoss :=
  Mod.only_put m _ _ ps h

/-! ## A word of the table window (R82, R98) -/

/-- A word for an inactive slot writes the entry and moves the address on. -/
theorem Mod.tabWrite_inactive {m : Mod} (hi : Word) (h : m.get R.TTB_TAB_ADDR_ADDR / 4096 ≠ m.tslot) :
    m.tabWrite hi = Mod.advanceTab { m with
      ttb.tab := Sparse.set (fun _ => 0) m.ttb.tab (m.get R.TTB_TAB_ADDR_ADDR)
        ((m.get R.TTB_TAB_DATA_LO_DATA + hi.toNat * 2 ^ 32) % 2 ^ 57) } := if_neg h

/-- A word for the active slot is refused with REFUSED; the address moves on. -/
theorem Mod.tabWrite_active {m : Mod} (hi : Word) (h : m.get R.TTB_TAB_ADDR_ADDR / 4096 = m.tslot) :
    m.tabWrite hi = (m.put R.TTB_TAB_ADDR_REFUSED 1).advanceTab.refuse := if_pos h

theorem Does.tabCommitted {s : State} {hi : Word} (hw : s.m.wrStatus 0x7108 hi.toNat = 0) (hon : s.on)
    (h : s.m.get R.TTB_TAB_ADDR_ADDR / 4096 ≠ s.m.tslot) :
    Does (.ttbTabWrite hi) s fun t =>
      t.m.tabEntry (s.m.get R.TTB_TAB_ADDR_ADDR) = (s.m.get R.TTB_TAB_DATA_LO_DATA + hi.toNat * 2 ^ 32) % 2 ^ 57 ∧
        (∀ a, a ≠ s.m.get R.TTB_TAB_ADDR_ADDR → t.m.tabEntry a = s.m.tabEntry a) ∧
        t.m.get R.TTB_TAB_ADDR_ADDR = (s.m.get R.TTB_TAB_ADDR_ADDR + 1) % 2 ^ 14 ∧ t.m.resp = 0 ∧
        s.frame [.ttb, .resp] [R.TTB_TAB_ADDR_ADDR] t := by
  let answered : Mod := { s.m with resp := 0 }
  refine Does.ofMod (show exec (.ttbTabWrite hi) s = execTtbTabWrite hi s from rfl) hon ?_
  rw [Mod.guardedR_ok _ hw, Mod.tabWrite_inactive (m := answered) hi h]
  refine ⟨(Sparse.get_set _ s.m.ttb.tab _ _ _).trans (if_pos rfl),
    fun a ha => (Sparse.get_set _ s.m.ttb.tab _ a _).trans (if_neg (Ne.symm ha)), Mod.advanceTab_addr _, rfl, State.frame_of_only ?_⟩
  exact Mod.only_trans (Mod.only_trans (Mod.only_resp s.m 0 _ (by simp)) (Mod.only_ttb answered _ _ (by simp)))
    (Mod.advanceTab_only _ _ (by simp))

theorem Does.tabRefused {s : State} {hi : Word} (hw : s.m.wrStatus 0x7108 hi.toNat = 0) (hon : s.on)
    (h : s.m.get R.TTB_TAB_ADDR_ADDR / 4096 = s.m.tslot) :
    Does (.ttbTabWrite hi) s fun t => t.m.resp = 1 ∧ t.m.get R.TTB_TAB_ADDR_REFUSED = 1 ∧
      s.frame [.resp] [R.TTB_TAB_ADDR_ADDR, R.TTB_TAB_ADDR_REFUSED] t := by
  let answered : Mod := { s.m with resp := 0 }
  let shown : Mod := answered.put R.TTB_TAB_ADDR_REFUSED 1
  refine Does.ofMod (show exec (.ttbTabWrite hi) s = execTtbTabWrite hi s from rfl) hon ?_
  rw [Mod.guardedR_ok _ hw, Mod.tabWrite_active (m := answered) hi h]
  have hflag : shown.advanceTab.get R.TTB_TAB_ADDR_REFUSED = 1 :=
    (Mod.only_get (shown.advanceTab_only [] (fs := [R.TTB_TAB_ADDR_ADDR]) List.mem_cons_self) _ (Fld.apart_of_all (by decide))).trans
      (Mod.get_put_same answered _ 1 (by decide))
  refine ⟨rfl, hflag, State.frame_of_only ?_⟩
  exact Mod.only_trans (Mod.only_trans (Mod.only_trans (Mod.only_resp s.m 0 _ (by simp)) (Mod.only_put answered _ 1 _ (by simp)))
    (shown.advanceTab_only _ (by simp))) (Mod.refuse_frame _ _ (by simp))

/-! ## Reads, and the loss table (R99, R462) -/

theorem Does.tabRead {s : State} (hr : s.m.rdStatus 0x7108 = 0) (hon : s.on) :
    Does .ttbTabRead s fun t => t.m.rdata = s.m.tabEntry (s.m.get R.TTB_TAB_ADDR_ADDR) / 2 ^ 32 % 2 ^ 32 ∧ t.m.resp = 0 ∧
      t.m.get R.TTB_TAB_ADDR_ADDR = (s.m.get R.TTB_TAB_ADDR_ADDR + 1) % 2 ^ 14 ∧ s.frame [.rdata, .resp] [R.TTB_TAB_ADDR_ADDR] t := by
  refine Does.ofMod (show exec .ttbTabRead s = execTtbTabRead s from rfl) hon ?_
  rw [Mod.guardedRd_ok _ hr]
  exact ⟨rfl, rfl, s.m.advanceTab_addr, State.frame_of_only
    (Mod.only_trans (s.m.advanceTab_only _ (by simp)) (Mod.only_answer _ _ 0 _ (by simp) (by simp)))⟩

theorem Does.lossRead {s : State} (hr : s.m.rdStatus 0x7110 = 0) (hon : s.on) :
    Does (.ttbLossDataAccess none) s fun t => t.m.rdata = Sparse.get lossDflt s.m.ttb.loss (s.m.get R.TTB_LOSS_ADDR_ADDR) % 2 ^ 32 ∧
      t.m.get R.TTB_LOSS_ADDR_ADDR = (s.m.get R.TTB_LOSS_ADDR_ADDR + 1) % 2 ^ 10 ∧ s.frame [.rdata, .resp] [R.TTB_LOSS_ADDR_ADDR] t := by
  refine Does.ofMod (show exec (.ttbLossDataAccess none) s = onMod (fun m => m.guardedRd 0x7110 Mod.lossRead) s from rfl) hon ?_
  rw [Mod.guardedRd_ok _ hr]
  exact ⟨rfl, s.m.advanceLoss_addr, State.frame_of_only
    (Mod.only_trans (s.m.advanceLoss_only _ (by simp)) (Mod.only_answer _ _ 0 _ (by simp) (by simp)))⟩

theorem Does.lossWritten {s : State} {v : Word} (hw : s.m.wrStatus 0x7110 v.toNat = 0) (hon : s.on) :
    Does (.ttbLossDataAccess (some v)) s fun t =>
      t.m.ttb.lossDue = s.m.ttb.lossDue ++ [(s.m.get R.TTB_LOSS_ADDR_ADDR, v.toNat % 2 ^ 24)] ∧ t.m.ttb.loss = s.m.ttb.loss ∧
        t.m.get R.TTB_LOSS_ADDR_ADDR = (s.m.get R.TTB_LOSS_ADDR_ADDR + 1) % 2 ^ 10 ∧ t.m.resp = 0 ∧
        s.frame [.ttb, .resp] [R.TTB_LOSS_ADDR_ADDR] t := by
  refine Does.ofMod (show exec (.ttbLossDataAccess (some v)) s =
    onMod (fun m => m.guarded 0x7110 v.toNat (fun m => m.lossWrite v.toNat)) s from rfl) hon ?_
  rw [Mod.guarded_ok _ hw]
  exact ⟨rfl, rfl, Mod.advanceLoss_addr _, rfl, State.frame_of_only (Mod.only_trans
    (Mod.only_trans (Mod.only_ttb s.m _ _ (by simp)) (Mod.advanceLoss_only _ _ (by simp))) (Mod.only_resp _ 0 _ (by simp)))⟩

/-- Settles O35: each access of the two windows acts on the entry at its address, and moves the address on. -/
theorem tableWindows : Obligations.TableWindows := by
  unfold Obligations.TableWindows
  exact ⟨fun _ _ hw hon h => Does.tabCommitted hw hon h, fun _ hr hon => Does.tabRead hr hon, fun _ hr hon => Does.lossRead hr hon,
    fun _ _ hw hon => Does.lossWritten hw hon⟩

/-! ## A slot is cleared (R98) -/

/-- The fields that show a slot. -/
def slotFlds (n : Nat) : List Fld :=
  [R.TTB_SLOT_JOB_ID n, R.TTB_SLOT_STEPS n, R.TTB_SLOT_VALID n, R.TTB_SLOT_READY n, R.TTB_SLOTPER_PERIOD_US n, R.TTB_FALL_FALL_POS n,
    R.TTB_FALL_FALL_VALID n, R.TTB_STEP_COUNT, R.TTB_STAT_READY]

theorem Mod.showSlot_only (m : Mod) (n : Nat) (ps : List Part) : m.only ps (slotFlds n) (m.showSlot n) := by
  unfold Mod.showSlot
  extract_lets x shown
  have hshown : m.only ps (slotFlds n) shown := Mod.only_puts m _ ps (by simp [slotFlds])
  split
  · exact Mod.only_trans hshown (Mod.only_puts shown _ ps (by simp [slotFlds]))
  · exact hshown

/-- None of them is a bit of STATE. -/
theorem slotFlds_apart_state (n : Nat) : ∀ f ∈ slotFlds n, f.apart R.TTB_STAT_STATE := by
  simp only [slotFlds, List.mem_cons, List.not_mem_nil, or_false, forall_eq_or_imp, forall_eq, Fld.apart]
  omega

theorem Mod.setSlot_only (m : Mod) (n : Nat) (f : TSlot → TSlot) : m.only [.ttb] (slotFlds n) (m.setSlot n f) :=
  Mod.only_trans (Mod.only_ttb m _ _ (by simp)) (Mod.showSlot_only _ n _)

/-- A change of a slot's record changes the list of records, of all the tide table. -/
theorem Mod.setSlot_ttb (m : Mod) (n : Nat) (f : TSlot → TSlot) :
    (m.setSlot n f).ttb = { m.ttb with slots := (bank 4 m.ttb.slots {}).modify n f } := (Mod.showSlot_only _ n []).1 .ttb (by simp)

theorem Mod.slotRec_setSlot (m : Mod) (n k : Nat) (f : TSlot → TSlot) (h : k < 4) :
    (m.setSlot n f).slotRec k = if n = k then f (m.slotRec k) else m.slotRec k := by
  rw [Mod.slotRec, Mod.setSlot_ttb]
  exact getD_modify_bank 4 _ _ _ _ _ h

/-- A cleared slot keeps its place in the order of use, and nothing else. -/
theorem Mod.slotRec_clearSlot (m : Mod) {n : Nat} (h : n < 4) : (m.clearSlot n).slotRec n = { used := (m.slotRec n).used } :=
  (Mod.slotRec_setSlot _ n n _ h).trans (if_pos rfl)

theorem Mod.clearSlot_only (m : Mod) (n : Nat) : m.only [.ttb] (slotFlds n) (m.clearSlot n) :=
  Mod.only_trans (Mod.only_ttb m _ _ (by simp)) (Mod.setSlot_only _ n _)

theorem Mod.clearSlot_tstate (m : Mod) (n : Nat) : (m.clearSlot n).tstate = m.tstate :=
  Mod.only_get (m.clearSlot_only n) _ (slotFlds_apart_state n)

/-- Of the tide table, clearing a slot changes the entries, the records and the step that is being learned. -/
theorem Mod.clearSlot_ttb (m : Mod) (n : Nat) :
    (m.clearSlot n).ttb = { m.ttb with
      tab := Sparse.keep (fun a => a / 4096 != n) m.ttb.tab
      upd := m.ttb.upd.filter (fun u => u.slot.val != n)
      slots := (bank 4 m.ttb.slots {}).modify n (fun x => { used := x.used }) } := Mod.setSlot_ttb _ n _

/-- A step of the slot that is still being learned is dropped. -/
theorem Mod.clearSlot_upd {m : Mod} {n : Nat} {u : TUpd} (h : (m.clearSlot n).ttb.upd = some u) : u.slot.val ≠ n := by
  rw [Mod.clearSlot_ttb] at h
  obtain ⟨-, hslot⟩ := Option.filter_eq_some_iff.mp h
  simpa using hslot

/-! ## Lock is dropped (R79) -/

theorem Mod.stopFF_only (m : Mod) : m.only [.ttb] [] m.stopFF := by
  unfold Mod.stopFF Mod.turnFade
  split
  · exact Mod.only_refl m _ _
  · exact Mod.only_ttb m _ _ (by simp)

/-- The feed-forward stops: the fade turns towards zero, the table stays. -/
theorem Mod.stopFF_fade (m : Mod) : m.stopFF.ttb.fadeIn = false ∧ m.stopFF.ttb.tab = m.ttb.tab := by
  unfold Mod.stopFF Mod.turnFade
  split
  next h => exact ⟨beq_iff_eq.mp h, rfl⟩
  next => exact ⟨rfl, rfl⟩

theorem Mod.dropLock_only (m : Mod) : m.only [.ttb] [] m.dropLock := by
  unfold Mod.dropLock
  split
  · exact Mod.only_refl m _ _
  · exact Mod.only_trans m.stopFF_only (Mod.only_ttb _ _ _ (by simp))

/-- DROP_LOCK outside OFF calls for SEEK and stops the feed-forward; the table stays. -/
theorem Mod.dropLock_drops {m : Mod} (h : m.tstate ≠ 0) :
    m.dropLock.ttb.drop = true ∧ m.dropLock.ttb.fadeIn = false ∧ m.dropLock.ttb.tab = m.ttb.tab := by
  rw [Mod.dropLock, if_neg h]
  exact ⟨rfl, m.stopFF_fade⟩

/-! ## CLEAR_SLOT (R98) -/

/-- What CLEAR_SLOT has cleared of a slot of the module `m` once the module is `c`: its entries, VALID, READY and the count of its steps. -/
def Mod.slotCleared (m : Mod) (n : Nat) (c : Mod) : Prop :=
  (∀ a, a / 4096 = n → c.tabEntry a = 0) ∧ (∀ a, a / 4096 ≠ n → c.tabEntry a = m.tabEntry a) ∧ (c.slotRec n).valid = false ∧
    (c.slotRec n).ready = false ∧ (c.slotRec n).steps = 0

theorem Mod.clearSlot_cleared (m : Mod) {n : Nat} (h : n < 4) : m.slotCleared n (m.clearSlot n) := by
  refine ⟨fun a ha => ?_, fun a ha => ?_, ?_⟩
  · rw [Mod.tabEntry_clearSlot, if_pos ha]
  · rw [Mod.tabEntry_clearSlot, if_neg ha]
  · rw [Mod.slotRec_clearSlot m h]
    exact ⟨rfl, rfl, rfl⟩

theorem exec_ttbCmdClearSlot {s : State} {n : Fin 4} (hw : s.m.wrStatus 0x70F4 (2 + 4 * n.val) = 0) (hon : s.on) :
    exec (.ttbCmdClearSlot n) s = .next { s with m := { s.m.ttbClearSlot n with resp := 0 } } := by
  rw [show exec (.ttbCmdClearSlot n) s = execTtbCmdClearSlot n s from rfl, execTtbCmdClearSlot, onMod, if_neg hon, Mod.guarded_ok _ hw]

theorem Does.inactiveCleared {s : State} {n : Fin 4} (hw : s.m.wrStatus 0x70F4 (2 + 4 * n.val) = 0) (hon : s.on) (h : n.val ≠ s.m.tslot) :
    Does (.ttbCmdClearSlot n) s fun t => s.m.slotCleared n t.m ∧ t.m.tstate = s.m.tstate ∧ t.m.resp = 0 ∧
      s.m.onlyParts [.ttb, .resp] t.m := by
  refine ⟨_, exec_ttbCmdClearSlot hw hon, ?_⟩
  rw [Mod.ttbClearSlot, if_neg h]
  exact ⟨s.m.clearSlot_cleared n.isLt, s.m.clearSlot_tstate n, rfl,
    Mod.onlyParts_trans (Mod.onlyParts_mono (s.m.clearSlot_only n).1 (by simp)) (Mod.only_resp _ 0 [] (by simp)).1⟩

theorem Does.activeCleared {s : State} {n : Fin 4} (hw : s.m.wrStatus 0x70F4 (2 + 4 * n.val) = 0) (hon : s.on) (h : n.val = s.m.tslot)
    (hoff : s.m.tstate ≠ 0) :
    Does (.ttbCmdClearSlot n) s fun t => t.m.ttb.drop = true ∧ t.m.ttb.fadeIn = false ∧ (∀ u, t.m.ttb.upd = some u → u.slot ≠ n) ∧
      s.m.slotCleared n t.m ∧ t.m.resp = 0 ∧ s.m.onlyParts [.ttb, .resp] t.m := by
  obtain ⟨hdrop, hfade, htab⟩ := Mod.dropLock_drops hoff
  obtain ⟨hzero, hkept, hrec⟩ := s.m.dropLock.clearSlot_cleared n.isLt
  have hent (a : Nat) : s.m.dropLock.tabEntry a = s.m.tabEntry a := congrArg (Sparse.get (fun _ => 0) · a) htab
  refine ⟨_, exec_ttbCmdClearSlot hw hon, ?_⟩
  rw [Mod.ttbClearSlot, if_pos h]
  exact ⟨(congrArg TtbS.drop (Mod.clearSlot_ttb _ n)).trans hdrop, (congrArg TtbS.fadeIn (Mod.clearSlot_ttb _ n)).trans hfade,
    fun _ hu hslot => Mod.clearSlot_upd hu (congrArg Fin.val hslot), ⟨hzero, fun a ha => (hkept a ha).trans (hent a), hrec⟩, rfl,
    Mod.onlyParts_trans (Mod.onlyParts_mono (Mod.onlyParts_trans s.m.dropLock_only.1 (Mod.clearSlot_only _ n).1) (by simp))
      (Mod.only_resp _ 0 [] (by simp)).1⟩

/-- Settles O36: CLEAR_SLOT clears the slot it names, with lock dropped first when that is the active one, and the window's words for the
active slot are refused. -/
theorem slotClearing : Obligations.SlotClearing := by
  unfold Obligations.SlotClearing
  refine ⟨fun s n hw hon h => ?inactive, fun s n hw hon h hoff => ?active, fun _ _ hw hon h => Does.tabRefused hw hon h⟩
  case inactive =>
    obtain ⟨t, hexec, ⟨hzero, hkept, hvalid, hready, hsteps⟩, hrest⟩ := Does.inactiveCleared hw hon h
    exact ⟨t, hexec, hzero, hkept, hvalid, hready, hsteps, hrest⟩
  case active =>
    obtain ⟨t, hexec, hdrop, hfade, hupd, ⟨hzero, hkept, hvalid, hready, hsteps⟩, hrest⟩ := Does.activeCleared hw hon h hoff
    exact ⟨t, hexec, hdrop, hfade, hupd, hzero, hkept, hvalid, hready, hsteps, hrest⟩

end Sys2Proof.Machine
end

section
/-!
PROOFS. A late marker whose job is held by a slot record beyond the fourth (R95), which refutes the statement TideTablePhases.
-/
namespace Sys2Proof.Machine

/-- Ten slot records stand where the module has four, and the last one is the record of job 7; time is valid. -/
def slotBeyond : State :=
  { m := { ({} : Mod).puts [(R.TIM_STAT_VALID, 1)] with ttb.slots := List.replicate 9 {} ++ [{ valid := true, job := 7 }] } }

/-- A SUB marker of job 7 for instant 0, which is the present one: it comes late and acts at arrival (Table 03-5). -/
def subMarker : List Byte := [0x31, 0, 7, 0] ++ List.replicate 12 0 ++ [2] ++ List.replicate 15 0

/-- The marker's job change chooses record 9; TTB_SLOTPER of that number would stand where TTB_MKL_CNT stands, so that showing the record writes
its period, 0, over the count. -/
theorem slotBeyond_mklCnt :
    (((slotBeyond.m.takeInbox 2 (natBytes subMarker)).takeMarker (natBytes subMarker)).word R.TTB_MKL_CNT_COUNT.addr).toNat = 0 := by
  decide +kernel

/-- Refutes O34: its eleventh part says that a marker past its time adds one to TTB_MKL_CNT. A slot list longer than the four slots, which no
premise excludes, lets the job change that comes with the marker choose record 9, and showing that record writes 0 over the count. -/
theorem not_tideTablePhases : ¬ Obligations.TideTablePhases := by
  unfold Obligations.TideTablePhases
  rintro ⟨-, -, -, -, -, -, -, -, -, -, late, -, -⟩
  obtain ⟨t, ht, -, -, count⟩ := late slotBeyond subMarker (by decide) (by decide) (by decide) (by decide) (by decide)
  have hexec : exec (.markerReceive subMarker true) slotBeyond = .next { slotBeyond with
      m := (slotBeyond.m.takeInbox 2 (natBytes subMarker)).takeMarker (natBytes subMarker) } := rfl
  obtain rfl := Host.Outcome.next.inj (hexec.symm.trans ht)
  rw [slotBeyond_mklCnt] at count
  exact absurd count (by decide)

end Sys2Proof.Machine
end

section
/-!
PROOFS. Failing bytes that a write makes good again (R339, R341): the start of the cores writes their SRAM, a window write the weave bank,
and either takes the bytes it covers out of the list of known failing bytes, which refutes the statements EngineCommands and
EngineWindowsAndLaws.
-/
namespace Sys2Proof.Machine

/-! ## The start of the cores (R126) -/

/-- The cores are due to start, bank A holds an accepted image, and byte 0 of core 0's SRAM has failed in both copies. -/
def startOverFailing : State :=
  { m := { ({} : Mod).puts [(R.CEN_STAT_IMG_A, 1)] with cen.start := some 0, mem.dead := [(0, 0)] } }

/-- The start fills the SRAM, and with it that byte. -/
theorem startOverFailing_dead : startOverFailing.m.startCores.mem.dead = [] := by decide +kernel

/-- A scheduled start that is due starts the cores. -/
theorem exec_coresStart {s : State} {f : Nat} (hon : s.on) (hstart : s.m.cen.start = some f)
    (hdue : f ≤ s.m.frame ∧ !s.m.inRun ∧ s.m.bankOk s.m.actBank) : exec .coresStart s = .next { s with m := s.m.startCores } := by
  simp only [exec, execCoresStart, onMod, if_neg hon, hstart, if_pos hdue]

/-- Refutes O37: its third part says that the start of the cores changes the parts `ttb` and `cen` alone. It fills the SRAM too, and a byte
of it that had failed is good again, which is kept in the part `mem` (R339, R341). -/
theorem not_engineCommands : ¬ Obligations.EngineCommands := by
  unfold Obligations.EngineCommands
  rintro ⟨-, -, start, -⟩
  obtain ⟨t, ht, -, -, -, -, parts⟩ := start startOverFailing 0 (by decide) rfl (by decide) (by decide) (by decide)
  rw [exec_coresStart (by decide) rfl (by decide)] at ht
  obtain rfl := Host.Outcome.next.inj ht
  have kept : startOverFailing.m.startCores.mem = startOverFailing.m.mem := parts .mem (by decide)
  exact absurd (startOverFailing_dead.symm.trans (congrArg MemS.dead kept)) (by decide)

/-! ## A write of the weave bank's window (R133) -/

/-- The window addresses byte 0 of core 0's weave bank, the module is booted, and that byte has failed in both copies. -/
def windowOverFailing : State :=
  { m := { ({} : Mod).puts [(R.CEN_WIN_ADDR_SPACE, 1), (R.MGT_BOOT_STAGE, 4)] with mem.dead := [(4, 0)] } }

/-- The eight bytes that the write stores cover that byte. -/
theorem windowOverFailing_dead : ({ windowOverFailing.m with resp := 0 }.winWrite windowOverFailing.fuses (0 : Word).toNat).mem.dead = [] := by
  decide +kernel

/-- A window write that the access rules let through acts with STATUS 0 in place. -/
theorem exec_cenWinWrite {s : State} {hi : Word} (hw : s.m.wrStatus 0x8188 hi.toNat = 0) (hon : s.on) :
    exec (.cenWinWrite hi) s = .next { s with m := { s.m with resp := 0 }.winWrite s.fuses hi.toNat } := by
  simp only [exec, execCenWinWrite, onMod, if_neg hon, Mod.guardedR_ok _ hw]

/-- Refutes O38: its first part says that a window write to the weave bank leaves the part `mem`. A failing byte that it covers is good again,
and leaves the list of failing bytes there (R339, R341). -/
theorem not_engineWindowsAndLaws : ¬ Obligations.EngineWindowsAndLaws := by
  unfold Obligations.EngineWindowsAndLaws
  rintro ⟨write, -⟩
  obtain ⟨t, ht, -, -, -, -, parts⟩ := write windowOverFailing 0 (by decide) (by decide) (by decide) (by decide)
  rw [exec_cenWinWrite (by decide) (by decide)] at ht
  obtain rfl := Host.Outcome.next.inj ht
  have kept : ({ windowOverFailing.m with resp := 0 }.winWrite windowOverFailing.fuses (0 : Word).toNat).mem = windowOverFailing.m.mem :=
    parts .mem (by decide)
  exact absurd (windowOverFailing_dead.symm.trans (congrArg MemS.dead kept)) (by decide)

end Sys2Proof.Machine
end

section
/-!
PROOFS. Operations of phase control: one bit of a word, the isolation bits, the registers that follow the phases, isolation, commands OFF,
PATCH frames (R193, R200, R205, R207), each with what it does and what it leaves; counters and reports as an isolation needs them.
-/
namespace Sys2Proof.Machine

/-! ## One bit of a word -/

theorem setBit_eq (v i : Nat) (b : Bool) : setBit v i b = 2 ^ i * (2 * (v / 2 ^ i / 2) + b2n b) + v % 2 ^ i := by
  have hv := Nat.div_add_mod v (2 ^ i)
  have hq := Nat.div_add_mod (v / 2 ^ i) 2
  unfold setBit
  generalize v / 2 ^ i = q at hv hq ⊢
  generalize q / 2 = x, q % 2 = y at hq ⊢
  subst hq
  rw [Nat.mul_add] at hv ⊢
  rw [Nat.mul_comm y, Nat.mul_comm (b2n b)]
  omega

/-- A bit set or cleared reads so, and every other bit stays. -/
theorem bit_setBit (v i j : Nat) (b : Bool) : bit (setBit v i b) j = if i = j then b else bit v j := by
  rw [setBit_eq, bit_eq_testBit, bit_eq_testBit, Nat.testBit_two_pow_mul_add _ (Nat.mod_lt _ (Nat.two_pow_pos i)),
    Nat.testBit_mod_two_pow]
  rcases Nat.lt_trichotomy j i with h | rfl | h
  · simp [h, Nat.ne_of_gt h]
  · cases b <;> simp [b2n]
  · obtain ⟨d, rfl⟩ : ∃ d, j = i + (d + 1) := ⟨j - i - 1, by omega⟩
    have hb : (2 * (v / 2 ^ i / 2) + b2n b) / 2 = v / 2 ^ i / 2 := by have := b2n_le b; omega
    have hs : i + (d + 1) - i = d + 1 := by omega
    rw [if_neg (by omega), if_neg (by omega), hs, Nat.testBit_succ, hb, ← Nat.testBit_succ, Nat.testBit_div_two_pow, Nat.add_comm]

theorem bit_mod_two_pow {w i : Nat} (v : Nat) (h : i < w) : bit (v % 2 ^ w) i = bit v i := by
  rw [bit_eq_testBit, bit_eq_testBit, Nat.testBit_mod_two_pow, decide_eq_true h, Bool.true_and]

/-- A bit of a field after a bit of it was set or cleared. -/
theorem Mod.bit_put_setBit (m : Mod) (f : Fld) (i j : Nat) (b : Bool) (hw : f.lo + f.w ≤ 32) (hj : j < f.w) :
    bit ((m.put f (setBit (m.get f) i b)).get f) j = if i = j then b else bit (m.get f) j := by
  rw [Mod.get_put_same _ _ _ hw, bit_mod_two_pow _ hj, bit_setBit]

/-! ## One step of a run over a range -/

/-- What step `i` of a run over a range makes of a state stands at the end, when the steps before it keep what it asks for and those after it keep
what it makes. -/
theorem foldl_range_at {β : Type} {f : β → Nat → β} {n i : Nat} {P Q : β → Prop} (hi : i < n)
    (hbefore : ∀ q, ∀ j < n, j ≠ i → P q → P (f q j)) (hat : ∀ q, P q → Q (f q i))
    (hafter : ∀ q, ∀ j < n, j ≠ i → Q q → Q (f q j))
    {b : β} (h : P b) : Q ((List.range n).foldl f b) := by
  obtain ⟨before, after, hrange⟩ := List.append_of_mem (List.mem_range.mpr hi)
  have hdup : (before ++ i :: after).Nodup := hrange ▸ List.nodup_range
  have hlt : ∀ j ∈ before ++ i :: after, j < n := fun j hj => List.mem_range.mp (hrange ▸ hj)
  obtain ⟨hne, hne'⟩ : (∀ j ∈ before, j ≠ i) ∧ ∀ j ∈ after, j ≠ i := by
    simp only [List.nodup_append, List.nodup_cons] at hdup
    grind
  rw [hrange, List.foldl_append, List.foldl_cons]
  have hP : P (before.foldl f b) :=
    List.foldlRecOn (motive := P) before f h fun q hq j hj => hbefore q j (hlt j (by simp [hj])) (hne j hj) hq
  exact List.foldlRecOn (motive := Q) after f (hat _ hP) fun q hq j hj => hafter q j (hlt j (by simp [hj])) (hne' j hj) hq

/-! ## Whole words in a frame -/

theorem Mod.get_word (m : Mod) (a : Nat) : m.get ⟨a, 0, 32⟩ = (m.word a).toNat := by
  simp only [Mod.get, bits, Nat.pow_zero, Nat.div_one]
  exact Nat.mod_eq_of_lt (m.word a).isLt

/-- A register apart from the fields of the frame keeps its word. -/
theorem Mod.only_word {a b : Mod} {ps : List Part} {fs : List Fld} (h : a.only ps fs b) (x : Nat) (hx : ∀ f ∈ fs, f.apart ⟨x, 0, 32⟩) :
    b.word x = a.word x :=
  BitVec.eq_of_toNat_eq (by rw [← Mod.get_word, ← Mod.get_word]; exact Mod.only_get h _ hx)

/-- Fields outside a range of registers, decided, are apart from a field inside it. -/
theorem Fld.apart_of_range {fs : List Fld} {g : Fld} (lo hi : Nat) (h : (fs.all fun f => decide (f.addr < lo ∨ hi ≤ f.addr)) = true)
    (hlo : lo ≤ g.addr) (hhi : g.addr < hi) : ∀ f ∈ fs, f.apart g := by
  intro f hf
  have := of_decide_eq_true (List.all_eq_true.mp h f hf)
  exact .inl (by omega)

/-- Fields that lie outside PHS_PSTATn, or outside bits 3 to 14 of it, are apart from a field in those bits. -/
theorem Fld.apart_pstat {fs : List Fld}
    (h : (fs.all fun f => decide (f.addr < 0x9200 ∨ 0x92A0 ≤ f.addr ∨ f.lo + f.w ≤ 3 ∨ 15 ≤ f.lo)) = true)
    {n lo w : Nat} (hn : n < 40) (hlo : 3 ≤ lo) (hw : lo + w ≤ 15) : ∀ f ∈ fs, f.apart ⟨0x9200 + 4 * n, lo, w⟩ := by
  intro f hf
  have := of_decide_eq_true (List.all_eq_true.mp h f hf)
  simp only [Fld.apart]
  omega

theorem Fld.pstat_apart (n lo w : Nat) {g : Fld} (h : g.addr < 0x9200) : Fld.apart ⟨0x9200 + 4 * n, lo, w⟩ g :=
  .inl (by simp only; omega)

theorem Mod.only_phs (m : Mod) (x : PhsS) {ps : List Part} (fs : List Fld) (hp : Part.phs ∈ ps) :
    m.only ps fs { m with phs := x } := Mod.only_of_part .phs hp rfl (by rintro ⟨⟩ h <;> trivial)

theorem Mod.only_pins (m : Mod) (x : Pins) {ps : List Part} (fs : List Fld) (hp : Part.pins ∈ ps) :
    m.only ps fs { m with pins := x } := Mod.only_of_part .pins hp rfl (by rintro ⟨⟩ h <;> trivial)

/-! ## A saturated counter and its report (R330, R456) -/

theorem Mod.bump_only (m : Mod) (f : Fld) {ps : List Part} {fs : List Fld} (hp : Part.flt ∈ ps) (h : ∀ g ∈ cntFlds f.addr, g ∈ fs) :
    m.only ps fs (m.bump f) := Mod.bumpBy_frame m f.addr 1 hp h

/-- What holds of a module holds after the mark of a saturation, when its bits, the list of marks and its report keep it. -/
theorem Mod.satMark_keeps {P : Mod → Prop} {m : Mod} {a : Nat} {tell : Mod → Rep → Mod}
    (hdone : ∀ q l, P q → P { q with flt.satDone := l })
    (hput : ∀ q v, ∀ f ∈ [R.BLK_STAT_SAT (a / 4096), R.BLK_STAT_SAT_OFF (a / 4096)], P q → P (q.put f v))
    (ht : ∀ q r, r.blk = 14 → r.cls = 0 → r.ind = .event → P q → P (tell q r)) (h : P m) : P (m.satMark a tell) := by
  unfold Mod.satMark
  split
  · exact h
  · have hoff : ∀ q, P q → P (if q.is (R.BLK_STAT_SAT (a / 4096)) then q else q.put (R.BLK_STAT_SAT_OFF (a / 4096)) (a % 4096)) := by
      intro q hq
      split
      · exact hq
      · exact hput q _ _ (by simp) hq
    have htell : ∀ q, P q → P (if q.silent 14 0 then q else tell q { blk := 14, inst := 0, kind := 0x09, addr := a, cls := 0 }) := by
      intro q hq
      split
      · exact hq
      · exact ht q _ rfl rfl rfl hq
    exact htell _ (hput _ _ _ (by simp) (hoff _ (hdone _ _ h)))

theorem Mod.countBy_keeps {P : Mod → Prop} {m : Mod} (a n : Nat) {tell : Mod → Rep → Mod} (hword : ∀ q a v, P q → P (q.setWord a v))
    (hdone : ∀ q l, P q → P { q with flt.satDone := l }) (ht : ∀ q r, r.cls = 0 → P q → P (tell q r)) (h : P m) : P (m.countBy a n tell) := by
  unfold Mod.countBy
  simp only
  split
  · exact hword _ _ _ h
  · exact Mod.satMark_keeps hdone (fun q _ _ _ hq => hword q _ _ hq) (fun q r _ hc _ hq => ht q r hc hq) (hword _ _ _ h)

/-- A counter counts up to 2³² − 1 and holds there. -/
theorem Mod.word_bump_min (m : Mod) (f : Fld)
    (hf : ∀ g ∈ R.BLK_STAT_SAT (f.addr / 4096) :: R.BLK_STAT_SAT_OFF (f.addr / 4096) :: repFlds 14, g.apart ⟨f.addr, 0, 32⟩) :
    ((m.bump f).word f.addr).toNat = min ((m.word f.addr).toNat + 1) (2 ^ 32 - 1) := by
  have hlt := (m.word f.addr).isLt
  by_cases h : (m.word f.addr).toNat + 1 < 2 ^ 32
  · rw [Mod.bump, Mod.get_bump _ _ h]
    omega
  · have hrep : ∀ g ∈ repFlds 14, g.apart ⟨f.addr, 0, 32⟩ := fun g hg => hf g (List.mem_cons_of_mem _ (List.mem_cons_of_mem _ hg))
    have hend : (m.bump f).word f.addr = BitVec.ofNat 32 (2 ^ 32 - 1) := by
      unfold Mod.bump Mod.bumpBy Mod.countBy
      simp only [if_neg h]
      refine Mod.satMark_keeps (P := fun q => q.word f.addr = _) (fun _ _ hq => hq) (fun q v g hg hq => ?_) (fun q r hb _ _ hq => ?_)
        (Mod.word_setWord_same _ _ _)
      · have hap : g.apart ⟨f.addr, 0, 32⟩ := hf g (by simp only [List.mem_cons, List.not_mem_nil, or_false] at hg ⊢; tauto)
        exact (Mod.only_word (Mod.only_put q g v [] (List.mem_singleton_self g)) _ (List.forall_mem_singleton.mpr hap)).trans hq
      · have hlines := Mod.reportLines_only q r (ps := [.flt]) (fs := repFlds 14) (by simp) (by simp [hb])
        exact (Mod.only_word (Mod.only_trans hlines (Mod.pushReport_only _ r 14 (by simp) fun _ h => h)) _ hrep).trans hq
    rw [hend, BitVec.toNat_ofNat]
    omega

/-- A full queue stays as it is when a report of corrected class enters. -/
theorem Mod.enterReport_full {m : Mod} {r : Rep} (hr : r.cls = 0) (h : 512 ≤ m.flt.queue.length) :
    (m.enterReport r).flt.queue = m.flt.queue := by
  simp [Mod.enterReport, Mod.noRoom, hr, h]

/-- A report that finds no room leaves the queue as its entry does: it is counted, and the count's own report finds no room either. -/
theorem Mod.pushReport_full {m : Mod} {r : Rep} (hroom : m.noRoom r = true) (h : 512 ≤ (m.enterReport r).flt.queue.length) :
    (m.pushReport r).flt.queue = (m.enterReport r).flt.queue := by
  unfold Mod.pushReport
  rw [if_pos hroom]
  refine Mod.countBy_keeps (P := fun q => q.flt.queue = (m.enterReport r).flt.queue) _ _ (fun _ _ _ hq => hq) (fun _ _ hq => hq)
    (fun q x hx hq => ?_) rfl
  have hlines := (Mod.reportLines_queues q x).2.trans hq
  exact (Mod.enterReport_full hx (by rw [hlines]; exact h)).trans hlines

/-- The queue has room for a report of uncorrected class: a free place, or a report of corrected class that gives way (R330). -/
def Mod.roomy (m : Mod) : Prop := m.flt.queue.length < 512 ∨ ∃ q ∈ m.flt.queue, q.cls = 0

/-- Reports of corrected class leave that room. -/
theorem Mod.pushReport_roomy {m : Mod} {r : Rep} (hr : r.cls = 0) (h : m.roomy) : (m.pushReport r).roomy := by
  by_cases hlen : m.flt.queue.length < 512
  · have hroom : m.noRoom r = false := by simp [Mod.noRoom, hr, hlen]
    have hq : (m.pushReport r).flt.queue = m.flt.queue ++ [r] := by simp [Mod.pushReport, Mod.enterReport, hroom, hr]
    exact .inr ⟨r, by simp [hq], hr⟩
  · have hroom : m.noRoom r = true := by simpa [Mod.noRoom, hr] using hlen
    have henter : (m.enterReport r).flt.queue = m.flt.queue := Mod.enterReport_full hr (by omega)
    unfold Mod.roomy
    rw [Mod.pushReport_full hroom (by rw [henter]; omega), henter]
    exact h

theorem Mod.bump_roomy {m : Mod} (f : Fld) (h : m.roomy) : (m.bump f).roomy :=
  Mod.countBy_keeps (P := Mod.roomy) _ _ (fun _ _ _ hq => hq) (fun _ _ hq => hq)
    (fun q r hr hq => Mod.pushReport_roomy hr (by unfold Mod.roomy; rw [(Mod.reportLines_queues q r).2]; exact hq)) h

/-- A report of uncorrected class for which there is room is the newest of the queue. -/
theorem Mod.report_tells_roomy {m : Mod} {r : Rep} (hr : r.cls = 1) (hs : m.silent r.blk r.inst = false) (h : m.roomy) :
    (m.report r).tells r := by
  have hlines : (m.reportLines r).roomy := by unfold Mod.roomy; rw [(Mod.reportLines_queues m r).2]; exact h
  have hreport : m.report r = (m.reportLines r).pushReport r := if_neg (by simp [hs])
  rw [Mod.tells, if_neg (by omega), hreport]
  generalize m.reportLines r = q at hlines
  by_cases hlen : q.flt.queue.length < 512
  · have hroom : q.noRoom r = false := by simp [Mod.noRoom, hr, hlen]
    simp [Mod.pushReport, Mod.enterReport, hroom, hr]
  · have hroom : q.noRoom r = true := by simpa [Mod.noRoom, hr] using hlen
    obtain ⟨x, hx, hx0⟩ := hlines.resolve_left hlen
    have hany : q.flt.queue.any (fun q => q.cls == 0) = true := List.any_eq_true.mpr ⟨x, hx, by simp [hx0]⟩
    obtain ⟨i, henter⟩ : ∃ i, (q.enterReport r).flt.queue = q.flt.queue.eraseIdx i ++ [r] :=
      ⟨_, by simp only [Mod.enterReport, hroom, hr, hany]; rfl⟩
    rw [Mod.pushReport_full hroom, henter, List.getLast?_concat]
    rw [henter, List.length_append, List.length_eraseIdx]
    split <;> simp <;> omega

/-! ## Counters and reports leave the resets in progress -/

theorem Mod.reportLines_resets (m : Mod) (r : Rep) : (m.reportLines r).flt.resets = m.flt.resets := by
  unfold Mod.reportLines
  simp only
  repeat' split
  all_goals rfl

theorem Mod.enterReport_resets (m : Mod) (r : Rep) : (m.enterReport r).flt.resets = m.flt.resets := by
  unfold Mod.enterReport
  simp only
  repeat' split
  all_goals rfl

theorem Mod.pushReport_resets (m : Mod) (r : Rep) : (m.pushReport r).flt.resets = m.flt.resets := by
  unfold Mod.pushReport
  split
  · exact Mod.countBy_keeps (P := fun q => q.flt.resets = m.flt.resets) _ _ (fun _ _ _ hq => hq) (fun _ _ hq => hq)
      (fun q x _ hq => ((Mod.enterReport_resets _ x).trans (Mod.reportLines_resets q x)).trans hq) (Mod.enterReport_resets m r)
  · exact Mod.enterReport_resets m r

theorem Mod.bump_resets (m : Mod) (f : Fld) : (m.bump f).flt.resets = m.flt.resets :=
  Mod.countBy_keeps (P := fun q => q.flt.resets = m.flt.resets) _ _ (fun _ _ _ hq => hq) (fun _ _ hq => hq)
    (fun q x _ hq => ((Mod.pushReport_resets _ x).trans (Mod.reportLines_resets q x)).trans hq) rfl

/-! ## The isolation bits (R205, R207) -/

/-- The registers of the isolation bits. -/
def isoWords : List Fld := [⟨0x9098, 0, 32⟩, ⟨0x909C, 0, 32⟩]

theorem Mod.isolated_of_only {a b : Mod} {ps : List Part} {fs : List Fld} (h : a.only ps fs b) (hlo : ∀ f ∈ fs, f.apart ⟨0x9098, 0, 32⟩)
    (hhi : ∀ f ∈ fs, f.apart ⟨0x909C, 0, 32⟩) (n : Nat) : b.isolated n = a.isolated n := by
  unfold Mod.isolated Mod.pairBit
  rw [Mod.only_word h _ hlo, Mod.only_word h _ hhi]

theorem Mod.setIso_only (m : Mod) (n : Nat) (b : Bool) : m.only [] isoWords (m.setPairBit 0x9098 0x909C n b) := by
  unfold Mod.setPairBit
  split
  · exact Mod.only_setWord m _ _ _ (by simp [isoWords])
  · exact Mod.only_setWord m _ _ _ (by simp [isoWords])

/-- A phase's isolation bit after a bit was set or cleared. -/
theorem Mod.isolated_setIso (m : Mod) {n k : Nat} (b : Bool) (hn : n < 40) (hk : k < 40) :
    (m.setPairBit 0x9098 0x909C n b).isolated k = if n = k then b else m.isolated k := by
  have hbit : ∀ (v : Word) (i j : Nat), j < 32 → bit (BitVec.ofNat 32 (setBit v.toNat i b)).toNat j = if i = j then b else bit v.toNat j := by
    intro v i j hj
    rw [BitVec.toNat_ofNat, bit_mod_two_pow _ hj, bit_setBit]
  unfold Mod.setPairBit Mod.isolated Mod.pairBit
  by_cases h1 : n < 32 <;> by_cases h2 : k < 32
  · simp only [if_pos h1, if_pos h2, Mod.word_setWord_same, hbit _ _ _ h2]
  · rw [if_pos h1, if_neg h2, if_neg h2, Mod.word_setWord_ne _ _ (by decide), if_neg (by omega)]
  · rw [if_neg h1, if_pos h2, if_pos h2, Mod.word_setWord_ne _ _ (by decide), if_neg (by omega)]
  · simp only [if_neg h1, if_neg h2, Mod.word_setWord_same, hbit _ _ _ (show k - 32 < 32 by omega)]
    exact if_congr (by omega) rfl rfl

/-! ## The registers that follow the phases -/

/-- The fields that show the phases: STATE and OFFSET of each, and PHS_STAT. -/
def syncFlds : List Fld :=
  ((List.range 40).flatMap fun n => [R.PHS_PSTAT_STATE n, R.PHS_PSTAT_OFFSET n]) ++
    [R.PHS_STAT_NFIRE_P, R.PHS_STAT_NFIRE_N, R.PHS_STAT_NACT_P, R.PHS_STAT_NACT_N, R.PHS_STAT_NFIRE_FP, R.PHS_STAT_NFIRE_FN,
      R.PHS_STAT_NACT_FP, R.PHS_STAT_NACT_FN]

theorem Mod.syncPhases_only (m : Mod) : m.only [] syncFlds m.syncPhases := by
  refine Mod.only_trans (Mod.only_foldl _ _ (fun q n hn => Mod.only_puts q _ _ ?_) m) (Mod.only_puts _ _ _ (by simp [syncFlds]))
  have hmem : ∀ f ∈ [R.PHS_PSTAT_STATE n, R.PHS_PSTAT_OFFSET n], f ∈ syncFlds := fun f hf =>
    List.mem_append_left _ (List.mem_flatMap.mpr ⟨n, hn, hf⟩)
  simpa using hmem

@[simp] theorem Mod.syncPhases_phs (m : Mod) : m.syncPhases.phs = m.phs := m.syncPhases_only.1 .phs (by simp)

/-! ## Isolation (R205, R207) -/

theorem Mod.setPhase_only (m : Mod) (n : Nat) (f : Phase → Phase) : m.only [.phs] [] (m.setPhase n f) := Mod.only_phs m _ _ (by simp)
theorem Mod.setConv_only (m : Mod) (c : Nat) (f : Conv → Conv) : m.only [.phs] [] (m.setConv c f) := Mod.only_phs m _ _ (by simp)
theorem Mod.phaseOff_only (m : Mod) (n : Nat) : m.only [.phs] [] (m.phaseOff n) := m.setPhase_only n _

/-- The registers that an isolation writes first: the phase's bit, its cause, the count, the event. -/
def Mod.isoMark (m : Mod) (n why : Nat) : Mod :=
  (((m.setPairBit 0x9098 0x909C n true).put (R.PHS_PSTAT_ISO_WHY n) why).bump R.PHS_ISO_CNT_COUNT).put R.PHS_EVT_ISO 1

/-- A phase that is isolated is marked and commanded OFF, and leaves its converter's run. -/
theorem Mod.isolate_eq {m : Mod} {n : Nat} (h : m.isolated n = false) (why : Nat) :
    ∃ f, m.isolate n why = (((m.isoMark n why).phaseOff n).setConv (convOf n) f).syncPhases :=
  ⟨_, by unfold Mod.isolate; rw [if_neg (by simp [h])]; rfl⟩

/-- A phase already isolated stays as it is. -/
theorem Mod.isolate_of_isolated {m : Mod} {n : Nat} (h : m.isolated n = true) (why : Nat) : m.isolate n why = m := if_pos h

/-- The fields that an isolation writes beside the phase's cause. -/
def isoFlds : List Fld := R.PHS_EVT_ISO :: (isoWords ++ cntFlds R.PHS_ISO_CNT_COUNT.addr ++ syncFlds)

theorem Mod.isoMark_only (m : Mod) (n why : Nat) : m.only [.flt] (R.PHS_PSTAT_ISO_WHY n :: isoFlds) (m.isoMark n why) := by
  have hbit := Mod.only_mono (m.setIso_only n true) (qs := [.flt]) (gs := R.PHS_PSTAT_ISO_WHY n :: isoFlds) (by simp)
    (fun f hf => by simp [isoFlds, hf])
  have hwhy := Mod.only_put (m.setPairBit 0x9098 0x909C n true) (R.PHS_PSTAT_ISO_WHY n) why [.flt]
    (fs := R.PHS_PSTAT_ISO_WHY n :: isoFlds) List.mem_cons_self
  have hcount := Mod.bump_only ((m.setPairBit 0x9098 0x909C n true).put (R.PHS_PSTAT_ISO_WHY n) why) R.PHS_ISO_CNT_COUNT (ps := [.flt])
    (fs := R.PHS_PSTAT_ISO_WHY n :: isoFlds) (by simp) (fun f hf => by simp [isoFlds, hf])
  exact Mod.only_trans (Mod.only_trans (Mod.only_trans hbit hwhy) hcount) (Mod.only_put _ R.PHS_EVT_ISO 1 _ (by simp [isoFlds]))

/-- After its mark an isolation changes the phase, its converter and the registers that follow them. -/
theorem Mod.isolate_after_mark {m : Mod} {n : Nat} (h : m.isolated n = false) (why : Nat) :
    (m.isoMark n why).only [.phs] syncFlds (m.isolate n why) := by
  obtain ⟨f, heq⟩ := Mod.isolate_eq h why
  have hout := Mod.only_trans ((m.isoMark n why).phaseOff_only n) (((m.isoMark n why).phaseOff n).setConv_only (convOf n) f)
  rw [heq]
  exact Mod.only_trans (Mod.only_mono hout (fun _ h => h) (by simp)) (Mod.only_mono (Mod.syncPhases_only _) (by simp) fun _ h => h)

theorem Mod.isolate_only (m : Mod) (n why : Nat) : m.only [.phs, .flt] (R.PHS_PSTAT_ISO_WHY n :: isoFlds) (m.isolate n why) := by
  cases h : m.isolated n
  case true => rw [Mod.isolate_of_isolated h]; exact Mod.only_refl m _ _
  case false =>
    exact Mod.only_trans (Mod.only_mono (m.isoMark_only n why) (by simp) fun _ h => h)
      (Mod.only_mono (Mod.isolate_after_mark h why) (by simp) fun f hf => by simp [isoFlds, hf])

/-- A field outside PHS_PSTATn that shows no isolation keeps its value. -/
theorem Mod.isolate_get (m : Mod) (n why : Nat) (g : Fld) (hg : g.addr < 0x9200)
    (h : (isoFlds.all fun f => decide (f.addr ≠ g.addr ∨ g.lo + g.w ≤ f.lo ∨ f.lo + f.w ≤ g.lo)) = true) :
    (m.isolate n why).get g = m.get g :=
  Mod.only_get (m.isolate_only n why) g (List.forall_mem_cons.mpr ⟨Fld.pstat_apart n _ _ hg, Fld.apart_of_all h⟩)

/-- Exactly the phase that is isolated joins the isolated ones. -/
theorem Mod.isolated_isolate (m : Mod) {n k : Nat} (why : Nat) (hn : n < 40) (hk : k < 40) :
    (m.isolate n why).isolated k = (decide (n = k) || m.isolated k) := by
  cases h : m.isolated n
  case true =>
    rw [Mod.isolate_of_isolated h]
    by_cases e : n = k
    · subst e; simp [h]
    · simp [e]
  case false =>
    let bitSet : Mod := m.setPairBit 0x9098 0x909C n true
    have hwhy : (bitSet.put (R.PHS_PSTAT_ISO_WHY n) why).isolated k = bitSet.isolated k :=
      Mod.isolated_of_only (Mod.only_put bitSet _ why [] (List.mem_singleton_self _))
        (List.forall_mem_singleton.mpr (Fld.pstat_apart n _ _ (by decide))) (List.forall_mem_singleton.mpr (Fld.pstat_apart n _ _ (by decide))) k
    have hcount : (m.isoMark n why).isolated k = (bitSet.put (R.PHS_PSTAT_ISO_WHY n) why).isolated k :=
      Mod.isolated_of_only (Mod.only_trans (Mod.bumpBy_frame _ R.PHS_ISO_CNT_COUNT.addr 1 (ps := [.flt])
        (fs := R.PHS_EVT_ISO :: cntFlds R.PHS_ISO_CNT_COUNT.addr) (by simp) fun _ h => List.mem_cons_of_mem _ h)
        (Mod.only_put _ _ 1 _ List.mem_cons_self)) (Fld.apart_of_all (by decide)) (Fld.apart_of_all (by decide)) k
    rw [Mod.isolated_of_only (Mod.isolate_after_mark h why) (Fld.apart_of_all (by decide)) (Fld.apart_of_all (by decide)), hcount, hwhy,
      Mod.isolated_setIso m true hn hk]
    by_cases e : n = k <;> simp [e]

theorem Mod.isolate_isolates (m : Mod) {n : Nat} (why : Nat) (hn : n < 40) : (m.isolate n why).isolated n = true := by
  rw [Mod.isolated_isolate m why hn hn, decide_eq_true rfl, Bool.true_or]

/-- The cause of a new isolation is shown. -/
theorem Mod.isolate_why {m : Mod} {n why : Nat} (h : m.isolated n = false) (hn : n < 40) (hw : why < 16) :
    (m.isolate n why).get (R.PHS_PSTAT_ISO_WHY n) = why := by
  have hsync := Mod.only_get (Mod.isolate_after_mark h why) (R.PHS_PSTAT_ISO_WHY n) (Fld.apart_pstat (by decide) hn (by decide) (by decide))
  have hcount := Mod.only_get (Mod.only_trans (Mod.bumpBy_frame
      ((m.setPairBit 0x9098 0x909C n true).put (R.PHS_PSTAT_ISO_WHY n) why) R.PHS_ISO_CNT_COUNT.addr 1 (ps := [.flt])
      (fs := R.PHS_EVT_ISO :: cntFlds R.PHS_ISO_CNT_COUNT.addr) (by simp) fun _ h => List.mem_cons_of_mem _ h)
    (Mod.only_put _ _ 1 _ List.mem_cons_self)) (R.PHS_PSTAT_ISO_WHY n) (Fld.apart_pstat (by decide) hn (by decide) (by decide))
  rw [hsync]
  refine hcount.trans ((Mod.get_put_same _ _ _ (show 3 + 4 ≤ 32 by decide)).trans (Nat.mod_eq_of_lt hw))

theorem Mod.phase_phaseOff (m : Mod) (n : Nat) {k : Nat} (hk : k < 40) :
    ((m.phaseOff n).phase k).mode = if n = k then 0 else (m.phase k).mode := by
  rw [Mod.phaseOff, Mod.phase_setPhase _ _ _ _ hk]
  split <;> rfl

theorem Mod.isoMark_phs (m : Mod) (n why : Nat) : (m.isoMark n why).phs = m.phs := (m.isoMark_only n why).1 .phs (by simp)

/-- A phase that is isolated is OFF. -/
theorem Mod.isolate_off {m : Mod} {n : Nat} (h : m.isolated n = false) (why : Nat) (hn : n < 40) : ((m.isolate n why).phase n).mode = 0 := by
  obtain ⟨f, heq⟩ := Mod.isolate_eq h why
  have hph : (m.isolate n why).phase n = ((m.isoMark n why).phaseOff n).phase n := by
    rw [heq, Mod.phase, Mod.syncPhases_phs]
    rfl
  rw [hph, Mod.phase_phaseOff _ _ hn, if_pos rfl]

/-- The phase links know nothing of an isolation. -/
theorem Mod.isolate_links (m : Mod) (n why : Nat) : (m.isolate n why).phs.links = m.phs.links := by
  cases h : m.isolated n
  case true => rw [Mod.isolate_of_isolated h]
  case false =>
    obtain ⟨f, heq⟩ := Mod.isolate_eq h why
    rw [heq, Mod.syncPhases_phs]
    show (m.isoMark n why).phs.links = m.phs.links
    rw [Mod.isoMark_phs]

/-- Of the collector an isolation touches what its count does. -/
theorem Mod.isolate_flt {m : Mod} {n : Nat} (h : m.isolated n = false) (why : Nat) : (m.isolate n why).flt = (m.isoMark n why).flt :=
  (Mod.isolate_after_mark h why).1 .flt (by simp)

theorem Mod.setIso_flt (m : Mod) (n : Nat) (b : Bool) : (m.setPairBit 0x9098 0x909C n b).flt = m.flt := (m.setIso_only n b).1 .flt (by simp)

/-- An isolation leaves room for a report of uncorrected class. -/
theorem Mod.isolate_roomy {m : Mod} {n : Nat} (h : m.isolated n = false) (why : Nat) (hroom : m.roomy) : (m.isolate n why).roomy := by
  have hmarked : (m.isoMark n why).roomy := Mod.bump_roomy (m := (m.setPairBit 0x9098 0x909C n true).put (R.PHS_PSTAT_ISO_WHY n) why) _
    (by unfold Mod.roomy; rw [Mod.put_flt, Mod.setIso_flt]; exact hroom)
  unfold Mod.roomy
  rw [Mod.isolate_flt h]
  exact hmarked

theorem Mod.isolate_resets {m : Mod} {n : Nat} (h : m.isolated n = false) (why : Nat) : (m.isolate n why).flt.resets = m.flt.resets := by
  rw [Mod.isolate_flt h, Mod.isoMark, Mod.put_flt, Mod.bump_resets, Mod.put_flt, Mod.setIso_flt]

/-- A block is silent by its resets and its page's domain. -/
theorem Mod.silent_congr {a b : Mod} (blk inst : Nat) (hr : b.flt.resets = a.flt.resets)
    (hpg : b.get R.PWR_STAT_PG = a.get R.PWR_STAT_PG) : b.silent blk inst = a.silent blk inst := by
  simp only [Mod.silent, Mod.inReset, Mod.pageOn, Mod.domainOn, hr, hpg]

/-! ## PATCH and CFG frames (R199, R200) -/

/-- A frame for a phase link waits with that link. -/
theorem Mod.sendDown_only (m : Mod) (l typ : Nat) (body : List Nat) : m.only [.phs] [] (m.sendDown l typ body) := Mod.only_phs m _ _ (by simp)

theorem Mod.patch_only (m : Mod) (n : Nat) : m.only [.phs] [] (m.patch n) := by
  unfold Mod.patch
  simp only
  split
  · exact m.sendDown_only _ _ _
  · exact Mod.only_refl m _ _

theorem Mod.patch_ph (m : Mod) (n : Nat) : (m.patch n).phs.ph = m.phs.ph := by
  unfold Mod.patch
  simp only
  split <;> rfl

/-! ## Every phase OFF -/

theorem Mod.allOff_only (m : Mod) : m.only [.phs] syncFlds m.allOff :=
  Mod.only_trans (Mod.only_mono (Mod.only_foldl _ _ (fun q n _ => Mod.phaseOff_only q n) m) (fun _ h => h) (by simp))
    (Mod.only_trans (Mod.only_mono (Mod.only_foldl _ _ (fun q c _ => Mod.setConv_only q c _) _) (fun _ h => h) (by simp))
      (Mod.only_mono (Mod.syncPhases_only _) (by simp) fun _ h => h))

/-- Phases commanded OFF one after the other are all OFF. -/
theorem Mod.phasesOff_mode (m : Mod) {n : Nat} (hn : n < 40) : (((List.range 40).foldl Mod.phaseOff m).phase n).mode = 0 := by
  refine foldl_range_at (P := fun _ => True) (Q := fun q : Mod => (q.phase n).mode = 0) hn (fun _ _ _ _ _ => trivial) (fun q _ => ?_)
    (fun q j _ hj hq => ?_) trivial
  · rw [Mod.phase_phaseOff _ _ hn, if_pos rfl]
  · rw [Mod.phase_phaseOff _ _ hn, if_neg hj, hq]

theorem Mod.allOff_mode (m : Mod) {n : Nat} (hn : n < 40) : (m.allOff.phase n).mode = 0 := by
  let off : Mod := (List.range 40).foldl Mod.phaseOff m
  have hph : m.allOff.phs.ph = off.phs.ph := by
    unfold Mod.allOff
    rw [Mod.syncPhases_phs]
    exact List.foldlRecOn (motive := fun q : Mod => q.phs.ph = off.phs.ph) _ _ rfl (fun _ hq _ _ => hq)
  have hphase : m.allOff.phase n = off.phase n := by rw [Mod.phase, hph]; rfl
  rw [hphase]
  exact m.phasesOff_mode hn

end Sys2Proof.Machine
end

section
/-!
PROOFS. The phase links (R201, R203): a status frame counted or taken in, a link that goes down, a link that is trained; the statement
PhaseLinks.
-/
namespace Sys2Proof.Machine

/-! ## A link's record -/

theorem Mod.only_links (m : Mod) (x : List PLink) {ps : List Part} (fs : List Fld) (hp : Part.phs ∈ ps) :
    m.only ps fs { m with phs.links := x } := Mod.only_phs m _ fs hp

theorem Mod.raiseLimAt_only (m : Mod) (win blk inst kind addr cls : Nat) :
    m.only [.flt] (repFlds blk) (m.raiseLimAt win blk inst kind addr cls) :=
  (Mod.raiseLimAt_frame m win blk inst kind addr cls fun _ h => h).symm

/-- Whether a link is up is a bit of LNK_STAT.UP. -/
theorem Mod.linkUp_put (m : Mod) (l : Nat) {k : Nat} (b : Bool) (hk : k < 8) :
    (m.put R.PHS_LNK_STAT_UP (setBit (m.get R.PHS_LNK_STAT_UP) l b)).linkUp k = if l = k then b else m.linkUp k :=
  m.bit_put_setBit R.PHS_LNK_STAT_UP l k b (by decide) hk

theorem Mod.linkUp_congr {a b : Mod} (h : b.get R.PHS_LNK_STAT_UP = a.get R.PHS_LNK_STAT_UP) (k : Nat) : b.linkUp k = a.linkUp k := by
  rw [Mod.linkUp, Mod.linkUp, h]

/-! ## An invalid status frame (R201) -/

/-- What an invalid status frame counts and reports. -/
def Mod.badStatus (m : Mod) (l : Nat) : Mod := (m.bump (R.PHS_LERR_CNT_COUNT l)).raiseLimAt tickS 9 l 8 (5 * l) 0

theorem exec_statusFrame_invalid {s : State} {l : Fin 8} {b : List Byte} (hon : s.on) (hpage : s.m.pageOn 9 = true)
    (hbad : s.m.statusOk l (natBytes b) = false) :
    exec (.statusFrameReceive l b) s = .next { s with m := { s.m.badStatus l with
      phs.links := (bank 8 (s.m.badStatus l).phs.links {}).modify l (fun k => { k with missed := k.missed + 1, got := true }) } } := by
  rw [show exec (.statusFrameReceive l b) s = execStatusFrameReceive l b s from rfl, execStatusFrameReceive, onMod, if_neg hon]
  simp only [hpage, Bool.not_true, Bool.false_eq_true, if_false]
  rw [if_pos (by rw [show b.map BitVec.toNat = natBytes b from rfl, hbad]; rfl)]
  rfl

theorem Mod.badStatus_phs (m : Mod) (l : Nat) : (m.badStatus l).phs = m.phs :=
  ((Mod.raiseLimAt_only _ tickS 9 l 8 (5 * l) 0).1 .phs (by simp)).trans
    ((m.bump_only (R.PHS_LERR_CNT_COUNT l) (ps := [.flt]) (by simp) fun _ h => h).1 .phs (by simp))

/-- The counters of the links are no bits of a report. -/
theorem lerr_apart {l : Nat} (hl : l < 8) {fs : List Fld} (h : (fs.all fun f => decide (f.addr < 0x90C0 ∨ 0x9100 ≤ f.addr)) = true) :
    ∀ f ∈ fs, f.apart ⟨0x90C0 + 4 * l, 0, 32⟩ := Fld.apart_of_range 0x90C0 0x9100 h (by simp) (by simp only; omega)

theorem Mod.badStatus_count (m : Mod) {l : Nat} (hl : l < 8) :
    ((m.badStatus l).word (R.PHS_LERR_CNT_COUNT l).addr).toNat = min ((m.word (R.PHS_LERR_CNT_COUNT l).addr).toNat + 1) (2 ^ 32 - 1) := by
  have hpage : (0x90C0 + 4 * l) / 4096 = 9 := by omega
  rw [Mod.badStatus, Mod.only_word (Mod.raiseLimAt_only _ tickS 9 l 8 (5 * l) 0) _ (lerr_apart hl (by decide))]
  refine m.word_bump_min (R.PHS_LERR_CNT_COUNT l) ?_
  rw [show (R.PHS_LERR_CNT_COUNT l).addr = 0x90C0 + 4 * l from rfl, hpage]
  exact lerr_apart hl (by decide)

/-- Below its end the count alone changes, beside the report. -/
theorem Mod.badStatus_only {m : Mod} {l : Nat} (h : (m.word (R.PHS_LERR_CNT_COUNT l).addr).toNat < 2 ^ 32 - 1) :
    m.only [.flt] (R.PHS_LERR_CNT_COUNT l :: repFlds 9) (m.badStatus l) := by
  have hcount : m.bump (R.PHS_LERR_CNT_COUNT l) = m.setWord (R.PHS_LERR_CNT_COUNT l).addr _ := Mod.word_bumpBy m _ 1 (by omega)
  rw [Mod.badStatus, hcount]
  exact Mod.only_trans (Mod.only_setWord m _ _ _ List.mem_cons_self)
    (Mod.only_mono (Mod.raiseLimAt_only _ tickS 9 l 8 (5 * l) 0) (fun _ h => h) fun _ h => List.mem_cons_of_mem _ h)

theorem Does.statusCounted {s : State} {l : Fin 8} {b : List Byte} (hon : s.on) (hpage : s.m.pageOn 9 = true)
    (hbad : s.m.statusOk l (natBytes b) = false) :
    Does (.statusFrameReceive l b) s fun t =>
      (t.m.word (R.PHS_LERR_CNT_COUNT l).addr).toNat = min ((s.m.word (R.PHS_LERR_CNT_COUNT l).addr).toNat + 1) (2 ^ 32 - 1) ∧
        (t.m.phs.links.getD l {}).missed = (s.m.phs.links.getD l {}).missed + 1 ∧ t.m.phs.ph = s.m.phs.ph ∧
        ((s.m.word (R.PHS_LERR_CNT_COUNT l).addr).toNat < 2 ^ 32 - 1 →
          s.frame [.phs, .flt] (R.PHS_LERR_CNT_COUNT l :: repFlds 9) t) := by
  refine ⟨_, exec_statusFrame_invalid hon hpage hbad, s.m.badStatus_count l.isLt, ?missed, ?phases, fun hroom => State.frame_of_only ?_⟩
  case missed =>
    rw [getD_modify_bank 8 _ _ _ _ _ l.isLt, if_pos rfl, Mod.badStatus_phs]
  case phases =>
    show (s.m.badStatus l).phs.ph = s.m.phs.ph
    rw [Mod.badStatus_phs]
  exact Mod.only_trans (Mod.only_mono (Mod.badStatus_only hroom) (by simp) fun _ h => h) (Mod.only_links _ _ _ (by simp))

/-! ## A status word of a phase (R201, Table 06-11) -/

/-- The fields that a status word of a phase may write, beside its DRV and its cause. -/
def statusFlds : List Fld := R.PHS_EVT_DRV :: (isoFlds ++ repFlds 9)

theorem Mod.takeStatus_only (m : Mod) (n w : Nat) :
    m.only [.phs, .flt] (R.PHS_PSTAT_DRV n :: R.PHS_PSTAT_ISO_WHY n :: statusFlds) (m.takeStatus n w) := by
  unfold Mod.takeStatus
  extract_lets seen drv
  have hdrv : m.only [.phs, .flt] (R.PHS_PSTAT_DRV n :: R.PHS_PSTAT_ISO_WHY n :: statusFlds) drv := Mod.only_put m _ _ _ List.mem_cons_self
  split
  · have hiso := Mod.only_mono (drv.isolate_only n 2) (qs := [.phs, .flt]) (gs := R.PHS_PSTAT_DRV n :: R.PHS_PSTAT_ISO_WHY n :: statusFlds)
      (fun _ h => h) (by simp +contextual [statusFlds])
    exact Mod.only_trans hdrv (Mod.only_trans (Mod.only_trans hiso (Mod.only_put _ R.PHS_EVT_DRV 1 _ (by simp [statusFlds])))
      (Mod.only_raise _ 9 (phaseLink n) 2 n 1 (by simp) (by simp +contextual [statusFlds])))
  · exact hdrv

/-- A status word's report and event leave the isolation bits. -/
theorem Mod.drvTold_isolated (m : Mod) (inst n k : Nat) : ((m.put R.PHS_EVT_DRV 1).raise 9 inst 2 n 1).isolated k = m.isolated k :=
  Mod.isolated_of_only (Mod.only_trans (Mod.only_put m R.PHS_EVT_DRV 1 [.flt] (fs := R.PHS_EVT_DRV :: repFlds 9) (by simp))
    (Mod.only_raise _ 9 inst 2 n 1 (by simp) (by simp +contextual))) (Fld.apart_of_all (by decide)) (Fld.apart_of_all (by decide)) k

theorem Mod.drv_isolated (m : Mod) (n v k : Nat) : (m.put (R.PHS_PSTAT_DRV n) v).isolated k = m.isolated k :=
  Mod.isolated_of_only (Mod.only_put m _ v [] (List.mem_singleton_self _))
    (List.forall_mem_singleton.mpr (Fld.pstat_apart n _ _ (by decide))) (List.forall_mem_singleton.mpr (Fld.pstat_apart n _ _ (by decide))) k

/-- Exactly the phase of the word may join the isolated ones. -/
theorem Mod.takeStatus_isolated (m : Mod) {n k : Nat} (w : Nat) (hn : n < 40) (hk : k < 40) :
    (m.takeStatus n w).isolated k = m.isolated k ∨ n = k ∧ (m.takeStatus n w).isolated k = true := by
  unfold Mod.takeStatus
  extract_lets seen drv
  have hdrv : drv.isolated k = m.isolated k := m.drv_isolated n _ k
  split
  · rw [Mod.drvTold_isolated, Mod.isolated_isolate drv 2 hn hk, hdrv]
    by_cases e : n = k
    · exact .inr ⟨e, by simp [e]⟩
    · exact .inl (by simp [e])
  · exact .inl hdrv

/-- A driver fault that is new isolates its phase with WHY 2. -/
theorem Mod.takeStatus_fault {m : Mod} {n w : Nat} (hn : n < 40) (hw : w % 8 ≠ 0) (hseen : m.get (R.PHS_PSTAT_DRV n) % 8 = 0)
    (hiso : m.isolated n = false) :
    (m.takeStatus n w).isolated n = true ∧ (m.takeStatus n w).get (R.PHS_PSTAT_ISO_WHY n) = 2 := by
  let drv : Mod := m.put (R.PHS_PSTAT_DRV n) (m.get (R.PHS_PSTAT_DRV n) ||| w % 32)
  have heq : m.takeStatus n w = ((drv.isolate n 2).put R.PHS_EVT_DRV 1).raise 9 (phaseLink n) 2 n 1 := by
    unfold Mod.takeStatus
    exact if_pos (by rw [hseen, Nat.and_zero]; simp [hw, hw.symm])
  have hdrv : drv.isolated n = false := (m.drv_isolated n _ n).trans hiso
  have hwhy := Mod.only_get (Mod.only_trans (Mod.only_put (drv.isolate n 2) R.PHS_EVT_DRV 1 [.flt] (fs := R.PHS_EVT_DRV :: repFlds 9) (by simp))
    (Mod.only_raise _ 9 (phaseLink n) 2 n 1 (by simp) (by simp +contextual))) (R.PHS_PSTAT_ISO_WHY n)
    (Fld.apart_pstat (by decide) hn (by decide) (by decide))
  rw [heq]
  exact ⟨(Mod.drvTold_isolated _ _ n n).trans (drv.isolate_isolates 2 hn), hwhy.trans (Mod.isolate_why hdrv hn (by decide))⟩

/-- A status word leaves DRV and the cause of every other phase. -/
theorem Mod.takeStatus_pstat (m : Mod) {n k : Nat} (w lo width : Nat) (hk : k < 40) (h : n ≠ k) (hlo : 3 ≤ lo) (hw : lo + width ≤ 15) :
    (m.takeStatus n w).get ⟨0x9200 + 4 * k, lo, width⟩ = m.get ⟨0x9200 + 4 * k, lo, width⟩ := by
  refine Mod.only_get (m.takeStatus_only n w) _ (List.forall_mem_cons.mpr ⟨.inl ?_, List.forall_mem_cons.mpr ⟨.inl ?_,
    Fld.apart_pstat (by decide) hk hlo hw⟩⟩)
  all_goals simp only; omega

theorem Mod.takeStatus_links (m : Mod) (n w : Nat) : (m.takeStatus n w).phs.links = m.phs.links := by
  unfold Mod.takeStatus
  extract_lets seen drv
  split
  · rw [show (((drv.isolate n 2).put R.PHS_EVT_DRV 1).raise 9 (phaseLink n) 2 n 1).phs = (drv.isolate n 2).phs from
      (Mod.raise_frame _ 9 (phaseLink n) 2 n 1 fun _ h => h).2 .phs (by simp), Mod.isolate_links]
    rfl
  · rfl

/-! ## A valid status frame (R201) -/

/-- The status words of a link's five phases are taken in, one after the other. -/
def Mod.takeWords (m : Mod) (l : Nat) (ws : List Nat) : Mod := (List.range 5).foldl (fun m i => m.takeStatus (5 * l + i) (ws.getD i 0)) m

theorem Mod.takeWords_parts (m : Mod) (l : Nat) (ws : List Nat) : m.onlyParts [.phs, .flt] (m.takeWords l ws) :=
  List.foldlRecOn (motive := m.onlyParts [.phs, .flt]) _ _ (Mod.onlyParts_refl m _)
    fun q hq i _ => Mod.onlyParts_trans hq (q.takeStatus_only (5 * l + i) _).1

theorem Mod.takeWords_links (m : Mod) (l : Nat) (ws : List Nat) : (m.takeWords l ws).phs.links = m.phs.links :=
  List.foldlRecOn (motive := fun q : Mod => q.phs.links = m.phs.links) _ _ rfl fun q hq i _ => (q.takeStatus_links (5 * l + i) _).trans hq

theorem Mod.takeWords_armed (m : Mod) (l : Nat) (ws : List Nat) : (m.takeWords l ws).get R.PHS_LNK_STAT_ARMED = m.get R.PHS_LNK_STAT_ARMED :=
  List.foldlRecOn (motive := fun q : Mod => q.get R.PHS_LNK_STAT_ARMED = m.get R.PHS_LNK_STAT_ARMED) _ _ rfl fun q hq i _ =>
    (Mod.only_get (q.takeStatus_only (5 * l + i) _) _ (List.forall_mem_cons.mpr ⟨Fld.pstat_apart _ _ _ (by decide),
      List.forall_mem_cons.mpr ⟨Fld.pstat_apart _ _ _ (by decide), Fld.apart_of_all (by decide)⟩⟩)).trans hq

/-- A phase of the link whose word newly reports a driver fault is isolated with WHY 2: the words before it and after it are of other phases. -/
theorem Mod.takeWords_fault {m : Mod} {l i : Nat} (ws : List Nat) (hl : l < 8) (hi : i < 5) (hw : ws.getD i 0 % 8 ≠ 0)
    (hseen : m.get (R.PHS_PSTAT_DRV (5 * l + i)) % 8 = 0) (hiso : m.isolated (5 * l + i) = false) :
    (m.takeWords l ws).isolated (5 * l + i) = true ∧ (m.takeWords l ws).get (R.PHS_PSTAT_ISO_WHY (5 * l + i)) = 2 := by
  have hn : 5 * l + i < 40 := by omega
  have hother : ∀ q : Mod, ∀ j < 5, j ≠ i → (q.takeStatus (5 * l + j) (ws.getD j 0)).isolated (5 * l + i) = q.isolated (5 * l + i) :=
    fun q j hj hne => (q.takeStatus_isolated _ (by omega) hn).resolve_right (by omega)
  exact foldl_range_at (f := fun q j => Mod.takeStatus q (5 * l + j) (ws.getD j 0))
    (P := fun q : Mod => q.get (R.PHS_PSTAT_DRV (5 * l + i)) % 8 = 0 ∧ q.isolated (5 * l + i) = false)
    (Q := fun q : Mod => q.isolated (5 * l + i) = true ∧ q.get (R.PHS_PSTAT_ISO_WHY (5 * l + i)) = 2) hi
    (fun q j hj hne ⟨hdrv, hbit⟩ =>
      ⟨(congrArg (· % 8) (q.takeStatus_pstat _ _ _ hn (by omega) (by decide) (by decide))).trans hdrv, (hother q j hj hne).trans hbit⟩)
    (fun q ⟨hdrv, hbit⟩ => Mod.takeStatus_fault hn hw hdrv hbit)
    (fun q j hj hne ⟨hbit, hwhy⟩ =>
      ⟨(hother q j hj hne).trans hbit, (q.takeStatus_pstat _ _ _ hn (by omega) (by decide) (by decide)).trans hwhy⟩) ⟨hseen, hiso⟩

/-- The five status words of a frame. -/
def statusWords (b : List Nat) : List Nat := (List.range 5).map fun i => le b (2 + 2 * i) 2

theorem getD_statusWords (b : List Nat) {i : Nat} (hi : i < 5) : (statusWords b).getD i 0 = le b (2 + 2 * i) 2 := by
  simp [statusWords, List.getD_eq_getElem?_getD, hi]

/-- The record of a link that a valid status frame has reached, with ARMED as its words show it. -/
def Mod.statusTaken (m : Mod) (l : Nat) (ws : List Nat) : Mod :=
  ({ m with phs.links := (bank 8 m.phs.links {}).modify l (fun k => { k with missed := 0, got := true, words := ws }) } : Mod).put
    R.PHS_LNK_STAT_ARMED (setBit (m.get R.PHS_LNK_STAT_ARMED) l (ws.all fun w => bit w 5))

theorem exec_statusFrame_valid {s : State} {l : Fin 8} {b : List Byte} (hon : s.on) (hpage : s.m.pageOn 9 = true)
    (hok : s.m.statusOk l (natBytes b) = true) :
    exec (.statusFrameReceive l b) s = .next { s with
      m := ((s.m.statusTaken l (statusWords (natBytes b))).takeWords l (statusWords (natBytes b))).syncPhases } := by
  rw [show exec (.statusFrameReceive l b) s = execStatusFrameReceive l b s from rfl, execStatusFrameReceive, onMod, if_neg hon]
  simp only [hpage, Bool.not_true, Bool.false_eq_true, if_false]
  rw [if_neg (by rw [show b.map BitVec.toNat = natBytes b from rfl, hok]; simp)]
  rfl

theorem Mod.statusTaken_only (m : Mod) (l : Nat) (ws : List Nat) : m.only [.phs] [R.PHS_LNK_STAT_ARMED] (m.statusTaken l ws) :=
  Mod.only_trans (Mod.only_links m _ _ (by simp)) (Mod.only_put _ _ _ _ (by simp))

theorem Does.statusTaken {s : State} {l : Fin 8} {b : List Byte} (hon : s.on) (hpage : s.m.pageOn 9 = true)
    (hok : s.m.statusOk l (natBytes b) = true) :
    Does (.statusFrameReceive l b) s fun t => (t.m.phs.links.getD l {}).missed = 0 ∧
      (t.m.phs.links.getD l {}).words = statusWords (natBytes b) ∧
      bit (t.m.get R.PHS_LNK_STAT_ARMED) l = (statusWords (natBytes b)).all (fun w => bit w 5) ∧
      (∀ i < 5, le (natBytes b) (2 + 2 * i) 2 % 8 ≠ 0 → s.m.get (R.PHS_PSTAT_DRV (5 * l.val + i)) % 8 = 0 →
        s.m.isolated (5 * l.val + i) = false →
        t.m.isolated (5 * l.val + i) = true ∧ t.m.get (R.PHS_PSTAT_ISO_WHY (5 * l.val + i)) = 2) ∧
      s.m.onlyParts [.phs, .flt] t.m := by
  refine ⟨_, exec_statusFrame_valid hon hpage hok, ?_⟩
  have hword : ∀ i < 5, (statusWords (natBytes b)).getD i 0 = le (natBytes b) (2 + 2 * i) 2 := fun i hi => getD_statusWords _ hi
  generalize statusWords (natBytes b) = ws at hword ⊢
  let taken : Mod := s.m.statusTaken l ws
  let read : Mod := taken.takeWords l ws
  have hlink : read.syncPhases.phs.links.getD l {} = { s.m.phs.links.getD l {} with missed := 0, got := true, words := ws } := by
    rw [Mod.syncPhases_phs, Mod.takeWords_links]
    exact (getD_modify_bank 8 _ _ _ _ _ l.isLt).trans (if_pos rfl)
  have hsync := read.syncPhases_only
  refine ⟨congrArg PLink.missed hlink, congrArg PLink.words hlink, ?armed, fun i hi hw hseen hiso => ?fault, ?parts⟩
  case armed =>
    rw [Mod.only_get hsync _ (Fld.apart_of_all (by decide)), Mod.takeWords_armed]
    exact ((Mod.bit_put_setBit { s.m with phs.links := _ } R.PHS_LNK_STAT_ARMED l l _ (by decide) l.isLt).trans (if_pos rfl))
  case fault =>
    have hkept : taken.isolated (5 * l.val + i) = s.m.isolated (5 * l.val + i) :=
      Mod.isolated_of_only (s.m.statusTaken_only l ws) (Fld.apart_of_all (by decide)) (Fld.apart_of_all (by decide)) _
    have hdrv : taken.get (R.PHS_PSTAT_DRV (5 * l.val + i)) = s.m.get (R.PHS_PSTAT_DRV (5 * l.val + i)) :=
      Mod.only_get (s.m.statusTaken_only l ws) _ (Fld.apart_pstat (by decide) (by omega) (by decide) (by decide))
    obtain ⟨hisolated, hwhy⟩ := taken.takeWords_fault ws l.isLt hi (by rw [hword i hi]; exact hw) (by rw [hdrv]; exact hseen)
      (hkept.trans hiso)
    exact ⟨(Mod.isolated_of_only hsync (Fld.apart_of_all (by decide)) (Fld.apart_of_all (by decide)) _).trans hisolated,
      (Mod.only_get hsync _ (Fld.apart_pstat (by decide) (by omega) (by decide) (by decide))).trans hwhy⟩
  case parts =>
    exact Mod.onlyParts_trans (Mod.onlyParts_mono (s.m.statusTaken_only l ws).1 (by simp))
      (Mod.onlyParts_trans (taken.takeWords_parts l ws) (Mod.onlyParts_mono hsync.1 (by simp)))

/-! ## A link goes down (R203) -/

/-- The five phases of a link are isolated with WHY 4, one after the other. -/
def Mod.isolateLink (m : Mod) (l : Nat) : Mod := (List.range 5).foldl (fun m i => m.isolate (5 * l + i) 4) m

theorem Mod.isolateLink_parts (m : Mod) (l : Nat) : m.onlyParts [.phs, .flt] (m.isolateLink l) :=
  List.foldlRecOn (motive := m.onlyParts [.phs, .flt]) _ _ (Mod.onlyParts_refl m _)
    fun q hq i _ => Mod.onlyParts_trans hq (q.isolate_only (5 * l + i) 4).1

/-- A field outside PHS_PSTATn that shows no isolation keeps its value. -/
theorem Mod.isolateLink_get (m : Mod) (l : Nat) (g : Fld) (hg : g.addr < 0x9200)
    (h : (isoFlds.all fun f => decide (f.addr ≠ g.addr ∨ g.lo + g.w ≤ f.lo ∨ f.lo + f.w ≤ g.lo)) = true) :
    (m.isolateLink l).get g = m.get g :=
  List.foldlRecOn (motive := fun q : Mod => q.get g = m.get g) _ _ rfl fun q hq i _ => (q.isolate_get (5 * l + i) 4 g hg h).trans hq

theorem Mod.isolateLink_isolates (m : Mod) {l i : Nat} (hl : l < 8) (hi : i < 5) : (m.isolateLink l).isolated (5 * l + i) = true := by
  have hn : 5 * l + i < 40 := by omega
  refine foldl_range_at (f := fun q j => Mod.isolate q (5 * l + j) 4) (P := fun _ => True)
    (Q := fun q : Mod => q.isolated (5 * l + i) = true) hi (fun _ _ _ _ _ => trivial) (fun q _ => ?here) (fun q j hj _ hq => ?after) trivial
  case here => exact q.isolate_isolates 4 hn
  case after => rw [q.isolated_isolate 4 (by omega) hn, hq, Bool.or_true]

/-- The bits that show a link down. -/
def Mod.linkShownDown (m : Mod) (l : Nat) : Mod :=
  m.puts [(R.PHS_LNK_STAT_UP, setBit (m.get R.PHS_LNK_STAT_UP) l false), (R.PHS_EVT_LINK_DOWN, 1),
    (R.PHS_LNK_STAT_ARMED, setBit (m.get R.PHS_LNK_STAT_ARMED) l false)]

theorem Mod.linkShownDown_up (m : Mod) (l : Nat) {k : Nat} (hk : k < 8) :
    (m.linkShownDown l).linkUp k = if l = k then false else m.linkUp k := by
  have hlater := Mod.only_puts (m.put R.PHS_LNK_STAT_UP (setBit (m.get R.PHS_LNK_STAT_UP) l false))
    [(R.PHS_EVT_LINK_DOWN, 1), (R.PHS_LNK_STAT_ARMED, setBit (m.get R.PHS_LNK_STAT_ARMED) l false)] []
    (fs := [R.PHS_EVT_LINK_DOWN, R.PHS_LNK_STAT_ARMED]) (by simp)
  exact (Mod.linkUp_congr (Mod.only_get hlater _ (Fld.apart_of_all (by decide))) k).trans (m.linkUp_put l false hk)

theorem Mod.linkShownDown_event (m : Mod) (l : Nat) : (m.linkShownDown l).get R.PHS_EVT_LINK_DOWN = 1 := by
  rw [Mod.linkShownDown, Mod.puts_cons]
  exact Mod.get_puts_head _ 1 _ (by decide) (Fld.apart_of_all (fs := [R.PHS_LNK_STAT_ARMED]) (by decide))

theorem Mod.linkShownDown_armed (m : Mod) {l : Nat} (hl : l < 8) : bit ((m.linkShownDown l).get R.PHS_LNK_STAT_ARMED) l = false := by
  rw [Mod.linkShownDown, Mod.puts_cons, Mod.puts_cons, Mod.puts_cons, Mod.puts_nil,
    Mod.get_put_same _ _ _ (show 16 + 8 ≤ 32 by decide), bit_mod_two_pow _ hl, bit_setBit, if_pos rfl]

/-- A link that has gone down: its bits, its phases, its record, its condition. -/
def Mod.linkDown (m : Mod) (l : Nat) : Mod :=
  Mod.condStart { (m.linkShownDown l).isolateLink l with
    phs.links := (bank 8 ((m.linkShownDown l).isolateLink l).phs.links {}).modify l (fun k =>
      { k with missed := 0, armDue := false, sent := [], due := [], echoes := 0 }) } 9 l 7 (5 * l) 1

/-- What follows the isolation of the phases leaves the registers that show it. -/
theorem Mod.linkDown_only (m : Mod) (l : Nat) : ((m.linkShownDown l).isolateLink l).only [.phs, .flt] (repFlds 9) (m.linkDown l) :=
  Mod.only_trans (Mod.only_links _ _ _ (by simp)) (Mod.only_mono (Mod.condStart_only _ 9 l 7 (5 * l) 1) (by simp) fun _ h => h)

theorem Does.linkDown {s : State} {l : Fin 8} (hon : s.on) (hup : s.m.linkUp l = true) (hmiss : 2 ≤ (s.m.phs.links.getD l {}).missed) :
    Does (.phaseLinkDown l) s fun t => t.m.linkUp l = false ∧ t.m.get R.PHS_EVT_LINK_DOWN = 1 ∧
      (∀ i < 5, t.m.isolated (5 * l.val + i) = true) ∧ bit (t.m.get R.PHS_LNK_STAT_ARMED) l = false ∧
      (∀ k < 8, k ≠ l.val → t.m.linkUp k = s.m.linkUp k) ∧ s.m.onlyParts [.phs, .flt] t.m := by
  have hacts : Does (.phaseLinkDown l) s fun t => t = { s with m := s.m.linkDown l } :=
    Does.ofCond (show exec (.phaseLinkDown l) s = execPhaseLinkDown l s from rfl) hon (by simp only [hup, decide_eq_true hmiss]; rfl) rfl
  obtain ⟨t, hexec, rfl⟩ := hacts
  have hend := s.m.linkDown_only l
  have hget : ∀ g : Fld, g.addr < 0x9200 →
      ((repFlds 9 ++ isoFlds).all fun f => decide (f.addr ≠ g.addr ∨ g.lo + g.w ≤ f.lo ∨ f.lo + f.w ≤ g.lo)) = true →
      (s.m.linkDown l).get g = (s.m.linkShownDown l).get g := by
    intro g hg h
    rw [List.all_append, Bool.and_eq_true] at h
    exact (Mod.only_get hend g (Fld.apart_of_all h.1)).trans (Mod.isolateLink_get _ l g hg h.2)
  have hup' : ∀ k < 8, (s.m.linkDown l).linkUp k = if l.val = k then false else s.m.linkUp k := fun k hk =>
    (Mod.linkUp_congr (hget _ (by decide) (by decide)) k).trans (s.m.linkShownDown_up l hk)
  refine ⟨_, hexec, (hup' l l.isLt).trans (if_pos rfl), (hget _ (by decide) (by decide)).trans (s.m.linkShownDown_event l),
    fun i hi => ?phases, ?armed, fun k hk hne => (hup' k hk).trans (if_neg hne.symm), ?parts⟩
  case phases =>
    exact (Mod.isolated_of_only hend (Fld.apart_of_all (by decide)) (Fld.apart_of_all (by decide)) _).trans
      (Mod.isolateLink_isolates _ l.isLt hi)
  case armed =>
    exact (congrArg (bit · l) (hget R.PHS_LNK_STAT_ARMED (by decide) (by decide))).trans (s.m.linkShownDown_armed l.isLt)
  case parts =>
    exact Mod.onlyParts_trans (Mod.onlyParts_puts s.m _ _) (Mod.onlyParts_trans (Mod.isolateLink_parts _ l) hend.1)

/-! ## A link is trained (R203) -/

/-- The bits that show a trained link and its delay. -/
def Mod.linkShownUp (m : Mod) (l dly : Nat) : Mod :=
  m.puts [(R.PHS_LNK_STAT_UP, setBit (m.get R.PHS_LNK_STAT_UP) l true), (R.PHS_LDLY_DLY l, dly)]

/-- A trained link: its bits, its CFG frame, the end of its condition, the registers that follow. -/
def Mod.linkTrained (m : Mod) (l dly : Nat) : Mod :=
  (((m.linkShownUp l dly).sendDown l 3 ((m.linkShownUp l dly).cfgBody l false false)).condEnd 9 l 7 (5 * l) 1).syncPhases

theorem Mod.linkTrained_only (m : Mod) (l dly : Nat) :
    (m.linkShownUp l dly).only [.phs, .flt] (repFlds 9 ++ syncFlds) (m.linkTrained l dly) :=
  Mod.only_trans (Mod.only_mono (Mod.sendDown_only _ _ _ _) (by simp) (by simp))
    (Mod.only_trans (Mod.only_mono (Mod.condEnd_only _ 9 l 7 (5 * l) 1) (by simp) fun _ h => List.mem_append_left _ h)
      (Mod.only_mono (Mod.syncPhases_only _) (by simp) fun _ h => List.mem_append_right _ h))

theorem Does.linkTrained {s : State} {l : Fin 8} {d : List Nat} (hon : s.on) (hpage : s.m.pageOn 9 = true) (hdown : s.m.linkUp l = false)
    (hlen : d.length = 16) (hdly : linkDelay d ≤ 1280) :
    Does (.phaseLinkTrained l d true) s fun t => t.m.linkUp l = true ∧ t.m.get (R.PHS_LDLY_DLY l) = linkDelay d ∧
      (∀ k < 8, k ≠ l.val → t.m.linkUp k = s.m.linkUp k) ∧ s.m.onlyParts [.phs, .flt] t.m := by
  have hacts : Does (.phaseLinkTrained l d true) s fun t => t = { s with m := s.m.linkTrained l (linkDelay d) } :=
    Does.ofCond (show exec (.phaseLinkTrained l d true) s = execPhaseLinkTrained l d true s from rfl) hon
      (by simp [hpage, hdown, hlen, hdly]) rfl
  obtain ⟨t, hexec, rfl⟩ := hacts
  have hend := s.m.linkTrained_only l (linkDelay d)
  have hdlyAt : ∀ {fs : List Fld}, (fs.all fun f => decide (f.addr < 0x90C0 ∨ 0x9100 ≤ f.addr)) = true →
      ∀ f ∈ fs, f.apart (R.PHS_LDLY_DLY l) := fun h => Fld.apart_of_range 0x90C0 0x9100 h (by simp only; omega) (by simp only; omega)
  have hup : ∀ k < 8, (s.m.linkTrained l (linkDelay d)).linkUp k = if l.val = k then true else s.m.linkUp k := fun k hk =>
    have hput := Mod.get_put_ne (s.m.put R.PHS_LNK_STAT_UP (setBit (s.m.get R.PHS_LNK_STAT_UP) l true)) (R.PHS_LDLY_DLY l)
      R.PHS_LNK_STAT_UP (linkDelay d) (.inl (by simp only; omega))
    (Mod.linkUp_congr ((Mod.only_get hend _ (Fld.apart_of_all (by decide))).trans hput) k).trans (s.m.linkUp_put l true hk)
  refine ⟨_, hexec, (hup l l.isLt).trans (if_pos rfl), ?delay, fun k hk hne => (hup k hk).trans (if_neg hne.symm),
    Mod.onlyParts_trans (Mod.onlyParts_puts s.m _ _) hend.1⟩
  case delay =>
    exact (Mod.only_get hend _ (hdlyAt (by decide))).trans ((Mod.get_put_same _ _ _ (show 0 + 11 ≤ 32 by decide)).trans
      (Nat.mod_eq_of_lt (Nat.lt_of_le_of_lt hdly (show 1280 < 2 ^ 11 by decide))))

/-- Settles O40: a status frame is counted or taken in, a link that misses two goes down with its phases, and one whose echoes fit is up. -/
theorem phaseLinks : Obligations.PhaseLinks := by
  unfold Obligations.PhaseLinks
  refine ⟨fun s l b hon hpage hbad => Does.statusCounted hon hpage hbad, fun s l b hon hpage hok => Does.statusTaken hon hpage hok,
    fun s l hon hup hmiss => Does.linkDown hon hup hmiss, fun s l d hon hpage hdown hlen hdly => Does.linkTrained hon hpage hdown hlen hdly,
    fun s l d c hon hnot => ?untrained⟩
  case untrained =>
    refine Does.ofNotCond (show exec (.phaseLinkTrained l d c) s = execPhaseLinkTrained l d c s from rfl) hon ?_
    rcases hnot with h | h | h <;> simp [h, Nat.not_le.mpr]

end Sys2Proof.Machine
end

section
/-!
PROOFS. Rotations (R182): the phases that may be added, what one rotation changes, what the rotation of all converters leaves of one.
-/
namespace Sys2Proof.Machine

/-! ## Phases, places, the order of adding (R174, R180, R183) -/

theorem convPhases_lt {c n : Nat} (h : n ∈ convPhases c) : n < 40 := by
  unfold convPhases at h
  split at h <;> simp at h <;> omega

/-- A converter's places are its phases. -/
theorem Mod.mem_places (m : Mod) (c n : Nat) : n ∈ m.places c ↔ n ∈ convPhases c := by
  have hord : m.get (R.PHS_PCFG_ORD n) < 16 := m.get_lt _
  simp [Mod.places, hord]

theorem Mod.mem_activeFrom (m : Mod) (c b n : Nat) : n ∈ m.activeFrom c b ↔ n ∈ convPhases c ∧ m.phaseActive n = true := by
  have hround : ∀ (l : List Nat) (k : Nat), n ∈ l.drop k ++ l.take k ↔ n ∈ l := fun l k => by
    rw [List.mem_append, or_comm, ← List.mem_append, List.take_append_drop]
  unfold Mod.activeFrom
  simp only [List.mem_filter, hround, Mod.mem_places]

/-- What may be added to a run: the converter's active phases outside it. -/
theorem Mod.mem_addOrder (m : Mod) (c n : Nat) :
    n ∈ m.addOrder c ↔ n ∈ convPhases c ∧ m.phaseActive n = true ∧ n ∉ (m.conv c).run := by
  unfold Mod.addOrder
  simp only [List.mem_append, List.mem_filter, Mod.mem_activeFrom]
  cases (m.phase n).warn <;> simp [and_assoc]

/-- Fields outside PHS_PCFGn, decided, are apart from those in it. -/
theorem Fld.apart_pcfg {fs : List Fld} (h : (fs.all fun f => decide (f.addr < 0x9100 ∨ 0x91A0 ≤ f.addr)) = true) {n lo w : Nat} (hn : n < 40) :
    ∀ f ∈ fs, f.apart ⟨0x9100 + 4 * n, lo, w⟩ := Fld.apart_of_range 0x9100 0x91A0 h (by simp) (by simp only; omega)

/-- Which phases are active is a matter of PHS_PCFGn.EN, the isolation bits and LNK_STAT.UP. -/
theorem Mod.phaseActive_of_only {a b : Mod} {ps : List Part} {fs : List Fld} (h : a.only ps fs b) {n : Nat} (hn : n < 40)
    (hpcfg : (fs.all fun f => decide (f.addr < 0x9100 ∨ 0x91A0 ≤ f.addr)) = true)
    (hiso : ∀ g ∈ R.PHS_LNK_STAT_UP :: isoWords, ∀ f ∈ fs, f.apart g) : b.phaseActive n = a.phaseActive n := by
  unfold Mod.phaseActive Mod.is
  rw [Mod.only_get h _ (Fld.apart_pcfg hpcfg hn), Mod.isolated_of_only h (hiso _ (by simp [isoWords])) (hiso _ (by simp [isoWords])),
    Mod.linkUp_congr (Mod.only_get h _ (hiso _ (by simp)))]

theorem Mod.places_of_only {a b : Mod} {ps : List Part} {fs : List Fld} (h : a.only ps fs b) (c : Nat)
    (hpcfg : (fs.all fun f => decide (f.addr < 0x9100 ∨ 0x91A0 ≤ f.addr)) = true) : b.places c = a.places c := by
  unfold Mod.places
  congr 1
  funext o
  refine List.filter_congr fun n hn => ?_
  rw [Mod.only_get h _ (Fld.apart_pcfg hpcfg (convPhases_lt hn))]

/-! ## One rotation (R182) -/

/-- The fields that a rotation writes: the cut of a shed ramp and the counts. -/
def rotFlds : List Fld := R.PHS_EVT_CUT :: (cntFlds R.PHS_CUT_CNT_COUNT.addr ++ cntFlds R.PHS_ADD_CNT_COUNT.addr)

/-- A shed ramp of the converter is cut (R183). -/
def Mod.cutRamp (m : Mod) (c : Nat) : Mod :=
  if (m.conv c).shedJ.isSome then ((m.setConv c (fun k => { k with shedJ := none })).bump R.PHS_CUT_CNT_COUNT).put R.PHS_EVT_CUT 1 else m

/-- BASE goes on to the next place, and the dwell starts anew. -/
def Mod.nextBase (m : Mod) (c : Nat) : Mod := m.setConv c (fun k => { k with base := (k.base + 1) % (m.places c).length, dwell := 0 })

/-- A phase starts as the last of the run, and the run's first is the one to leave. -/
def Mod.addLast (m : Mod) (c n h : Nat) : Mod :=
  ((m.startPhase n).bump R.PHS_ADD_CNT_COUNT).setConv c (fun k => { k with run := k.run ++ [n], rot := some h })

theorem Mod.rotate_idle {m : Mod} {c : Nat} (h : (m.conv c).run = []) :
    m.rotate c = m.setConv c (fun k => { k with base := (k.base + 1) % (m.places c).length }) := by
  unfold Mod.rotate
  simp only [h]

theorem Mod.rotate_held {m : Mod} {c h : Nat} {t : List Nat} (hrun : (m.conv c).run = h :: t)
    (hheld : (m.conv c).rot.isSome || !m.is R.CEN_PRG_STAT_SS_DONE) : m.rotate c = m := by
  unfold Mod.rotate
  simp only [hrun, if_pos hheld]

/-- With no phase to add the run turns by one place. -/
theorem Mod.rotate_turn {m : Mod} {c h : Nat} {t : List Nat} (hrun : (m.conv c).run = h :: t)
    (hfree : ((m.conv c).rot.isSome || !m.is R.CEN_PRG_STAT_SS_DONE) = false) (hadd : ((m.cutRamp c).nextBase c).addOrder c = []) :
    m.rotate c = ((m.cutRamp c).nextBase c).setConv c (fun k => { k with run := t ++ [h] }) := by
  unfold Mod.rotate
  simp only [hrun, hfree, Bool.false_eq_true, if_false]
  split
  next => rfl
  next e => exact absurd (e.symm.trans hadd) (by simp)

/-- The first phase of the order is added. -/
theorem Mod.rotate_add {m : Mod} {c h n : Nat} {t l : List Nat} (hrun : (m.conv c).run = h :: t)
    (hfree : ((m.conv c).rot.isSome || !m.is R.CEN_PRG_STAT_SS_DONE) = false) (hadd : ((m.cutRamp c).nextBase c).addOrder c = n :: l) :
    m.rotate c = ((m.cutRamp c).nextBase c).addLast c n h := by
  unfold Mod.rotate
  simp only [hrun, hfree, Bool.false_eq_true, if_false]
  split
  next e => exact absurd (e.symm.trans hadd) (by simp)
  next e =>
    obtain ⟨rfl, -⟩ := List.cons.inj (e.symm.trans hadd)
    rfl

theorem Mod.cutRamp_only (m : Mod) (c : Nat) : m.only [.phs, .flt] rotFlds (m.cutRamp c) := by
  unfold Mod.cutRamp
  split
  · exact Mod.only_trans (Mod.only_trans (Mod.only_mono (m.setConv_only c _) (by simp) (by simp))
      (Mod.bump_only _ _ (by simp) (by simp +contextual [rotFlds]))) (Mod.only_put _ _ _ _ (by simp [rotFlds]))
  · exact Mod.only_refl m _ _

theorem Mod.addLast_only (m : Mod) (c n h : Nat) : m.only [.phs, .flt] rotFlds (m.addLast c n h) :=
  Mod.only_trans (Mod.only_trans (Mod.only_mono (m.setPhase_only n _) (by simp) (by simp))
    (Mod.bump_only (m.startPhase n) R.PHS_ADD_CNT_COUNT (by simp) (by simp +contextual [rotFlds])))
    (Mod.only_mono (Mod.setConv_only _ c _) (by simp) (by simp))

theorem Mod.bump_conv (m : Mod) (f : Fld) (c : Nat) : (m.bump f).conv c = m.conv c := by
  rw [Mod.conv, (m.bump_only f (ps := [.flt]) (by simp) fun _ h => h).1 .phs (by simp)]
  rfl

theorem Mod.conv_cutRamp (m : Mod) (c : Nat) {k : Nat} (hk : k < 4) :
    (m.cutRamp c).conv k = if c = k then { m.conv k with shedJ := none } else m.conv k := by
  unfold Mod.cutRamp
  split
  next => exact (Mod.bump_conv _ _ k).trans (m.conv_setConv c k _ hk)
  next h =>
    split
    next e =>
      subst e
      have hnone : (m.conv c).shedJ = none := by simpa using h
      rw [← hnone]
    next => rfl

theorem Mod.conv_addLast (m : Mod) (c n h : Nat) {k : Nat} (hk : k < 4) :
    (m.addLast c n h).conv k = if c = k then { m.conv k with run := (m.conv k).run ++ [n], rot := some h } else m.conv k := by
  have hstart : ((m.startPhase n).bump R.PHS_ADD_CNT_COUNT).conv k = m.conv k := Mod.bump_conv _ _ k
  rw [Mod.addLast, Mod.conv_setConv _ c k _ hk, hstart]

theorem Mod.nextBase_only (m : Mod) (c : Nat) : m.only [.phs] [] (m.nextBase c) := m.setConv_only c _

/-- What a rotation does before it adds or turns: the ramp is cut, BASE goes on. -/
theorem Mod.cutNext_only (m : Mod) (c : Nat) : m.only [.phs, .flt] rotFlds ((m.cutRamp c).nextBase c) :=
  Mod.only_trans (m.cutRamp_only c) (Mod.only_mono (Mod.nextBase_only _ c) (by simp) (by simp))

theorem Mod.conv_cutNext (m : Mod) (c : Nat) {k : Nat} (hk : k < 4) :
    ((m.cutRamp c).nextBase c).conv k = if c = k
      then { m.conv k with shedJ := none, base := ((m.conv k).base + 1) % (m.places k).length, dwell := 0 } else m.conv k := by
  rw [Mod.nextBase, Mod.conv_setConv _ c k _ hk, m.conv_cutRamp c hk]
  by_cases e : c = k
  · subst e
    rw [if_pos rfl, if_pos rfl, if_pos rfl, Mod.places_of_only (m.cutRamp_only c) c (by decide)]
  · rw [if_neg e, if_neg e, if_neg e]

theorem Mod.phaseActive_rot {a b : Mod} {ps : List Part} (h : a.only ps rotFlds b) {n : Nat} (hn : n < 40) : b.phaseActive n = a.phaseActive n :=
  Mod.phaseActive_of_only h hn (by decide) fun g hg => by
    simp only [isoWords, List.mem_cons, List.not_mem_nil, or_false] at hg
    rcases hg with rfl | rfl | rfl <;> exact Fld.apart_of_all (by decide)

/-- The same phases may be added after the cut. -/
theorem Mod.mem_addOrder_cutNext (m : Mod) {c : Nat} (hc : c < 4) (n : Nat) :
    n ∈ ((m.cutRamp c).nextBase c).addOrder c ↔ n ∈ convPhases c ∧ m.phaseActive n = true ∧ n ∉ (m.conv c).run := by
  rw [Mod.mem_addOrder, m.conv_cutNext c hc, if_pos rfl]
  refine and_congr_right fun hn => ?_
  rw [Mod.phaseActive_rot (m.cutNext_only c) (convPhases_lt hn)]

/-- What a rotation can be: nothing, a step of BASE, a turn of the run, or one phase added. -/
theorem Mod.rotate_cases (m : Mod) (c : Nat) :
    m.rotate c = m ∨ m.rotate c = m.setConv c (fun k => { k with base := (k.base + 1) % (m.places c).length }) ∨
      (∃ l, m.rotate c = ((m.cutRamp c).nextBase c).setConv c (fun k => { k with run := l })) ∨
      ∃ n h, m.rotate c = ((m.cutRamp c).nextBase c).addLast c n h := by
  cases hrun : (m.conv c).run with
  | nil => exact .inr (.inl (Mod.rotate_idle hrun))
  | cons h t =>
    cases hfree : (m.conv c).rot.isSome || !m.is R.CEN_PRG_STAT_SS_DONE
    case true => exact .inl (Mod.rotate_held hrun hfree)
    case false =>
      cases hadd : ((m.cutRamp c).nextBase c).addOrder c with
      | nil => exact .inr (.inr (.inl ⟨_, Mod.rotate_turn hrun hfree hadd⟩))
      | cons n l => exact .inr (.inr (.inr ⟨_, _, Mod.rotate_add hrun hfree hadd⟩))

theorem Mod.rotate_only (m : Mod) (c : Nat) : m.only [.phs, .flt] rotFlds (m.rotate c) := by
  have hset : ∀ (q : Mod) f, q.only [.phs, .flt] rotFlds (q.setConv c f) := fun q f => Mod.only_mono (q.setConv_only c f) (by simp) (by simp)
  rcases m.rotate_cases c with h | h | ⟨l, h⟩ | ⟨n, k, h⟩ <;> rw [h]
  · exact Mod.only_refl m _ _
  · exact hset m _
  · exact Mod.only_trans (m.cutNext_only c) (hset _ _)
  · exact Mod.only_trans (m.cutNext_only c) (Mod.addLast_only _ c n k)

/-- Another converter stays as it is. -/
theorem Mod.conv_rotate_ne (m : Mod) {c k : Nat} (hk : k < 4) (h : c ≠ k) : (m.rotate c).conv k = m.conv k := by
  have hcut : ((m.cutRamp c).nextBase c).conv k = m.conv k := (m.conv_cutNext c hk).trans (if_neg h)
  rcases m.rotate_cases c with e | e | ⟨l, e⟩ | ⟨n, j, e⟩ <;> rw [e]
  · exact (m.conv_setConv c k _ hk).trans (if_neg h)
  · exact ((Mod.conv_setConv _ c k _ hk).trans (if_neg h)).trans hcut
  · exact ((Mod.conv_addLast _ c n j hk).trans (if_neg h)).trans hcut

/-! ## A converter whose run only turns -/

/-- The run of a converter is empty, or nothing holds it and every active phase is in it. -/
def Mod.onlyTurns (m : Mod) (c : Nat) : Prop :=
  (m.conv c).run = [] ∨ ((m.conv c).rot = none ∧ (m.conv c).shedJ = none ∧ m.is R.CEN_PRG_STAT_SS_DONE = true ∧
    ∀ n ∈ convPhases c, m.phaseActive n = true → n ∈ (m.conv c).run)

theorem Mod.onlyTurns_of_only {a b : Mod} {ps : List Part} {c : Nat} (h : a.only ps rotFlds b) (hconv : b.conv c = a.conv c)
    (ha : a.onlyTurns c) : b.onlyTurns c := by
  unfold Mod.onlyTurns at ha ⊢
  rw [hconv, Mod.is, Mod.only_get h _ (Fld.apart_of_all (by decide))]
  refine ha.imp_right fun ⟨hrot, hshed, hdone, hall⟩ => ⟨hrot, hshed, hdone, fun n hn hact => hall n hn ?_⟩
  rw [← hact, Mod.phaseActive_rot h (convPhases_lt hn)]

theorem Mod.rotate_onlyTurns {m : Mod} {c : Nat} (hc : c < 4) (h : m.onlyTurns c) :
    m.only [.phs] [] (m.rotate c) ∧ ((m.rotate c).conv c).base = ((m.conv c).base + 1) % (m.places c).length ∧
      ((m.rotate c).conv c).run = (m.conv c).run.drop 1 ++ (m.conv c).run.take 1 := by
  cases hrun : (m.conv c).run with
  | nil =>
    rw [Mod.rotate_idle hrun, m.conv_setConv c c _ hc, if_pos rfl]
    exact ⟨m.setConv_only c _, rfl, hrun⟩
  | cons x t =>
    obtain ⟨hrot, hshed, hdone, hall⟩ := h.resolve_left (by simp [hrun])
    have hadd : ((m.cutRamp c).nextBase c).addOrder c = [] := List.eq_nil_iff_forall_not_mem.mpr fun n hn =>
      have ⟨hconv, hact, hout⟩ := (m.mem_addOrder_cutNext hc n).mp hn
      hout (hall n hconv hact)
    have huncut : m.cutRamp c = m := if_neg (by simp [hshed])
    rw [Mod.rotate_turn hrun (by simp [hrot, hdone]) hadd, Mod.conv_setConv _ c c _ hc, if_pos rfl, m.conv_cutNext c hc, if_pos rfl, huncut]
    exact ⟨Mod.only_trans (m.nextBase_only c) (Mod.setConv_only _ c _), rfl, rfl⟩

/-! ## A converter that takes in a phase -/

theorem Mod.rotate_adds {m : Mod} {c h : Nat} {t : List Nat} (hc : c < 4) (hdone : m.is R.CEN_PRG_STAT_SS_DONE = true)
    (hrun : (m.conv c).run = h :: t) (hrot : (m.conv c).rot = none)
    (hmore : ∃ n ∈ convPhases c, m.phaseActive n = true ∧ n ∉ h :: t) :
    (∃ n ∈ convPhases c, m.phaseActive n = true ∧ n ∉ h :: t ∧ ((m.rotate c).conv c).run = h :: t ++ [n]) ∧
      ((m.rotate c).conv c).rot = some h ∧ ((m.rotate c).conv c).shedJ = none ∧
      ((m.rotate c).conv c).base = ((m.conv c).base + 1) % (m.places c).length := by
  have hmem : ∀ n, n ∈ ((m.cutRamp c).nextBase c).addOrder c ↔ n ∈ convPhases c ∧ m.phaseActive n = true ∧ n ∉ h :: t := fun n =>
    hrun ▸ m.mem_addOrder_cutNext hc n
  obtain ⟨x, hx⟩ := hmore
  cases hadd : ((m.cutRamp c).nextBase c).addOrder c with
  | nil => exact absurd ((hmem x).mpr hx) (by simp [hadd])
  | cons n l =>
    obtain ⟨hconv, hact, hout⟩ := (hmem n).mp (by simp [hadd])
    rw [Mod.rotate_add hrun (by simp [hrot, hdone]) hadd, Mod.conv_addLast _ c n h hc, if_pos rfl, m.conv_cutNext c hc, if_pos rfl]
    exact ⟨⟨n, hconv, hact, hout, congrArg (· ++ [n]) hrun⟩, rfl, rfl, rfl⟩

/-! ## The rotation of every converter -/

/-- Every converter rotates. -/
def Mod.rotateAll (m : Mod) : Mod := (List.range 4).foldl Mod.rotate m

/-- Of each converter the rotation of all makes what its own rotation does; those before it change no other converter, and nothing that its
rotation depends on. -/
theorem Mod.rotateAll_conv {m : Mod} {c : Nat} (hc : c < 4) {Q : Conv → Prop}
    (h : ∀ q : Mod, m.only [.phs, .flt] rotFlds q → q.conv c = m.conv c → Q ((q.rotate c).conv c)) : Q (m.rotateAll.conv c) :=
  foldl_range_at (P := fun q : Mod => m.only [.phs, .flt] rotFlds q ∧ q.conv c = m.conv c) (Q := fun q : Mod => Q (q.conv c)) hc
    (fun q j _ hj ⟨honly, hconv⟩ => ⟨Mod.only_trans honly (q.rotate_only j), (q.conv_rotate_ne hc hj).trans hconv⟩)
    (fun q ⟨honly, hconv⟩ => h q honly hconv) (fun q j _ hj hq => by rw [q.conv_rotate_ne hc hj]; exact hq) ⟨Mod.only_refl m _ _, rfl⟩

/-- Converters whose runs only turn: no register changes, and those left to rotate still only turn. -/
theorem Mod.rotates_onlyTurns {m : Mod} {l : List Nat} (hdup : l.Nodup) (hlt : ∀ c ∈ l, c < 4) (h : ∀ c ∈ l, m.onlyTurns c) :
    m.only [.phs] [] (l.foldl Mod.rotate m) := by
  induction l generalizing m with
  | nil => exact Mod.only_refl m _ _
  | cons c l ih =>
    obtain ⟨hnot, hdup⟩ := List.nodup_cons.mp hdup
    have hturn := (Mod.rotate_onlyTurns (hlt c List.mem_cons_self) (h c List.mem_cons_self)).1
    refine Mod.only_trans hturn (ih hdup (fun k hk => hlt k (List.mem_cons_of_mem _ hk)) fun k hk => ?_)
    have hk' := List.mem_cons_of_mem c hk
    exact Mod.onlyTurns_of_only (Mod.only_mono hturn (fun _ h => h) (by simp)) (m.conv_rotate_ne (hlt k hk') fun e => hnot (e ▸ hk)) (h k hk')

end Sys2Proof.Machine
end

section
/-!
PROOFS. SAFE HOLD from RUN (R310, R399): the fatal lane keeps its reports, every phase is OFF, STO_HOLD stops, what stays.
-/
namespace Sys2Proof.Machine

/-! ## The fatal lane keeps its reports (R330) -/

theorem Mod.enterReport_lane {m : Mod} {x r : Rep} (h : x ∈ m.flt.lane) : x ∈ (m.enterReport r).flt.lane := by
  unfold Mod.enterReport
  simp only
  repeat' split
  all_goals first | exact h | exact List.mem_append_left _ h

theorem Mod.reportLines_lane {m : Mod} {x : Rep} (r : Rep) (h : x ∈ m.flt.lane) : x ∈ (m.reportLines r).flt.lane := by
  rw [(Mod.reportLines_queues m r).1]
  exact h

theorem Mod.report_lane {m : Mod} {x : Rep} (r : Rep) (h : x ∈ m.flt.lane) : x ∈ (m.report r).flt.lane := by
  unfold Mod.report Mod.pushReport
  split
  · exact h
  · split
    · exact Mod.countBy_keeps (P := fun q : Mod => x ∈ q.flt.lane) _ _ (fun _ _ _ hq => hq) (fun _ _ hq => hq)
        (fun q y _ hq => Mod.enterReport_lane (Mod.reportLines_lane y hq)) (Mod.enterReport_lane (Mod.reportLines_lane r h))
    · exact Mod.enterReport_lane (Mod.reportLines_lane r h)

theorem Mod.endConds_lane {m : Mod} {x : Rep} (blk : Nat) (kinds : List Nat) (h : x ∈ m.flt.lane) : x ∈ (m.endConds blk kinds).flt.lane := by
  refine List.foldlRecOn (motive := fun q : Mod => x ∈ q.flt.lane) _ _ h fun q hq c _ => ?_
  unfold Mod.condEnd
  split
  · exact Mod.report_lane _ hq
  · exact hq

/-! ## SAFE HOLD from RUN (R310, R399) -/

/-- What the breakwater's and the engine's parts are outside RUN (R43, R158, R162). -/
def Mod.standDown (m : Mod) : Mod :=
  { m with bwk.pole := m.bwk.pole.map BPole.rest, bwk.pfol := 0, bwk.breach := false, bwk.ovfClear := 0, cen.lagRun := 0,
           cen.fades := List.replicate 2 {} }

/-- The bits of the breakwater and of the engine that leaving RUN writes. -/
def restBits : List (Fld × Nat) :=
  [(R.BWK_DP_STAT_DP_STATE, 0), (R.BWK_DP_STAT_ENTRY, 0), (R.BWK_DP_STAT_HOLD, 0), (R.BWK_DP_STAT_RESTORE, 0),
    (R.BWK_DP_STAT_CAPPED, 0), (R.BWK_DP_STAT_OVF_EBB, 0), (R.BWK_DP_STAT_OVF_FLOOD, 0), (R.BWK_DP_STAT_CAP_BREACH, 0),
    (R.BWK_DP_STAT_DROOP_MISMATCH, 0), (R.BWK_DP_STAT_LOCKED, 0), (R.BWK_DP_STAT_FOLLOW, 0), (R.CEN_PRG_STAT_SS_DONE, 0),
    (R.CEN_PRG_STAT_SP_LAG, 0), (R.CEN_PRG_STAT_HO_ACT, 0), (R.CEN_STAT_SUPPRESS, 1)]

/-- The fields that the tide table shows outside RUN. -/
def ttbOffFlds : List Fld :=
  [R.TTB_STAT_STATE, R.TTB_STAT_LOCK, R.TTB_STAT_FF_ACT, R.TTB_STAT_MK_FF, R.TTB_STAT_DIV, R.TTB_STAT_CONSIST, R.TTB_PERIOD_PERIOD_US,
    R.TTB_INC_INC, R.TTB_PHASE_THETA]

/-- The fields that leaving RUN writes. -/
def leaveFlds : List Fld := syncFlds ++ repFlds 6 ++ restBits.map Prod.fst ++ ttbOffFlds

theorem leaveFlds_mem (f : Fld) : f ∈ leaveFlds ↔ f ∈ syncFlds ∨ f ∈ repFlds 6 ∨ f ∈ restBits.map Prod.fst ∨ f ∈ ttbOffFlds := by
  simp only [leaveFlds, List.mem_append, or_assoc]

theorem Mod.only_bwk_cen (m : Mod) (x : BwkS) (y : CenS) (fs : List Fld) : m.only [.bwk, .cen] fs { m with bwk := x, cen := y } :=
  Mod.only_trans (Mod.only_bwk m x fs (by simp)) (Mod.only_cen { m with bwk := x } y fs (by simp))

theorem Mod.standDown_only (m : Mod) (fs : List Fld) : m.only [.bwk, .cen] fs m.standDown := m.only_bwk_cen _ _ fs

theorem Mod.ttbOff_only (m : Mod) : m.only [.bwk, .ttb] ttbOffFlds m.ttbOff :=
  Mod.only_trans (Mod.only_trans (Mod.only_bwk m _ _ (by simp)) (Mod.only_ttb _ _ _ (by simp)))
    (Mod.only_puts _ _ _ (by simp [ttbOffFlds]))

/-- RUN is left in four steps: every phase OFF, the breakwater and the engine at rest, their conditions ended, the tide table OFF. -/
theorem Mod.leaveRun_eq (m : Mod) : m.leaveRun = ((m.allOff.standDown.puts restBits).endConds 6 [1, 2, 4, 5, 9, 10]).ttbOff := rfl

/-- What stands between the phases' OFF and the end of the conditions. -/
theorem Mod.restShown_only (m : Mod) : m.only [.bwk, .cen] (restBits.map Prod.fst) (m.standDown.puts restBits) :=
  Mod.only_trans (m.standDown_only _) (Mod.only_puts _ _ _ fun _ he => List.mem_map_of_mem he)

theorem Mod.leaveRun_only (m : Mod) : m.only [.phs, .bwk, .cen, .flt, .ttb] leaveFlds m.leaveRun := by
  rw [Mod.leaveRun_eq]
  have hoff := Mod.only_mono m.allOff_only (qs := [.phs, .bwk, .cen, .flt, .ttb]) (gs := leaveFlds) (by simp)
    (fun f hf => (leaveFlds_mem f).mpr (.inl hf))
  have hrest := Mod.only_mono m.allOff.restShown_only (qs := [.phs, .bwk, .cen, .flt, .ttb]) (gs := leaveFlds) (by simp)
    (fun f hf => (leaveFlds_mem f).mpr (.inr (.inr (.inl hf))))
  have hends := Mod.only_mono (Mod.endConds_only (m.allOff.standDown.puts restBits) 6 [1, 2, 4, 5, 9, 10])
    (qs := [.phs, .bwk, .cen, .flt, .ttb]) (gs := leaveFlds) (by simp) (fun f hf => (leaveFlds_mem f).mpr (.inr (.inl hf)))
  exact Mod.only_trans (Mod.only_trans hoff hrest) (Mod.only_trans hends
    (Mod.only_mono (Mod.ttbOff_only _) (by simp) fun f hf => (leaveFlds_mem f).mpr (.inr (.inr (.inr hf)))))

theorem Mod.leaveRun_mode (m : Mod) {n : Nat} (hn : n < 40) : (m.leaveRun.phase n).mode = 0 := by
  have hphs : m.leaveRun.phs = m.allOff.phs := by
    rw [Mod.leaveRun_eq]
    exact ((Mod.ttbOff_only _).1 .phs (by simp)).trans
      (((Mod.endConds_only _ 6 _).1 .phs (by simp)).trans (m.allOff.restShown_only.1 .phs (by simp)))
  rw [Mod.phase, hphs]
  exact m.allOff_mode hn

theorem Mod.leaveRun_lane {m : Mod} {x : Rep} (h : x ∈ m.flt.lane) : x ∈ m.leaveRun.flt.lane := by
  have hflt : (m.allOff.standDown.puts restBits).flt = m.flt := (m.allOff.restShown_only.1 .flt (by simp)).trans (m.allOff_only.1 .flt (by simp))
  rw [Mod.leaveRun_eq, (Mod.ttbOff_only _).1 .flt (by simp)]
  exact Mod.endConds_lane 6 _ (by rw [hflt]; exact h)

theorem Mod.setPState_pstate (m : Mod) {new : Nat} (cause : Nat) (rec : Bool) (h : new < 8) : (m.setPState new cause rec).pstate = new := by
  have hput : ∀ q : Mod, (q.puts [(R.MGT_PSTATE_PREV, m.pstate), (R.MGT_PSTATE_STATE, new), (R.MGT_PSTATE_CAUSE, cause)]).pstate = new := by
    intro q
    rw [Mod.puts_cons]
    refine (Mod.get_puts_head _ new [(R.MGT_PSTATE_CAUSE, cause)] (by decide) (Fld.apart_of_all (fs := [R.MGT_PSTATE_CAUSE]) (by decide))).trans ?_
    exact Nat.mod_eq_of_lt h
  have hroles : ∀ q : Mod, q.pstate = new → (if new = 2 ∨ new = 3 then { q with roles.leaving := false } else q.leaveRoles).pstate = new := by
    intro q hq
    split
    · exact hq
    · exact (Mod.only_get (q.leaveRoles_frame (ps := [.roles]) (fs := [R.MOD_ROLE_STAT_ELECTING]) (by simp) (by simp)) _
        (Fld.apart_of_all (by decide))).trans hq
  unfold Mod.setPState
  extract_lets old paused shown left
  split
  · exact hroles _ (hput _)
  · exact hroles _ (hput _)

/-- The module on its way to SAFE HOLD: STO_HOLD stops, and the links that carry frames abort. -/
def Mod.stopped (m : Mod) : Mod := if m.pstate = 1 || m.pstate = 0 || m.time.xoFallback then m.stoStop else m.stoStop.abortLinks

/-- The fields that an abort writes. -/
def abortFlds : List Fld := R.PHS_LNK_STAT_ABORTED :: R.PHS_LNK_STAT_ARMED :: syncFlds

theorem Mod.stopped_only (m : Mod) : m.only [.pins, .phs] abortFlds m.stopped := by
  have hsto : m.only [.pins, .phs] abortFlds m.stoStop := Mod.only_pins m _ _ (by simp)
  unfold Mod.stopped
  split
  · exact hsto
  · exact Mod.only_trans hsto (Mod.only_trans (Mod.only_puts _ _ _ (by simp [abortFlds]))
      (Mod.only_mono (Mod.allOff_only _) (by simp) (by simp +contextual [abortFlds])))

theorem Mod.stopped_stoHold (m : Mod) : m.stopped.pins.stoHold = false := by
  unfold Mod.stopped
  split
  · rfl
  · have habort : m.stoStop.abortLinks.pins = m.stoStop.pins :=
      ((Mod.allOff_only _).1 .pins (by simp)).trans (Mod.puts_pins _ _)
    rw [habort]
    rfl

theorem Mod.safeHold_run {m : Mod} (h : m.pstate = 3) :
    m.safeHold = { (m.stopped.leaveRun.setPState 4 1) with pwr.change := .none } := by
  have hkept : m.stopped.pstate = 3 := (Mod.only_get m.stopped_only _ (Fld.apart_of_all (by decide))).trans h
  have hstep : m.safeHold = if m.stopped.pstate = 2 || m.stopped.pstate = 3 then { (m.stopped.leaveRun.setPState 4 1) with pwr.change := .none }
    else m.stopped := rfl
  rw [hstep, hkept]
  rfl

theorem Mod.safeState_only (m : Mod) : m.stopped.leaveRun.only [.wch, .log, .roles, .pwr] pstateFlds
    { (m.stopped.leaveRun.setPState 4 1) with pwr.change := .none } :=
  Mod.only_trans (Mod.setPState_frame m.stopped.leaveRun 4 1 true (by simp) (by simp) (by simp) fun _ h => h) (Mod.only_pwr _ _ _ (by simp))

/-- What SAFE HOLD from RUN may change. -/
theorem Mod.safeHold_parts {m : Mod} (h : m.pstate = 3) :
    m.onlyParts [.pins, .phs, .bwk, .cen, .flt, .ttb, .wch, .log, .roles, .pwr] m.safeHold := by
  rw [Mod.safeHold_run h]
  exact Mod.onlyParts_trans (Mod.onlyParts_mono m.stopped_only.1 (by simp)) (Mod.onlyParts_trans
    (Mod.onlyParts_mono (Mod.leaveRun_only _).1 (by simp)) (Mod.onlyParts_mono m.safeState_only.1 (by simp)))

/-- A field that none of its steps writes keeps its value. -/
theorem Mod.safeHold_get {m : Mod} (h : m.pstate = 3) (g : Fld)
    (hg : ((abortFlds ++ leaveFlds ++ pstateFlds).all fun f => decide (f.addr ≠ g.addr ∨ g.lo + g.w ≤ f.lo ∨ f.lo + f.w ≤ g.lo)) = true) :
    m.safeHold.get g = m.get g := by
  rw [List.all_append, List.all_append, Bool.and_eq_true, Bool.and_eq_true] at hg
  obtain ⟨⟨habort, hleave⟩, hstate⟩ := hg
  rw [Mod.safeHold_run h, Mod.only_get m.safeState_only g (Fld.apart_of_all hstate),
    Mod.only_get (Mod.leaveRun_only _) g (Fld.apart_of_all hleave), Mod.only_get m.stopped_only g (Fld.apart_of_all habort)]

theorem Mod.safeHold_pstate {m : Mod} (h : m.pstate = 3) : m.safeHold.pstate = 4 := by
  rw [Mod.safeHold_run h]
  exact Mod.setPState_pstate _ 1 true (by decide)

theorem Mod.safeHold_mode {m : Mod} (h : m.pstate = 3) {n : Nat} (hn : n < 40) : (m.safeHold.phase n).mode = 0 := by
  have hphs : m.safeHold.phs = m.stopped.leaveRun.phs := by
    rw [Mod.safeHold_run h]
    exact m.safeState_only.1 .phs (by simp)
  rw [Mod.phase, hphs]
  exact Mod.leaveRun_mode _ hn

theorem Mod.safeHold_stoHold {m : Mod} (h : m.pstate = 3) : m.safeHold.pins.stoHold = false := by
  rw [Mod.safeHold_run h, m.safeState_only.1 .pins (by simp), (Mod.leaveRun_only _).1 .pins (by simp)]
  exact m.stopped_stoHold

theorem Mod.safeHold_lane {m : Mod} (h : m.pstate = 3) {x : Rep} (hx : x ∈ m.flt.lane) : x ∈ m.safeHold.flt.lane := by
  rw [Mod.safeHold_run h, m.safeState_only.1 .flt (by simp)]
  exact Mod.leaveRun_lane (by rw [m.stopped_only.1 .flt (by simp)]; exact hx)

end Sys2Proof.Machine
end

section
/-!
PROOFS. States of the phases: shedding, rotation commands, peaks and rearming (R182, R184, R193, R207).
-/
namespace Sys2Proof.Machine

/-! ## Shedding and rotation (R182, R184) -/

theorem Does.shedStarted {s : State} {c : Fin 4} (hon : s.on) (hrun : s.m.inRun = true) (hdwell : s.m.shedDwell ≤ (s.m.conv c).dwell)
    (hshed : (s.m.conv c).shedJ = none) (hrot : (s.m.conv c).rot = none) :
    Does (.phaseShedStart c) s fun t => (t.m.conv c).shedJ = some 0 ∧ (t.m.conv c).dwell = 0 ∧ (t.m.conv c).run = (s.m.conv c).run ∧
      (t.m.conv c).base = (s.m.conv c).base ∧ s.frame [.phs] [] t := by
  have hacts : Does (.phaseShedStart c) s fun t => t = { s with m := s.m.setConv c (fun k => { k with shedJ := some 0, dwell := 0 }) } :=
    Does.ofCond (show exec (.phaseShedStart c) s = execPhaseShedStart c s from rfl) hon (by simp [hrun, hdwell, hshed, hrot]) rfl
  obtain ⟨t, hexec, rfl⟩ := hacts
  have hconv := (s.m.conv_setConv c c (fun k => { k with shedJ := some 0, dwell := 0 }) c.isLt).trans (if_pos rfl)
  exact ⟨_, hexec, congrArg Conv.shedJ hconv, congrArg Conv.dwell hconv, (congrArg Conv.run hconv).trans rfl, (congrArg Conv.base hconv).trans rfl,
    State.frame_of_only (s.m.setConv_only c _)⟩

/-- The timed rotation and ROT_NOW rotate every converter; the second answers STATUS 0. -/
theorem exec_rotation {k : Instr} {s : State}
    (hk : (k = .phaseRotation ∧ s.m.get R.PHS_ROT_ROT_S ≠ 0) ∨ (k = .phsCmdRotNow ∧ s.m.wrStatus 0x908C 2 = 0)) (hon : s.on)
    (hrun : s.m.inRun = true) : ∃ q, exec k s = .next { s with m := q } ∧ s.m.rotateAll.only [.resp] [] q := by
  rcases hk with ⟨rfl, hs⟩ | ⟨rfl, hw⟩
  · refine ⟨s.m.rotateAll, ?_, Mod.only_refl _ _ _⟩
    rw [show exec .phaseRotation s = execPhaseRotation s from rfl, execPhaseRotation, onMod, if_neg hon, if_pos (by simp [hrun, hs]),
      Mod.rotateAll]
  · refine ⟨{ s.m.rotateAll with resp := 0 }, ?_, Mod.only_resp _ 0 _ (by simp)⟩
    rw [show exec .phsCmdRotNow s = execPhsCmdRotNow s from rfl, execPhsCmdRotNow, onMod, if_neg hon, Mod.guarded_ok _ hw, Mod.rotNow,
      if_pos hrun, Mod.rotateAll]

theorem Mod.conv_of_resp {a b : Mod} (h : a.only [.resp] [] b) (c : Nat) : b.conv c = a.conv c := by
  rw [Mod.conv, h.1 .phs (by simp), Mod.conv]

theorem Does.runsTurn {k : Instr} {s : State}
    (hk : (k = .phaseRotation ∧ s.m.get R.PHS_ROT_ROT_S ≠ 0) ∨ (k = .phsCmdRotNow ∧ s.m.wrStatus 0x908C 2 = 0)) (hon : s.on)
    (hrun : s.m.inRun = true) (hturn : ∀ c < 4, s.m.onlyTurns c) :
    Does k s fun t => (∀ c < 4, (t.m.conv c).base = ((s.m.conv c).base + 1) % (s.m.places c).length ∧
      (t.m.conv c).run = (s.m.conv c).run.drop 1 ++ (s.m.conv c).run.take 1) ∧ s.frame [.phs, .resp] [] t := by
  obtain ⟨t, hexec, hresp⟩ := exec_rotation hk hon hrun
  have hall : s.m.only [.phs] [] s.m.rotateAll :=
    Mod.rotates_onlyTurns List.nodup_range (fun c hc => List.mem_range.mp hc) fun c hc => hturn c (List.mem_range.mp hc)
  refine ⟨_, hexec, fun c hc => ?converter,
    State.frame_of_only (Mod.only_trans (Mod.only_mono hall (by simp) fun _ h => h) (Mod.only_mono hresp (by simp) fun _ h => h))⟩
  case converter =>
    rw [Mod.conv_of_resp hresp]
    refine Mod.rotateAll_conv (Q := fun k => k.base = ((s.m.conv c).base + 1) % (s.m.places c).length ∧
      k.run = (s.m.conv c).run.drop 1 ++ (s.m.conv c).run.take 1) hc fun q honly hconv => ?_
    rw [← hconv, ← Mod.places_of_only honly c (by decide)]
    exact (Mod.rotate_onlyTurns hc (Mod.onlyTurns_of_only honly hconv (hturn c hc))).2

theorem Does.phaseAdded {k : Instr} {s : State} {c : Fin 4} {h : Nat} {l : List Nat}
    (hk : (k = .phaseRotation ∧ s.m.get R.PHS_ROT_ROT_S ≠ 0) ∨ (k = .phsCmdRotNow ∧ s.m.wrStatus 0x908C 2 = 0)) (hon : s.on)
    (hrun : s.m.inRun = true) (hdone : s.m.is R.CEN_PRG_STAT_SS_DONE = true) (hl : (s.m.conv c).run = h :: l)
    (hrot : (s.m.conv c).rot = none) (hmore : ∃ n ∈ convPhases c, s.m.phaseActive n = true ∧ n ∉ h :: l) :
    Does k s fun t => (∃ n ∈ convPhases c, s.m.phaseActive n = true ∧ n ∉ h :: l ∧ (t.m.conv c).run = h :: l ++ [n]) ∧
      (t.m.conv c).rot = some h ∧ (t.m.conv c).shedJ = none ∧
      (t.m.conv c).base = ((s.m.conv c).base + 1) % (s.m.places c).length := by
  obtain ⟨t, hexec, hresp⟩ := exec_rotation hk hon hrun
  refine ⟨_, hexec, ?_⟩
  simp only [Mod.conv_of_resp hresp]
  refine Mod.rotateAll_conv (Q := fun k => (∃ n ∈ convPhases c, s.m.phaseActive n = true ∧ n ∉ h :: l ∧ k.run = h :: l ++ [n]) ∧
    k.rot = some h ∧ k.shedJ = none ∧ k.base = ((s.m.conv c).base + 1) % (s.m.places c).length) c.isLt fun q honly hconv => ?_
  have hact : ∀ n ∈ convPhases c, q.phaseActive n = s.m.phaseActive n := fun n hn => Mod.phaseActive_rot honly (convPhases_lt hn)
  obtain ⟨⟨n, hn, hactive, hout, hnew⟩, hfirst, hshed, hbase⟩ := Mod.rotate_adds (m := q) c.isLt
    (by rw [Mod.is, Mod.only_get honly _ (Fld.apart_of_all (by decide))]; exact hdone) (by rw [hconv]; exact hl) (by rw [hconv]; exact hrot)
    (hmore.imp fun n ⟨hn, hactive, hout⟩ => ⟨hn, (hact n hn).trans hactive, hout⟩)
  exact ⟨⟨n, hn, (hact n hn).symm.trans hactive, hout, hnew⟩, hfirst, hshed, by rw [hbase, hconv, Mod.places_of_only honly c (by decide)]⟩

/-! ## Peaks (R193) -/

/-- The peak registers of a phase at their reset values. -/
def Mod.clearPeak (m : Mod) (n : Nat) : Mod := m.puts [(R.PHS_IPK_I_MAX n, 0x8000), (R.PHS_IPK_I_MIN n, 0x7FFF)]

theorem Mod.clearPeak_same (m : Mod) (n : Nat) :
    (m.clearPeak n).getI (R.PHS_IPK_I_MAX n) = -32768 ∧ (m.clearPeak n).getI (R.PHS_IPK_I_MIN n) = 32767 := by
  have hmax : (m.clearPeak n).get (R.PHS_IPK_I_MAX n) = 0x8000 :=
    (Mod.get_put_ne (m.put (R.PHS_IPK_I_MAX n) 0x8000) (R.PHS_IPK_I_MIN n) (R.PHS_IPK_I_MAX n) _ (.inr (.inl (show 0 + 16 ≤ 16 by decide)))).trans
      (Mod.get_put_same m _ _ (show 0 + 16 ≤ 32 by decide))
  have hmin : (m.clearPeak n).get (R.PHS_IPK_I_MIN n) = 0x7FFF := Mod.get_put_same _ (R.PHS_IPK_I_MIN n) _ (show 16 + 16 ≤ 32 by decide)
  rw [Mod.getI, Mod.getI, hmax, hmin]
  exact ⟨show sext 16 0x8000 = -32768 by decide, show sext 16 0x7FFF = 32767 by decide⟩

theorem Mod.clearPeak_ne (m : Mod) {n k : Nat} (h : n ≠ k) (lo w : Nat) :
    (m.clearPeak n).get ⟨0x9400 + 4 * k, lo, w⟩ = m.get ⟨0x9400 + 4 * k, lo, w⟩ :=
  (Mod.get_put_ne _ (R.PHS_IPK_I_MIN n) _ _ (.inl (by simp only; omega))).trans (Mod.get_put_ne m (R.PHS_IPK_I_MAX n) _ _ (.inl (by simp only; omega)))

/-- The peak registers of every phase. -/
def peakFlds : List Fld := (List.range 40).flatMap fun n => [R.PHS_IPK_I_MAX n, R.PHS_IPK_I_MIN n]

theorem Mod.pkClr_eq (m : Mod) : m.pkClr = (List.range 40).foldl Mod.clearPeak m := rfl

theorem Mod.pkClr_peaks (m : Mod) {n : Nat} (hn : n < 40) :
    m.pkClr.getI (R.PHS_IPK_I_MAX n) = -32768 ∧ m.pkClr.getI (R.PHS_IPK_I_MIN n) = 32767 := by
  rw [Mod.pkClr_eq]
  exact foldl_range_at (f := Mod.clearPeak) (P := fun _ => True)
    (Q := fun q : Mod => q.getI (R.PHS_IPK_I_MAX n) = -32768 ∧ q.getI (R.PHS_IPK_I_MIN n) = 32767) hn (fun _ _ _ _ _ => trivial)
    (fun q _ => q.clearPeak_same n)
    (fun q j _ hj hq => by rw [Mod.getI, Mod.getI, q.clearPeak_ne hj, q.clearPeak_ne hj]; exact hq) trivial

theorem Mod.pkClr_only (m : Mod) (ps : List Part) : m.only ps peakFlds m.pkClr := by
  rw [Mod.pkClr_eq]
  refine Mod.only_foldl Mod.clearPeak _ (fun q n hn => Mod.only_puts q _ _ ?_) m
  have hmem : ∀ f ∈ [R.PHS_IPK_I_MAX n, R.PHS_IPK_I_MIN n], f ∈ peakFlds := fun f hf => List.mem_flatMap.mpr ⟨n, hn, hf⟩
  simpa using hmem

theorem Does.peaksCleared {s : State} (hw : s.m.wrStatus 0x908C 1 = 0) (hon : s.on) :
    Does .phsCmdPkClr s fun t => (∀ n < 40, t.m.getI (R.PHS_IPK_I_MAX n) = -32768 ∧ t.m.getI (R.PHS_IPK_I_MIN n) = 32767) ∧ t.m.resp = 0 ∧
      s.frame [.resp] peakFlds t := by
  have hexec : exec .phsCmdPkClr s = .next { s with m := { s.m.pkClr with resp := 0 } } := by
    rw [show exec .phsCmdPkClr s = execPhsCmdPkClr s from rfl, execPhsCmdPkClr, onMod, if_neg hon, Mod.guarded_ok _ hw]
  have hanswer : s.m.pkClr.only [.resp] [] { s.m.pkClr with resp := 0 } := Mod.only_resp _ 0 _ (by simp)
  have hget : ∀ g, Mod.getI { s.m.pkClr with resp := 0 } g = s.m.pkClr.getI g := fun g => by
    rw [Mod.getI, Mod.only_get hanswer g (by simp), Mod.getI]
  refine ⟨_, hexec, fun n hn => ?peak, rfl, State.frame_of_only
    (Mod.only_trans (s.m.pkClr_only _) (Mod.only_mono hanswer (fun _ h => h) (by simp)))⟩
  case peak =>
    rw [hget, hget]
    exact s.m.pkClr_peaks hn

/-! ## Rearming (R207) -/

/-- The fields that rearming a phase writes beside its cause and its DRV. -/
def rearmFlds : List Fld := isoWords ++ syncFlds

/-- The bits of a phase that is released. -/
def Mod.released (m : Mod) (n : Nat) : Mod :=
  (m.setPairBit 0x9098 0x909C n false).puts [(R.PHS_PSTAT_ISO_WHY n, 0), (R.PHS_PSTAT_DRV n, 0)]

theorem Mod.rearm_only (m : Mod) (n : Nat) : m.only [] (R.PHS_PSTAT_ISO_WHY n :: R.PHS_PSTAT_DRV n :: rearmFlds) (m.rearm n) := by
  unfold Mod.rearm
  split
  · exact Mod.only_trans (Mod.only_trans
      (Mod.only_mono (m.setIso_only n false) (fun _ h => h) (by simp +contextual [rearmFlds])) (Mod.only_puts _ _ _ (by simp)))
      (Mod.only_mono (Mod.syncPhases_only _) (fun _ h => h) (by simp +contextual [rearmFlds]))
  · exact Mod.only_refl m _ _

/-- Exactly a phase whose cause has cleared is released. -/
theorem Mod.isolated_rearm (m : Mod) {n k : Nat} (hn : n < 40) (hk : k < 40) :
    (m.rearm n).isolated k = (m.isolated k && !(decide (n = k) && m.causeCleared k)) := by
  unfold Mod.rearm
  split
  next h =>
    rw [Bool.and_eq_true] at h
    have hshown : (m.released n).isolated k = (m.setPairBit 0x9098 0x909C n false).isolated k :=
      Mod.isolated_of_only (Mod.only_puts _ _ [] (fs := [R.PHS_PSTAT_ISO_WHY n, R.PHS_PSTAT_DRV n]) (by simp))
        (by simpa using ⟨Fld.pstat_apart n _ _ (by decide), Fld.pstat_apart n _ _ (by decide)⟩)
        (by simpa using ⟨Fld.pstat_apart n _ _ (by decide), Fld.pstat_apart n _ _ (by decide)⟩) k
    have hsync : (m.released n).syncPhases.isolated k = (m.released n).isolated k :=
      Mod.isolated_of_only (Mod.syncPhases_only _) (Fld.apart_of_all (by decide)) (Fld.apart_of_all (by decide)) k
    refine (hsync.trans hshown).trans ((m.isolated_setIso false hn hk).trans ?_)
    by_cases e : n = k
    · subst e; simp [h]
    · simp [e]
  next h =>
    rw [Bool.and_eq_true, not_and] at h
    by_cases e : n = k
    · subst e
      cases hiso : m.isolated n
      · rfl
      · simp [h hiso]
    · simp [e]

/-- The fields that tell whether a phase's cause has cleared. -/
def causeFlds (n : Nat) : List Fld :=
  [R.PHS_PSTAT_ISO_WHY n, R.AFE_CAL_OFFSET n, R.AFE_CAL_GAIN n, R.PHS_SHED_LIM_PCT, R.PHS_PROT_OC_PCT, R.PHS_CFG_I_RAT, R.PHS_IAVG_TEMP n,
    R.PHS_PROT_OT_WARN, R.PHS_PROT_OT_TRIP, R.PHS_LNK_STAT_UP]

theorem Mod.causeCleared_congr {a b : Mod} {n : Nat} (hget : ∀ g ∈ causeFlds n, b.get g = a.get g) (hphs : b.phs = a.phs)
    (hafe : b.afe = a.afe) (htrp : b.trp = a.trp) : b.causeCleared n = a.causeCleared n := by
  simp only [causeFlds, List.mem_cons, List.not_mem_nil, or_false, forall_eq_or_imp, forall_eq] at hget
  obtain ⟨hwhy, hofs, hgain, hlim, hoc, hrat, htemp, hwarn, htrip, hup⟩ := hget
  have hinst : b.chanInst n = a.chanInst n := by simp only [Mod.chanInst, Mod.calQ, Mod.getI, hofs, hgain, hafe]
  have hlimit : b.ocLimit = a.ocLimit := by simp only [Mod.ocLimit, Mod.iRat, hlim, hoc, hrat]
  have htemp' : b.getI (R.PHS_IAVG_TEMP n) = a.getI (R.PHS_IAVG_TEMP n) := congrArg (sext 16) htemp
  unfold Mod.causeCleared
  rw [hwhy, hinst, hlimit, htemp', hwarn, htrip, Mod.linkUp_congr hup, hphs, hafe, htrp]

theorem Mod.causeCleared_rearm (m : Mod) {n k : Nat} (hn : n < 40) (hk : k < 40) (h : n ≠ k) :
    (m.rearm n).causeCleared k = m.causeCleared k := by
  have honly := m.rearm_only n
  refine Mod.causeCleared_congr (fun g hg => Mod.only_get honly g ?_) (honly.1 .phs (by simp)) (honly.1 .afe (by simp)) (honly.1 .trp (by simp))
  have hout : ∀ g' : Fld, g'.addr ≠ 0x9080 → g'.addr < 0x9098 ∨ 0x92A0 ≤ g'.addr →
      ∀ f ∈ R.PHS_PSTAT_ISO_WHY n :: R.PHS_PSTAT_DRV n :: rearmFlds, f.apart g' := by
    have hrest : ∀ f ∈ rearmFlds, f.addr = 0x9080 ∨ 0x9098 ≤ f.addr ∧ f.addr < 0x92A0 := by decide
    intro g' hne hg' f hf
    refine .inl ?_
    rcases List.mem_cons.mp hf with rfl | hf
    · simp only; omega
    · rcases List.mem_cons.mp hf with rfl | hf
      · simp only; omega
      · have := hrest f hf
        omega
  simp only [causeFlds, List.mem_cons, List.not_mem_nil, or_false] at hg
  rcases hg with rfl | rfl | rfl | rfl | rfl | rfl | rfl | rfl | rfl | rfl
  · refine List.forall_mem_cons.mpr ⟨.inl ?_, List.forall_mem_cons.mpr ⟨.inl ?_, Fld.apart_pstat (by decide) hk (by decide) (by decide)⟩⟩
    all_goals simp only; omega
  all_goals exact hout _ (by simp only; omega) (by simp only; omega)

/-- The phase of a REARM bit. -/
def rearmPhase (hi : Bool) (i : Nat) : Nat := if hi then 32 + i else i

theorem Does.rearmed {s : State} {hi : Bool} {v : Word} (hw : s.m.wrStatus (if hi then 0x9094 else 0x9090) v.toNat = 0) (hon : s.on) :
    Does (.phsRearmWrite hi v) s fun t => (∀ i < if hi then 8 else 32, s.m.isolated (if hi then 32 + i else i) = true →
        t.m.isolated (if hi then 32 + i else i) = !(bit v.toNat i && s.m.causeCleared (if hi then 32 + i else i))) ∧
      t.m.resp = 0 ∧ s.m.onlyParts [.resp] t.m := by
  have hlt : ∀ i < if hi then 8 else 32, rearmPhase hi i < 40 := by unfold rearmPhase; cases hi <;> simp <;> omega
  have hinj : ∀ i j, j ≠ i → rearmPhase hi j ≠ rearmPhase hi i := by unfold rearmPhase; cases hi <;> simp
  refine Does.ofMod (show exec (.phsRearmWrite hi v) s = execPhsRearmWrite hi v s from rfl) hon ?_
  rw [Mod.guarded_ok _ hw]
  refine ⟨fun i hi' hiso => ?phase, rfl, ?parts⟩
  case phase =>
    refine foldl_range_at (f := fun (m : Mod) i => if bit v.toNat i then m.rearm (rearmPhase hi i) else m)
      (P := fun q : Mod => q.isolated (rearmPhase hi i) = true ∧ q.causeCleared (rearmPhase hi i) = s.m.causeCleared (rearmPhase hi i))
      (Q := fun q : Mod => q.isolated (rearmPhase hi i) = !(bit v.toNat i && s.m.causeCleared (rearmPhase hi i))) hi' ?before ?here ?after ⟨hiso, rfl⟩
    case before =>
      intro q j hj hne ⟨hq, hcause⟩
      split
      · rw [q.isolated_rearm (hlt j hj) (hlt i hi'), q.causeCleared_rearm (hlt j hj) (hlt i hi') (hinj i j hne), hq]
        exact ⟨by simp [hinj i j hne], hcause⟩
      · exact ⟨hq, hcause⟩
    case here =>
      intro q ⟨hq, hcause⟩
      cases hb : bit v.toNat i
      · simpa using hq
      · simp [q.isolated_rearm (hlt i hi') (hlt i hi'), hq, hcause]
    case after =>
      intro q j hj hne hq
      split
      · rw [q.isolated_rearm (hlt j hj) (hlt i hi'), hq]
        simp [hinj i j hne]
      · exact hq
  case parts =>
    refine Mod.onlyParts_trans (b := s.m.rearmWord hi v) ?_ (Mod.only_resp _ 0 [] (by simp)).1
    refine List.foldlRecOn (motive := s.m.onlyParts [.resp]) _ _ (Mod.onlyParts_refl s.m _) fun q hq i _ => ?_
    split
    · exact Mod.onlyParts_trans hq (Mod.onlyParts_mono (q.rearm_only _).1 (by simp))
    · exact hq

end Sys2Proof.Machine
end

section
/-!
PROOFS. The end of braking and the judged protections (R189, R190, R205); the statement PhaseStates.
-/
namespace Sys2Proof.Machine

/-! ## The end of braking (R189) -/

/-- A phase starts anew under R186 with a PATCH frame. -/
def Mod.restart (m : Mod) (n : Nat) : Mod :=
  ((m.setPhase n (fun x => { x with brake := none, startLeft := m.pbCycles, q := 0, value := m.ratioValue (convOf n % 2),
                                    mode := asyncMode x.r, fresh := true })).patch n).syncPhases

theorem Mod.restart_only (m : Mod) (n : Nat) : m.only [.phs] syncFlds (m.restart n) :=
  Mod.only_trans (Mod.only_mono (Mod.only_trans (m.setPhase_only n _) (Mod.patch_only _ n)) (fun _ h => h) (by simp))
    (Mod.only_mono (Mod.syncPhases_only _) (by simp) fun _ h => h)

theorem Mod.restart_phase (m : Mod) {n : Nat} (hn : n < 40) :
    ((m.restart n).phase n).brake = none ∧ ((m.restart n).phase n).startLeft = m.pbCycles ∧ ((m.restart n).phase n).q = 0 := by
  unfold Mod.restart
  rw [Mod.phase, Mod.syncPhases_phs, Mod.patch_ph, ← Mod.phase, Mod.phase_setPhase _ _ _ _ hn, if_pos rfl]
  exact ⟨rfl, rfl, rfl⟩

/-- BRK_MAX periods are over: the event, and a report at most once a second. -/
def Mod.brakeLong (m : Mod) (n : Nat) : Mod := (m.put R.PHS_EVT_BRK_LONG 1).phsCorrected 0x0B n

theorem exec_brakeEnd {s : State} {n : Fin 24} {v : Int} {k : Nat} (hon : s.on) (hk : (s.m.phase n).brake = some k) :
    exec (.brakeEnd n v) s = .next { s with m :=
      if (!(decide (-s.m.pbMin ≤ s.m.calQ n (4 * v) * 125 / 32768)) && decide (k < s.m.brkMax)) = true then s.m
      else (if decide (-s.m.pbMin ≤ s.m.calQ n (4 * v) * 125 / 32768) then s.m else s.m.brakeLong n).restart n } := by
  rw [show exec (.brakeEnd n v) s = execBrakeEnd n v s from rfl, execBrakeEnd, onMod, if_neg hon]
  simp only [hk]
  rfl

theorem Does.brakeEnded {s : State} {n : Fin 24} {v : Int} {k : Nat} (hon : s.on) (hk : (s.m.phase n).brake = some k)
    (hend : -s.m.pbMin ≤ s.m.calQ n (4 * v) * 125 / 32768) :
    Does (.brakeEnd n v) s fun t => (t.m.phase n).brake = none ∧ (t.m.phase n).startLeft = s.m.pbCycles ∧ (t.m.phase n).q = 0 ∧
      s.m.onlyParts [.phs] t.m := by
  have hexec : exec (.brakeEnd n v) s = .next { s with m := s.m.restart n } := by
    rw [exec_brakeEnd hon hk, decide_eq_true hend]
    rfl
  obtain ⟨hbrake, hstart, hq⟩ := s.m.restart_phase (n := n) (by omega)
  exact ⟨_, hexec, hbrake, hstart, hq, (s.m.restart_only n).1⟩

theorem Does.brakeTooLong {s : State} {n : Fin 24} {v : Int} {k : Nat} (hon : s.on) (hk : (s.m.phase n).brake = some k)
    (hlow : s.m.calQ n (4 * v) * 125 / 32768 < -s.m.pbMin) (hmax : s.m.brkMax ≤ k) :
    Does (.brakeEnd n v) s fun t => (t.m.phase n).brake = none ∧ t.m.get R.PHS_EVT_BRK_LONG = 1 ∧ s.m.onlyParts [.phs, .flt] t.m := by
  have hexec : exec (.brakeEnd n v) s = .next { s with m := (s.m.brakeLong n).restart n } := by
    rw [exec_brakeEnd hon hk, decide_eq_false (Rat.not_le.mpr hlow), decide_eq_false (Nat.not_lt.mpr hmax)]
    rfl
  have htold : (s.m.put R.PHS_EVT_BRK_LONG 1).only [.flt] (repFlds 9) (s.m.brakeLong n) := Mod.raiseLimAt_only _ tickS 9 (phaseLink n) 0x0B n 0
  have hrestart := (s.m.brakeLong n).restart_only n
  refine ⟨_, hexec, (Mod.restart_phase _ (by omega)).1, ?event, ?parts⟩
  case event =>
    exact (Mod.only_get hrestart _ (Fld.apart_of_all (by decide))).trans
      ((Mod.only_get htold _ (Fld.apart_of_all (by decide))).trans (Mod.get_put_same s.m _ 1 (by decide)))
  case parts =>
    exact Mod.onlyParts_trans (Mod.onlyParts_put s.m _ 1 _)
      (Mod.onlyParts_trans (Mod.onlyParts_mono htold.1 (by simp)) (Mod.onlyParts_mono hrestart.1 (by simp)))

/-! ## A short in the soft start (R190) -/

/-- Before its SAFE HOLD a short is shown, every phase is OFF, and PH_SHORT is raised. -/
def Mod.shortTold (m : Mod) (p : Nat) : Mod := ((m.put R.PHS_EVT_SHORT 1).allOff).raise 9 8 9 (12 * p) 2

theorem Mod.shortTold_after (m : Mod) (p : Nat) :
    (m.put R.PHS_EVT_SHORT 1).only [.phs, .flt] (syncFlds ++ repFlds 9) (m.shortTold p) :=
  Mod.only_trans (Mod.only_mono (Mod.allOff_only _) (by simp) fun _ h => List.mem_append_left _ h)
    (Mod.only_raise _ 9 8 9 (12 * p) 2 (by simp) fun _ h => List.mem_append_right _ h)

theorem Mod.shortTold_lane {m : Mod} (p : Nat) (ht : m.takes 9 8) :
    { blk := 9, inst := 8, kind := 9, addr := 12 * p, cls := 2 } ∈ (m.shortTold p).flt.lane := by
  have hoff : ((m.put R.PHS_EVT_SHORT 1).allOff).takes 9 8 :=
    Mod.takes_of_flt ((Mod.allOff_only _).1 .flt (by simp)) (Mod.only_get (Mod.allOff_only _) _ (Fld.apart_of_all (by decide)))
      (Mod.takes_put R.PHS_EVT_SHORT 1 (.inl (by decide)) ht)
  exact List.mem_of_getLast? (Mod.raise_tells 9 8 9 (12 * p) 2 hoff)

theorem Does.shortHeld {s : State} {p : Fin 2} (hrun : s.m.inRun = true) (hsoft : s.m.softStart = true)
    (hheld : 20 * clampN 1 100 (s.m.get R.PHS_SC_SC_MS) ≤ s.m.phs.scRun.getD p 0) (ht : s.m.takes 9 8) :
    Does (.softStartShort p) s fun t => t.m.pstate = 4 ∧ t.m.get R.PHS_EVT_SHORT = 1 ∧ (∀ n < 40, (t.m.phase n).mode = 0) ∧
      t.m.pins.stoHold = false ∧ { blk := 9, inst := 8, kind := 9, addr := 12 * p.val, cls := 2 } ∈ t.m.flt.lane ∧
      t.fuses = s.fuses ∧ t.m.nv = s.m.nv := by
  have hstate : s.m.pstate = 3 := by simpa [Mod.inRun] using hrun
  have hacts : Does (.softStartShort p) s fun t => t = { s with m := (s.m.shortTold p).safeHold } :=
    Does.ofCond (show exec (.softStartShort p) s = execSoftStartShort p s from rfl) (by simp [hstate])
      (by simp only [hrun, hsoft, decide_eq_true hheld]; rfl) rfl
  obtain ⟨t, hexec, rfl⟩ := hacts
  have hafter := s.m.shortTold_after p
  have hkept : (s.m.shortTold p).pstate = 3 := (Mod.only_get hafter _ (Fld.apart_of_all (by decide))).trans
    ((Mod.get_put_ne s.m R.PHS_EVT_SHORT _ 1 (.inl (by decide))).trans hstate)
  refine ⟨_, hexec, Mod.safeHold_pstate hkept, ?event, fun n hn => Mod.safeHold_mode hkept hn, Mod.safeHold_stoHold hkept,
    Mod.safeHold_lane hkept (Mod.shortTold_lane p ht), rfl, ?stores⟩
  case event =>
    exact (Mod.safeHold_get hkept _ (by decide)).trans
      ((Mod.only_get hafter _ (Fld.apart_of_all (by decide))).trans (Mod.get_put_same s.m _ 1 (by decide)))
  case stores => exact (Mod.safeHold_parts hkept .nv (by simp)).trans (hafter.1 .nv (by simp))

/-! ## Overcurrent beyond the shore (R205) -/

/-- A phase beyond the shore before its report: isolated with WHY 1, its PATCH frame sent, IOUT of its pole set. -/
def Mod.ocIsolated (m : Mod) (n : Nat) : Mod := ((m.isolate n 1).patch n).pmbSet (pmbIout (phasePole n)) 32

theorem Mod.ocIsolated_after (m : Mod) (n : Nat) :
    (m.isolate n 1).only [.phs] [R.PMB_STATUS_P_IOUT, R.PMB_STATUS_N_IOUT] (m.ocIsolated n) := by
  have hiout : pmbIout (phasePole n) ∈ [R.PMB_STATUS_P_IOUT, R.PMB_STATUS_N_IOUT] := by
    unfold pmbIout
    split <;> simp
  exact Mod.only_trans (Mod.only_mono (Mod.patch_only _ n) (fun _ h => h) (by simp)) (Mod.only_put _ _ _ _ hiout)

theorem Mod.ocIsolated_mode {m : Mod} {n : Nat} (h : m.isolated n = false) (hn : n < 40) : ((m.ocIsolated n).phase n).mode = 0 := by
  have hph : (m.ocIsolated n).phs.ph = (m.isolate n 1).phs.ph := Mod.patch_ph _ n
  rw [Mod.phase, hph]
  exact Mod.isolate_off h 1 hn

theorem Does.ocIsolated {s : State} {n : Fin 40} {l : List Int} (hon : s.on) (hiso : s.m.isolated n = false)
    (hlen : clampN 1 15 (s.m.get R.PHS_PROT_OC_N) ≤ l.length)
    (hall : ∀ v ∈ l.drop (l.length - clampN 1 15 (s.m.get R.PHS_PROT_OC_N)), s.m.ocLimit < absQ (s.m.calQ n (4 * v) * 125 / 32768))
    (ht : s.m.takes 9 (phaseLink n)) :
    Does (.phOcShore n l) s fun t => t.m.isolated n = true ∧ t.m.get (R.PHS_PSTAT_ISO_WHY n) = 1 ∧ (t.m.phase n).mode = 0 ∧
      t.m.tells { blk := 9, inst := phaseLink n, kind := 1, addr := n.val, cls := 1 } ∧ s.m.onlyParts [.phs, .flt] t.m := by
  obtain ⟨hreset, hpage, -, hqueue⟩ := ht
  have hacts : Does (.phOcShore n l) s fun t => t = { s with m := (s.m.ocIsolated n).raise 9 (phaseLink n) 1 n 1 } :=
    Does.ofCond (show exec (.phOcShore n l) s = execPhOcShore n l s from rfl) hon
      (by simp only [hpage, hiso, hlen, List.all_eq_true.mpr fun v hv => decide_eq_true (hall v hv)]; rfl) rfl
  obtain ⟨t, hexec, rfl⟩ := hacts
  have hiso' := s.m.isolate_only n 1
  have hafter := s.m.ocIsolated_after n
  have htold := Mod.raise_frame (s.m.ocIsolated n) 9 (phaseLink n) 1 n 1 fun _ h => h
  have honly : (s.m.isolate n 1).only [.phs, .flt] ([R.PMB_STATUS_P_IOUT, R.PMB_STATUS_N_IOUT] ++ repFlds 9)
      ((s.m.ocIsolated n).raise 9 (phaseLink n) 1 n 1) :=
    Mod.only_trans (Mod.only_mono hafter (by simp) (by simp +contextual)) (Mod.only_mono htold.symm (by simp) (by simp +contextual))
  refine ⟨_, hexec, ?bit, ?why, ?mode, ?told, Mod.onlyParts_trans hiso'.1 honly.1⟩
  case bit =>
    exact (Mod.isolated_of_only honly (Fld.apart_of_all (by decide)) (Fld.apart_of_all (by decide)) _).trans (s.m.isolate_isolates 1 n.isLt)
  case why =>
    exact (Mod.only_get honly _ (Fld.apart_pstat (by decide) n.isLt (by decide) (by decide))).trans
      (Mod.isolate_why hiso n.isLt (by decide))
  case mode =>
    have hph : ((s.m.ocIsolated n).raise 9 (phaseLink n) 1 n 1).phs = (s.m.ocIsolated n).phs := htold.2 .phs (by simp)
    show (((s.m.ocIsolated n).raise 9 (phaseLink n) 1 n 1).phase n).mode = 0
    rw [Mod.phase, hph]
    exact Mod.ocIsolated_mode hiso n.isLt
  case told =>
    have hflt : (s.m.ocIsolated n).flt = (s.m.isolate n 1).flt := hafter.1 .flt (by simp)
    have hsilent : (s.m.ocIsolated n).silent 9 (phaseLink n) = false := by
      rw [Mod.silent_congr (a := s.m) 9 _ (by rw [hflt, Mod.isolate_resets hiso])
        ((Mod.only_get hafter _ (Fld.apart_of_all (by decide))).trans (s.m.isolate_get n 1 _ (by decide) (by decide))), Mod.silent, hreset, hpage]
      rfl
    exact Mod.report_tells_roomy rfl hsilent (by unfold Mod.roomy; rw [hflt]; exact Mod.isolate_roomy hiso 1 (.inl hqueue))

/-! ## Imbalance and sense (R205) -/

/-- A limited START that its limit lets through is the newest report. -/
theorem Mod.condStartLim_tells {m : Mod} {key blk inst kind addr : Nat} (ht : m.takes blk inst) (hc : m.condOn blk inst kind addr = false)
    (hm : m.mayRaise key tickS = true) : (m.condStartLim key blk inst kind addr).tells
      { blk := blk, inst := inst, kind := kind, addr := addr, cls := 0, ind := .start } := by
  have htold := Mod.condStart_tells blk inst kind addr 0 ht hc
  unfold Mod.condStartLim
  rw [if_neg (by simp [hc, hm])]
  exact htold

theorem Does.imbalanceStarted {s : State} {n : Fin 40} (hon : s.on) (hrun : 200 ≤ (s.m.phase n).imbRun)
    (hc : s.m.condOn 9 (phaseLink n) 5 n = false) (ht : s.m.takes 9 (phaseLink n))
    (hm : s.m.mayRaise ((n.val + 1) * 2 ^ 24 + raiseKey 9 (phaseLink n) 5) tickS = true) :
    Does (.phImb n) s fun t => t.m.get R.PHS_EVT_IMB = 1 ∧
      t.m.tells { blk := 9, inst := phaseLink n, kind := 5, addr := n.val, cls := 0, ind := .start } ∧
      s.frame [.flt] (R.PHS_EVT_IMB :: repFlds 9) t := by
  let shown : Mod := s.m.put R.PHS_EVT_IMB 1
  have hexec : exec (.phImb n) s = .next { s with m := shown.phsCondStart 5 n } := by
    rw [show exec (.phImb n) s = execPhImb n s from rfl, execPhImb, onMod, if_neg hon, if_pos ⟨hrun, by simp [hc]⟩]
  have hstart : shown.only [.flt] (repFlds 9) (shown.phsCondStart 5 n) := (Mod.condStartLim_frame shown _ 9 (phaseLink n) 5 n fun _ h => h).symm
  refine ⟨_, hexec, ?_, Mod.condStartLim_tells (Mod.takes_put R.PHS_EVT_IMB 1 (.inl (by decide)) ht) hc hm, State.frame_of_only ?_⟩
  · exact (Mod.only_get hstart _ (Fld.apart_of_all (by decide))).trans (Mod.get_put_same s.m _ 1 (by decide))
  · exact Mod.only_trans (Mod.only_put s.m _ 1 _ List.mem_cons_self) (Mod.only_mono hstart (fun _ h => h) fun _ h => List.mem_cons_of_mem _ h)

theorem Does.senseStarted {s : State} {p : Fin 2} (hon : s.on) (hrun : 10 ≤ s.m.phs.sumRun.getD p 0)
    (hc : s.m.condOn 9 8 6 (12 * p.val) = false) (ht : s.m.takes 9 8) :
    Does (.phSense p) s fun t => t.m.get R.PHS_EVT_SENSE = 1 ∧
      t.m.tells { blk := 9, inst := 8, kind := 6, addr := 12 * p.val, cls := 1, ind := .start } ∧
      s.frame [.flt] (R.PHS_EVT_SENSE :: repFlds 9) t := by
  have hexec : exec (.phSense p) s = .next { s with m := (s.m.puts [(R.PHS_EVT_SENSE, 1)]).condStart 9 8 6 (12 * p.val) 1 } := by
    rw [show exec (.phSense p) s = execPhSense p s from rfl, execPhSense, onMod, if_neg hon, if_pos ⟨hrun, by simp [hc]⟩]
    rfl
  refine ⟨_, hexec, ?_, Mod.showStart_tells _ 9 8 6 (12 * p.val) 1 (Fld.apart_of_all (by decide)) ht hc,
    State.frame_of_only (s.m.showStart_only _ 9 8 6 (12 * p.val) 1)⟩
  exact (Mod.only_get (Mod.condStart_only _ 9 8 6 (12 * p.val) 1) _ (Fld.apart_of_all (by decide))).trans
    (Mod.get_put_same s.m R.PHS_EVT_SENSE 1 (by decide))

/-- Settles O39: sheds, rotations, peaks, rearming and the end of braking act as their rules say, and each judged protection by its bits, its
isolation and its report. -/
theorem phaseStates : Obligations.PhaseStates := by
  unfold Obligations.PhaseStates
  exact ⟨fun _ _ hon hrun hdwell hshed hrot => Does.shedStarted hon hrun hdwell hshed hrot,
    fun _ _ hk hon hrun hturn => Does.runsTurn hk hon hrun hturn,
    fun _ _ _ _ _ hk hon hrun hdone hl hrot hmore => Does.phaseAdded hk hon hrun hdone hl hrot hmore,
    fun _ hw hon => Does.peaksCleared hw hon, fun _ _ _ hw hon => Does.rearmed hw hon,
    fun _ _ _ _ hon hk hend => Does.brakeEnded hon hk hend, fun _ _ _ _ hon hk hlow hmax => Does.brakeTooLong hon hk hlow hmax,
    fun _ _ hrun hsoft hheld ht => Does.shortHeld hrun hsoft hheld ht,
    fun _ _ _ hon hiso hlen hall ht => Does.ocIsolated hon hiso hlen hall ht,
    fun _ _ hon hrun hc ht hm => Does.imbalanceStarted hon hrun hc ht hm, fun _ _ hon hrun hc ht => Does.senseStarted hon hrun hc ht⟩

end Sys2Proof.Machine
end

section
/-!
PROOFS. An open input of a phase whose isolation counts beyond the end of PHS_ISO_CNT (R195, R205, R456), which refutes the statement
SamplesAndRecorder.
-/
namespace Sys2Proof.Machine

/-- Channel 0, the current of phase 0, has read open for 15 frames, and PHS_ISO_CNT stands at its end, 2³² − 1. -/
def openAtCounterEnd : State :=
  { m := { ({} : Mod).puts [(R.AFE_CFG_OPEN_EN, 1), (R.PWR_STAT_PG, 0xFFFFF), (R.PHS_ISO_CNT_COUNT, 2 ^ 32 - 1)] with afe.lowRun := [15] } }

/-- AFE_OPEN_DETECT sends its START, then isolates phase 0: the count saturates, and CNT_SAT follows the START into the queue. -/
theorem openAtCounterEnd_newest : ∃ t, exec (.afeOpenDetect 0) openAtCounterEnd = .next t ∧
    t.m.flt.queue.getLast? = some { blk := 14, inst := 0, kind := 9, addr := R.PHS_ISO_CNT_COUNT.addr, cls := 0 } :=
  ⟨_, rfl, by decide +kernel⟩

/-- Refutes O41: its first part says that the START of AFE_OPEN is the newest report of the queue. The isolation that comes after it counts in
PHS_ISO_CNT, and where that count saturates (R456) the newest report is CNT_SAT; no premise excludes a count at its end. -/
theorem not_samplesAndRecorder : ¬ Obligations.SamplesAndRecorder := by
  unfold Obligations.SamplesAndRecorder
  rintro ⟨detect, -⟩
  obtain ⟨t, ht, -, -, told, -⟩ := detect openAtCounterEnd 0 (by decide) (by decide) (by decide) (by decide) (by decide) (by decide)
  obtain ⟨u, hu, newest⟩ := openAtCounterEnd_newest
  obtain rfl := Host.Outcome.next.inj (hu.symm.trans ht)
  exact absurd (newest.symm.trans told) (by decide)

end Sys2Proof.Machine
end

section
/-!
PROOFS. Rings of the withy chain (R215, R217, R218, R234 to R238): frames that leave, what an operation on one ring leaves alone, the bring-up
of a ring.
-/
namespace Sys2Proof.Machine

theorem Mod.only_wch (m : Mod) (x : WchS) {ps : List Part} (fs : List Fld) (hp : Part.wch ∈ ps) :
    m.only ps fs { m with wch := x } := Mod.only_of_part .wch hp rfl (by rintro ⟨⟩ h <;> trivial)

/-- The rings are the chain's own. -/
theorem Mod.wring_of_wch {a b : Mod} (h : b.wch = a.wch) (k : Nat) : b.wring k = a.wring k := congrArg (fun x : WchS => x.rings.getD k {}) h

/-! ## Frames that leave (R215, R236) -/

/-- Frames leave on the chain's ports, and nothing else changes. -/
def Mod.sends (a b : Mod) : Prop := ∃ l, b = { a with wch.tx := a.wch.tx ++ l }

theorem Mod.sends_refl (m : Mod) : m.sends m := ⟨[], by rw [List.append_nil]⟩

theorem Mod.sends_trans {a b c : Mod} (h : a.sends b) (k : b.sends c) : a.sends c := by
  obtain ⟨l, rfl⟩ := h
  obtain ⟨l', rfl⟩ := k
  exact ⟨l ++ l', by simp only [List.append_assoc]⟩

theorem Mod.sends_foldl {α : Type} {f : Mod → α → Mod} (h : ∀ (q : Mod) a, q.sends (f q a)) (l : List α) (m : Mod) : m.sends (l.foldl f m) :=
  List.foldlRecOn (motive := fun q => m.sends q) l f m.sends_refl fun q hq a _ => Mod.sends_trans hq (h q a)

theorem Mod.sends_only {a b : Mod} {ps : List Part} (h : a.sends b) (fs : List Fld) (hp : Part.wch ∈ ps) : a.only ps fs b := by
  obtain ⟨l, rfl⟩ := h
  exact Mod.only_wch a _ fs hp

theorem Mod.sends_wring {a b : Mod} (h : a.sends b) (k : Nat) : b.wring k = a.wring k := by
  obtain ⟨l, rfl⟩ := h
  rfl

/-- What has left stays in the list of frames. -/
theorem Mod.sends_mem {a b : Mod} (h : a.sends b) {e : Nat × Nat × List Nat} (he : e ∈ a.wch.tx) : e ∈ b.wch.tx := by
  obtain ⟨l, rfl⟩ := h
  exact List.mem_append_left l he

theorem Mod.chainTx_sends (m : Mod) (r port : Nat) (b : List Nat) : m.sends (m.chainTx r port b) := ⟨_, rfl⟩

theorem Mod.chainTx_both_sends (m : Mod) (r : Nat) (b c : List Nat) : m.sends ((m.chainTx r 0 b).chainTx r 1 c) :=
  Mod.sends_trans (m.chainTx_sends r 0 b) (Mod.chainTx_sends _ r 1 c)

theorem Mod.chainAll_sends (m : Mod) (r : Nat) (b : List Nat) : m.sends (m.chainAll r b) := by
  unfold Mod.chainAll
  split
  · exact m.sends_refl
  · exact m.chainTx_sends r 0 b
  · exact m.chainTx_both_sends r b b

theorem Mod.chainTo_sends (m : Mod) (n cmd arg : Nat) (body : List Nat) : m.sends (m.chainTo n cmd arg body).2 := by
  unfold Mod.chainTo
  extract_lets r p
  split
  · exact m.sends_refl
  · exact m.chainTx_sends _ _ _
  · exact m.chainTx_sends _ _ _

/-! ## What an operation on one ring leaves alone -/

/-- Work on ring `r`: of the module the chain and the collector change, of its registers the fields `fs`; every other ring keeps its record. -/
def Mod.onRing (a : Mod) (r : Nat) (fs : List Fld) (b : Mod) : Prop := a.only [.wch, .flt] fs b ∧ ∀ k < 2, k ≠ r → b.wring k = a.wring k

theorem Mod.onRing_refl (m : Mod) (r : Nat) (fs : List Fld) : m.onRing r fs m := ⟨Mod.only_refl m _ fs, fun _ _ _ => rfl⟩

theorem Mod.onRing_trans {a b c : Mod} {r : Nat} {fs : List Fld} (h : a.onRing r fs b) (k : b.onRing r fs c) : a.onRing r fs c :=
  ⟨Mod.only_trans h.1 k.1, fun i hi hne => (k.2 i hi hne).trans (h.2 i hi hne)⟩

theorem Mod.onRing_mono {a b : Mod} {r : Nat} {fs gs : List Fld} (h : a.onRing r fs b) (hf : ∀ f ∈ fs, f ∈ gs) : a.onRing r gs b :=
  ⟨Mod.only_mono h.1 (fun _ hp => hp) hf, h.2⟩

theorem Mod.onRing_put (m : Mod) (r : Nat) (f : Fld) (v : Nat) {fs : List Fld} (h : f ∈ fs) : m.onRing r fs (m.put f v) :=
  ⟨Mod.only_put m f v _ h, fun _ _ _ => rfl⟩

theorem Mod.onRing_puts (m : Mod) (r : Nat) (l : List (Fld × Nat)) {fs : List Fld} (h : ∀ e ∈ l, e.1 ∈ fs) : m.onRing r fs (m.puts l) :=
  ⟨Mod.only_puts m l _ h, fun k _ _ => Mod.wring_of_wch (m.puts_wch l) k⟩

theorem Mod.onRing_setRing (m : Mod) (r : Nat) (f : WRing → WRing) (fs : List Fld) : m.onRing r fs (m.setRing r f) :=
  ⟨Mod.only_wch m _ fs (by simp), fun k hk hne => by rw [Mod.wring_setRing m r k f hk, if_neg (Ne.symm hne)]⟩

theorem Mod.onRing_setMon (m : Mod) (r n : Nat) (f : WMon → WMon) (fs : List Fld) : m.onRing r fs (m.setMon n f) :=
  ⟨Mod.only_wch m _ fs (by simp), fun _ _ _ => rfl⟩

theorem Mod.onRing_sends {a b : Mod} (r : Nat) (fs : List Fld) (h : a.sends b) : a.onRing r fs b :=
  ⟨Mod.sends_only h fs (by simp), fun k _ _ => Mod.sends_wring h k⟩

/-- A report, with the fields that show it, is on any ring. -/
theorem Mod.onRing_of_flt {a b : Mod} (r : Nat) {fs : List Fld} (h : a.only [.flt] fs b) : a.onRing r fs b :=
  ⟨Mod.only_mono h (by simp) (fun _ hf => hf), fun k _ _ => Mod.wring_of_wch (h.1 .wch (by simp)) k⟩

theorem Mod.onRing_foldl {α : Type} {r : Nat} {fs : List Fld} {f : Mod → α → Mod} (h : ∀ (q : Mod) a, q.onRing r fs (f q a))
    (l : List α) (m : Mod) : m.onRing r fs (l.foldl f m) :=
  List.foldlRecOn (motive := fun q => m.onRing r fs q) l f (m.onRing_refl r fs) fun q hq a _ => Mod.onRing_trans hq (h q a)

/-! ## The fields of a ring -/

/-- No field of the list shares a bit with `g`. -/
def Fld.clear (fs : List Fld) (g : Fld) : Bool := fs.all fun f => decide (f.addr ≠ g.addr ∨ g.lo + g.w ≤ f.lo ∨ f.lo + f.w ≤ g.lo)

theorem Fld.apart_of_clear {fs : List Fld} {g : Fld} (h : Fld.clear fs g = true) : ∀ f ∈ fs, f.apart g := Fld.apart_of_all h

/-- The same for a list and a field of each ring. -/
theorem Fld.apart_of_rings (F : Nat → List Fld) (G : Nat → Fld) (h : ∀ r < 2, Fld.clear (F r) (G r) = true) {r : Nat} (hr : r < 2) :
    ∀ f ∈ F r, f.apart (G r) := Fld.apart_of_clear (h r hr)

/-- The fields that show the ends and delays of a ring, and its mode with its report. -/
def endFlds (r : Nat) : List Fld :=
  [ringFld r R.WCH_RING0_STAT_END_A R.WCH_RING1_STAT_END_A, ringFld r R.WCH_RING0_STAT_END_B R.WCH_RING1_STAT_END_B,
    ringFld r R.WCH_RING0_DLY_LOOP R.WCH_RING1_DLY_LOOP, ringFld r R.WCH_RING0_DLY_DHOP R.WCH_RING1_DLY_DHOP]
def modeFlds (r : Nat) : List Fld := ringSt r :: R.WCH_EVT_LOST :: (endFlds r ++ repFlds 12)

/-- The fields of a ring that comes up, and those of any bring-up. -/
def upFlds (r : Nat) : List Fld := ringRdy r :: modeFlds r
def bringFlds (r : Nat) : List Fld := ringFound r :: R.WCH_EVT_ENUM :: upFlds r

theorem endFlds_sub_modeFlds (r : Nat) : ∀ f ∈ endFlds r, f ∈ modeFlds r := fun f hf => by simp [modeFlds, hf]
theorem repFlds_sub_modeFlds (r : Nat) : ∀ f ∈ repFlds 12, f ∈ modeFlds r := fun f hf => by simp [modeFlds, hf]

theorem Mod.setRingState_onRing (m : Mod) (r st : Nat) : m.onRing r (modeFlds r) (m.setRingState r st) :=
  m.onRing_put r _ st (by simp [modeFlds, ringSt])

theorem Mod.showEnds_onRing (m : Mod) (r : Nat) (hops : List Nat) : m.onRing r (endFlds r) (m.showEnds r hops) :=
  m.onRing_puts r _ (by simp [endFlds])

/-- A measured ring shows its delays, keeps them in its record, and tells them to its monitors. -/
theorem Mod.measure_eq (m : Mod) (r : Nat) (closed : Bool) (cntA cntB loopA loopB : Nat) : ∃ loop hop,
    (((m.puts [(ringFld r R.WCH_RING0_DLY_LOOP R.WCH_RING1_DLY_LOOP, loop), (ringFld r R.WCH_RING0_DLY_DHOP R.WCH_RING1_DLY_DHOP, hop)]).setRing r
      fun x => { x with dhop := [loopA * 16 / loopDelays closed (m.nMon r) cntA,
        if closed then loopA * 16 / loopDelays closed (m.nMon r) cntA else loopB * 16 / loopDelays false (m.nMon r) cntB] }).sends
      (m.measure r closed cntA cntB loopA loopB)) := by
  unfold Mod.measure
  extract_lets da db onB shown told
  refine ⟨if onB then loopB else loopA, if onB then db else da, Mod.sends_trans (Mod.chainTx_sends _ r 0 _) (?_ : told.sends _)⟩
  split
  · exact told.sends_refl
  · exact told.chainTx_sends r 1 _

theorem Mod.measure_onRing (m : Mod) (r : Nat) (closed : Bool) (cntA cntB loopA loopB : Nat) :
    m.onRing r (endFlds r) (m.measure r closed cntA cntB loopA loopB) := by
  obtain ⟨loop, hop, sent⟩ := m.measure_eq r closed cntA cntB loopA loopB
  exact Mod.onRing_trans (m.onRing_puts r _ (by simp [endFlds])) (Mod.onRing_trans (Mod.onRing_setRing _ r _ _) (Mod.onRing_sends r _ sent))

theorem Mod.measure_wring (m : Mod) {r : Nat} (hr : r < 2) (closed : Bool) (cntA cntB loopA loopB : Nat) :
    ∃ db, (m.measure r closed cntA cntB loopA loopB).wring r =
      { m.wring r with dhop := [loopA * 16 / loopDelays closed (m.nMon r) cntA, db] } := by
  obtain ⟨loop, hop, sent⟩ := m.measure_eq r closed cntA cntB loopA loopB
  exact ⟨_, by rw [Mod.sends_wring sent, Mod.wring_setRing _ r r _ hr, if_pos rfl, Mod.wring_of_wch (m.puts_wch _)]⟩

/-! ## The configuration that the chain reads -/

/-- The fields that a ring's configuration is read from: the domain, EN, N_MON, and the image whose profile is in use. -/
def chainCfg : List Fld :=
  [R.PWR_STAT_PG, R.WCH_CFG_EN, R.WCH_RING0_CFG_N_MON, R.WCH_RING1_CFG_N_MON, R.CEN_STAT_BANK, R.CEN_STAT_IMG_A, R.CEN_STAT_IMG_B]

/-- Two modules read the same configuration of the chain. -/
def Mod.sameCfg (a b : Mod) : Prop := b.cen = a.cen ∧ ∀ g ∈ chainCfg, b.get g = a.get g

theorem Mod.sameCfg_of_only {a b : Mod} {ps : List Part} {fs : List Fld} (h : a.only ps fs b) (hp : Part.cen ∉ ps)
    (hf : chainCfg.all (Fld.clear fs) = true) : a.sameCfg b :=
  ⟨h.1 .cen hp, fun g hg => Mod.only_get h g (Fld.apart_of_clear (List.all_eq_true.mp hf g hg))⟩

theorem Mod.nMon_congr {a b : Mod} (h : a.sameCfg b) (k : Nat) : b.nMon k = a.nMon k := by
  unfold Mod.nMon
  split
  · rw [h.2 R.WCH_RING0_CFG_N_MON (by simp [chainCfg])]
  · rw [h.2 R.WCH_RING1_CFG_N_MON (by simp [chainCfg])]

theorem Mod.chainOn_congr {a b : Mod} (h : a.sameCfg b) : b.chainOn = a.chainOn := by
  simp only [Mod.chainOn, Mod.pageOn, Mod.domainOn, Mod.is, h.2 R.PWR_STAT_PG (by simp [chainCfg]), h.2 R.WCH_CFG_EN (by simp [chainCfg])]

theorem Mod.profile_congr {a b : Mod} (h : a.sameCfg b) : b.profile = a.profile := by
  have bank : b.actBank = a.actBank := h.2 R.CEN_STAT_BANK (by simp [chainCfg])
  have ok : b.bankOk b.actBank = a.bankOk a.actBank := by
    simp only [Mod.bankOk, Mod.is, bank, h.2 R.CEN_STAT_IMG_A (by simp [chainCfg]), h.2 R.CEN_STAT_IMG_B (by simp [chainCfg])]
  have img : b.actImg = a.actImg := by
    funext o
    simp only [Mod.actImg, Mod.bankByte, bank, h.1]
  simp only [Mod.profile, ok, img, h.1]

theorem Mod.ringBad_congr {a b : Mod} (h : a.sameCfg b) (k : Nat) : b.ringBad k = a.ringBad k := by
  simp only [Mod.ringBad, Mod.profile_congr h, Mod.nMon_congr h]

end Sys2Proof.Machine
end

section
/-!
PROOFS. Bring-up of a ring and its ALARMs (R211, R217, R218, R234, R235, R238): the statement ChainRings.
-/
namespace Sys2Proof.Machine

/-! ## What a bring-up does (R217, R218) -/

/-- The monitors that a scan has found, the mode they give a ring of `n`, and its broken hops. -/
def foundBy (x : RingScan) : Nat := if x.closed then x.cntA else x.cntA + x.cntB
def modeBy (x : RingScan) (n : Nat) : Nat := if x.closed then 1 else if foundBy x = n then 2 else 3
def hopsBy (x : RingScan) (n : Nat) : List Nat := if x.closed then [] else if x.cntA = n - x.cntB then [x.cntA] else [x.cntA, n - x.cntB]

/-- The counts of a scan agree with a ring of `n` monitors. -/
def scanFits (x : RingScan) (n : Nat) : Prop := if x.closed then x.cntA = n ∧ x.cntB = n else x.cntA + x.cntB ≤ n

/-- A bring-up is tried: its instant is kept, what it found is shown, and the reset of the monitors and ENUM leave. -/
def Mod.ringTried (m : Mod) (r : Nat) (x : RingScan) : Mod :=
  let noted := (m.setRing r (fun y => { y with upTick := m.time.ticks, due := none })).put (ringFound r) (min 63 (foundBy x))
  ((noted.chainTx r 0 (chainFrame 1 0xFE 0 [])).chainTx r 1 (chainFrame 1 0xFE 0 [])).chainTx r 0 (chainFrame 2 0xFE 0 [])

/-- The counts do not agree: DOWN, not ready, ENUM_MISMATCH. -/
def Mod.ringFailed (m : Mod) (r : Nat) : Mod :=
  ((m.setRingState r 0).puts [(ringRdy r, 0), (R.WCH_EVT_ENUM, 1)]).condStart 12 r 3 (32 * r) 1

/-- The mode found is entered and its hop delays are measured. -/
def Mod.modeEntered (m : Mod) (r n : Nat) (x : RingScan) : Mod :=
  (((m.setRingState r (modeBy x n)).showEnds r (hopsBy x n)).setRing r (fun y => { y with
    lost := (hopsBy x n).map (fun h => (h, 0)), hops := hopsBy x n, breakTick := 0, test := none, diagd := [],
    due := some (modeBy x n) })).measure r x.closed x.cntA x.cntB x.loop x.loopB

/-- The monitors get their configuration (R217). -/
def Mod.monitorsSet (m : Mod) (r n : Nat) : Mod :=
  let m := (List.range n).foldl (fun m p => (m.chainTo (32 * r + p) 7 1 (leBytes 2 (m.fitMask (32 * r + p)) ++ [0])).2) m
  let m := m.chainAll r (chainFrame 7 0xFE 2 (leBytes 2 (m.get R.WCH_CFG_I_BAL) ++ [0]))
  (m.chainAll r (chainFrame 9 0xFE 1 [])).chainAll r (chainFrame 9 0xFE 2 [])

/-- The ring is ready in its old state, which the next sweep leaves (R234); a split ring has lost monitors. -/
def Mod.ringRisen (m : Mod) (r old st : Nat) : Mod :=
  let m := ((m.put (ringRdy r) 1).setRingState r old).condEnd 12 r 3 (32 * r) 1
  if st = 3 then (m.put R.WCH_EVT_LOST 1).condStart 12 r 2 (32 * r) 1 else m.condEnd 12 r 2 (32 * r) 1

theorem Mod.bringUp_idle {m : Mod} {r : Nat} (x : RingScan) (h : (!m.chainOn || m.nMon r = 0) = true) : m.bringUp r x = m := by
  unfold Mod.bringUp
  exact if_pos h

/-- A bring-up fails or lets the ring rise, as its counts say. -/
theorem Mod.bringUp_eq {m : Mod} {r : Nat} (x : RingScan) (hc : m.chainOn = true) (hn : m.nMon r ≠ 0) :
    m.bringUp r x =
      if ((m.ringTried r x).ringBad r || (x.closed && (x.cntA != m.nMon r || x.cntB != m.nMon r)) || decide (m.nMon r < foundBy x)) = true
      then (m.ringTried r x).ringFailed r
      else (((m.ringTried r x).modeEntered r (m.nMon r) x).monitorsSet r (m.nMon r)).ringRisen r (m.ringState r) (modeBy x (m.nMon r)) := by
  unfold Mod.bringUp
  exact if_neg (by simp [hc, hn])

theorem Mod.ringTried_only (m : Mod) (r : Nat) (x : RingScan) : m.only [.wch] [ringFound r] (m.ringTried r x) := by
  unfold Mod.ringTried
  extract_lets noted
  have hnoted : m.only [.wch] [ringFound r] noted := Mod.only_trans (Mod.only_wch m _ _ (by simp)) (Mod.only_put _ _ _ _ (by simp))
  have sent := Mod.sends_trans (noted.chainTx_both_sends r (chainFrame 1 0xFE 0 []) (chainFrame 1 0xFE 0 []))
    (Mod.chainTx_sends _ r 0 (chainFrame 2 0xFE 0 []))
  exact Mod.only_trans hnoted (Mod.sends_only sent _ (by simp))

theorem Mod.ringTried_flt (m : Mod) (r : Nat) (x : RingScan) : (m.ringTried r x).flt = m.flt := (m.ringTried_only r x).1 .flt (by simp)

theorem Mod.ringTried_onRing (m : Mod) (r : Nat) (x : RingScan) : m.onRing r [ringFound r] (m.ringTried r x) :=
  ⟨Mod.only_mono (m.ringTried_only r x) (by simp) (by simp), fun k hk hne =>
    (m.onRing_setRing r (fun y => { y with upTick := m.time.ticks, due := none }) []).2 k hk hne⟩

theorem Mod.ringTried_found (m : Mod) {r : Nat} (hr : r < 2) (x : RingScan) (h : foundBy x ≤ 32) :
    (m.ringTried r x).get (ringFound r) = foundBy x := by
  have hw : (ringFound r).lo + (ringFound r).w ≤ 32 ∧ (ringFound r).w = 6 :=
    (by decide : ∀ r < 2, (ringFound r).lo + (ringFound r).w ≤ 32 ∧ (ringFound r).w = 6) r hr
  refine (Mod.get_put_same _ (ringFound r) (min 63 (foundBy x)) hw.1).trans ?_
  rw [hw.2]
  omega

theorem Mod.ringTried_cfg (m : Mod) {r : Nat} (hr : r < 2) (x : RingScan) : m.sameCfg (m.ringTried r x) :=
  Mod.sameCfg_of_only (m.ringTried_only r x) (by simp)
    ((by decide : ∀ r < 2, chainCfg.all (Fld.clear [ringFound r]) = true) r hr)

theorem Mod.ringFailed_only (m : Mod) (r : Nat) :
    m.only [.flt] (ringSt r :: ringRdy r :: R.WCH_EVT_ENUM :: repFlds 12) (m.ringFailed r) :=
  m.showStart_only [(ringSt r, 0), (ringRdy r, 0), (R.WCH_EVT_ENUM, 1)] 12 r 3 (32 * r) 1

theorem Mod.ringFailed_shows (m : Mod) {r : Nat} (hr : r < 2) :
    (m.ringFailed r).get (ringSt r) = 0 ∧ (m.ringFailed r).get (ringRdy r) = 0 ∧ (m.ringFailed r).get R.WCH_EVT_ENUM = 1 := by
  let shown := m.puts [(ringSt r, 0), (ringRdy r, 0), (R.WCH_EVT_ENUM, 1)]
  have told := shown.condStart_only 12 r 3 (32 * r) 1
  refine ⟨(Mod.only_get told _ (Fld.apart_of_rings (fun _ => repFlds 12) ringSt (by decide) hr)).trans ?_,
    (Mod.only_get told _ (Fld.apart_of_rings (fun _ => repFlds 12) ringRdy (by decide) hr)).trans ?_,
    (Mod.only_get told _ (Fld.apart_of_clear (by decide))).trans (Mod.get_put_same _ R.WCH_EVT_ENUM 1 (by decide))⟩
  · exact (m.get_puts_head 0 [(ringRdy r, 0), (R.WCH_EVT_ENUM, 1)] ((by decide : ∀ r < 2, (ringSt r).lo + (ringSt r).w ≤ 32) r hr)
      (Fld.apart_of_rings (fun r => [ringRdy r, R.WCH_EVT_ENUM]) ringSt (by decide) hr)).trans (Nat.zero_mod _)
  · exact ((m.put (ringSt r) 0).get_puts_head 0 [(R.WCH_EVT_ENUM, 1)] ((by decide : ∀ r < 2, (ringRdy r).lo + (ringRdy r).w ≤ 32) r hr)
      (Fld.apart_of_rings (fun _ => [R.WCH_EVT_ENUM]) ringRdy (by decide) hr)).trans (Nat.zero_mod _)

theorem Mod.modeEntered_onRing (m : Mod) (r n : Nat) (x : RingScan) : m.onRing r (modeFlds r) (m.modeEntered r n x) :=
  Mod.onRing_trans (m.setRingState_onRing r _) (Mod.onRing_mono (Mod.onRing_trans (Mod.showEnds_onRing _ r _)
    (Mod.onRing_trans (Mod.onRing_setRing _ r _ _) (Mod.measure_onRing _ r _ _ _ _ _))) (endFlds_sub_modeFlds r))

theorem Mod.monitorsSet_sends (m : Mod) (r n : Nat) : m.sends (m.monitorsSet r n) :=
  Mod.sends_trans (Mod.sends_foldl (fun q p => q.chainTo_sends (32 * r + p) 7 1 _) _ m)
    (Mod.sends_trans (Mod.chainAll_sends _ r _) (Mod.sends_trans (Mod.chainAll_sends _ r _) (Mod.chainAll_sends _ r _)))

theorem Mod.ringRisen_only (m : Mod) (r old st : Nat) : m.only [.flt] (upFlds r) (m.ringRisen r old st) := by
  have rep : ∀ f ∈ repFlds 12, f ∈ upFlds r := fun f hf => List.mem_cons_of_mem _ (repFlds_sub_modeFlds r f hf)
  unfold Mod.ringRisen
  extract_lets up
  have hup : m.only [.flt] (upFlds r) up :=
    Mod.only_trans (Mod.only_trans (Mod.only_put m _ 1 _ (by simp [upFlds])) (Mod.only_put _ _ old _ (by simp [upFlds, modeFlds, ringSt])))
      (Mod.only_mono (Mod.condEnd_only _ 12 r 3 (32 * r) 1) (by simp) rep)
  split
  · exact Mod.only_trans hup (Mod.only_trans (Mod.only_put up _ 1 _ (by simp [upFlds, modeFlds]))
      (Mod.only_mono (Mod.condStart_only _ 12 r 2 (32 * r) 1) (by simp) rep))
  · exact Mod.only_trans hup (Mod.only_mono (up.condEnd_only 12 r 2 (32 * r) 1) (by simp) rep)

theorem Mod.ringRisen_wch (m : Mod) (r old st : Nat) : (m.ringRisen r old st).wch = m.wch := (m.ringRisen_only r old st).1 .wch (by simp)

/-- Bring-up works on its ring alone, whatever it finds. -/
theorem Mod.bringUp_onRing (m : Mod) (r : Nat) (x : RingScan) : m.onRing r (bringFlds r) (m.bringUp r x) := by
  by_cases h : (!m.chainOn || m.nMon r = 0) = true
  · rw [Mod.bringUp_idle x h]
    exact m.onRing_refl r _
  · obtain ⟨hc, hn⟩ : m.chainOn = true ∧ m.nMon r ≠ 0 := by simpa using h
    have tried : m.onRing r (bringFlds r) (m.ringTried r x) := Mod.onRing_mono (m.ringTried_onRing r x) (by simp [bringFlds])
    rw [Mod.bringUp_eq x hc hn]
    refine Mod.onRing_trans tried ?_
    split
    · exact Mod.onRing_mono (Mod.onRing_of_flt r (Mod.ringFailed_only _ r)) (by simp +contextual [bringFlds, upFlds, modeFlds])
    · have entered := Mod.modeEntered_onRing (m.ringTried r x) r (m.nMon r) x
      have risen := Mod.onRing_of_flt r
        (Mod.ringRisen_only (((m.ringTried r x).modeEntered r (m.nMon r) x).monitorsSet r (m.nMon r)) r (m.ringState r) (modeBy x (m.nMon r)))
      exact Mod.onRing_trans (Mod.onRing_mono entered (by simp +contextual [bringFlds, upFlds]))
        (Mod.onRing_trans (Mod.onRing_sends r _ (Mod.monitorsSet_sends _ r _)) (Mod.onRing_mono risen (by simp +contextual [bringFlds])))

/-- Bring-up keeps the configuration that it reads. -/
theorem Mod.bringUp_cfg (m : Mod) {r : Nat} (hr : r < 2) (x : RingScan) : m.sameCfg (m.bringUp r x) :=
  Mod.sameCfg_of_only (m.bringUp_onRing r x).1 (by simp) ((by decide : ∀ r < 2, chainCfg.all (Fld.clear (bringFlds r)) = true) r hr)

theorem Mod.ringState_lt (m : Mod) {r : Nat} (hr : r < 2) : m.ringState r < 4 := by
  have h := m.get_lt (ringSt r)
  rw [(by decide : ∀ r < 2, (ringSt r).w = 2) r hr] at h
  exact h

theorem Mod.ringState_set (m : Mod) {r : Nat} (hr : r < 2) (st : Nat) : (m.setRingState r st).ringState r = st % 4 := by
  refine (Mod.get_put_same m (ringSt r) st ((by decide : ∀ r < 2, (ringSt r).lo + (ringSt r).w ≤ 32) r hr)).trans ?_
  rw [(by decide : ∀ r < 2, (ringSt r).w = 2) r hr]
  rfl

theorem Mod.ringRdy_put (m : Mod) {r : Nat} (hr : r < 2) : (m.put (ringRdy r) 1).get (ringRdy r) = 1 := by
  refine (Mod.get_put_same m (ringRdy r) 1 ((by decide : ∀ r < 2, (ringRdy r).lo + (ringRdy r).w ≤ 32) r hr)).trans ?_
  rw [(by decide : ∀ r < 2, (ringRdy r).w = 1) r hr]
  rfl

/-- A ring that rises is ready and shows the state it had. -/
theorem Mod.ringRisen_shows (m : Mod) {r : Nat} (hr : r < 2) {old : Nat} (hold : old < 4) (st : Nat) :
    (m.ringRisen r old st).get (ringRdy r) = 1 ∧ (m.ringRisen r old st).ringState r = old ∧
      (st = 3 → (m.ringRisen r old st).get R.WCH_EVT_LOST = 1) := by
  let up := ((m.put (ringRdy r) 1).setRingState r old).condEnd 12 r 3 (32 * r) 1
  have ended := ((m.put (ringRdy r) 1).setRingState r old).condEnd_only 12 r 3 (32 * r) 1
  have last : up.only [.flt] (R.WCH_EVT_LOST :: repFlds 12) (m.ringRisen r old st) := by
    unfold Mod.ringRisen
    extract_lets
    split
    · exact up.showStart_only [(R.WCH_EVT_LOST, 1)] 12 r 2 (32 * r) 1
    · exact Mod.only_mono (up.condEnd_only 12 r 2 (32 * r) 1) (by simp) (by simp +contextual)
  refine ⟨?_, ?_, fun hst => ?_⟩
  · calc (m.ringRisen r old st).get (ringRdy r)
      _ = up.get (ringRdy r) := Mod.only_get last _ (Fld.apart_of_rings (fun _ => R.WCH_EVT_LOST :: repFlds 12) ringRdy (by decide) hr)
      _ = ((m.put (ringRdy r) 1).setRingState r old).get (ringRdy r) :=
        Mod.only_get ended _ (Fld.apart_of_rings (fun _ => repFlds 12) ringRdy (by decide) hr)
      _ = (m.put (ringRdy r) 1).get (ringRdy r) := Mod.only_get (Mod.only_put _ (ringSt r) old [] (List.mem_singleton_self _)) _
        (Fld.apart_of_rings (fun r => [ringSt r]) ringRdy (by decide) hr)
      _ = 1 := m.ringRdy_put hr
  · calc (m.ringRisen r old st).ringState r
      _ = up.ringState r := Mod.only_get last (ringSt r) (Fld.apart_of_rings (fun _ => R.WCH_EVT_LOST :: repFlds 12) ringSt (by decide) hr)
      _ = ((m.put (ringRdy r) 1).setRingState r old).ringState r :=
        Mod.only_get ended (ringSt r) (Fld.apart_of_rings (fun _ => repFlds 12) ringSt (by decide) hr)
      _ = old := by rw [Mod.ringState_set _ hr, Nat.mod_eq_of_lt hold]
  · unfold Mod.ringRisen
    rw [if_pos hst]
    exact (Mod.only_get (Mod.condStart_only _ 12 r 2 (32 * r) 1) R.WCH_EVT_LOST (Fld.apart_of_clear (by decide))).trans
      (Mod.get_put_same _ _ 1 (by decide))

/-- The record of a ring whose mode is entered: the state that the next sweep enters, and the hop delay of port A. -/
theorem Mod.modeEntered_wring (m : Mod) {r : Nat} (hr : r < 2) (n : Nat) (x : RingScan) :
    ((m.modeEntered r n x).wring r).due = some (modeBy x n) ∧
      ((m.modeEntered r n x).wring r).dhop.getD 0 0 = x.loop * 16 / loopDelays x.closed (m.nMon r) x.cntA := by
  let shown := (m.setRingState r (modeBy x n)).showEnds r (hopsBy x n)
  let noted := shown.setRing r (fun y => { y with
    lost := (hopsBy x n).map (fun h => (h, 0)), hops := hopsBy x n, breakTick := 0, test := none, diagd := [], due := some (modeBy x n) })
  have entered : m.onRing r (modeFlds r) noted :=
    Mod.onRing_trans (m.setRingState_onRing r _) (Mod.onRing_mono
      (Mod.onRing_trans (Mod.showEnds_onRing _ r _) (Mod.onRing_setRing _ r _ _)) (endFlds_sub_modeFlds r))
  have cfg : m.sameCfg noted :=
    Mod.sameCfg_of_only entered.1 (by simp) ((by decide : ∀ r < 2, chainCfg.all (Fld.clear (modeFlds r)) = true) r hr)
  obtain ⟨db, measured⟩ := noted.measure_wring hr x.closed x.cntA x.cntB x.loop x.loopB
  have hdue : (noted.wring r).due = some (modeBy x n) := by rw [Mod.wring_setRing _ r r _ hr, if_pos rfl]
  have hw : (m.modeEntered r n x).wring r = _ := measured
  rw [hw, ← Mod.nMon_congr cfg]
  exact ⟨hdue, rfl⟩

/-- What a bring-up leaves of a ring whose counts agree: ready and found in `st`, which the next sweep enters; its old state still shows (R234). -/
theorem Mod.bringUp_up {m : Mod} {r : Nat} (hr : r < 2) {x : RingScan} (hc : m.chainOn = true) (hn : m.nMon r ≠ 0)
    (hbad : m.ringBad r = false) (hfit : scanFits x (m.nMon r)) :
    ((m.bringUp r x).wring r).due = some (modeBy x (m.nMon r)) ∧
    ((m.bringUp r x).wring r).dhop.getD 0 0 = x.loop * 16 / loopDelays x.closed (m.nMon r) x.cntA ∧
    (m.bringUp r x).get (ringRdy r) = 1 ∧ (m.bringUp r x).get (ringFound r) = foundBy x ∧
    (modeBy x (m.nMon r) = 3 → (m.bringUp r x).get R.WCH_EVT_LOST = 1) ∧ ∀ k < 2, (m.bringUp r x).ringState k = m.ringState k := by
  have hle : foundBy x ≤ m.nMon r ∧ (x.closed && (x.cntA != m.nMon r || x.cntB != m.nMon r)) = false := by
    unfold scanFits at hfit
    unfold foundBy
    cases hx : x.closed <;> simp only [hx, if_true, if_false, Bool.false_eq_true] at hfit ⊢
    · exact ⟨hfit, rfl⟩
    · exact ⟨hfit.1.le, by simp [hfit]⟩
  have h32 : m.nMon r ≤ 32 := Nat.min_le_left _ _
  have cfg := m.ringTried_cfg hr x
  have heq : m.bringUp r x =
      (((m.ringTried r x).modeEntered r (m.nMon r) x).monitorsSet r (m.nMon r)).ringRisen r (m.ringState r) (modeBy x (m.nMon r)) := by
    rw [Mod.bringUp_eq x hc hn, if_neg]
    simp [Mod.ringBad_congr cfg, hbad, hle]
  let entered := (m.ringTried r x).modeEntered r (m.nMon r) x
  have sent := entered.monitorsSet_sends r (m.nMon r)
  have risen := Mod.ringRisen_only (entered.monitorsSet r (m.nMon r)) r (m.ringState r) (modeBy x (m.nMon r))
  obtain ⟨rdy, state, lost⟩ := (entered.monitorsSet r (m.nMon r)).ringRisen_shows hr (m.ringState_lt hr) (modeBy x (m.nMon r))
  have record : (m.bringUp r x).wring r = entered.wring r := by
    rw [heq, Mod.wring_of_wch (Mod.ringRisen_wch _ r _ _), Mod.sends_wring sent]
  obtain ⟨due, dhop⟩ := (m.ringTried r x).modeEntered_wring hr (m.nMon r) x
  refine ⟨record ▸ due, ?_, heq ▸ rdy, ?_, heq ▸ lost, fun k hk => ?_⟩
  · rw [record, dhop, Mod.nMon_congr cfg]
  · have rest : (m.ringTried r x).onRing r (upFlds r) (m.bringUp r x) := by
      rw [heq]
      exact Mod.onRing_trans (Mod.onRing_mono (Mod.modeEntered_onRing _ r _ x) (by simp +contextual [upFlds]))
        (Mod.onRing_trans (Mod.onRing_sends r _ sent) (Mod.onRing_of_flt r risen))
    rw [Mod.only_get rest.1 _ (Fld.apart_of_rings upFlds ringFound (by decide) hr)]
    exact m.ringTried_found hr x (by omega)
  · by_cases hkr : k = r
    · rw [hkr, heq]
      exact state
    · exact Mod.only_get (m.bringUp_onRing r x).1 (ringSt k) (Fld.apart_of_clear
        ((by decide : ∀ r < 2, ∀ k < 2, k ≠ r → Fld.clear (bringFlds r) (ringSt k) = true) r hr k hk hkr))

/-! ## The statement ChainRings -/

/-- A bring-up, or the retry of one that left the ring DOWN 1 s ago (R217). -/
theorem Does.broughtUp {c : Instr} {s : State} {r : Fin 2} {x : RingScan} {P : State → Prop}
    (hcmd : c = .chainBringup r x ∨ (c = .chainBringupRetry r x ∧ s.m.condOn 12 r 3 (32 * r.val) = true ∧ s.m.ringReady r = false ∧
      (s.m.wring r).upTick + tickS ≤ s.m.time.ticks)) (hon : s.on) (hp : P { s with m := s.m.bringUp r x }) : Does c s P := by
  rcases hcmd with rfl | ⟨rfl, hfail, hready, hdue⟩
  · exact Does.ofMod (f := fun m => m.bringUp r x) rfl hon hp
  · exact Does.ofCond (f := fun m => m.bringUp r x)
      (g := fun m => m.condOn 12 r 3 (32 * r.val) && !m.ringReady r && decide ((m.wring r).upTick + tickS ≤ m.time.ticks)) rfl hon
      (by simp [hfail, hready, hdue]) hp

/-- A ring found whole and closed (R217, R234). -/
theorem Does.foundClosed {c : Instr} {s : State} {r : Fin 2} {x : RingScan}
    (hcmd : c = .chainBringup r x ∨ (c = .chainBringupRetry r x ∧ s.m.condOn 12 r 3 (32 * r.val) = true ∧ s.m.ringReady r = false ∧
      (s.m.wring r).upTick + tickS ≤ s.m.time.ticks)) (hon : s.on) (hc : s.m.chainOn = true) (hn : s.m.nMon r ≠ 0)
    (hbad : s.m.ringBad r = false) (hx : x.closed = true) (ha : x.cntA = s.m.nMon r) (hb : x.cntB = s.m.nMon r) :
    Does c s fun t => (t.m.wring r).due = some 1 ∧ t.m.get (ringRdy r) = 1 ∧ t.m.get (ringFound r) = s.m.nMon r ∧
      (t.m.wring r).dhop.getD 0 0 = x.loop * 16 / (s.m.nMon r + 1) ∧
      (∀ k < 2, t.m.ringState k = s.m.ringState k) ∧ s.m.onlyParts [.wch, .flt] t.m := by
  have hfit : scanFits x (s.m.nMon r) := by simp [scanFits, hx, ha, hb]
  obtain ⟨due, dhop, rdy, found, -, state⟩ := Mod.bringUp_up r.isLt hc hn hbad hfit
  refine Does.broughtUp hcmd hon ⟨?_, rdy, ?_, ?_, state, (s.m.bringUp_onRing r x).1.1⟩
  · simpa [modeBy, hx] using due
  · simpa [foundBy, hx, ha] using found
  · simpa only [loopDelays, hx, if_true] using dhop

/-- A ring reached from its ends (R217, R234). -/
theorem Does.foundOpen {c : Instr} {s : State} {r : Fin 2} {x : RingScan}
    (hcmd : c = .chainBringup r x ∨ (c = .chainBringupRetry r x ∧ s.m.condOn 12 r 3 (32 * r.val) = true ∧ s.m.ringReady r = false ∧
      (s.m.wring r).upTick + tickS ≤ s.m.time.ticks)) (hon : s.on) (hc : s.m.chainOn = true) (hn : s.m.nMon r ≠ 0)
    (hbad : s.m.ringBad r = false) (hx : x.closed = false) (hle : x.cntA + x.cntB ≤ s.m.nMon r) :
    Does c s fun t => (t.m.wring r).due = some (if x.cntA + x.cntB = s.m.nMon r then 2 else 3) ∧ t.m.get (ringRdy r) = 1 ∧
      t.m.get (ringFound r) = x.cntA + x.cntB ∧ (x.cntA + x.cntB < s.m.nMon r → t.m.get R.WCH_EVT_LOST = 1) ∧
      (∀ k < 2, t.m.ringState k = s.m.ringState k) ∧ s.m.onlyParts [.wch, .flt] t.m := by
  have hfit : scanFits x (s.m.nMon r) := by simpa [scanFits, hx] using hle
  have mode : modeBy x (s.m.nMon r) = if x.cntA + x.cntB = s.m.nMon r then 2 else 3 := by simp [modeBy, foundBy, hx]
  obtain ⟨due, -, rdy, found, lost, state⟩ := Mod.bringUp_up r.isLt hc hn hbad hfit
  refine Does.broughtUp hcmd hon ⟨mode ▸ due, rdy, ?_, fun hlt => lost ?_, state, (s.m.bringUp_onRing r x).1.1⟩
  · simpa [foundBy, hx] using found
  · rw [mode, if_neg hlt.ne]

/-- A ring whose counts disagree (R217). -/
theorem Does.enumMismatch {s : State} {r : Fin 2} {x : RingScan} (hon : s.on) (hc : s.m.chainOn = true) (hn : s.m.nMon r ≠ 0)
    (hx : x.closed = true) (hne : x.cntA ≠ s.m.nMon r ∨ x.cntB ≠ s.m.nMon r) (hcond : s.m.condOn 12 r 3 (32 * r.val) = false)
    (ht : s.m.takes 12 r) :
    Does (.chainBringup r x) s fun t => t.m.get (ringSt r) = 0 ∧ t.m.get (ringRdy r) = 0 ∧ t.m.get R.WCH_EVT_ENUM = 1 ∧
      t.m.tells { blk := 12, inst := r.val, kind := 3, addr := 32 * r.val, cls := 1, ind := .start } ∧
      s.frame [.wch, .flt] (ringSt r :: ringRdy r :: ringFound r :: R.WCH_EVT_ENUM :: repFlds 12) t := by
  have heq : s.m.bringUp r x = (s.m.ringTried r x).ringFailed r := by
    rw [Mod.bringUp_eq x hc hn, if_pos]
    simp [hx, hne]
  have tried := s.m.ringTried_only r x
  have failed := (s.m.ringTried r x).ringFailed_only r
  have takes : (s.m.ringTried r x).takes 12 r := Mod.takes_of_flt (s.m.ringTried_flt r x)
    (Mod.only_get tried R.PWR_STAT_PG (Fld.apart_of_rings (fun r => [ringFound r]) (fun _ => R.PWR_STAT_PG) (by decide) r.isLt)) ht
  have cond : (s.m.ringTried r x).condOn 12 r 3 (32 * r.val) = false := by
    rw [Mod.condOn, s.m.ringTried_flt]
    exact hcond
  refine Does.broughtUp (.inl rfl) hon ?_
  rw [heq]
  obtain ⟨st, rdy, event⟩ := (s.m.ringTried r x).ringFailed_shows r.isLt
  refine ⟨st, rdy, event, ?_, State.frame_of_only (Mod.only_trans (Mod.only_mono tried (by simp) (by simp))
    (Mod.only_mono failed (by simp) (by simp +contextual)))⟩
  exact Mod.showStart_tells [(ringSt r, 0), (ringRdy r, 0), (R.WCH_EVT_ENUM, 1)] 12 r 3 (32 * r) 1
    (fun g hg => .inl ((by decide : ∀ r < 2, ∀ g ∈ [ringSt r, ringRdy r, R.WCH_EVT_ENUM], g.addr ≠ R.PWR_STAT_PG.addr) r r.isLt g hg))
    takes cond

/-- ENUM outside RUN brings both rings up (R217). -/
theorem Does.enumerated {s : State} {x y : RingScan} (hw : s.m.wrStatus 0xC0C4 1 = 0) (hon : s.on) (hrun : s.m.inRun = false)
    (hc : s.m.chainOn = true) (hok : ∀ r < 2, s.m.nMon r ≠ 0 ∧ s.m.ringBad r = false) (hx : x.closed = true) (hxa : x.cntA = s.m.nMon 0)
    (hxb : x.cntB = s.m.nMon 0) (hy : y.closed = true) (hya : y.cntA = s.m.nMon 1) (hyb : y.cntB = s.m.nMon 1) :
    Does (.wchCmdEnum x y) s fun t => (t.m.wring 0).due = some 1 ∧ (t.m.wring 1).due = some 1 ∧ t.m.ringReady 0 = true ∧
      t.m.ringReady 1 = true ∧ t.m.resp = 0 ∧ s.m.onlyParts [.wch, .flt, .resp] t.m := by
  let first := s.m.bringUp 0 x
  have cfg : s.m.sameCfg first := s.m.bringUp_cfg (by decide) x
  obtain ⟨hn0, hbad0⟩ := hok 0 (by decide)
  obtain ⟨hn1, hbad1⟩ := hok 1 (by decide)
  obtain ⟨due0, -, rdy0, -⟩ := Mod.bringUp_up (m := s.m) (r := 0) (x := x) (by decide) hc hn0 hbad0 (by simp [scanFits, hx, hxa, hxb])
  obtain ⟨due1, -, rdy1, -⟩ := Mod.bringUp_up (m := first) (r := 1) (x := y) (by decide) ((Mod.chainOn_congr cfg).trans hc)
    (by rwa [Mod.nMon_congr cfg]) ((Mod.ringBad_congr cfg 1).trans hbad1) (by simp [scanFits, hy, hya, hyb, Mod.nMon_congr cfg])
  have second := first.bringUp_onRing 1 y
  have heq : s.m.enumNow x y = first.bringUp 1 y := if_neg (by simp [hrun])
  refine Does.ofMod (f := fun m => m.guarded 0xC0C4 1 fun m => m.enumNow x y) rfl hon ?_
  rw [Mod.guarded_ok _ hw, heq]
  refine ⟨?_, ?_, ?_, ?_, rfl, ?_⟩
  · exact (congrArg WRing.due (second.2 0 (by decide) (by decide))).trans (by simpa [modeBy, hx] using due0)
  · exact due1.trans (by simp [modeBy, hy])
  · have kept := Mod.only_get second.1 (ringRdy 0) (Fld.apart_of_clear (by decide))
    exact bne_iff_ne.mpr ((kept.trans rdy0).trans_ne (by decide))
  · exact bne_iff_ne.mpr (rdy1.trans_ne (by decide))
  · exact Mod.onlyParts_trans (Mod.onlyParts_mono (s.m.bringUp_onRing 0 x).1.1 (by simp))
      (Mod.onlyParts_trans (Mod.onlyParts_mono second.1.1 (by simp)) (Mod.only_resp _ 0 [] (by simp)).1)

/-- ENUM in RUN has no effect (R217). -/
theorem Does.enumHeld {s : State} {x y : RingScan} (hw : s.m.wrStatus 0xC0C4 1 = 0) (hon : s.on) (hrun : s.m.inRun = true) :
    Does (.wchCmdEnum x y) s fun t => t.m.resp = 0 ∧ s.frame [.resp] [] t := by
  refine Does.ofMod (f := fun m => m.guarded 0xC0C4 1 fun m => m.enumNow x y) rfl hon ?_
  rw [Mod.guarded_ok _ hw, Mod.enumNow, if_pos hrun]
  exact ⟨rfl, State.frame_of_only (Mod.only_resp s.m 0 [] (by simp))⟩

/-- A located break: its hop is lost, its instant kept, its ends shown, counted and reported (R235). -/
def Mod.breakNoted (m : Mod) (r h : Nat) : Mod :=
  let noted := m.setRing r (fun x => { x with lost := x.lost.filter (fun e => e.1 != h) ++ [(h, 0)], breakTick := m.time.ticks,
                                              restTick := m.time.ticks })
  (((noted.showEnds r ((noted.wring r).lost.map Prod.fst)).put R.WCH_EVT_BREAK 1).bump R.WCH_BRK_CNT_COUNT).condStart 12 r 1 (32 * r + min h 31) 1

theorem exec_alarmLost {s : State} {r : Fin 2} {a : Byte} (hon : s.on) (hc : s.m.chainOn = true) (h7 : bit a.toNat 7 = false)
    (h6 : bit a.toNat 6 = false) (hp : a.toNat % 64 < s.m.nMon r) (hnew : ∀ e ∈ (s.m.wring r).lost, e.1 ≠ a.toNat % 64) :
    exec (.alarmReceive r a) s = .next { s with m := s.m.breakNoted r (a.toNat % 64) } := by
  have hold : (s.m.wring r).lost.find? (fun e => e.1 == a.toNat % 64) = none := List.find?_eq_none.mpr (by simpa using hnew)
  rw [show exec (.alarmReceive r a) s = execAlarmReceive r a s from rfl, execAlarmReceive, onMod, if_neg hon]
  simp only [h6, h7, hc, hold, Bool.not_true, Bool.false_or, decide_eq_true_eq, not_le.mpr hp, if_false, Bool.false_eq_true, reduceCtorEq]
  rfl

theorem exec_alarmRestored {s : State} {r : Fin 2} {a : Byte} (hon : s.on) (hc : s.m.chainOn = true) (h7 : bit a.toNat 7 = true)
    (hp : a.toNat % 64 < s.m.nMon r) : ∃ h side, exec (.alarmReceive r a) s = .next { s with m := s.m.setRing r fun x =>
      { x with lost := x.lost.map (fun e => if e.1 == h then (h, e.2 ||| side) else e), restTick := s.m.time.ticks } } := by
  refine ⟨if bit a.toNat 6 then a.toNat % 64 + 1 else a.toNat % 64, if bit a.toNat 6 then 2 else 1, ?_⟩
  rw [show exec (.alarmReceive r a) s = execAlarmReceive r a s from rfl, execAlarmReceive, onMod, if_neg hon]
  simp only [h7, hc, Bool.not_true, Bool.false_or, decide_eq_true_eq, not_le.mpr hp, if_false, if_true]

/-- ALARM of a lost hop before a position (R235). -/
theorem Does.hopLost {s : State} {r : Fin 2} {a : Byte} (hon : s.on) (hc : s.m.chainOn = true) (h7 : bit a.toNat 7 = false)
    (h6 : bit a.toNat 6 = false) (hp : a.toNat % 64 < s.m.nMon r) (hnew : ∀ e ∈ (s.m.wring r).lost, e.1 ≠ a.toNat % 64) :
    Does (.alarmReceive r a) s fun t => (t.m.wring r).lost = (s.m.wring r).lost ++ [(a.toNat % 64, 0)] ∧
      (t.m.wring r).breakTick = s.m.time.ticks ∧ t.m.get R.WCH_EVT_BREAK = 1 ∧
      (t.m.word R.WCH_BRK_CNT_COUNT.addr).toNat = min ((s.m.word R.WCH_BRK_CNT_COUNT.addr).toNat + 1) (2 ^ 32 - 1) ∧
      s.m.onlyParts [.wch, .flt] t.m := by
  let h := a.toNat % 64
  let noted := s.m.setRing r fun x => { x with
    lost := x.lost.filter (fun e => e.1 != h) ++ [(h, 0)], breakTick := s.m.time.ticks, restTick := s.m.time.ticks }
  let shown := noted.showEnds r ((noted.wring r).lost.map Prod.fst)
  have ends : noted.onRing r (endFlds r) shown := noted.showEnds_onRing r _
  have event : shown.only [.flt] [R.WCH_EVT_BREAK] (shown.put R.WCH_EVT_BREAK 1) := Mod.only_put shown _ 1 _ (by simp)
  have counted := (shown.put R.WCH_EVT_BREAK 1).bump_only R.WCH_BRK_CNT_COUNT (ps := [.flt]) (by simp) fun _ hg => hg
  have told := ((shown.put R.WCH_EVT_BREAK 1).bump R.WCH_BRK_CNT_COUNT).condStart_only 12 r 1 (32 * r + min h 31) 1
  have record : (s.m.breakNoted r h).wring r = noted.wring r :=
    (Mod.wring_of_wch (told.1 .wch (by simp)) r).trans ((Mod.wring_of_wch (counted.1 .wch (by simp)) r).trans
      (Mod.wring_of_wch (noted.puts_wch _) r))
  have hring : noted.wring r = _ := (Mod.wring_setRing s.m r r _ r.isLt).trans (if_pos rfl)
  have hfilter : (s.m.wring r).lost.filter (fun e => e.1 != h) = (s.m.wring r).lost :=
    List.filter_eq_self.mpr fun e he => bne_iff_ne.mpr (hnew e he)
  refine ⟨_, exec_alarmLost hon hc h7 h6 hp hnew, ?_, ?_, ?_, ?_, ?_⟩
  · rw [record, hring, hfilter]
  · rw [record, hring]
  · calc (s.m.breakNoted r h).get R.WCH_EVT_BREAK
      _ = ((shown.put R.WCH_EVT_BREAK 1).bump R.WCH_BRK_CNT_COUNT).get R.WCH_EVT_BREAK := Mod.only_get told _ (Fld.apart_of_clear (by decide))
      _ = (shown.put R.WCH_EVT_BREAK 1).get R.WCH_EVT_BREAK := Mod.only_get counted _ (Fld.apart_of_clear (by decide))
      _ = 1 := Mod.get_put_same shown _ 1 (by decide)
  · have before : (shown.put R.WCH_EVT_BREAK 1).word R.WCH_BRK_CNT_COUNT.addr = s.m.word R.WCH_BRK_CNT_COUNT.addr :=
      (Mod.only_word event _ (Fld.apart_of_clear (by decide))).trans (Mod.only_word ends.1 _
        (Fld.apart_of_rings endFlds (fun _ => R.WCH_BRK_CNT_COUNT) (by decide) r.isLt))
    have after := Mod.only_word told R.WCH_BRK_CNT_COUNT.addr (Fld.apart_of_clear (by decide))
    rw [← before, ← Mod.word_bump_min _ _ (Fld.apart_of_clear (by decide))]
    exact congrArg BitVec.toNat after
  · exact Mod.onlyParts_trans (Mod.only_wch s.m _ [] (by simp)).1 (Mod.onlyParts_trans ends.1.1
      (Mod.onlyParts_mono (Mod.onlyParts_trans event.1 (Mod.onlyParts_trans counted.1 told.1)) (by simp)))

/-- ALARM of a restored side (R238). -/
theorem Does.sideRestored {s : State} {r : Fin 2} {a : Byte} (hon : s.on) (hc : s.m.chainOn = true) (h7 : bit a.toNat 7 = true)
    (hp : a.toNat % 64 < s.m.nMon r) :
    Does (.alarmReceive r a) s fun t => (t.m.wring r).restTick = s.m.time.ticks ∧
      (t.m.wring r).lost.map Prod.fst = (s.m.wring r).lost.map Prod.fst ∧ s.frame [.wch] [] t := by
  obtain ⟨h, side, heq⟩ := exec_alarmRestored hon hc h7 hp
  have hops (l : List (Nat × Nat)) : (l.map (fun e => if e.1 == h then (h, e.2 ||| side) else e)).map Prod.fst = l.map Prod.fst := by
    rw [List.map_map]
    refine List.map_congr_left fun e _ => ?_
    by_cases he : e.1 = h <;> simp [he]
  refine ⟨_, heq, ?_, ?_, State.frame_of_only (Mod.only_wch s.m _ [] (by simp))⟩
  · rw [Mod.wring_setRing _ _ _ _ r.isLt, if_pos rfl]
  · rw [Mod.wring_setRing _ _ _ _ r.isLt, if_pos rfl]
    exact hops _

/-- Settles O42: a bring-up is an attempt and then a ring that rises or fails by its counts; each works on its ring alone, so that ENUM does
both; an ALARM notes a lost hop or a restored side. -/
theorem chainRings : Obligations.ChainRings := by
  unfold Obligations.ChainRings
  exact ⟨fun _ _ _ _ hcmd hon hc hn hbad hx ha hb => Does.foundClosed hcmd hon hc hn hbad hx ha hb,
    fun _ _ _ _ hcmd hon hc hn hbad hx hle => Does.foundOpen hcmd hon hc hn hbad hx hle,
    fun _ _ _ hon hc hn hx hne hcond ht => Does.enumMismatch hon hc hn hx hne hcond ht,
    fun _ _ _ hw hon hrun hc hok hx hxa hxb hy hya hyb => Does.enumerated hw hon hrun hc hok hx hxa hxb hy hya hyb,
    fun _ _ _ hw hon hrun => Does.enumHeld hw hon hrun, fun _ _ _ hon hc h7 h6 hp hnew => Does.hopLost hon hc h7 h6 hp hnew,
    fun _ _ _ hon hc h7 hp => Does.sideRestored hon hc h7 hp⟩

end Sys2Proof.Machine
end

section
/-!
PROOFS. Services of the withy chain: test cycles and rearming (R230, R231), bleed requests (R239), the cell window (R462).
-/
namespace Sys2Proof.Machine

/-! ## Monitors and cells -/

theorem Mod.wmon_setMon (m : Mod) (n k : Nat) (f : WMon → WMon) :
    (m.setMon n f).wmon k = if n = k then f (m.wmon k) else m.wmon k := by
  unfold Mod.setMon Mod.wmon
  simp only [Sparse.get_set]
  split
  · subst_vars
    rfl
  · rfl

theorem Mod.wcell_setCell (m : Mod) (i k : Nat) (f : WCell → WCell) :
    (m.setCell i f).wcell k = if i = k then f (m.wcell k) else m.wcell k := by
  unfold Mod.setCell Mod.wcell
  simp only [Sparse.get_set]
  split
  · subst_vars
    rfl
  · rfl

/-- The monitors are the chain's own. -/
theorem Mod.wmon_of_wch {a b : Mod} (h : b.wch = a.wch) (k : Nat) : b.wmon k = a.wmon k :=
  congrArg (fun x : WchS => Sparse.get (fun _ => ({} : WMon)) x.mons k) h

theorem Mod.setRing_only (m : Mod) (r : Nat) (f : WRing → WRing) : m.only [.wch] [] (m.setRing r f) := Mod.only_wch m _ [] (by simp)
theorem Mod.setMon_only (m : Mod) (n : Nat) (f : WMon → WMon) : m.only [.wch] [] (m.setMon n f) := Mod.only_wch m _ [] (by simp)
theorem Mod.setCell_only (m : Mod) (i : Nat) (f : WCell → WCell) : m.only [.wch] [] (m.setCell i f) := Mod.only_wch m _ [] (by simp)

/-- The cells of a monitor have numbers of their own. -/
theorem cellIdx_inj {n c d : Nat} (h : cellIdx n c = cellIdx n d) : c = d := Nat.add_left_cancel h

/-! ## The timed test cycle (R230) -/

/-- A fitted ring's cycle stands at its first wire. -/
def Mod.cycleFrom (m : Mod) (r : Nat) : Mod := if 0 < m.nMon r then m.setRing r (fun x => { x with cyc := some 0 }) else m

theorem Mod.cycleFrom_only (m : Mod) (r : Nat) : m.only [.wch] [] (m.cycleFrom r) := by
  unfold Mod.cycleFrom
  split
  · exact m.setRing_only r _
  · exact Mod.only_refl m _ _

theorem Mod.cycleFrom_nMon (m : Mod) (r k : Nat) : (m.cycleFrom r).nMon k = m.nMon k :=
  Mod.nMon_congr (Mod.sameCfg_of_only (m.cycleFrom_only r) (by simp) (by decide)) k

theorem Mod.cycleFrom_cyc (m : Mod) (r : Nat) {k : Nat} (hk : k < 2) :
    ((m.cycleFrom r).wring k).cyc = if r = k ∧ 0 < m.nMon r then some 0 else (m.wring k).cyc := by
  unfold Mod.cycleFrom
  by_cases hn : 0 < m.nMon r
  · rw [if_pos hn, Mod.wring_setRing _ _ _ _ hk]
    by_cases hrk : r = k
    · rw [if_pos hrk, if_pos ⟨hrk, hn⟩]
    · rw [if_neg hrk, if_neg fun h => hrk h.1]
  · simp [hn]

/-- A ring whose cycle runs is one of the rings. -/
theorem Mod.any_cyc {m : Mod} {r k : Nat} (h : (m.wring r).cyc = some k) : m.wch.rings.any (fun x => x.cyc.isSome) = true := by
  unfold Mod.wring at h
  rw [List.getD_eq_getElem?_getD] at h
  cases hx : m.wch.rings[r]? with
  | none => simp [hx] at h
  | some x =>
    rw [hx] at h
    exact List.any_eq_true.mpr ⟨x, List.mem_of_getElem? hx, by simp [show x.cyc = some k from h]⟩

theorem Mod.startCycle_cycles {m : Mod} (h : m.nMon 0 ≠ 0 ∨ m.nMon 1 ≠ 0) :
    (∀ r < 2, m.nMon r ≠ 0 → (m.startCycle.wring r).cyc = some 0) ∧ m.startCycle.wch.owtTick = m.time.ticks ∧
      m.startCycle.get R.WCH_STAT_OWT_CYC = 1 ∧ m.only [.wch] [R.WCH_STAT_OWT_CYC] m.startCycle := by
  let noted : Mod := { m with wch.owtTick := m.time.ticks }
  let cycles := (noted.cycleFrom 0).cycleFrom 1
  have heq : m.startCycle = cycles.put R.WCH_STAT_OWT_CYC (b2n (cycles.wch.rings.any (fun x => x.cyc.isSome))) := rfl
  have hn (k : Nat) : (noted.cycleFrom 0).nMon k = m.nMon k := noted.cycleFrom_nMon 0 k
  have cyc : ∀ r < 2, m.nMon r ≠ 0 → (cycles.wring r).cyc = some 0 := by
    intro r hr hne
    rw [Mod.cycleFrom_cyc _ _ hr, Mod.cycleFrom_cyc _ _ hr, hn]
    have h0 : noted.nMon 0 = m.nMon 0 := rfl
    obtain rfl | rfl : r = 0 ∨ r = 1 := by omega
    · simp [h0, Nat.pos_of_ne_zero hne]
    · simp [Nat.pos_of_ne_zero hne]
  have any : cycles.wch.rings.any (fun x => x.cyc.isSome) = true := h.elim (fun h0 => Mod.any_cyc (cyc 0 (by decide) h0))
    fun h1 => Mod.any_cyc (cyc 1 (by decide) h1)
  have tick (q : Mod) (r : Nat) : (q.cycleFrom r).wch.owtTick = q.wch.owtTick := by
    unfold Mod.cycleFrom
    split <;> rfl
  have frame : m.only [.wch] [] cycles :=
    Mod.only_trans (Mod.only_wch m _ [] (by simp)) (Mod.only_trans (noted.cycleFrom_only 0) (Mod.cycleFrom_only _ 1))
  rw [heq, any]
  exact ⟨cyc, (tick _ 1).trans (tick _ 0), Mod.get_put_same _ _ _ (by decide),
    Mod.only_trans (Mod.only_mono frame (fun _ h => h) (by simp)) (Mod.only_put _ _ _ _ (by simp))⟩

/-- A test cycle starts when it is due, or by OWT_NOW (R230). -/
theorem Does.cycleStarted {c : Instr} {s : State} (hcmd : (c = .owtCycleStart ∧ s.m.get R.WCH_OWT_CFG_OWT_S ≠ 0 ∧
      s.m.wch.owtTick + s.m.get R.WCH_OWT_CFG_OWT_S * tickS ≤ s.m.time.ticks) ∨ (c = .wchCmdOwtNow ∧ s.m.wrStatus 0xC0C4 2 = 0))
    (hon : s.on) (hc : s.m.chainOn = true) (hn : s.m.nMon 0 ≠ 0 ∨ s.m.nMon 1 ≠ 0) :
    Does c s fun t => (∀ r < 2, s.m.nMon r ≠ 0 → (t.m.wring r).cyc = some 0) ∧ t.m.wch.owtTick = s.m.time.ticks ∧
      t.m.get R.WCH_STAT_OWT_CYC = 1 ∧ s.frame [.wch, .resp] [R.WCH_STAT_OWT_CYC] t := by
  obtain ⟨cyc, tick, shown, frame⟩ := Mod.startCycle_cycles hn
  have frame' : s.m.only [.wch, .resp] [R.WCH_STAT_OWT_CYC] s.m.startCycle := Mod.only_mono frame (by simp) fun _ h => h
  rcases hcmd with ⟨rfl, hs, hdue⟩ | ⟨rfl, hw⟩
  · exact Does.ofCond (f := Mod.startCycle) (g := fun m => m.chainOn && m.get R.WCH_OWT_CFG_OWT_S != 0 &&
      decide (m.wch.owtTick + m.get R.WCH_OWT_CFG_OWT_S * tickS ≤ m.time.ticks)) rfl hon (by simp [hc, hs, hdue])
      ⟨cyc, tick, shown, State.frame_of_only frame'⟩
  · refine Does.ofMod (f := fun m => m.guarded 0xC0C4 2 Mod.owtNow) rfl hon ?_
    rw [Mod.guarded_ok _ hw, Mod.owtNow, if_pos hc]
    exact ⟨cyc, tick, shown, State.frame_of_only (Mod.only_trans frame' (Mod.only_resp _ 0 _ (by simp)))⟩

/-! ## REARM of a monitor (R231) -/

/-- The wires of a monitor that are declared open. -/
def Mod.openList (m : Mod) (n : Nat) : List Nat := (List.range 17).filter fun w => bit (m.openWires n) w

/-- A monitor's open bits and fault bit are clear, and the conditions of its open wires have ended. -/
def Mod.wiresCleared (m : Mod) (n : Nat) : Mod :=
  (m.openList n).foldl (fun m k => m.condEnd 12 (n / 32) 6 (cellIdx n (min k 15)) 1) (m.puts [(R.WCH_MON_OPEN n, 0), (R.WCH_MON_FAULT n, 0)])

theorem Mod.rearmMon_eq (m : Mod) (n : Nat) : m.rearmMon n = (m.wiresCleared n).setMon n fun x =>
    { x with posRun := [], tests := x.tests ++ (m.openList n).flatMap (fun k => [k, k]) } := rfl

theorem Mod.wiresCleared_told (m : Mod) (n : Nat) :
    (m.puts [(R.WCH_MON_OPEN n, 0), (R.WCH_MON_FAULT n, 0)]).only [.flt] (repFlds 12) (m.wiresCleared n) :=
  Mod.only_foldl _ _ (fun q k _ => q.condEnd_only 12 (n / 32) 6 (cellIdx n (min k 15)) 1) _

theorem Mod.wiresCleared_wmon (m : Mod) (n k : Nat) : (m.wiresCleared n).wmon k = m.wmon k :=
  (Mod.wmon_of_wch ((m.wiresCleared_told n).1 .wch (by simp)) k).trans (Mod.wmon_of_wch (m.puts_wch _) k)

theorem Mod.wiresCleared_bits (m : Mod) {n : Nat} (hn : n < 64) :
    (m.wiresCleared n).get (R.WCH_MON_OPEN n) = 0 ∧ (m.wiresCleared n).get (R.WCH_MON_FAULT n) = 0 := by
  have apart (lo w : Nat) : ∀ f ∈ repFlds 12, f.apart ⟨0xC100 + 4 * n, lo, w⟩ :=
    Fld.apart_of_range 0xC100 0xC200 (by decide) (by simp) (by simp only; omega)
  have fault : Fld.apart (R.WCH_MON_FAULT n) (R.WCH_MON_OPEN n) := .inr (.inl (by simp))
  constructor
  · refine (Mod.only_get (m.wiresCleared_told n) (R.WCH_MON_OPEN n) (apart 0 17)).trans ?_
    exact (m.get_puts_head 0 [(R.WCH_MON_FAULT n, 0)] (by simp) (by simpa using fault)).trans (Nat.zero_mod _)
  · exact (Mod.only_get (m.wiresCleared_told n) (R.WCH_MON_FAULT n) (apart 18 1)).trans
      ((Mod.get_put_same _ (R.WCH_MON_FAULT n) 0 (by simp)).trans (Nat.zero_mod _))

/-- REARM clears a monitor's open bits, ends their conditions, and asks for two tests of each of those wires (R231). -/
theorem Does.monitorRearmed {s : State} {n : Fin 64} (hw : s.m.wrStatus 0xC0C4 (4 + 8 * n.val) = 0) (hon : s.on) :
    Does (.wchCmdRearm n) s fun t => t.m.openWires n = 0 ∧ t.m.get (R.WCH_MON_FAULT n) = 0 ∧
      (t.m.wmon n).tests = (s.m.wmon n).tests ++ ((List.range 17).filter (fun w => bit (s.m.openWires n) w)).flatMap (fun k => [k, k]) ∧
      (∀ k, k ≠ n.val → t.m.wmon k = s.m.wmon k) ∧ t.m.resp = 0 ∧ s.m.onlyParts [.wch, .flt, .resp] t.m := by
  obtain ⟨wires, fault⟩ := s.m.wiresCleared_bits n.isLt
  have mon (k : Nat) : (s.m.rearmMon n).wmon k = _ := (congrArg (Mod.wmon · k) (s.m.rearmMon_eq n)).trans (Mod.wmon_setMon _ n k _)
  refine Does.ofMod (f := fun m => m.guarded 0xC0C4 (4 + 8 * n.val) fun m => m.rearmMon n.val) rfl hon ?_
  rw [Mod.guarded_ok _ hw]
  refine ⟨wires, fault, ?_, fun k hk => ?_, rfl, ?_⟩
  · refine (congrArg WMon.tests ((mon n).trans (if_pos rfl))).trans ?_
    rw [s.m.wiresCleared_wmon]
    rfl
  · exact ((mon k).trans (if_neg (Ne.symm hk))).trans (s.m.wiresCleared_wmon n k)
  · exact Mod.onlyParts_trans (Mod.onlyParts_puts s.m _ _) (Mod.onlyParts_trans (Mod.onlyParts_mono (s.m.wiresCleared_told n).1 (by simp))
      (Mod.onlyParts_trans (Mod.onlyParts_mono (Mod.setMon_only _ n _).1 (by simp)) (Mod.only_resp _ 0 [] (by simp)).1))

/-! ## Bleed requests (R239) -/

/-- The timer of a cell in a new request: set, stopped, or left as it is. -/
def Mod.timeCell (n newer gone timer : Nat) (m : Mod) (c : Nat) : Mod :=
  if bit newer c then m.setCell (cellIdx n c) (fun y => { y with timer := timer * 1000 })
  else if bit gone c then m.setCell (cellIdx n c) (fun y => { y with timer := 0 }) else m

theorem Mod.timeCell_only (m : Mod) (n newer gone timer c : Nat) : m.only [.wch] [] (m.timeCell n newer gone timer c) := by
  unfold Mod.timeCell
  split
  · exact m.setCell_only _ _
  split
  · exact m.setCell_only _ _
  · exact Mod.only_refl m _ _

theorem Mod.timeCell_mons (m : Mod) (n newer gone timer c : Nat) : (m.timeCell n newer gone timer c).wch.mons = m.wch.mons := by
  unfold Mod.timeCell
  split
  · rfl
  split <;> rfl

theorem Mod.timeCell_wcell (m : Mod) (n newer gone timer : Nat) {c i : Nat} (h : cellIdx n c ≠ i) :
    (m.timeCell n newer gone timer c).wcell i = m.wcell i := by
  unfold Mod.timeCell
  split
  · rw [Mod.wcell_setCell, if_neg h]
  split
  · rw [Mod.wcell_setCell, if_neg h]
  · rfl

/-- The cells of a request that are new or have a new timer, and those it no longer names. -/
def Mod.newCells (m : Mod) (n word : Nat) : Nat :=
  if word / 65536 % 65536 = (m.wmon n).reqTimer then word % 65536 &&& (65535 - (m.wmon n).reqMask % 65536) else word % 65536
def Mod.goneCells (m : Mod) (n word : Nat) : Nat := (m.wmon n).reqMask &&& (65535 - word % 65536)

/-- The request word that a monitor keeps (R239). -/
def Mod.requestKept (m : Mod) (n word : Nat) : Mod := m.setMon n fun x =>
  { x with reqMask := word % 65536, reqTimer := word / 65536 % 65536,
           setDue := (x.setDue ||| m.newCells n word) &&& (65535 - m.goneCells n word),
           stopDue := (x.stopDue ||| m.goneCells n word) &&& (65535 - m.newCells n word) }

theorem Mod.balRequest_eq (m : Mod) (n word : Nat) : m.balRequest n word =
    (List.range 16).foldl (Mod.timeCell n (m.newCells n word) (m.goneCells n word) (word / 65536 % 65536)) (m.requestKept n word) := rfl

theorem Mod.balRequest_only (m : Mod) (n word : Nat) : m.only [.wch] [] (m.balRequest n word) :=
  Mod.only_trans (m.setMon_only n _) (Mod.only_foldl _ _ (fun q c _ => q.timeCell_only n _ _ _ c) _)

theorem Mod.balRequest_wmon (m : Mod) (n word k : Nat) : (m.balRequest n word).wmon k = (m.requestKept n word).wmon k := by
  have mons : (m.balRequest n word).wch.mons = (m.requestKept n word).wch.mons :=
    List.foldlRecOn (motive := fun q : Mod => q.wch.mons = _) _ _ rfl fun q hq c _ => (q.timeCell_mons n _ _ _ c).trans hq
  unfold Mod.wmon
  rw [mons]

/-- A cell that is new in a request, or has a new timer, gets the request's bleed time. -/
theorem Mod.balRequest_timer (m : Mod) (n word : Nat) {c : Nat} (hc : c < 16) (h : bit (m.newCells n word) c = true) :
    ((m.balRequest n word).wcell (cellIdx n c)).timer = word / 65536 % 65536 * 1000 := by
  rw [Mod.balRequest_eq]
  refine foldl_range_at (P := fun _ => True) (Q := fun q : Mod => (q.wcell (cellIdx n c)).timer = word / 65536 % 65536 * 1000) hc
    (fun _ _ _ _ _ => trivial) (fun q _ => ?_) (fun q d _ hd hq => ?_) trivial
  · rw [Mod.timeCell, if_pos h, Mod.wcell_setCell, if_pos rfl]
  · rw [q.timeCell_wcell n _ _ _ fun e => hd (cellIdx_inj e)]
    exact hq

/-- A request word of the host acts with SRC = 1 (R239). -/
theorem Does.requestTaken {s : State} {v : Word} (hw : s.m.wrStatus 0xC0DC v.toNat = 0) (hon : s.on) (hsrc : s.m.get R.WCH_BAL_CFG_SRC = 1) :
    Does (.wchBalDataWrite v) s fun t => (t.m.wmon (s.m.get R.WCH_BAL_ADDR_MON)).reqMask = v.toNat % 65536 ∧
      (t.m.wmon (s.m.get R.WCH_BAL_ADDR_MON)).reqTimer = v.toNat / 65536 ∧
      (∀ c < 16, bit v.toNat c = true → (s.m.wmon (s.m.get R.WCH_BAL_ADDR_MON)).reqTimer ≠ v.toNat / 65536 →
        (t.m.wcell (cellIdx (s.m.get R.WCH_BAL_ADDR_MON) c)).timer = v.toNat / 65536 * 1000) ∧
      (∀ k, k ≠ s.m.get R.WCH_BAL_ADDR_MON → t.m.wmon k = s.m.wmon k) ∧ t.m.resp = 0 ∧ s.frame [.wch, .resp] [] t := by
  generalize hn : s.m.get R.WCH_BAL_ADDR_MON = n
  have hv : v.toNat / 65536 % 65536 = v.toNat / 65536 := Nat.mod_eq_of_lt (by have := v.isLt; omega)
  have mon (k : Nat) : (s.m.balRequest n v.toNat).wmon k = _ := (s.m.balRequest_wmon n _ k).trans (s.m.wmon_setMon n k _)
  refine Does.ofMod (f := fun m => m.guarded 0xC0DC v.toNat fun m => m.balData v) rfl hon ?_
  rw [Mod.guarded_ok _ hw, Mod.balData, if_pos hsrc, hn]
  refine ⟨congrArg WMon.reqMask ((mon n).trans (if_pos rfl)), (congrArg WMon.reqTimer ((mon n).trans (if_pos rfl))).trans hv,
    fun c hc hbit htimer => ?_, fun k hk => (mon k).trans (if_neg (Ne.symm hk)), rfl,
    State.frame_of_only (Mod.only_trans (Mod.only_mono (s.m.balRequest_only n _) (by simp) (by simp)) (Mod.only_resp _ 0 _ (by simp)))⟩
  have new : bit (s.m.newCells n v.toNat) c = true := by
    rw [Mod.newCells, hv, if_neg (Ne.symm htimer)]
    exact (bit_mod_two_pow (w := 16) _ hc).trans hbit
  exact (s.m.balRequest_timer n v.toNat hc new).trans (by rw [hv])

/-- Without SRC = 1 it has no effect (R239). -/
theorem Does.requestIgnored {s : State} {v : Word} (hw : s.m.wrStatus 0xC0DC v.toNat = 0) (hon : s.on)
    (hsrc : s.m.get R.WCH_BAL_CFG_SRC ≠ 1) : Does (.wchBalDataWrite v) s fun t => t.m.resp = 0 ∧ s.frame [.resp] [] t := by
  refine Does.ofMod (f := fun m => m.guarded 0xC0DC v.toNat fun m => m.balData v) rfl hon ?_
  rw [Mod.guarded_ok _ hw, Mod.balData, if_neg hsrc]
  exact ⟨rfl, State.frame_of_only (Mod.only_resp s.m 0 [] (by simp))⟩

/-! ## The cell window (R462) -/

theorem Mod.cellRead_advances (m : Mod) : m.cellRead.2.get R.WCH_CELL_ADDR_CELL = (m.get R.WCH_CELL_ADDR_CELL + 1) % 2 ^ 10 :=
  Mod.get_put_same m R.WCH_CELL_ADDR_CELL _ (by decide)

theorem Mod.cellRead_only (m : Mod) (ps : List Part) {fs : List Fld} (h : R.WCH_CELL_ADDR_CELL ∈ fs) : m.only ps fs m.cellRead.2 :=
  Mod.only_put m _ _ ps h

/-- A read of WCH_CELL_DATA answers the cell and advances the index (R462). -/
theorem Does.cellAnswered {s : State} (hr : s.m.rdStatus 0xC0D4 = 0) (hon : s.on) :
    Does .wchCellDataRead s fun t => t.m.rdata = s.m.cellWord (s.m.get R.WCH_CELL_ADDR_CELL) % 2 ^ 32 ∧
      t.m.get R.WCH_CELL_ADDR_CELL = (s.m.get R.WCH_CELL_ADDR_CELL + 1) % 1024 ∧ t.m.resp = 0 ∧
      s.frame [.rdata, .resp] [R.WCH_CELL_ADDR_CELL] t := by
  refine Does.ofMod (f := fun m => m.guardedRd 0xC0D4 Mod.cellRead) rfl hon ?_
  rw [Mod.guardedRd_ok _ hr]
  have answered := Mod.only_answer s.m.cellRead.2 (s.m.cellRead.1 % 2 ^ 32) 0 (ps := [.rdata, .resp]) [] (by simp) (by simp)
  exact ⟨rfl, (Mod.only_get answered R.WCH_CELL_ADDR_CELL (by simp)).trans s.m.cellRead_advances, rfl,
    State.frame_of_only (Mod.only_trans (s.m.cellRead_only _ (by simp)) (Mod.only_mono answered (by simp) (by simp)))⟩

end Sys2Proof.Machine
end

section
/-!
PROOFS. The data of a sweep are composed (R223, R225, R226): what judging and the service window leave alone, and the 64 slots.
-/
namespace Sys2Proof.Machine

/-! ## What the work on a sweep's blocks leaves alone -/

/-- Work on the blocks of a sweep: only the chain, the collector and registers change, and SWEEP_CNT, the composed data and the mark of a sweep in
flight stay. -/
def Mod.sweeps (a b : Mod) : Prop :=
  a.onlyParts [.wch, .flt] b ∧ b.word R.WCH_SWEEP_CNT_COUNT.addr = a.word R.WCH_SWEEP_CNT_COUNT.addr ∧ b.wch.data = a.wch.data ∧
    b.wch.inFlight = a.wch.inFlight

theorem Mod.sweeps_refl (m : Mod) : m.sweeps m := ⟨Mod.onlyParts_refl m _, rfl, rfl, rfl⟩

theorem Mod.sweeps_trans {a b c : Mod} (h : a.sweeps b) (k : b.sweeps c) : a.sweeps c := by
  obtain ⟨parts, count, data, flight⟩ := h
  obtain ⟨parts', count', data', flight'⟩ := k
  exact ⟨Mod.onlyParts_trans parts parts', count'.trans count, data'.trans data, flight'.trans flight⟩

theorem Mod.sweeps_ite {p : Prop} [Decidable p] {m a b : Mod} (ha : m.sweeps a) (hb : m.sweeps b) : m.sweeps (if p then a else b) := by
  split
  · exact ha
  · exact hb

theorem Mod.sweeps_foldl {α : Type} {f : Mod → α → Mod} (h : ∀ (q : Mod) a, q.sweeps (f q a)) (l : List α) (m : Mod) :
    m.sweeps (l.foldl f m) :=
  List.foldlRecOn (motive := fun q => m.sweeps q) l f m.sweeps_refl fun q hq a _ => Mod.sweeps_trans hq (h q a)

/-- The same for a run that carries the budget of the service window. -/
theorem Mod.sweeps_foldl_budget {α : Type} {f : Nat × Mod → α → Nat × Mod} (h : ∀ (t : Nat × Mod) a, t.2.sweeps (f t a).2) (l : List α)
    (t : Nat × Mod) : t.2.sweeps (l.foldl f t).2 :=
  List.foldlRecOn (motive := fun u : Nat × Mod => t.2.sweeps u.2) l f t.2.sweeps_refl fun u hu a _ => Mod.sweeps_trans hu (h u a)

theorem Mod.sweeps_put (m : Mod) (f : Fld) (v : Nat) (h : f.addr ≠ 0xC094) : m.sweeps (m.put f v) :=
  ⟨Mod.onlyParts_put m f v _, m.word_put_ne f v h, rfl, rfl⟩

theorem Mod.sweeps_setRing (m : Mod) (r : Nat) (f : WRing → WRing) : m.sweeps (m.setRing r f) :=
  ⟨Mod.onlyParts_mono (m.setRing_only r f).1 (by simp), rfl, rfl, rfl⟩

theorem Mod.sweeps_setMon (m : Mod) (n : Nat) (f : WMon → WMon) : m.sweeps (m.setMon n f) :=
  ⟨Mod.onlyParts_mono (m.setMon_only n f).1 (by simp), rfl, rfl, rfl⟩

theorem Mod.sweeps_setCell (m : Mod) (i : Nat) (f : WCell → WCell) : m.sweeps (m.setCell i f) :=
  ⟨Mod.onlyParts_mono (m.setCell_only i f).1 (by simp), rfl, rfl, rfl⟩

theorem Mod.sweeps_of_sends {a b : Mod} (h : a.sends b) : a.sweeps b := by
  obtain ⟨l, rfl⟩ := h
  exact ⟨(Mod.only_wch a _ [] (by simp)).1, rfl, rfl, rfl⟩

theorem Mod.sweeps_of_flt {a b : Mod} {fs : List Fld} (h : a.only [.flt] fs b) (hf : Fld.clear fs R.WCH_SWEEP_CNT_COUNT = true) : a.sweeps b :=
  ⟨Mod.onlyParts_mono h.1 (by simp), Mod.only_word h _ (Fld.apart_of_clear hf), congrArg WchS.data (h.1 .wch (by simp)),
    congrArg WchS.inFlight (h.1 .wch (by simp))⟩

theorem Mod.sweeps_condStart (m : Mod) (inst kind addr cls : Nat) : m.sweeps (m.condStart 12 inst kind addr cls) :=
  Mod.sweeps_of_flt (m.condStart_only 12 inst kind addr cls) (by decide)

theorem Mod.sweeps_condEnd (m : Mod) (inst kind addr cls : Nat) : m.sweeps (m.condEnd 12 inst kind addr cls) :=
  Mod.sweeps_of_flt (m.condEnd_only 12 inst kind addr cls) (by decide)

theorem Mod.sweeps_condStartLim (m : Mod) (key inst kind addr : Nat) : m.sweeps (m.condStartLim key 12 inst kind addr) :=
  Mod.sweeps_of_flt (Mod.condStartLim_frame m key 12 inst kind addr fun _ h => h).symm (by decide)

theorem Mod.sweeps_raise (m : Mod) (inst kind addr cls : Nat) : m.sweeps (m.raise 12 inst kind addr cls) :=
  Mod.sweeps_of_flt (Mod.raise_frame m 12 inst kind addr cls fun _ h => h).symm (by decide)

theorem Mod.sweeps_wchCorrected (m : Mod) (r kind addr : Nat) : m.sweeps (m.wchCorrected r kind addr) :=
  Mod.sweeps_of_flt (m.raiseLim_only tickS 12 r kind addr 0) (by decide)

theorem Mod.sweeps_bump (m : Mod) (f : Fld) (h : Fld.clear (cntFlds f.addr) R.WCH_SWEEP_CNT_COUNT = true) : m.sweeps (m.bump f) :=
  Mod.sweeps_of_flt (m.bump_only f (by simp) fun _ hg => hg) h

/-- An event bit or a monitor's bit, and the START of its condition. -/
theorem Mod.sweeps_event (m : Mod) (f : Fld) (inst kind addr cls : Nat) (h : f.addr ≠ 0xC094) :
    m.sweeps ((m.put f 1).condStart 12 inst kind addr cls) := Mod.sweeps_trans (m.sweeps_put f 1 h) (Mod.sweeps_condStart _ inst kind addr cls)

/-- A bit of a monitor's register. -/
theorem Mod.sweeps_putMon (m : Mod) (n lo w v : Nat) : m.sweeps (m.put ⟨0xC100 + 4 * n, lo, w⟩ v) := m.sweeps_put _ v (by simp only; omega)

/-! ## Judging (R224, R226, R229 to R233) -/

theorem Mod.sweeps_judgeTest (m : Mod) (n : Nat) (b : List Nat) : m.sweeps (m.judgeTest n b) := by
  unfold Mod.judgeTest
  split
  · exact m.sweeps_refl
  · extract_lets r pos counted k ran confirmed shown
    have hcounted : m.sweeps counted := m.sweeps_bump _ (by decide)
    have hran : m.sweeps ran := Mod.sweeps_trans hcounted (counted.sweeps_setMon n _)
    refine Mod.sweeps_ite (Mod.sweeps_trans hcounted (counted.sweeps_setMon n _)) (Mod.sweeps_ite hran ?_)
    exact Mod.sweeps_trans hran (Mod.sweeps_trans (ran.sweeps_setMon n _) (Mod.sweeps_trans (confirmed.sweeps_putMon n 0 17 _)
      (shown.sweeps_event _ _ _ _ _ (by decide))))

theorem Mod.sweeps_judgeSignatures (m : Mod) (n : Nat) (b : List Nat) : m.sweeps (m.judgeSignatures n b) := by
  unfold Mod.judgeSignatures
  extract_lets ws noted
  exact Mod.sweeps_ite m.sweeps_refl (Mod.sweeps_trans (m.sweeps_setMon n _)
    (Mod.sweeps_trans (noted.sweeps_put _ 1 (by decide)) (Mod.sweeps_wchCorrected _ _ _ _)))

theorem Mod.sweeps_judgeLimits (m : Mod) (n c : Nat) (pp cp : Bool) (tt : Rat) : m.sweeps (m.judgeLimits n c pp cp tt) := by
  unfold Mod.judgeLimits
  split
  · exact m.sweeps_refl
  · extract_lets i r x out cl beyond cm far counted hot tooHot shore lim shored
    have hcounted : m.sweeps counted := m.sweeps_setCell i _
    have hshored : counted.sweeps shored := Mod.sweeps_ite (counted.sweeps_event _ _ _ _ _ (by decide))
      (Mod.sweeps_ite counted.sweeps_refl (counted.sweeps_condEnd _ _ _ _))
    refine Mod.sweeps_ite m.sweeps_refl (Mod.sweeps_trans hcounted (Mod.sweeps_trans hshored ?_))
    exact Mod.sweeps_ite (shored.sweeps_event _ _ _ _ _ (by decide)) (Mod.sweeps_ite shored.sweeps_refl (shored.sweeps_condEnd _ _ _ _))

theorem Mod.sweeps_judgeMonitor (m : Mod) (n : Nat) (b : Option (List Nat)) : m.sweeps (m.judgeMonitor n b) := by
  unfold Mod.judgeMonitor
  extract_lets r blk tested orders signed judged
  have hsigned : m.sweeps signed := by
    cases b with
    | none => exact m.sweeps_refl
    | some b => exact Mod.sweeps_trans (m.sweeps_judgeTest n b) (Mod.sweeps_judgeSignatures _ n b)
  have hjudged : signed.sweeps judged := by
    refine Mod.sweeps_foldl (fun q e => ?_) _ signed
    extract_lets i code noted counted told
    have hcounted : noted.sweeps counted := Mod.sweeps_ite (noted.sweeps_bump _ (by decide)) noted.sweeps_refl
    have htold : counted.sweeps told := Mod.sweeps_ite (counted.sweeps_wchCorrected _ _ _) counted.sweeps_refl
    refine Mod.sweeps_trans (q.sweeps_setCell i _) (Mod.sweeps_trans hcounted (Mod.sweeps_trans htold ?_))
    exact Mod.sweeps_ite (Mod.sweeps_trans (told.sweeps_setMon n _) (Mod.sweeps_event _ _ _ _ _ _ (by decide))) (told.sweeps_condEnd _ _ _ _)
  refine Mod.sweeps_trans (Mod.sweeps_trans hsigned hjudged) ?_
  split
  · exact judged.sweeps_putMon n 17 1 0
  · extract_lets st rose told noted shown
    have htold : judged.sweeps told := Mod.sweeps_ite (Mod.sweeps_trans (judged.sweeps_putMon n 18 1 1) (Mod.sweeps_raise _ _ _ _ _))
      judged.sweeps_refl
    have hshown : noted.sweeps shown := Mod.sweeps_trans (noted.sweeps_putMon n 17 1 1) (Mod.sweeps_putMon _ n 24 8 _)
    exact Mod.sweeps_trans htold (Mod.sweeps_trans (told.sweeps_setMon n _) (Mod.sweeps_trans hshown
      (Mod.sweeps_foldl (fun q c => q.sweeps_judgeLimits n c _ _ _) _ shown)))

theorem Mod.sweeps_judgeSum (m : Mod) (r : Nat) : m.sweeps (m.judgeSum r) := by
  unfold Mod.judgeSum
  extract_lets l s far noted
  have hnoted : m.sweeps noted := m.sweeps_setRing r _
  exact Mod.sweeps_ite m.sweeps_refl (Mod.sweeps_trans hnoted
    (Mod.sweeps_ite (noted.sweeps_event _ _ _ _ _ (by decide)) (Mod.sweeps_ite noted.sweeps_refl (noted.sweeps_condEnd _ _ _ _))))

/-! ## The service window (R226, R230, R240, R241) -/

theorem Mod.sweeps_balTimers (m : Mod) : m.sweeps m.balTimers := ⟨(Mod.only_wch m _ [] (by simp)).1, rfl, rfl, rfl⟩

theorem Mod.sweeps_chainTo (m : Mod) (n cmd arg : Nat) (body : List Nat) : m.sweeps (m.chainTo n cmd arg body).2 :=
  Mod.sweeps_of_sends (m.chainTo_sends n cmd arg body)

theorem Mod.sweeps_balThermal (m : Mod) (n : Nat) : m.sweeps (m.balThermal n).1 := by
  unfold Mod.balThermal
  extract_lets t hi off mx was now shown told
  have hshown : m.sweeps shown := Mod.sweeps_trans (m.sweeps_setMon n _) (Mod.sweeps_putMon _ n 19 1 _)
  exact Mod.sweeps_trans hshown (Mod.sweeps_ite
    (Mod.sweeps_trans (shown.sweeps_put _ 1 (by decide)) (Mod.sweeps_condStartLim _ _ _ _ _))
    (Mod.sweeps_ite (shown.sweeps_condEnd _ _ _ _) shown.sweeps_refl))

theorem Mod.sweeps_sendBal (m : Mod) (bud n op mask timer : Nat) : m.sweeps (m.sendBal bud n op mask timer).2 := by
  unfold Mod.sendBal
  split
  · exact m.sweeps_refl
  · extract_lets t
    split
    · exact m.sweeps_chainTo n 5 mask _
    · exact m.sweeps_refl

theorem Mod.sweeps_balMonitor (m : Mod) (bud n : Nat) : m.sweeps (m.balMonitor bud n).2 := by
  unfold Mod.balMonitor
  extract_lets thermal warm want x set setDone cur stop stopDone cur' again pz pause cur'' rs resume cur''' resumed
  have hset : m.sweeps setDone := Mod.sweeps_trans (m.sweeps_balThermal n) (Mod.sweeps_trans (warm.sweeps_sendBal _ n 0 _ _)
    (Mod.sweeps_ite (set.2.sweeps_setMon n _) set.2.sweeps_refl))
  have hstop : setDone.sweeps stopDone := Mod.sweeps_trans (setDone.sweeps_sendBal _ n 3 _ _)
    (Mod.sweeps_ite (stop.2.sweeps_setMon n _) stop.2.sweeps_refl)
  have hresumed : stopDone.sweeps resumed := Mod.sweeps_trans (stopDone.sweeps_sendBal _ n 1 _ _)
    (Mod.sweeps_trans (pause.2.sweeps_sendBal _ n 2 _ _) (resume.2.sweeps_setMon n _))
  exact Mod.sweeps_trans hset (Mod.sweeps_trans hstop (Mod.sweeps_trans hresumed
    (Mod.sweeps_foldl (fun q c => q.sweeps_setCell _ _) _ resumed)))

theorem Mod.sweeps_sendTest (m : Mod) (r : Nat) : m.sweeps (m.sendTest r) := by
  unfold Mod.sendTest
  split
  · exact m.sweeps_setRing r _
  · extract_lets n fromList sent used noted
    have hused : sent.2.sweeps used := Mod.sweeps_ite (Mod.sweeps_ite (sent.2.sweeps_setMon n _) sent.2.sweeps_refl)
      (sent.2.sweeps_setRing r _)
    exact Mod.sweeps_trans (m.sweeps_chainTo n 6 _ _) (Mod.sweeps_trans hused (Mod.sweeps_trans (used.sweeps_setRing r _)
      (noted.sweeps_put _ _ (by decide))))

theorem Mod.sweeps_serviceRing (m : Mod) (r : Nat) : m.sweeps (m.serviceRing r) := by
  unfold Mod.serviceRing
  extract_lets tested bud ns diag
  have htested : m.sweeps tested := Mod.sweeps_trans (m.sweeps_sendTest r) (Mod.sweeps_setRing _ r _)
  have hdiag : tested.sweeps diag.2 := by
    refine Mod.sweeps_foldl_budget (fun t n => ?_) ns (bud, tested)
    split
    · extract_lets first second
      split
      · exact Mod.sweeps_trans (t.2.sweeps_chainTo n 9 1 []) (Mod.sweeps_trans (first.2.sweeps_chainTo n 9 2 [])
          (Mod.sweeps_trans (second.2.sweeps_setMon n _) (Mod.sweeps_setRing _ r _)))
      · exact t.2.sweeps_refl
    · exact t.2.sweeps_refl
  exact Mod.sweeps_ite m.sweeps_refl (Mod.sweeps_trans htested (Mod.sweeps_trans hdiag
    (Mod.sweeps_foldl_budget (fun t n => t.2.sweeps_balMonitor t.1 n) ns diag)))

/-! ## The sweep ends (R223, R225) -/

/-- The block of a monitor that is whole and of this sweep. -/
def goodBlock (blocks : List Block) (seq n : Nat) : Option Block :=
  (blocks.find? (fun b => b.slot == n)).bind fun b => if blockOk b.bytes seq then some b else none

/-- Every fitted monitor is judged by its block; a damaged one counts and judges as none. -/
def Mod.blocksJudged (m : Mod) (blocks : List Block) (seq : Nat) : Mod :=
  ((List.range 64).filter (fun n => decide (n % 32 < m.nMon (n / 32)))).foldl (fun m n =>
    match blocks.find? (fun b => b.slot == n) with
    | none => m.judgeMonitor n none
    | some b =>
      if blockOk b.bytes seq then m.judgeMonitor n (some b.bytes)
      else (((m.bump R.WCH_CRC_CNT_COUNT).put R.WCH_EVT_CRC 1).wchCorrected (n / 32) 4 n).judgeMonitor n none) m

/-- The composed data: the slots of the 64 monitors (Table 07-5). -/
def Mod.slotsComposed (m : Mod) (blocks : List Block) (seq : Nat) : List Nat :=
  (List.range 64).flatMap fun n => m.slotBytes n (goodBlock blocks seq n)

/-- The composed data stand, and no sweep is in flight. -/
def Mod.dataStands (m : Mod) (l : List Nat) : Mod := { m with wch.data := l, wch.inFlight := false }

/-- The engine takes the sweep with its next snapshot (R117). -/
def Mod.delivered (m : Mod) : Mod := { m with cen.sweepDue := true }

/-- The service windows of both rings. -/
def Mod.served (m : Mod) : Mod :=
  ((m.serviceRing 0).serviceRing 1).put R.WCH_STAT_BAL_ACT
    (b2n (((m.serviceRing 0).serviceRing 1).wch.cells.any (fun e => e.2.bleed)))

/-- The sweep is counted, its sums are judged, it is delivered, and its service windows run. -/
def Mod.sweepEnded (m : Mod) : Mod := (((m.bump R.WCH_SWEEP_CNT_COUNT).judgeSum 0).judgeSum 1).delivered.served

/-- The blocks that a sweep brought are judged and composed, and the sweep ends. -/
def Mod.composeSweep (m : Mod) (blocks : List Block) (seq : Nat) : Mod :=
  ((m.blocksJudged blocks seq).dataStands ((m.blocksJudged blocks seq).slotsComposed blocks seq)).sweepEnded

theorem exec_sweepDataComposed {s : State} (blocks : List Block) (hon : s.on) (hf : s.m.wch.inFlight = true) :
    exec (.sweepDataComposed blocks) s =
      .next { s with m := s.m.balTimers.composeSweep blocks ((s.m.get R.WCH_SWEEP_CNT_COUNT + 1) % 256) } := by
  rw [show exec (.sweepDataComposed blocks) s = execSweepDataComposed blocks s from rfl, execSweepDataComposed, onMod, if_neg hon,
    if_neg (by simp [hf])]
  rfl

theorem Mod.sweeps_blocksJudged (m : Mod) (blocks : List Block) (seq : Nat) : m.sweeps (m.blocksJudged blocks seq) := by
  refine Mod.sweeps_foldl (fun q n => ?_) _ m
  split
  · exact q.sweeps_judgeMonitor n none
  · refine Mod.sweeps_ite (q.sweeps_judgeMonitor n _) ?_
    exact Mod.sweeps_trans (q.sweeps_bump _ (by decide)) (Mod.sweeps_trans (Mod.sweeps_put _ _ 1 (by decide))
      (Mod.sweeps_trans (Mod.sweeps_wchCorrected _ _ 4 n) (Mod.sweeps_judgeMonitor _ n none)))

theorem goodBlock_length {blocks : List Block} {seq n : Nat} {b : Block} (h : goodBlock blocks seq n = some b) : b.bytes.length = 64 := by
  obtain ⟨x, -, hx⟩ := Option.bind_eq_some_iff.mp h
  obtain ⟨hok, hxb⟩ := Option.ite_none_right_eq_some.mp hx
  obtain rfl := Option.some.inj hxb
  simp only [blockOk, Bool.and_eq_true, beq_iff_eq] at hok
  exact hok.1.1

/-- The slot of a monitor is as long as its block (Table 07-5). -/
theorem Mod.length_slotBytes (m : Mod) (n : Nat) {b : Option Block} (h : ∀ x, b = some x → x.bytes.length = 64) :
    (m.slotBytes n b).length = 64 := by
  unfold Mod.slotBytes
  extract_lets r blk
  have hblk : blk.length = 64 := by
    cases b with
    | none => exact List.length_replicate
    | some x => exact h x rfl
  simp [hblk]

theorem Mod.length_slotsComposed (m : Mod) (blocks : List Block) (seq : Nat) : (m.slotsComposed blocks seq).length = 4096 := by
  have slot (n : Nat) : (m.slotBytes n (goodBlock blocks seq n)).length = 64 := m.length_slotBytes n fun _ => goodBlock_length
  simp [Mod.slotsComposed, List.length_flatMap, slot]

theorem Mod.sweeps_served (m : Mod) : m.sweeps m.served :=
  Mod.sweeps_trans (m.sweeps_serviceRing 0) (Mod.sweeps_trans (Mod.sweeps_serviceRing _ 1) (Mod.sweeps_put _ _ _ (by decide)))

/-- The end of a sweep counts it and delivers it, and keeps the composed data. -/
theorem Mod.sweepEnded_does (m : Mod) :
    m.sweepEnded.wch.inFlight = m.wch.inFlight ∧ m.sweepEnded.wch.data = m.wch.data ∧ m.sweepEnded.cen.sweepDue = true ∧
      (m.sweepEnded.word R.WCH_SWEEP_CNT_COUNT.addr).toNat = min ((m.word R.WCH_SWEEP_CNT_COUNT.addr).toNat + 1) (2 ^ 32 - 1) ∧
      m.onlyParts [.wch, .cen, .flt] m.sweepEnded := by
  have bumped := m.bump_only R.WCH_SWEEP_CNT_COUNT (ps := [.flt]) (by simp) fun _ h => h
  have hcount := m.word_bump_min R.WCH_SWEEP_CNT_COUNT (Fld.apart_of_clear (by decide))
  unfold Mod.sweepEnded
  generalize m.bump R.WCH_SWEEP_CNT_COUNT = counted at bumped hcount ⊢
  obtain ⟨parts, count, data, flight⟩ := Mod.sweeps_trans (counted.sweeps_judgeSum 0) (Mod.sweeps_judgeSum _ 1)
  generalize (counted.judgeSum 0).judgeSum 1 = summed at parts count data flight ⊢
  obtain ⟨parts', count', data', flight'⟩ := summed.delivered.sweeps_served
  have wch : counted.wch = m.wch := bumped.1 .wch (by simp)
  refine ⟨flight'.trans (flight.trans (congrArg WchS.inFlight wch)), data'.trans (data.trans (congrArg WchS.data wch)),
    congrArg CenS.sweepDue (parts' .cen (by simp)), ?_, ?_⟩
  · rw [← hcount]
    exact congrArg BitVec.toNat (count'.trans count)
  · exact Mod.onlyParts_trans (Mod.onlyParts_mono bumped.1 (by simp)) (Mod.onlyParts_trans (Mod.onlyParts_mono parts (by simp))
      (Mod.onlyParts_trans (Mod.only_cen summed _ [] (by simp)).1 (Mod.onlyParts_mono parts' (by simp))))

/-- The composed data of 64 slots end the sweep and count it (R223, R225). -/
theorem Does.sweepComposed {s : State} {blocks : List Block} (hon : s.on) (hf : s.m.wch.inFlight = true) :
    Does (.sweepDataComposed blocks) s fun t => t.m.wch.inFlight = false ∧ t.m.wch.data.length = 4096 ∧
      (t.m.word R.WCH_SWEEP_CNT_COUNT.addr).toNat = min ((s.m.word R.WCH_SWEEP_CNT_COUNT.addr).toNat + 1) (2 ^ 32 - 1) ∧
      t.m.cen.sweepDue = true ∧ s.m.onlyParts [.wch, .cen, .cap, .flt] t.m := by
  refine ⟨_, exec_sweepDataComposed blocks hon hf, ?_⟩
  generalize (s.m.get R.WCH_SWEEP_CNT_COUNT + 1) % 256 = seq
  obtain ⟨parts, count, -, -⟩ := Mod.sweeps_trans s.m.sweeps_balTimers (Mod.sweeps_blocksJudged _ blocks seq)
  unfold Mod.composeSweep
  generalize s.m.balTimers.blocksJudged blocks seq = judged at parts count ⊢
  obtain ⟨flight, data, due, count', parts'⟩ := (judged.dataStands (judged.slotsComposed blocks seq)).sweepEnded_does
  refine ⟨flight, (congrArg List.length data).trans (judged.length_slotsComposed blocks seq), ?_, due, ?_⟩
  · rw [← count]
    exact count'
  · exact Mod.onlyParts_trans (Mod.onlyParts_mono parts (by simp))
      (Mod.onlyParts_trans (Mod.only_wch judged _ [] (by simp)).1 (Mod.onlyParts_mono parts' (by simp)))

end Sys2Proof.Machine
end

section
/-!
PROOFS. A sweep starts (R219, R234, R237, R238): what the PINGs make of the rings, the frames of the sweep; the statement ChainServices.
-/
namespace Sys2Proof.Machine

/-! ## The mode of a ring at a sweep instant (R234, R237, R238) -/

/-- The state that waits is entered (R234). -/
def Mod.dueEntered (m : Mod) (r : Nat) : Mod :=
  match (m.wring r).due with
  | none => m
  | some st => (m.setRingState r st).setRing r (fun x => { x with due := none })

/-- A ring closes again: CLOSED, nothing lost, its ends and delays, RECLOSE, its breaks ended, the report (R238). -/
def Mod.reclosed (m : Mod) (r : Nat) (ping : RingPing) : Mod :=
  let whole := ((m.setRing r (fun x => { x with lost := [], hops := [] })).setRingState r 1).showEnds r []
  let measured := whole.measure r true (whole.nMon r) (whole.nMon r) ping.loopA ping.loopB
  let shown := measured.puts [(R.WCH_EVT_RECLOSE, 1), (ringFound r, measured.nMon r)]
  ((shown.endBreaks r).condEnd 12 r 2 (32 * r) 1).wchCorrected r 0x0E (32 * r)

/-- Every side has restored, PING finds the ring whole, and RECLOSE is over (R238). -/
def Mod.recloses (m : Mod) (r : Nat) (ping : RingPing) : Bool :=
  m.allRestored r && ping.reach && decide ((m.wring r).restTick + 10 * max 1 (m.get R.WCH_LIM_CFG_RECLOSE) * tickMs ≤ m.time.ticks)

/-- The fields of a ring whose mode is settled, and those written after it is CLOSED again. -/
def settleFlds (r : Nat) : List Fld := ringFound r :: modeFlds r
def closeFlds (r : Nat) : List Fld := R.WCH_EVT_RECLOSE :: ringFound r :: (endFlds r ++ repFlds 12)

theorem modeFlds_sub_settleFlds (r : Nat) : ∀ f ∈ modeFlds r, f ∈ settleFlds r := fun _ hf => List.mem_cons_of_mem _ hf

theorem Mod.dueEntered_cases (m : Mod) (r : Nat) : ((m.wring r).due = none ∧ m.dueEntered r = m) ∨
    ∃ st, (m.wring r).due = some st ∧ m.dueEntered r = (m.setRingState r st).setRing r fun x => { x with due := none } := by
  unfold Mod.dueEntered
  split
  next h => exact .inl ⟨h, rfl⟩
  next st h => exact .inr ⟨st, h, rfl⟩

theorem Mod.dueEntered_only (m : Mod) (r : Nat) : m.only [.wch] [ringSt r] (m.dueEntered r) := by
  rcases m.dueEntered_cases r with ⟨-, h⟩ | ⟨st, -, h⟩ <;> rw [h]
  · exact Mod.only_refl m _ _
  · exact Mod.only_trans (Mod.only_put m _ st _ (by simp [ringSt])) (Mod.only_mono (Mod.setRing_only _ r _) (fun _ hp => hp) (by simp))

theorem Mod.dueEntered_onRing (m : Mod) (r : Nat) : m.onRing r [ringSt r] (m.dueEntered r) := by
  rcases m.dueEntered_cases r with ⟨-, h⟩ | ⟨st, -, h⟩ <;> rw [h]
  · exact m.onRing_refl r _
  · exact Mod.onRing_trans (m.onRing_put r _ st (by simp [ringSt])) (Mod.onRing_setRing _ r _ _)

/-- The record of the ring but for the state that waited stays. -/
theorem Mod.dueEntered_wring (m : Mod) {r : Nat} (hr : r < 2) :
    ((m.dueEntered r).wring r).lost = (m.wring r).lost ∧ ((m.dueEntered r).wring r).restTick = (m.wring r).restTick := by
  rcases m.dueEntered_cases r with ⟨-, h⟩ | ⟨st, -, h⟩ <;> rw [h]
  · exact ⟨rfl, rfl⟩
  · rw [Mod.wring_setRing _ _ _ _ hr, if_pos rfl]
    exact ⟨rfl, rfl⟩

theorem Mod.dueEntered_state (m : Mod) {r : Nat} (hr : r < 2) :
    (m.dueEntered r).ringState r = (m.wring r).due.getD (m.ringState r) % 4 := by
  rcases m.dueEntered_cases r with ⟨hd, h⟩ | ⟨st, hd, h⟩ <;> rw [h, hd]
  · exact (Nat.mod_eq_of_lt (m.ringState_lt hr)).symm
  · exact m.ringState_set hr st

theorem Mod.endBreaks_only (m : Mod) (r : Nat) : m.only [.flt] (repFlds 12) (m.endBreaks r) :=
  Mod.only_foldl _ _ (fun q c _ => q.condEnd_only 12 r 1 c.addr 1) m

theorem Mod.resendRing_onRing (m : Mod) (r : Nat) (fs : List Fld) : m.onRing r fs (m.resendRing r) := by
  unfold Mod.resendRing
  extract_lets x monitors diag tests
  have hmonitors : m.onRing r fs monitors := Mod.onRing_foldl (fun q _ => q.onRing_setMon r _ _ fs) _ m
  have hdiag : monitors.onRing r fs diag := Mod.onRing_foldl (fun q n => q.onRing_setMon r n _ fs) _ monitors
  have htests : diag.onRing r fs tests := by
    unfold tests
    split
    · exact diag.onRing_refl r fs
    · exact diag.onRing_setMon r _ _ fs
  exact Mod.onRing_trans hmonitors (Mod.onRing_trans hdiag (Mod.onRing_trans htests (tests.onRing_setRing r _ fs)))

/-- The reports of a ring that closes again: its breaks end, its loss ends, RECLOSE is told. -/
theorem Mod.closeTold_only (m : Mod) (r : Nat) :
    m.only [.flt] (repFlds 12) (((m.endBreaks r).condEnd 12 r 2 (32 * r) 1).wchCorrected r 0x0E (32 * r)) :=
  Mod.only_trans (m.endBreaks_only r) (Mod.only_trans (Mod.condEnd_only _ 12 r 2 (32 * r) 1) (Mod.raiseLim_only _ tickS 12 r 0x0E (32 * r) 0))

/-- What follows once a ring is CLOSED again does not touch its state. -/
theorem Mod.reclosed_rest (m : Mod) (r : Nat) (ping : RingPing) :
    ((m.setRing r (fun x => { x with lost := [], hops := [] })).setRingState r 1).onRing r (closeFlds r) (m.reclosed r ping) := by
  have rep : ∀ f ∈ repFlds 12, f ∈ closeFlds r := fun f hf => by simp [closeFlds, hf]
  have ends : ∀ f ∈ endFlds r, f ∈ closeFlds r := fun f hf => by simp [closeFlds, hf]
  unfold Mod.reclosed
  extract_lets whole measured shown
  have hshown : measured.onRing r (closeFlds r) shown := measured.onRing_puts r _ (by simp [closeFlds])
  refine Mod.onRing_trans (Mod.onRing_mono (Mod.onRing_trans (Mod.showEnds_onRing _ r []) (whole.measure_onRing r _ _ _ _ _)) ends)
    (Mod.onRing_trans hshown (Mod.onRing_mono (Mod.onRing_of_flt r (shown.closeTold_only r)) rep))

theorem Mod.reclosed_onRing (m : Mod) (r : Nat) (ping : RingPing) : m.onRing r (R.WCH_EVT_RECLOSE :: settleFlds r) (m.reclosed r ping) :=
  Mod.onRing_trans (m.onRing_setRing r _ _) (Mod.onRing_trans
    (Mod.onRing_mono (Mod.setRingState_onRing _ r 1) (fun f hf => List.mem_cons_of_mem _ (modeFlds_sub_settleFlds r f hf)))
    (Mod.onRing_mono (m.reclosed_rest r ping) (by simp +contextual [closeFlds, settleFlds, modeFlds, or_imp])))

/-- A ring that closes again is CLOSED, has lost nothing, and RECLOSE shows it. -/
theorem Mod.reclosed_shows (m : Mod) {r : Nat} (hr : r < 2) (ping : RingPing) :
    (m.reclosed r ping).ringState r = 1 ∧ ((m.reclosed r ping).wring r).lost = [] ∧ (m.reclosed r ping).get R.WCH_EVT_RECLOSE = 1 := by
  refine ⟨?_, ?_, ?_⟩
  · exact (Mod.only_get (m.reclosed_rest r ping).1 (ringSt r) (Fld.apart_of_rings closeFlds ringSt (by decide) hr)).trans
      (Mod.ringState_set _ hr 1)
  · unfold Mod.reclosed
    extract_lets whole measured shown
    have told := shown.closeTold_only r
    obtain ⟨db, hmeasured⟩ : ∃ db, measured.wring r = _ := whole.measure_wring hr true (whole.nMon r) (whole.nMon r) ping.loopA ping.loopB
    have hwhole : whole.wring r = _ := (Mod.wring_of_wch (Mod.puts_wch _ _) r).trans ((m.wring_setRing r r _ hr).trans (if_pos rfl))
    rw [Mod.wring_of_wch (told.1 .wch (by simp)), Mod.wring_of_wch (measured.puts_wch _), hmeasured, hwhole]
  · unfold Mod.reclosed
    extract_lets whole measured shown
    refine (Mod.only_get (shown.closeTold_only r) R.WCH_EVT_RECLOSE (Fld.apart_of_clear (by decide))).trans ?_
    exact measured.get_puts_head 1 [(ringFound r, measured.nMon r)] (by decide)
      (Fld.apart_of_rings (fun r => [ringFound r]) (fun _ => R.WCH_EVT_RECLOSE) (by decide) hr)

theorem Mod.settleRing_whole {m : Mod} {r : Nat} (hr : r < 2) (ping : RingPing) (h : (m.wring r).lost = []) :
    m.settleRing r ping = m.dueEntered r := by
  have lost : ((m.dueEntered r).wring r).lost.isEmpty = true := by
    rw [(m.dueEntered_wring hr).1, h]
    rfl
  change (if _ then m.dueEntered r else if ((m.dueEntered r).wring r).lost.isEmpty then m.dueEntered r else _) = _
  rw [if_pos lost, ite_self]

theorem Mod.settleRing_recloses {m : Mod} {r : Nat} (hr : r < 2) {ping : RingPing} (hlost : (m.wring r).lost ≠ [])
    (hready : (m.dueEntered r).ringReady r = true) (h : (m.dueEntered r).recloses r ping = true) :
    m.settleRing r ping = (m.dueEntered r).reclosed r ping := by
  have lost : ¬ ((m.dueEntered r).wring r).lost.isEmpty = true := by simpa [(m.dueEntered_wring hr).1] using hlost
  change (if (!(m.dueEntered r).ringReady r) = true then _ else if ((m.dueEntered r).wring r).lost.isEmpty then _ else
    if (m.dueEntered r).recloses r ping then (m.dueEntered r).reclosed r ping else _) = _
  rw [if_neg (by simp [hready]), if_neg lost, if_pos h]

/-- A ring at a sweep instant closes again, or RECLOSE is not among what changes (R234, R237, R238). -/
theorem Mod.settleRing_cases (m : Mod) (r : Nat) (ping : RingPing) :
    m.settleRing r ping = (m.dueEntered r).reclosed r ping ∨ m.onRing r (settleFlds r) (m.settleRing r ping) := by
  have due : m.onRing r (settleFlds r) (m.dueEntered r) := Mod.onRing_mono (m.dueEntered_onRing r) (by simp [settleFlds, modeFlds])
  have rep : ∀ f ∈ repFlds 12, f ∈ settleFlds r := fun f hf => modeFlds_sub_settleFlds r f (repFlds_sub_modeFlds r f hf)
  have ends : ∀ f ∈ endFlds r, f ∈ settleFlds r := fun f hf => modeFlds_sub_settleFlds r f (endFlds_sub_modeFlds r f hf)
  unfold Mod.settleRing
  extract_lets entered x old whole measured closed gone hops lo hi st noted moded shown
  have hentered : m.onRing r (settleFlds r) entered := due
  have hmoded : entered.onRing r (settleFlds r) moded := by
    unfold moded
    split
    · exact entered.onRing_refl r _
    · have mode : entered.onRing r (settleFlds r) noted := Mod.onRing_trans
        (Mod.onRing_mono (entered.setRingState_onRing r st) (modeFlds_sub_settleFlds r))
        (Mod.onRing_trans (Mod.onRing_mono (Mod.showEnds_onRing _ r hops) ends) (Mod.onRing_setRing _ r _ _))
      exact Mod.onRing_trans mode (Mod.onRing_trans (Mod.onRing_mono (noted.measure_onRing r _ _ _ _ _) ends) (Mod.resendRing_onRing _ r _))
  have hshown : m.onRing r (settleFlds r) shown :=
    Mod.onRing_trans hentered (Mod.onRing_trans hmoded (moded.onRing_put r _ _ (by simp [settleFlds, ringFound])))
  split
  · exact .inr hentered
  split
  · exact .inr hentered
  split
  · exact .inl rfl
  split
  · exact .inr hentered
  refine .inr ?_
  split
  · split
    · exact hshown
    · exact Mod.onRing_trans hshown (Mod.onRing_trans (shown.onRing_put r _ 1 (by simp [settleFlds, modeFlds]))
        (Mod.onRing_mono (Mod.onRing_of_flt r (Mod.condStart_only _ 12 r 2 (32 * r) 1)) rep))
  · exact Mod.onRing_trans hshown (Mod.onRing_mono (Mod.onRing_of_flt r (shown.condEnd_only 12 r 2 (32 * r) 1)) rep)

theorem Mod.settleRing_onRing (m : Mod) (r : Nat) (ping : RingPing) : m.onRing r (R.WCH_EVT_RECLOSE :: settleFlds r) (m.settleRing r ping) := by
  rcases m.settleRing_cases r ping with h | h
  · rw [h]
    exact Mod.onRing_trans (Mod.onRing_mono (m.dueEntered_onRing r) (by simp [settleFlds, modeFlds])) (Mod.reclosed_onRing _ r ping)
  · exact Mod.onRing_mono h fun f hf => List.mem_cons_of_mem _ hf

/-- RECLOSE stays set when another ring is settled. -/
theorem Mod.settleRing_reclose {m : Mod} {r : Nat} (hr : r < 2) (ping : RingPing) (h : m.get R.WCH_EVT_RECLOSE = 1) :
    (m.settleRing r ping).get R.WCH_EVT_RECLOSE = 1 := by
  rcases m.settleRing_cases r ping with heq | hon
  · rw [heq]
    exact (Mod.reclosed_shows _ hr ping).2.2
  · exact (Mod.only_get hon.1 _ (Fld.apart_of_rings settleFlds (fun _ => R.WCH_EVT_RECLOSE) (by decide) hr)).trans h

/-! ## What work elsewhere leaves of a ring's state -/

theorem Mod.ringState_congr {a b : Mod} {ps : List Part} {fs : List Fld} (h : a.only ps fs b) {r : Nat}
    (hf : Fld.clear fs (ringSt r) = true) : b.ringState r = a.ringState r := Mod.only_get h (ringSt r) (Fld.apart_of_clear hf)

theorem Mod.ringReady_congr {a b : Mod} {ps : List Part} {fs : List Fld} (h : a.only ps fs b) {r : Nat}
    (hf : Fld.clear fs (ringRdy r) = true) : b.ringReady r = a.ringReady r :=
  congrArg (· != 0) (Mod.only_get h (ringRdy r) (Fld.apart_of_clear hf))

/-- The frame number stays where the time and its state stay (R249). -/
theorem Mod.frame_congr {a b : Mod} {ps : List Part} {fs : List Fld} (h : a.only ps fs b) (hp : Part.time ∉ ps)
    (hf : Fld.clear fs R.TIM_STAT_STATE = true) : b.frame = a.frame := by
  have time : b.time = a.time := h.1 .time hp
  simp only [Mod.frame, Mod.nowNs, Mod.fleetNs, Mod.fleetTicks, Mod.localNs, time, Mod.only_get h R.TIM_STAT_STATE (Fld.apart_of_clear hf)]

/-! ## SAMPLE and READ leave (R219, R236) -/

theorem Mod.sample_sends (m : Mod) (r seq : Nat) : m.sends (m.sample r seq) := by
  unfold Mod.sample
  extract_lets f
  split
  · exact m.sends_refl
  · exact m.chainTx_sends r 0 _
  · exact m.chainTx_both_sends r _ _

/-- A broadcast on a closed ring leaves from port A. -/
theorem Mod.mem_chainAll {m : Mod} {r : Nat} (h : m.ringState r = 1) (b : List Nat) : (r, 0, b) ∈ (m.chainAll r b).wch.tx := by
  unfold Mod.chainAll
  rw [h]
  exact List.mem_append_right _ (List.mem_singleton.mpr rfl)

/-- SAMPLE and READ of sweep `seq` on a ring. -/
def Mod.readSent (m : Mod) (seq r : Nat) : Mod := (m.sample r seq).chainAll r (chainFrame 4 0xFE seq [])

/-- A ring that is ready is sampled and read, and its high-speed channel's boundary sample is noted for the sum of its cells. -/
def Mod.sweepRing (m : Mod) (seq r : Nat) : Mod :=
  if m.ringReady r then (m.readSent seq r).setRing r (fun x => { x with vF := (m.readSent seq r).chanInst (58 + r) }) else m

theorem Mod.readSent_sends (m : Mod) (seq r : Nat) : m.sends (m.readSent seq r) := Mod.sends_trans (m.sample_sends r seq) (Mod.chainAll_sends _ r _)

theorem Mod.sweepRing_only (m : Mod) (seq r : Nat) : m.only [.wch] [] (m.sweepRing seq r) := by
  unfold Mod.sweepRing
  split
  · exact Mod.only_trans (Mod.sends_only (m.readSent_sends seq r) [] (by simp)) (Mod.setRing_only _ r _)
  · exact Mod.only_refl m _ _

theorem Mod.sweepRing_lost (m : Mod) (seq r : Nat) {k : Nat} (hk : k < 2) : ((m.sweepRing seq r).wring k).lost = (m.wring k).lost := by
  unfold Mod.sweepRing
  split
  · rw [Mod.wring_setRing _ _ _ _ hk, Mod.sends_wring (m.readSent_sends seq r)]
    split <;> rfl
  · rfl

/-- A frame that has left stays when the next ring is read. -/
theorem Mod.sweepRing_mem (m : Mod) (seq r : Nat) {e : Nat × Nat × List Nat} (he : e ∈ m.wch.tx) : e ∈ (m.sweepRing seq r).wch.tx := by
  unfold Mod.sweepRing
  split
  · exact Mod.sends_mem (m.readSent_sends seq r) he
  · exact he

theorem Mod.sweepRing_reads {m : Mod} (seq : Nat) {r : Nat} (hready : m.ringReady r = true) (hst : m.ringState r = 1) :
    (r, 0, chainFrame 4 0xFE seq []) ∈ (m.sweepRing seq r).wch.tx := by
  rw [Mod.sweepRing, if_pos hready]
  exact Mod.mem_chainAll ((Mod.ringState_congr (Mod.sends_only (m.sample_sends r seq) [] (ps := [.wch]) (by simp)) rfl).trans hst) _

/-! ## SWEEP_START (R219, R234) -/

/-- No frame has left yet at this sweep. -/
def Mod.noneSent (m : Mod) : Mod := { m with wch.tx := [] }

/-- A sweep is in flight from this instant. -/
def Mod.sweepFlies (m : Mod) : Mod := { m with wch.inFlight := true, wch.instant := m.time.ticks }

/-- The modes of both rings at a sweep instant. -/
def Mod.ringsSettled (m : Mod) (p q : RingPing) : Mod := (m.noneSent.settleRing 0 p).settleRing 1 q

/-- The frames of a sweep on both rings. -/
def Mod.sweepSent (m : Mod) (seq : Nat) : Mod := (((m.put R.WCH_SWEEP_FRAME_FRAME m.frame).sweepRing seq 0).sweepRing seq 1).sweepFlies

theorem exec_sweepStart {s : State} (p q : RingPing) (hon : s.on) (hc : s.m.chainOn = true) (hi : s.m.frame % (200 * s.m.tSw) = 0)
    (h : (s.m.ringsSettled p q).ringReady 0 = true ∨ (s.m.ringsSettled p q).ringReady 1 = true) :
    exec (.sweepStart p q) s =
      .next { s with m := (s.m.ringsSettled p q).sweepSent (((s.m.ringsSettled p q).get R.WCH_SWEEP_CNT_COUNT + 1) % 256) } := by
  have ready : ¬ (!((s.m.ringsSettled p q).ringReady 0 || (s.m.ringsSettled p q).ringReady 1)) = true := by
    rcases h with h | h <;> simp [h]
  rw [show exec (.sweepStart p q) s = execSweepStart p q s from rfl, execSweepStart, onMod, if_neg hon, if_neg (by simp [hc, hi])]
  exact congrArg (fun m : Mod => (.next { s with m := m } : Out)) (if_neg ready)

/-- The frames of a sweep leave, its frame number shows, and it is in flight. -/
theorem Mod.sweepSent_does (m : Mod) (seq : Nat) :
    (m.sweepSent seq).wch.inFlight = true ∧ (m.sweepSent seq).wch.instant = m.time.ticks ∧
      (m.sweepSent seq).get R.WCH_SWEEP_FRAME_FRAME = m.frame % 2 ^ 32 ∧ m.only [.wch] [R.WCH_SWEEP_FRAME_FRAME] (m.sweepSent seq) ∧
      ∀ r < 2, ((m.sweepSent seq).wring r).lost = (m.wring r).lost ∧ (m.ringReady r = true → m.ringState r = 1 →
        (r, 0, chainFrame 4 0xFE seq []) ∈ (m.sweepSent seq).wch.tx) := by
  unfold Mod.sweepSent
  have hshown : m.only [.wch] [R.WCH_SWEEP_FRAME_FRAME] (m.put R.WCH_SWEEP_FRAME_FRAME m.frame) := Mod.only_put m _ m.frame _ (by simp)
  have hframe : (m.put R.WCH_SWEEP_FRAME_FRAME m.frame).get R.WCH_SWEEP_FRAME_FRAME = m.frame % 2 ^ 32 :=
    Mod.get_put_same m R.WCH_SWEEP_FRAME_FRAME m.frame (by decide)
  have hlost (k : Nat) : (m.put R.WCH_SWEEP_FRAME_FRAME m.frame).wring k = m.wring k := rfl
  generalize m.put R.WCH_SWEEP_FRAME_FRAME m.frame = shown at hshown hframe hlost ⊢
  have first : shown.only [.wch] [] (shown.sweepRing seq 0) := shown.sweepRing_only seq 0
  have both : shown.only [.wch] [] ((shown.sweepRing seq 0).sweepRing seq 1).sweepFlies :=
    Mod.only_trans first (Mod.only_trans (Mod.sweepRing_only _ seq 1) (Mod.only_wch _ _ [] (by simp)))
  have all := Mod.only_trans hshown (Mod.only_mono both (fun _ hp => hp) (by simp))
  refine ⟨rfl, congrArg TimeS.ticks (all.1 .time (by simp)), ?_, all, fun r hr => ⟨?_, fun hready hst => ?_⟩⟩
  · exact (Mod.only_get both R.WCH_SWEEP_FRAME_FRAME (Fld.apart_of_clear rfl)).trans hframe
  · exact (Mod.sweepRing_lost _ seq 1 hr).trans ((shown.sweepRing_lost seq 0 hr).trans (congrArg WRing.lost (hlost r)))
  · change _ ∈ ((shown.sweepRing seq 0).sweepRing seq 1).wch.tx
    obtain rfl | rfl : r = 0 ∨ r = 1 := by omega
    · exact Mod.sweepRing_mem _ seq 1 (Mod.sweepRing_reads seq ((Mod.ringReady_congr hshown (by decide)).trans hready)
        ((Mod.ringState_congr hshown (by decide)).trans hst))
    · have upTo := Mod.only_trans hshown (Mod.only_mono first (fun _ hp => hp) (by simp))
      exact Mod.sweepRing_reads seq ((Mod.ringReady_congr upTo (by decide)).trans hready) ((Mod.ringState_congr upTo (by decide)).trans hst)

/-! ## A sweep of two whole rings (R219, R234) -/

/-- With nothing lost, only the states that wait are entered. -/
theorem Mod.ringsSettled_whole {m : Mod} (p q : RingPing) (h0 : (m.wring 0).lost = []) (h1 : (m.wring 1).lost = []) :
    m.ringsSettled p q = (m.noneSent.dueEntered 0).dueEntered 1 := by
  have first : m.noneSent.settleRing 0 p = m.noneSent.dueEntered 0 := Mod.settleRing_whole (by decide) p h0
  have other : (m.noneSent.dueEntered 0).wring 1 = m.wring 1 := (m.noneSent.dueEntered_onRing 0).2 1 (by decide) (by decide)
  rw [Mod.ringsSettled, first]
  exact Mod.settleRing_whole (by decide) q ((congrArg WRing.lost other).trans h1)

theorem Mod.bothEntered_only (m : Mod) : m.only [.wch] [ringSt 0, ringSt 1] ((m.noneSent.dueEntered 0).dueEntered 1) :=
  Mod.only_trans (Mod.only_wch m _ _ (by simp)) (Mod.only_trans
    (Mod.only_mono (m.noneSent.dueEntered_only 0) (fun _ hp => hp) (by simp))
    (Mod.only_mono (Mod.dueEntered_only _ 1) (fun _ hp => hp) (by simp)))

/-- Each ring is in the state that waited for it, or in its own. -/
theorem Mod.bothEntered_state (m : Mod) {r : Nat} (hr : r < 2) :
    ((m.noneSent.dueEntered 0).dueEntered 1).ringState r = (m.wring r).due.getD (m.ringState r) % 4 := by
  obtain rfl | rfl : r = 0 ∨ r = 1 := by omega
  · exact (Mod.ringState_congr (Mod.dueEntered_only _ 1) (by decide)).trans (m.noneSent.dueEntered_state hr)
  · have kept : (m.noneSent.dueEntered 0).ringState 1 = m.ringState 1 := Mod.ringState_congr (m.noneSent.dueEntered_only 0) (by decide)
    have other : (m.noneSent.dueEntered 0).wring 1 = m.wring 1 := (m.noneSent.dueEntered_onRing 0).2 1 hr (by decide)
    rw [Mod.dueEntered_state _ hr, kept, other]

/-- A sweep starts at its instant with READ on every closed ready ring (R219, R234). -/
theorem Does.sweepStarted {s : State} {p q : RingPing} (hon : s.on) (hc : s.m.chainOn = true) (hi : s.m.frame % (200 * s.m.tSw) = 0)
    (h0 : (s.m.wring 0).lost = []) (h1 : (s.m.wring 1).lost = []) (hready : s.m.ringReady 0 = true ∨ s.m.ringReady 1 = true) :
    Does (.sweepStart p q) s fun t => t.m.wch.inFlight = true ∧ t.m.wch.instant = s.m.time.ticks ∧
      t.m.get R.WCH_SWEEP_FRAME_FRAME = s.m.frame % 2 ^ 32 ∧
      (∀ r < 2, s.m.ringReady r = true → t.m.ringState r = ((s.m.wring r).due.getD (s.m.ringState r)) % 4) ∧
      (∀ r < 2, s.m.ringReady r = true → t.m.ringState r = 1 →
        (r, 0, chainFrame 4 0xFE ((s.m.get R.WCH_SWEEP_CNT_COUNT + 1) % 256) []) ∈ t.m.wch.tx) ∧
      s.frame [.wch] [R.WCH_SWEEP_FRAME_FRAME, R.WCH_STAT_ST0, R.WCH_STAT_ST1] t := by
  have settled := s.m.bothEntered_only
  have states := fun r hr => s.m.bothEntered_state (r := r) hr
  have heq := Mod.ringsSettled_whole p q h0 h1
  rw [← heq] at settled states
  have hexec := exec_sweepStart p q hon hc hi
  generalize s.m.ringsSettled p q = m at settled states hexec
  have ready : ∀ r < 2, m.ringReady r = s.m.ringReady r := fun r hr =>
    Mod.ringReady_congr settled ((by decide : ∀ r < 2, Fld.clear [ringSt 0, ringSt 1] (ringRdy r) = true) r hr)
  have count : m.get R.WCH_SWEEP_CNT_COUNT = s.m.get R.WCH_SWEEP_CNT_COUNT := Mod.only_get settled _ (Fld.apart_of_clear (by decide))
  rw [ready 0 (by decide), ready 1 (by decide), count] at hexec
  refine ⟨_, hexec hready, ?_⟩
  obtain ⟨flight, instant, shown, frame, rings⟩ := m.sweepSent_does ((s.m.get R.WCH_SWEEP_CNT_COUNT + 1) % 256)
  have state : ∀ r < 2, (m.sweepSent ((s.m.get R.WCH_SWEEP_CNT_COUNT + 1) % 256)).ringState r = m.ringState r := fun r hr =>
    Mod.ringState_congr frame ((by decide : ∀ r < 2, Fld.clear [R.WCH_SWEEP_FRAME_FRAME] (ringSt r) = true) r hr)
  refine ⟨flight, instant.trans (congrArg TimeS.ticks (settled.1 .time (by simp))), ?_, fun r hr _ => (state r hr).trans (states r hr),
    fun r hr hrdy hst => (rings r hr).2 ((ready r hr).trans hrdy) ((state r hr).symm.trans hst), State.frame_of_only (Mod.only_trans
      (Mod.only_mono settled (fun _ hp => hp) ?_) (Mod.only_mono frame (fun _ hp => hp) (by simp)))⟩
  · rw [shown, Mod.frame_congr settled (by simp) (by decide)]
  · simp [ringSt, ringFld]

/-! ## A restored ring closes again (R238) -/

/-- A state that waits says nothing about reclosing. -/
theorem Mod.dueEntered_recloses (m : Mod) {r : Nat} (hr : r < 2) (ping : RingPing) : (m.dueEntered r).recloses r ping = m.recloses r ping := by
  have only := m.dueEntered_only r
  obtain ⟨lost, rest⟩ := m.dueEntered_wring hr
  have time : (m.dueEntered r).time = m.time := only.1 .time (by simp)
  have limit : (m.dueEntered r).get R.WCH_LIM_CFG_RECLOSE = m.get R.WCH_LIM_CFG_RECLOSE :=
    Mod.only_get only _ (Fld.apart_of_rings (fun r => [ringSt r]) (fun _ => R.WCH_LIM_CFG_RECLOSE) (by decide) hr)
  have fitted : (m.dueEntered r).nMon r = m.nMon r :=
    Mod.nMon_congr (Mod.sameCfg_of_only only (by simp) ((by decide : ∀ r < 2, chainCfg.all (Fld.clear [ringSt r]) = true) r hr)) r
  simp only [Mod.recloses, Mod.allRestored, lost, rest, time, limit, fitted]

/-- Ring 0 closes again, whatever ring 1 then does. -/
theorem Mod.ringsSettled_recloses {m : Mod} {p : RingPing} (q : RingPing) (hlost : (m.wring 0).lost ≠ []) (hready : m.ringReady 0 = true)
    (h : m.recloses 0 p = true) :
    (m.ringsSettled p q).ringState 0 = 1 ∧ ((m.ringsSettled p q).wring 0).lost = [] ∧ (m.ringsSettled p q).get R.WCH_EVT_RECLOSE = 1 ∧
      (m.ringsSettled p q).ringReady 0 = true ∧ m.onlyParts [.wch, .flt] (m.ringsSettled p q) := by
  have entered := m.noneSent.dueEntered_only 0
  have first : m.noneSent.settleRing 0 p = (m.noneSent.dueEntered 0).reclosed 0 p :=
    Mod.settleRing_recloses (by decide) hlost ((Mod.ringReady_congr entered (by decide)).trans hready)
      ((m.noneSent.dueEntered_recloses (by decide) p).trans h)
  obtain ⟨state, lost, shown⟩ := (m.noneSent.dueEntered 0).reclosed_shows (r := 0) (by decide) p
  have closed : m.noneSent.onRing 0 _ (m.noneSent.settleRing 0 p) := m.noneSent.settleRing_onRing 0 p
  rw [← first] at state lost shown
  have second := (m.noneSent.settleRing 0 p).settleRing_onRing 1 q
  refine ⟨(Mod.ringState_congr second.1 (by decide)).trans state, (congrArg WRing.lost (second.2 0 (by decide) (by decide))).trans lost,
    Mod.settleRing_reclose (by decide) q shown, ?_, ?_⟩
  · exact (Mod.ringReady_congr second.1 (by decide)).trans ((Mod.ringReady_congr closed.1 (by decide)).trans hready)
  · exact Mod.onlyParts_trans (Mod.only_wch m _ [] (by simp)).1 (Mod.onlyParts_trans closed.1.1 second.1.1)

/-- A restored ring that PING finds whole closes again after RECLOSE (R238). -/
theorem Does.ringReclosed {s : State} {p q : RingPing} (hon : s.on) (hc : s.m.chainOn = true) (hi : s.m.frame % (200 * s.m.tSw) = 0)
    (hlost : (s.m.wring 0).lost ≠ []) (hping : p.reach = true) (hready : s.m.ringReady 0 = true) (hrest : s.m.allRestored 0 = true)
    (hdue : (s.m.wring 0).restTick + 10 * max 1 (s.m.get R.WCH_LIM_CFG_RECLOSE) * tickMs ≤ s.m.time.ticks) :
    Does (.sweepStart p q) s fun t => t.m.ringState 0 = 1 ∧ (t.m.wring 0).lost = [] ∧ t.m.get R.WCH_EVT_RECLOSE = 1 ∧
      t.m.wch.inFlight = true ∧ s.m.onlyParts [.wch, .flt] t.m := by
  obtain ⟨state, lost, shown, ready, parts⟩ :=
    Mod.ringsSettled_recloses q hlost hready (p := p) (by simp [Mod.recloses, hrest, hping, hdue])
  refine ⟨_, exec_sweepStart p q hon hc hi (.inl ready), ?_⟩
  generalize ((s.m.ringsSettled p q).get R.WCH_SWEEP_CNT_COUNT + 1) % 256 = seq
  obtain ⟨flight, -, -, frame, rings⟩ := (s.m.ringsSettled p q).sweepSent_does seq
  exact ⟨(Mod.ringState_congr frame (by decide)).trans state, (rings 0 (by decide)).1.trans lost,
    (Mod.only_get frame _ (Fld.apart_of_clear (by decide))).trans shown, flight,
    Mod.onlyParts_trans parts (Mod.onlyParts_mono frame.1 (by simp))⟩

/-- Settles O43: a sweep starts on whole rings and closes a restored one, its data end it; a test cycle starts, a monitor is armed again, a bleed
request of the host acts with SRC = 1 alone, and the cell window answers and advances. -/
theorem chainServices : Obligations.ChainServices := by
  unfold Obligations.ChainServices
  exact ⟨fun _ _ _ hon hc hi h0 h1 hready => Does.sweepStarted hon hc hi h0 h1 hready,
    fun _ _ _ hon hc hi hlost hping hready hrest hdue => Does.ringReclosed hon hc hi hlost hping hready hrest hdue,
    fun _ _ hon hf => Does.sweepComposed hon hf,
    fun _ _ hcmd hon hc hn => Does.cycleStarted hcmd hon hc hn,
    fun _ _ hw hon => Does.monitorRearmed hw hon,
    fun _ _ hw hon hsrc => Does.requestTaken hw hon hsrc,
    fun _ _ hw hon hsrc => Does.requestIgnored hw hon hsrc,
    fun _ hr hon => Does.cellAnswered hr hon⟩

end Sys2Proof.Machine
end

section
/-!
PROOFS. References and the root PLL (R247, R248): the statement References.
-/
namespace Sys2Proof.Machine

theorem Mod.only_time (m : Mod) (x : TimeS) {ps : List Part} (fs : List Fld) (hp : Part.time ∈ ps) :
    m.only ps fs { m with time := x } := Mod.only_of_part .time hp rfl (by rintro ⟨⟩ h <;> trivial)

theorem Mod.is_congr {a b : Mod} {f : Fld} (h : b.get f = a.get f) : b.is f = a.is f := by rw [Mod.is, Mod.is, h]

/-! ## The reference that applies (R247) -/

/-- The fields that decide which reference applies. -/
def refCfg : List Fld :=
  [R.CLK_CFG_REF_SEL, R.CLK_STAT_XO_OK, R.CLK_STAT_FAC_OK, R.CLK_STAT_REC_OK, R.TIM_STAT_ROOT, R.TIM_STAT_SRC, R.LNK_TREE_STAT_UP_LINK,
    R.LNK_PSTAT_STATE 0, R.LNK_PSTAT_STATE 1]

theorem Mod.bestRef_congr {a b : Mod} (h : ∀ g ∈ refCfg, b.get g = a.get g) : b.bestRef = a.bestRef := by
  simp only [refCfg, List.mem_cons, List.not_mem_nil, or_false, forall_eq_or_imp, forall_eq] at h
  obtain ⟨sel, xo, fac, rec, root, src, link, east, west⟩ := h
  have ok : b.refOk = a.refOk := by
    funext r
    unfold Mod.refOk
    split
    · exact Mod.is_congr xo
    · split
      · exact Mod.is_congr fac
      · exact Mod.is_congr rec
  have trained : b.srcTrained = a.srcTrained := by
    simp only [Mod.srcTrained, Mod.portUp, src, link, east, west]
  have order : b.refOrder = a.refOrder := by simp only [Mod.refOrder, Mod.is_congr root, trained, sel]
  rw [Mod.bestRef, Mod.bestRef, ok, order]

/-- It stays where none of those fields changes. -/
theorem Mod.bestRef_of_only {a b : Mod} {ps : List Part} {fs : List Fld} (h : a.only ps fs b) (hfs : refCfg.all (Fld.clear fs) = true) :
    b.bestRef = a.bestRef :=
  Mod.bestRef_congr fun g hg => Mod.only_get h g (Fld.apart_of_clear (List.all_eq_true.mp hfs g hg))

/-- The references are numbered 1 to 3. -/
theorem Mod.bestRef_lt (m : Mod) : m.bestRef < 4 := by
  have sel : m.get R.CLK_CFG_REF_SEL < 4 := m.get_lt _
  have listed : ∀ r ∈ m.refOrder, r < 4 := by
    intro r hr
    simp only [Mod.refOrder] at hr
    split_ifs at hr <;> simp at hr <;> omega
  unfold Mod.bestRef
  cases h : m.refOrder.find? m.refOk with
  | none => decide
  | some r => exact listed r (List.mem_of_find?_eq_some h)

/-- A switch takes the reference that applies, and sets SWITCH when that is another than before. -/
theorem Mod.chooseRef_shows (m : Mod) (src : Nat) :
    (m.chooseRef src).get R.CLK_STAT_REF_ACT = m.bestRef ∧
      (m.bestRef ≠ m.get R.CLK_STAT_REF_ACT → (m.chooseRef src).get R.CLK_EVT_SWITCH = 1) := by
  unfold Mod.chooseRef
  extract_lets b counted
  split
  next same => exact ⟨same.symm, fun h => absurd same h⟩
  next =>
    have hcounted : (m.put R.CLK_STAT_REF_ACT b).only [.flt] (cntFlds R.CLK_SW_CNT_COUNT.addr) counted :=
      Mod.bump_only _ R.CLK_SW_CNT_COUNT (by simp) fun _ h => h
    have shown : counted.get R.CLK_STAT_REF_ACT = b := by
      rw [Mod.only_get hcounted _ (Fld.apart_of_clear (by decide)), Mod.get_put_same _ _ _ (by decide)]
      exact Nat.mod_eq_of_lt m.bestRef_lt
    refine ⟨?_, fun _ => Mod.get_put_same _ _ 1 (by decide)⟩
    rw [Mod.get_put_ne _ _ _ _ (by decide), Mod.only_get (Mod.raiseLim_only counted tickS 3 0 2 src 0) _ (Fld.apart_of_clear (by decide)), shown]

theorem Mod.chooseRef_bestRef (m : Mod) (src : Nat) : (m.chooseRef src).bestRef = m.bestRef :=
  Mod.bestRef_of_only (m.chooseRef_only src) (by decide)

/-! ## The PLL locks (R248) -/

theorem Mod.pllUp_only (m : Mod) : m.only [.time] [R.CLK_STAT_PLL_LOCK, R.CLK_STAT_XO_OK, R.CLK_STAT_REF_ACT] m.pllUp :=
  Mod.only_trans (Mod.only_time m _ _ (by simp)) (Mod.only_trans (Mod.only_puts _ _ _ (by simp)) (Mod.only_put _ _ _ _ (by simp)))

/-- The divided clocks run, on the reference that applies. -/
theorem Mod.pllUp_shows (m : Mod) :
    m.pllUp.get R.CLK_STAT_PLL_LOCK = 1 ∧ m.pllUp.get R.CLK_STAT_XO_OK = 1 ∧ m.pllUp.time.xoFallback = false ∧
      m.pllUp.get R.CLK_STAT_REF_ACT = m.pllUp.bestRef := by
  unfold Mod.pllUp
  extract_lets time started locked
  have lock : locked.get R.CLK_STAT_PLL_LOCK = 1 := Mod.get_puts_head started 1 _ (by decide) (by simp [Fld.apart])
  have xo : locked.get R.CLK_STAT_XO_OK = 1 := Mod.get_put_same _ _ 1 (by decide)
  have kept : locked.time = started.time := started.puts_time _
  have best : (locked.put R.CLK_STAT_REF_ACT locked.bestRef).bestRef = locked.bestRef :=
    Mod.bestRef_of_only (Mod.only_put locked _ _ [] (List.mem_singleton_self _)) (by decide)
  refine ⟨(Mod.get_put_ne _ _ _ _ (by decide)).trans lock, (Mod.get_put_ne _ _ _ _ (by decide)).trans xo,
    congrArg TimeS.xoFallback kept, ?_⟩
  rw [best, Mod.get_put_same _ _ _ (by decide)]
  exact Nat.mod_eq_of_lt locked.bestRef_lt

/-! ## The PLL loses lock (R248) -/

/-- The clocks stop: the lock and the phase links show it, STO_HOLD stops. -/
def Mod.clocksStopped (m : Mod) : Mod :=
  ({ m with time.xoFallback := true, time.pllTick := m.time.ticks }.puts
    [(R.CLK_STAT_PLL_LOCK, 0), (R.CLK_EVT_PLL, 1), (R.PHS_LNK_STAT_UP, 0)]).stoStop

/-- A port that is up retrains, and what waited there turns back (R274, R286). -/
def Mod.portDropped (m : Mod) (p : Nat) : Mod := if m.portUp p then (m.setPst p 1).turnBack p else m

def Mod.portsDropped (m : Mod) : Mod := (List.range 7).foldl Mod.portDropped m

/-- The loss of lock: the clocks and the ports stop, the fault is raised, VALID follows. -/
theorem exec_pllLockLoss {s : State} (hon : s.on) (hlock : s.m.is R.CLK_STAT_PLL_LOCK = true) :
    exec .pllLockLoss s = .next { s with m :=
      (s.m.clocksStopped.portsDropped.raise 3 0 1 (s.m.clocksStopped.portsDropped.get R.CLK_STAT_REF_ACT) 2).syncValid } := by
  rw [show exec .pllLockLoss s = execPllLockLoss s from rfl, execPllLockLoss, onMod, if_neg hon, if_pos hlock]
  rfl

theorem Mod.clocksStopped_only (m : Mod) :
    m.only [.time, .pins] [R.CLK_STAT_PLL_LOCK, R.CLK_EVT_PLL, R.PHS_LNK_STAT_UP] m.clocksStopped :=
  Mod.only_trans (Mod.only_time m _ _ (by simp)) (Mod.only_trans (Mod.only_puts _ _ _ (by simp)) (Mod.only_pins _ _ _ (by simp)))

theorem Mod.clocksStopped_shows (m : Mod) :
    m.clocksStopped.get R.CLK_STAT_PLL_LOCK = 0 ∧ m.clocksStopped.get R.CLK_EVT_PLL = 1 ∧ m.clocksStopped.get R.PHS_LNK_STAT_UP = 0 ∧
      m.clocksStopped.time.xoFallback = true ∧ m.clocksStopped.pins.stoHold = false := by
  unfold Mod.clocksStopped
  generalize hf : ({ m with time.xoFallback := true, time.pllTick := m.time.ticks } : Mod) = fallback
  have lock := Mod.get_puts_head fallback (f := R.CLK_STAT_PLL_LOCK) 0 [(R.CLK_EVT_PLL, 1), (R.PHS_LNK_STAT_UP, 0)] (by decide) (by simp [Fld.apart])
  have event := Mod.get_puts_head (fallback.put R.CLK_STAT_PLL_LOCK 0) (f := R.CLK_EVT_PLL) 1 [(R.PHS_LNK_STAT_UP, 0)] (by decide) (by simp [Fld.apart])
  exact ⟨lock, event, Mod.get_put_same _ R.PHS_LNK_STAT_UP 0 (by decide), by subst hf; rfl, rfl⟩

/-! ## Ports that stop (R273, R274) -/

theorem Mod.setPort_only (m : Mod) (p : Nat) (f : Port → Port) : m.only [.lnk] [] (m.setPort p f) := Mod.only_lnk m _ _ (by simp)

theorem Mod.setPst_only (m : Mod) (p v : Nat) : m.only [.lnk] (portFlds p) (m.setPst p v) := by
  have failed (q : Mod) : q.only [.lnk] (portFlds p) (if v = 4 then q.setPort p (fun x => { x with failTick := q.time.ticks }) else q) := by
    split
    · exact Mod.only_mono (q.setPort_only p _) (fun _ h => h) (by simp)
    · exact Mod.only_refl q _ _
  exact Mod.only_trans (Mod.only_put m _ v _ (by simp [portFlds])) (Mod.only_trans (failed _) (Mod.only_puts _ _ _ (by simp [portFlds])))

theorem Mod.turnBack_only (m : Mod) (p : Nat) : m.only [.lnk] [] (m.turnBack p) := by
  unfold Mod.turnBack
  split
  · exact Mod.only_refl m _ _
  · exact Mod.only_trans (m.setPort_only p _) (Mod.setPort_only _ _ _)

theorem Mod.portDropped_only (m : Mod) (p : Nat) : m.only [.lnk] (portFlds p) (m.portDropped p) := by
  unfold Mod.portDropped
  split
  · exact Mod.only_trans (m.setPst_only p 1) (Mod.only_mono (Mod.turnBack_only _ p) (fun _ h => h) (by simp))
  · exact Mod.only_refl m _ _

/-- The fields that show the state of the seven ports. -/
def portsFlds : List Fld := (List.range 7).flatMap portFlds

theorem Mod.portsDropped_only (m : Mod) : m.only [.lnk] portsFlds m.portsDropped :=
  Mod.only_foldl _ _ (fun q p hp => Mod.only_mono (q.portDropped_only p) (fun _ h => h) fun _ hf => List.mem_flatMap.mpr ⟨p, hp, hf⟩) m

theorem Mod.portUp_congr {a b : Mod} {p : Nat} (h : b.get (R.LNK_PSTAT_STATE p) = a.get (R.LNK_PSTAT_STATE p)) : b.portUp p = a.portUp p := by
  rw [Mod.portUp, Mod.portUp, h]

/-- A port that stops is not up. -/
theorem Mod.portDropped_down (m : Mod) {p : Nat} (hp : p < 7) : (m.portDropped p).portUp p = false := by
  unfold Mod.portDropped
  split
  next =>
    have state : ((m.setPst p 1).turnBack p).get (R.LNK_PSTAT_STATE p) = 1 := by
      rw [Mod.only_get (Mod.turnBack_only _ p) _ (by simp)]
      refine Eq.trans (Mod.only_get (Mod.only_puts _ _ [] fun _ he => List.mem_map_of_mem he) _ ?_) (Mod.get_put_same m _ 1 (by simp))
      simp only [List.map_cons, List.map_nil]
      exact Fld.apart_of_range (lo := 0xD0A0) (hi := 0xD0C0) (by decide) (by simp) (by simp; omega)
    simp [Mod.portUp, state]
  next h => exact Bool.eq_false_iff.mpr h

/-- The stop of another port leaves a port's state. -/
theorem Mod.portDropped_ne (m : Mod) {p q : Nat} (hpq : q ≠ p) (hp : p < 7) : (m.portDropped q).portUp p = m.portUp p := by
  refine Mod.portUp_congr (Mod.only_get (m.portDropped_only q) _ ?_)
  simp only [portFlds, List.mem_cons, List.not_mem_nil, or_false, forall_eq_or_imp, forall_eq, Fld.apart]
  omega

theorem Mod.portsDropped_down (m : Mod) {p : Nat} (hp : p < 7) : m.portsDropped.portUp p = false :=
  foldl_range_at (P := fun _ : Mod => True) (Q := fun q : Mod => q.portUp p = false) hp (fun _ _ _ _ _ => trivial)
    (fun q _ => q.portDropped_down hp) (fun q _ _ hne hq => (q.portDropped_ne hne hp).trans hq) trivial

/-! ## The fatal lane beside reports of other classes (R330) -/

theorem Mod.enterReport_lane_of_cls {m : Mod} {r : Rep} (h : r.cls ≠ 2) : (m.enterReport r).flt.lane = m.flt.lane := by
  unfold Mod.enterReport
  simp only [if_neg h]
  repeat' split
  all_goals rfl

theorem Mod.pushReport_lane_of_cls {m : Mod} {r : Rep} (h : r.cls ≠ 2) : (m.pushReport r).flt.lane = m.flt.lane := by
  unfold Mod.pushReport
  split
  · refine Mod.countBy_keeps (P := fun q : Mod => q.flt.lane = m.flt.lane) _ _ (fun _ _ _ hq => hq) (fun _ _ hq => hq) (fun q x hx hq => ?_)
      (Mod.enterReport_lane_of_cls h)
    exact ((Mod.enterReport_lane_of_cls (by omega)).trans (Mod.reportLines_queues q x).1).trans hq
  · exact Mod.enterReport_lane_of_cls h

theorem Mod.report_lane_of_cls {m : Mod} {r : Rep} (h : r.cls ≠ 2) : (m.report r).flt.lane = m.flt.lane := by
  unfold Mod.report
  split
  · rfl
  · exact (Mod.pushReport_lane_of_cls h).trans (Mod.reportLines_queues m r).1

theorem Mod.bump_lane (m : Mod) (f : Fld) : (m.bump f).flt.lane = m.flt.lane :=
  Mod.countBy_keeps (P := fun q : Mod => q.flt.lane = m.flt.lane) _ _ (fun _ _ _ hq => hq) (fun _ _ hq => hq)
    (fun q x hx hq => ((Mod.pushReport_lane_of_cls (by omega)).trans (Mod.reportLines_queues q x).1).trans hq) rfl

/-! ## Time is not valid while the PLL is unlocked (R248, R251) -/

theorem Mod.timeOk_unlocked {m : Mod} (h : m.get R.CLK_STAT_PLL_LOCK = 0) : m.timeOk = false := by simp [Mod.timeOk, Mod.is, h]

/-- The fall of VALID: shown, counted, and the condition starts. -/
def Mod.validLost (m : Mod) : Mod := ((m.put R.TIM_STAT_VALID 0).bump R.TIM_LOSS_CNT_COUNT).put R.TIM_EVT_LOST 1

theorem Mod.syncValid_fall {m : Mod} (h : m.timeOk = false) (hv : m.timeValid = true) :
    m.syncValid = m.validLost.condStart 4 0 1 (m.validLost.get R.TIM_STAT_SRC) 1 := by
  simp [Mod.syncValid, h, hv, Mod.validLost]

theorem Mod.syncValid_same {m : Mod} (h : m.timeOk = m.timeValid) : m.syncValid = m := by simp [Mod.syncValid, h]

theorem Mod.validLost_valid (m : Mod) : m.validLost.get R.TIM_STAT_VALID = 0 := by
  rw [Mod.validLost, Mod.get_put_ne _ _ _ _ (by decide),
    Mod.only_get (Mod.bump_only _ R.TIM_LOSS_CNT_COUNT (ps := [.flt]) (by simp) fun _ h => h) _ (Fld.apart_of_clear (by decide))]
  exact Mod.get_put_same m _ 0 (by decide)

/-- What VALID's fall leaves: VALID is 0, and the fatal lane is as it was. -/
theorem Mod.syncValid_invalid {m : Mod} (h : m.timeOk = false) : m.syncValid.timeValid = false ∧ m.syncValid.flt.lane = m.flt.lane := by
  cases hv : m.timeValid with
  | false =>
    rw [Mod.syncValid_same (h.trans hv.symm)]
    exact ⟨hv, rfl⟩
  | true =>
    rw [Mod.syncValid_fall h hv]
    constructor
    · have kept := Mod.only_get (m.validLost.condStart_only 4 0 1 (m.validLost.get R.TIM_STAT_SRC) 1) R.TIM_STAT_VALID (Fld.apart_of_clear (by decide))
      simp [Mod.timeValid, Mod.is, kept, m.validLost_valid]
    · unfold Mod.condStart
      split
      · exact Mod.bump_lane _ _
      · exact (Mod.report_lane_of_cls (by simp)).trans (Mod.bump_lane _ _)

/-! ## The statement -/

/-- The PLL has lost lock: the clocks and the ports stop, the newest fatal report tells it, time is not valid. -/
theorem Does.lockLost {s : State} (hon : s.on) (hlock : s.m.is R.CLK_STAT_PLL_LOCK = true) (ht : s.m.takes 3 0) :
    Does .pllLockLoss s fun t => t.m.get R.CLK_STAT_PLL_LOCK = 0 ∧ t.m.get R.CLK_EVT_PLL = 1 ∧ t.m.time.xoFallback = true ∧
      t.m.pins.stoHold = false ∧ t.m.get R.PHS_LNK_STAT_UP = 0 ∧ (∀ p < 7, t.m.portUp p = false) ∧ t.m.timeValid = false ∧
      t.m.tells { blk := 3, inst := 0, kind := 1, addr := s.m.get R.CLK_STAT_REF_ACT, cls := 2 } ∧
      s.m.onlyParts [.pins, .time, .flt, .lnk] t.m := by
  refine ⟨_, exec_pllLockLoss hon hlock, ?_⟩
  obtain ⟨lock, event, links, fallback, sto⟩ := s.m.clocksStopped_shows
  have stopped := s.m.clocksStopped_only
  have dropped := s.m.clocksStopped.portsDropped_only
  have down (p : Nat) (hp : p < 7) := s.m.clocksStopped.portsDropped_down hp
  generalize hd : s.m.clocksStopped.portsDropped = d at dropped down
  have addr : d.get R.CLK_STAT_REF_ACT = s.m.get R.CLK_STAT_REF_ACT :=
    (Mod.only_get dropped _ (Fld.apart_of_clear (by decide))).trans (Mod.only_get stopped _ (Fld.apart_of_clear (by decide)))
  have takes : d.takes 3 0 :=
    Mod.takes_of_flt ((dropped.1 .flt (by simp)).trans (stopped.1 .flt (by simp)))
      ((Mod.only_get dropped _ (Fld.apart_of_clear (by decide))).trans (Mod.only_get stopped _ (Fld.apart_of_clear (by decide)))) ht
  have told := Mod.raise_tells 3 0 1 (d.get R.CLK_STAT_REF_ACT) 2 takes
  have raised : d.only [.flt] (repFlds 3) (d.raise 3 0 1 (d.get R.CLK_STAT_REF_ACT) 2) := Mod.only_raise d 3 0 1 _ 2 (by simp) fun _ h => h
  generalize d.raise 3 0 1 (d.get R.CLK_STAT_REF_ACT) 2 = r at told raised
  have synced := r.syncValid_only
  have kept (g : Fld) (hd : Fld.clear portsFlds g = true) (hr : Fld.clear (repFlds 3) g = true) (hv : Fld.clear validFlds g = true) :
      r.syncValid.get g = s.m.clocksStopped.get g :=
    (Mod.only_get synced g (Fld.apart_of_clear hv)).trans
      ((Mod.only_get raised g (Fld.apart_of_clear hr)).trans (Mod.only_get dropped g (Fld.apart_of_clear hd)))
  have parts : s.m.clocksStopped.onlyParts [.flt, .lnk] r.syncValid :=
    Mod.onlyParts_trans (Mod.onlyParts_mono dropped.1 (by simp)) (Mod.onlyParts_trans (Mod.onlyParts_mono raised.1 (by simp))
      (Mod.onlyParts_mono synced.1 (by simp)))
  have before : r.get R.CLK_STAT_PLL_LOCK = 0 :=
    (Mod.only_get raised _ (Fld.apart_of_clear (by decide))).trans ((Mod.only_get dropped _ (Fld.apart_of_clear (by decide))).trans lock)
  obtain ⟨invalid, lane⟩ := Mod.syncValid_invalid (Mod.timeOk_unlocked before)
  refine ⟨(kept _ (by decide) (by decide) (by decide)).trans lock, (kept _ (by decide) (by decide) (by decide)).trans event, ?_, ?_,
    (kept _ (by decide) (by decide) (by decide)).trans links, fun p hp => ?_, invalid, ?_, ?_⟩
  · exact (congrArg TimeS.xoFallback (parts .time (by simp))).trans fallback
  · exact (congrArg Pins.stoHold (parts .pins (by simp))).trans sto
  · refine (Mod.portUp_congr ((Mod.only_get synced _ ?_).trans (Mod.only_get raised _ ?_))).trans (down p hp)
    all_goals exact Fld.apart_of_range 0xD0A0 0xD0C0 (by decide) (by simp) (by simp only; omega)
  · rw [addr] at told
    exact (congrArg List.getLast? lane).trans told
  · exact Mod.onlyParts_trans (Mod.onlyParts_mono stopped.1 (by simp)) (Mod.onlyParts_mono parts (by simp))

/-- Below its end a counter changes its word alone (R456). -/
theorem Mod.bump_below (m : Mod) (f : Fld) (h : (m.word f.addr).toNat < 2 ^ 32 - 1) : m.only [] [⟨f.addr, 0, 32⟩] (m.bump f) := by
  have sum : m.bump f = m.setWord f.addr _ := Mod.word_bumpBy m f.addr 1 (by omega)
  rw [sum]
  exact Mod.only_setWord m _ _ _ List.mem_cons_self

/-- A retry after its second: the PLL locks, or the failed attempt counts. -/
theorem exec_pllRelockRetry {s : State} (locked : Bool) (hon : s.on) (hlock : s.m.is R.CLK_STAT_PLL_LOCK = false)
    (hdue : s.m.time.pllTick + tickS ≤ s.m.time.ticks) :
    exec (.pllRelockRetry locked) s = .next { s with m :=
      if locked then s.m.pllUp else { s.m with time.pllTick := s.m.time.ticks }.bump R.CLK_SW_CNT_COUNT } := by
  rw [show exec (.pllRelockRetry locked) s = execPllRelockRetry locked s from rfl, execPllRelockRetry, onMod, if_neg hon,
    if_neg (by simp [hlock, hdue])]

theorem Does.relockFailed {s : State} (hon : s.on) (hlock : s.m.is R.CLK_STAT_PLL_LOCK = false)
    (hdue : s.m.time.pllTick + tickS ≤ s.m.time.ticks) :
    Does (.pllRelockRetry false) s fun t => t.m.time.pllTick = s.m.time.ticks ∧
      (t.m.word R.CLK_SW_CNT_COUNT.addr).toNat = min ((s.m.word R.CLK_SW_CNT_COUNT.addr).toNat + 1) (2 ^ 32 - 1) ∧
        ((s.m.word R.CLK_SW_CNT_COUNT.addr).toNat < 2 ^ 32 - 1 → s.frame [.time] [R.CLK_SW_CNT_COUNT] t) := by
  refine ⟨_, exec_pllRelockRetry false hon hlock hdue, ?_⟩
  have timed : s.m.only [.time] [R.CLK_SW_CNT_COUNT] { s.m with time.pllTick := s.m.time.ticks } := Mod.only_time _ _ _ (by simp)
  have counted := Mod.bump_only { s.m with time.pllTick := s.m.time.ticks } R.CLK_SW_CNT_COUNT (ps := [.flt]) (by simp) fun _ h => h
  refine ⟨congrArg TimeS.pllTick (counted.1 .time (by simp)), Mod.word_bump_min _ R.CLK_SW_CNT_COUNT (Fld.apart_of_clear (by decide)), fun hlt => ?_⟩
  exact State.frame_of_only (Mod.only_trans timed (Mod.only_mono (Mod.bump_below _ R.CLK_SW_CNT_COUNT hlt) (by simp) (fun _ h => h)))

/-! ## A reference is lost or comes back (R247) -/

/-- The good-bit of a source takes a value, and the reference that applies is chosen. -/
def Mod.refJudged (m : Mod) (src : Fin 3) (v : Nat) : Mod := (m.put (refFld src) v).chooseRef (src.val + 1)

theorem refFld_mem (src : Fin 3) : refFld src ∈ [R.CLK_STAT_XO_OK, R.CLK_STAT_FAC_OK, R.CLK_STAT_REC_OK] := by
  revert src
  decide

theorem refFld_place (src : Fin 3) : (refFld src).lo + (refFld src).w ≤ 32 ∧ (refFld src).w = 1 := by
  revert src
  decide

theorem refFld_clear {fs : List Fld} (h : [R.CLK_STAT_XO_OK, R.CLK_STAT_FAC_OK, R.CLK_STAT_REC_OK].all (Fld.clear fs) = true) (src : Fin 3) :
    ∀ f ∈ fs, f.apart (refFld src) := Fld.apart_of_clear (List.all_eq_true.mp h _ (refFld_mem src))

theorem refFld_apart {g : Fld} (h : Fld.clear [R.CLK_STAT_XO_OK, R.CLK_STAT_FAC_OK, R.CLK_STAT_REC_OK] g = true) (src : Fin 3) :
    (refFld src).apart g := Fld.apart_of_clear h _ (refFld_mem src)

theorem Mod.refJudged_shows (m : Mod) (src : Fin 3) (v : Nat) :
    (m.refJudged src v).get (refFld src) = v % 2 ∧ (m.refJudged src v).get R.CLK_STAT_REF_ACT = (m.refJudged src v).bestRef ∧
      ((m.refJudged src v).get R.CLK_STAT_REF_ACT ≠ m.get R.CLK_STAT_REF_ACT → (m.refJudged src v).get R.CLK_EVT_SWITCH = 1) ∧
      m.onlyParts [.flt] (m.refJudged src v) := by
  obtain ⟨act, switch⟩ := (m.put (refFld src) v).chooseRef_shows (src.val + 1)
  have chosen := (m.put (refFld src) v).chooseRef_only (src.val + 1)
  have before : (m.put (refFld src) v).get R.CLK_STAT_REF_ACT = m.get R.CLK_STAT_REF_ACT :=
    Mod.get_put_ne _ _ _ _ (refFld_apart (by decide) src)
  have good : (m.put (refFld src) v).get (refFld src) = v % 2 := by
    rw [Mod.get_put_same _ _ _ (refFld_place src).1, (refFld_place src).2, Nat.pow_one]
  refine ⟨(Mod.only_get chosen _ (refFld_clear (by decide) src)).trans good, act.trans (Mod.chooseRef_bestRef _ _).symm, fun h => ?_,
    Mod.onlyParts_trans (Mod.onlyParts_put m _ v _) chosen.1⟩
  exact switch (by rw [before, ← act]; exact h)

/-- The operand's coding of the good-bits, as the commands write it. -/
theorem refFld_eq (src : Fin 3) :
    (if src.val + 1 = 1 then R.CLK_STAT_XO_OK else if src.val + 1 = 2 then R.CLK_STAT_FAC_OK else R.CLK_STAT_REC_OK) = refFld src := by
  revert src
  decide

/-- HOLDOVER of a root that has lost FAC and its 1 PPS (R258). -/
def Mod.refGone (m : Mod) (src : Fin 3) : Mod :=
  if src.val + 1 = 2 && m.is R.TIM_STAT_ROOT && !m.pins.ppsGood then m.enterHoldover else m

theorem exec_refLost {s : State} (src : Fin 3) (hon : s.on) :
    exec (.refLost src) s = .next { s with m := (s.m.refJudged src 0).refGone src } := by
  rw [show exec (.refLost src) s = execRefLost src s from rfl, execRefLost, onMod, if_neg hon]
  simp only [refFld_eq]
  rfl

theorem exec_refRestore {s : State} {src : Fin 3} (hon : s.on) (hcap : src.val = 1 → s.m.is R.MOD_STRAP_ROOT_CAP = true) :
    exec (.refRestore src) s = .next { s with m := s.m.refJudged src 1 } := by
  have present : (decide (src.val + 1 = 2) && !s.m.is R.MOD_STRAP_ROOT_CAP) = false := by
    by_cases h : src.val = 1
    · simp [hcap h]
    · simp [h]
  rw [show exec (.refRestore src) s = execRefRestore src s from rfl, execRefRestore, onMod, if_neg hon]
  simp only [refFld_eq, present]
  rfl

/-! ## HOLDOVER is entered (R253, R255) -/

/-- The fields that the entry to HOLDOVER writes. -/
def holdoverFlds : List Fld :=
  [R.TIM_STAT_STATE, R.TIM_EVT_HOLD, R.TIM_HOLD_AGE, R.TIM_HOLD_ERR_EST] ++ cntFlds R.TIM_HOLD_CNT_COUNT.addr ++ repFlds 4 ++ validFlds

/-- The entry is shown, counted and reported. -/
def Mod.holdoverTold (m : Mod) : Mod :=
  let shown := m.puts [(R.TIM_STAT_STATE, 3), (R.TIM_EVT_HOLD, 1)]
  (shown.bump R.TIM_HOLD_CNT_COUNT).condStartLim (raiseKey 4 0 2) 4 0 2 (shown.get R.TIM_STAT_SRC)

theorem Mod.holdoverTold_only (m : Mod) : m.only [.flt] holdoverFlds m.holdoverTold := by
  unfold Mod.holdoverTold
  extract_lets shown
  have counted : m.only [.flt] holdoverFlds (shown.bump R.TIM_HOLD_CNT_COUNT) :=
    Mod.only_trans (Mod.only_puts m _ _ (by simp [holdoverFlds]))
      (Mod.bump_only _ R.TIM_HOLD_CNT_COUNT (by simp) fun _ h => by simp [holdoverFlds, h])
  exact Mod.only_trans counted (Mod.condStartLim_frame _ _ 4 0 2 _ fun _ h => by simp [holdoverFlds, h]).symm

/-- The offsets measured so far, and a step that waits, are dropped. -/
def Mod.offsetsDropped (m : Mod) : Mod := { m with time.offs := [], time.stepDue := none }

/-- The holdover starts at 0. -/
def Mod.holdStarted (m : Mod) : Mod := { m with time.holdUs := 0 }

/-- LOCKED goes to HOLDOVER, ACQUIRE to FREE. -/
theorem Mod.enterHoldover_eq (m : Mod) : m.enterHoldover =
    if m.get R.TIM_STAT_STATE = 2 then m.offsetsDropped.holdStarted.holdoverTold.showHold.syncValid
    else if m.get R.TIM_STAT_STATE = 1 then m.offsetsDropped.put R.TIM_STAT_STATE 0
    else m.offsetsDropped := rfl

theorem Mod.enterHoldover_only (m : Mod) : m.only [.time, .flt] holdoverFlds m.enterHoldover := by
  have dropped : m.only [.time, .flt] holdoverFlds m.offsetsDropped := Mod.only_time m _ _ (by simp)
  rw [Mod.enterHoldover_eq]
  split_ifs
  · have told : m.offsetsDropped.holdStarted.only [.time, .flt] holdoverFlds m.offsetsDropped.holdStarted.holdoverTold :=
      Mod.only_mono (Mod.holdoverTold_only _) (by simp) fun _ h => h
    exact Mod.only_trans dropped (Mod.only_trans (Mod.only_time _ _ _ (by simp)) (Mod.only_trans told (Mod.only_trans
      (Mod.only_puts _ _ _ (by simp [holdoverFlds])) (Mod.only_mono (Mod.syncValid_only _) (by simp) fun _ h => by simp [holdoverFlds, h]))))
  · exact Mod.only_trans dropped (Mod.only_put _ _ _ _ (by simp [holdoverFlds]))
  · exact dropped

theorem Mod.refGone_only (m : Mod) (src : Fin 3) : m.only [.time, .flt] holdoverFlds (m.refGone src) := by
  unfold Mod.refGone
  split
  · exact m.enterHoldover_only
  · exact Mod.only_refl m _ _

/-- A lost source: its good-bit clears, the next reference applies, and a root without facility inputs enters HOLDOVER. -/
theorem Does.refLost {s : State} (src : Fin 3) (hon : s.on) :
    Does (.refLost src) s fun t => t.m.get (refFld src) = 0 ∧ t.m.get R.CLK_STAT_REF_ACT = t.m.bestRef ∧
      (t.m.get R.CLK_STAT_REF_ACT ≠ s.m.get R.CLK_STAT_REF_ACT → t.m.get R.CLK_EVT_SWITCH = 1) ∧ s.m.onlyParts [.time, .flt] t.m := by
  refine ⟨_, exec_refLost src hon, ?_⟩
  obtain ⟨good, act, switch, parts⟩ := s.m.refJudged_shows src 0
  generalize s.m.refJudged src 0 = j at good act switch parts
  have gone := j.refGone_only src
  have same : (j.refGone src).get R.CLK_STAT_REF_ACT = j.get R.CLK_STAT_REF_ACT := Mod.only_get gone _ (Fld.apart_of_clear (by decide))
  refine ⟨(Mod.only_get gone _ (refFld_clear (by decide) src)).trans good, ?_, fun h => ?_,
    Mod.onlyParts_trans (Mod.onlyParts_mono parts (by simp)) gone.1⟩
  · exact same.trans (act.trans (Mod.bestRef_of_only gone (by decide)).symm)
  · exact (Mod.only_get gone _ (Fld.apart_of_clear (by decide))).trans (switch (by rwa [same] at h))

/-- Settles O29: the PLL's lock, its loss and its retries, and a reference that is lost or restored. -/
theorem references : Obligations.References := by
  unfold Obligations.References
  refine ⟨fun s hon hlock => ?_, fun s hon hlock ht => Does.lockLost hon hlock ht, fun s hon hlock hdue => ⟨?_, Does.relockFailed hon hlock hdue⟩,
    fun s src hon => Does.refLost src hon, fun s src hon hcap => ⟨_, exec_refRestore hon hcap, s.m.refJudged_shows src 1⟩⟩
  · obtain ⟨lock, xo, fallback, act⟩ := s.m.pllUp_shows
    exact Does.ofMod (f := fun m => if m.is R.CLK_STAT_PLL_LOCK then m else m.pllUp) rfl hon
      (by rw [if_neg (by simp [hlock])]; exact ⟨lock, xo, fallback, act, State.frame_of_only s.m.pllUp_only⟩)
  · obtain ⟨lock, -, fallback, -⟩ := s.m.pllUp_shows
    exact ⟨_, exec_pllRelockRetry true hon hlock hdue, lock, fallback⟩

end Sys2Proof.Machine
end

section
/-!
PROOFS. A beacon whose offset lies beyond STEP_MAX, taken in RUN (R254), which refutes the statement BeaconsAndHoldover.
-/
namespace Sys2Proof.Machine

/-- A member in RUN follows the lead at position 3 by its east ring port, in LOCKED; STEP_MAX has its reset value, 1,000 µs. -/
def lockedInRun : State :=
  { m := { ({} : Mod).puts [(R.MGT_PSTATE_STATE, 3), (R.LNK_PSTAT_STATE 0, 2), (R.MOD_ROLE_STAT_LEAD_POS, 3), (R.TIM_STAT_STATE, 2)] with
      time.curPort := 0 } }

/-- An offset one tick above STEP_MAX is not slewed: the module goes to ACQUIRE. -/
theorem lockedInRun_far : ∃ t, exec (.beaconReceive 0 12800001 true false 0 0 0 false) lockedInRun = .next t ∧ t.m.get R.TIM_STAT_STATE = 1 :=
  ⟨_, rfl, by decide +kernel⟩

/-- Refutes O30: its second part says that a locked module stays LOCKED whatever offset its source's beacon shows. In RUN an offset above STEP_MAX
is not slewed, and the module goes to ACQUIRE (R254); no premise excludes RUN or bounds the offset. -/
theorem not_beaconsAndHoldover : ¬ Obligations.BeaconsAndHoldover := by
  unfold Obligations.BeaconsAndHoldover
  rintro ⟨-, taken, -⟩
  obtain ⟨t, ht, -, locked, -⟩ := taken lockedInRun 0 12800001 true 0 0 0 (by decide) (by decide) (by decide) (by decide) (by decide)
    (by decide) (by decide) (by decide)
  obtain ⟨u, hu, acquire⟩ := lockedInRun_far
  obtain rfl := Host.Outcome.next.inj (hu.symm.trans ht)
  exact absurd (acquire.symm.trans locked) (by decide)

end Sys2Proof.Machine
end

section
/-!
PROOFS. Stakes (R261 to R267): the bytes of a record, a record put in its place, a stake that expires, the messages of barriers.
-/
namespace Sys2Proof.Machine

/-! ## The bytes of a record (Table 08-5) -/

theorem length_pad (n : Nat) (b : List Nat) : (pad n b).length = n := by simp [pad, zeros]

theorem getD_pad (n : Nat) (b : List Nat) {i : Nat} (h : i < n) : (pad n b).getD i 0 = b.getD i 0 := by
  simp only [pad, zeros, List.getD_eq_getElem?_getD, List.getElem?_take, if_pos h, List.getElem?_append, List.getElem?_replicate]
  split
  · rfl
  next hlen => rw [List.getElem?_eq_none (by omega)]; split <;> rfl

/-- A byte that replaced one reads back. -/
theorem getD_setBytes (r b : List Nat) (o : Nat) {i : Nat} (h : i < b.length) : (setBytes r o b).getD (o + i) 0 = b.getD i 0 := by
  simp only [setBytes, List.append_assoc, List.getD_eq_getElem?_getD]
  rw [List.getElem?_append_right (by rw [length_pad]; omega), length_pad, Nat.add_sub_cancel_left, List.getElem?_append_left h]

/-- Every other byte stays. -/
theorem getD_setBytes_ne (r b : List Nat) (o : Nat) {i : Nat} (h : i < o ∨ o + b.length ≤ i) : (setBytes r o b).getD i 0 = r.getD i 0 := by
  simp only [setBytes, List.append_assoc]
  rcases h with h | h
  · rw [← getD_pad o r h, List.getD_append _ _ _ _ (by rw [length_pad]; exact h)]
  · rw [List.getD_append_right _ _ _ _ (by rw [length_pad]; omega), length_pad, List.getD_append_right _ _ _ _ (by omega),
      List.getD_eq_getElem?_getD, List.getElem?_drop, List.getD_eq_getElem?_getD]
    congr 2
    omega

/-- A number is read from its own bytes alone. -/
theorem le_congr {a b : List Nat} {o p n : Nat} (h : ∀ i < n, a.getD (o + i) 0 = b.getD (p + i) 0) : le a o n = le b p n := by
  induction n generalizing o p with
  | zero => rfl
  | succ n ih =>
    have first := h 0 (Nat.succ_pos n)
    have rest : le a (o + 1) n = le b (p + 1) n := ih fun i hi => by
      have := h (i + 1) (by omega)
      rwa [Nat.add_comm i 1, ← Nat.add_assoc, ← Nat.add_assoc] at this
    simp only [Nat.add_zero] at first
    simp only [le, first, rest]

theorem le_lt (b : List Nat) (o n : Nat) : le b o n < 256 ^ n := by
  induction n generalizing o with
  | zero => exact Nat.one_pos
  | succ n ih =>
    have := ih (o + 1)
    rw [le, Nat.pow_succ]
    omega

theorem le_leBytes (n v : Nat) (l : List Nat) (o : Nat) (h : ∀ i < n, l.getD (o + i) 0 = (leBytes n v).getD i 0) : le l o n = v % 256 ^ n := by
  induction n generalizing v o with
  | zero => rw [Nat.pow_zero, Nat.mod_one]; rfl
  | succ n ih =>
    have first : l.getD o 0 = v % 256 := h 0 (Nat.succ_pos n)
    have rest : le l (o + 1) n = v / 256 % 256 ^ n := ih _ _ fun i hi => by
      have := h (i + 1) (by omega)
      rwa [Nat.add_comm i 1, ← Nat.add_assoc, Nat.add_comm 1 i] at this
    rw [le, first, rest, Nat.pow_succ, Nat.mul_comm (256 ^ n) 256, Nat.mod_mul, Nat.mod_mod]

/-- A number written into a record reads back, to its width. -/
theorem le_setBytes (r : List Nat) (o n v : Nat) : le (setBytes r o (leBytes n v)) o n = v % 256 ^ n :=
  le_leBytes n v _ o fun i hi => getD_setBytes r (leBytes n v) o (by rwa [length_leBytes])

theorem le_setBytes_ne (r b : List Nat) (o p n : Nat) (h : p + n ≤ o ∨ o + b.length ≤ p) : le (setBytes r o b) p n = le r p n :=
  le_congr fun _ _ => getD_setBytes_ne r b o (by omega)

/-- The state byte written gives the state, and leaves what a barrier judges by. -/
theorem stState_setBytes (r : List Nat) (x : Nat) : stState (setBytes r 2 [x]) = x % 8 :=
  congrArg (· % 8) (getD_setBytes r [x] 2 (i := 0) Nat.one_pos)

/-- Bytes from the fourth on leave MODE, ACTION, STATE and SCOPE. -/
theorem getD_setBytes_head (r b : List Nat) {o i : Nat} (h : i < o) : (setBytes r o b).getD i 0 = r.getD i 0 := getD_setBytes_ne r b o (.inl h)

/-! ## A record in its place -/

theorem Mod.only_stk (m : Mod) (x : StkS) {ps : List Part} (fs : List Fld) (hp : Part.stk ∈ ps) :
    m.only ps fs { m with stk := x } := Mod.only_of_part .stk hp rfl (by rintro ⟨⟩ h <;> trivial)

theorem Mod.setStake_only (m : Mod) (n : Nat) (r : List Nat) : m.only [.stk] [R.STK_STAT_ARMED] (m.setStake n r) :=
  Mod.only_trans (Mod.only_stk m _ _ (by simp)) (Mod.only_put _ _ _ _ (by simp))

theorem Mod.setStState_only (m : Mod) (n st : Nat) (supp late : Bool) : m.only [.stk] [R.STK_STAT_ARMED] (m.setStState n st supp late) :=
  m.setStake_only n _

theorem Mod.stake_setStState (m : Mod) (n st : Nat) (supp late : Bool) (k : Nat) :
    (m.setStState n st supp late).stake k = if n = k then setBytes (m.stake n) 2 [stateByte st supp late] else m.stake k :=
  m.stake_setStake n k _

/-- A stake given a state has it. -/
theorem Mod.setStState_state (m : Mod) (n : Nat) {st : Nat} (supp late : Bool) (h : st < 8) :
    stState ((m.setStState n st supp late).stake n) = st := by
  rw [Mod.stake_setStState, if_pos rfl, stState_setBytes, stateByte]
  omega

theorem Mod.setStState_ne (m : Mod) {n k : Nat} (st : Nat) (supp late : Bool) (h : n ≠ k) :
    (m.setStState n st supp late).stake k = m.stake k := by rw [Mod.stake_setStState, if_neg h]

theorem Mod.stake_congr {a b : Mod} (h : b.stk = a.stk) (k : Nat) : b.stake k = a.stake k := by rw [Mod.stake, Mod.stake, h]

/-- A number that has a record other than the default is listed. -/
theorem Sparse.mem_keys {α : Type} (d : Nat → α) {m : Sparse α} {k : Nat} (h : Sparse.get d m k ≠ d k) : k ∈ m.map Prod.fst := by
  induction m with
  | nil => exact absurd rfl h
  | cons e m ih =>
    obtain ⟨a, v⟩ := e
    by_cases hk : a = k
    · exact List.mem_cons.mpr (.inl hk.symm)
    · rw [Sparse.get, if_neg hk] at h
      exact List.mem_cons_of_mem _ (ih h)

/-- An armed stake is listed. -/
theorem Mod.mem_recs {m : Mod} {n : Nat} (h : stState (m.stake n) = 1) : n ∈ m.stk.recs.map Prod.fst := by
  refine Sparse.mem_keys stakeDflt fun dflt => ?_
  rw [Mod.stake, dflt] at h
  exact absurd (show stState (zeros 32) = 1 from h) (by decide)

/-! ## A stake expires (R264) -/

/-- The fields that an expiry writes. -/
def expireFlds : List Fld := R.STK_STAT_ARMED :: R.STK_EVT_EXPIRE :: (cntFlds R.STK_EXP_CNT_COUNT.addr ++ repFlds 5)

theorem Mod.expireTold_only (m : Mod) (n : Nat) : m.only [.flt] expireFlds
    (((m.bump R.STK_EXP_CNT_COUNT).put R.STK_EVT_EXPIRE 1).raiseLim tickS 5 0 1 n 0) :=
  Mod.only_trans (Mod.bump_only m R.STK_EXP_CNT_COUNT (by simp) fun _ h => by simp [expireFlds, h])
    (Mod.only_trans (Mod.only_put _ _ 1 _ (by simp [expireFlds]))
      (Mod.only_mono (Mod.raiseLim_only _ tickS 5 0 1 n 0) (fun _ h => h) fun _ h => by simp [expireFlds, h]))

theorem Mod.expireStake_only (m : Mod) (n : Nat) : m.only [.stk, .flt] expireFlds (m.expireStake n) :=
  Mod.only_trans (Mod.only_mono (m.setStState_only n 3 false false) (by simp) (by simp [expireFlds]))
    (Mod.only_mono (Mod.expireTold_only _ n) (by simp) fun _ h => h)

/-- The stake is EXPIRED, the expiry counted and shown; every other stake stays. -/
theorem Mod.expireStake_shows (m : Mod) (n : Nat) :
    stState ((m.expireStake n).stake n) = 3 ∧ (∀ k, n ≠ k → (m.expireStake n).stake k = m.stake k) ∧
      (m.expireStake n).get R.STK_EVT_EXPIRE = 1 ∧
      ((m.expireStake n).word R.STK_EXP_CNT_COUNT.addr).toNat = min ((m.word R.STK_EXP_CNT_COUNT.addr).toNat + 1) (2 ^ 32 - 1) := by
  have stk : (m.expireStake n).stk = (m.setStState n 3).stk := (Mod.expireTold_only (m.setStState n 3) n).1 .stk (by simp)
  have told := Mod.raiseLim_only (((m.setStState n 3).bump R.STK_EXP_CNT_COUNT).put R.STK_EVT_EXPIRE 1) tickS 5 0 1 n 0
  refine ⟨?_, fun k hk => ?_, ?_, ?_⟩
  · rw [Mod.stake_congr stk]
    exact m.setStState_state n false false (by decide)
  · rw [Mod.stake_congr stk]
    exact m.setStState_ne 3 false false hk
  · exact (Mod.only_get told _ (Fld.apart_of_clear (by decide))).trans (Mod.get_put_same _ _ 1 (by decide))
  · have counted := Mod.word_bump_min (m.setStState n 3) R.STK_EXP_CNT_COUNT (Fld.apart_of_clear (by decide))
    have before : (m.setStState n 3).word R.STK_EXP_CNT_COUNT.addr = m.word R.STK_EXP_CNT_COUNT.addr :=
      Mod.only_word (m.setStState_only n 3 false false) _ (Fld.apart_of_clear (by decide))
    rw [Mod.expireStake, Mod.only_word told _ (Fld.apart_of_clear (by decide)), Mod.word_put_ne _ _ _ (by decide), counted, before]

/-! ## Messages of barriers (R266) -/

theorem Mod.sendChildren_only (m : Mod) (g : Msg) : m.only [.lnk] [] (m.sendChildren g) := by
  refine Mod.only_foldl _ _ (fun q l _ => ?_) m
  split
  · exact q.sendLink_only l g
  · exact Mod.only_refl q _ _

/-- A fleet broadcast changes the links only (R284). -/
theorem Mod.sendFleet_only (m : Mod) (c : Nat) (body : List Nat) : m.only [.lnk] [] (m.sendFleet c body) := by
  have numbered := m.nextMseq_only c
  unfold Mod.sendFleet
  simp only
  split_ifs
  · exact Mod.only_trans numbered (Mod.only_trans (Mod.sendChildren_only _ _) (Mod.putRing_frame _ _ [] (by simp)))
  · exact Mod.only_trans numbered (Mod.sendLink_only _ _ _)
  · exact numbered
  · exact Mod.only_trans numbered (Mod.ringUnicast_frame _ _ _ [] (by simp))

/-- The RELEASE of a home changes the links only. -/
theorem Mod.sendRelease_only (m : Mod) (n : Nat) (cancel : Bool) (trel : Nat) : m.only [.lnk] [] (m.sendRelease n cancel trel) := by
  unfold Mod.sendRelease
  simp only
  split_ifs
  · exact Mod.sendRing_frame m 3 _ [] (by simp)
  · exact m.sendFleet_only 3 _
  · exact Mod.only_refl m _ _

end Sys2Proof.Machine
end

section
/-!
PROOFS. Facility time (R250, R258, R259, R459) and the take-over by a standby root (R260): the statement FacilityTimeAndRoots.
-/
namespace Sys2Proof.Machine

/-! ## TIM_TOD (R250) -/

theorem exec_timTodWrite {s : State} {hi : Word} (hw : s.m.wrStatus 0x405C hi.toNat = 0) (hon : s.on) :
    exec (.timTodWrite hi) s = .next { s with m := { s.m with resp := 0 }.todCommit hi } := by
  rw [show exec (.timTodWrite hi) s = execTimTodWrite hi s from rfl, execTimTodWrite, onMod, if_neg hon, Mod.guardedR_ok _ hw]

/-- The seconds written wait for the next 1 PPS edge. -/
theorem Does.todTaken {s : State} {hi : Word} (hw : s.m.wrStatus 0x405C hi.toNat = 0) (hon : s.on)
    (hopen : (s.m.is R.TIM_STAT_ROOT && s.m.get R.TIM_STAT_STATE == 2) = false) :
    Does (.timTodWrite hi) s fun t => t.m.time.todPending = some (s.m.get R.TIM_TOD_LO_SEC + hi.toNat * 2 ^ 32) ∧ t.m.resp = 0 ∧
      t.m.get R.TIM_TOD_HI_SEC = hi.toNat ∧ s.frame [.time, .resp] [R.TIM_TOD_HI_SEC] t := by
  refine ⟨_, exec_timTodWrite hw hon, ?_⟩
  have taken : { s.m with resp := 0 }.todCommit hi = { { s.m with resp := 0 }.put R.TIM_TOD_HI_SEC hi.toNat with
      time.todPending := some (s.m.get R.TIM_TOD_LO_SEC + hi.toNat * 2 ^ 32) } := if_neg (by rw [Bool.not_eq_true]; exact hopen)
  rw [taken]
  refine ⟨rfl, rfl, ?_, State.frame_of_only ?_⟩
  · exact (Mod.get_put_same { s.m with resp := 0 } R.TIM_TOD_HI_SEC hi.toNat (by decide)).trans (Nat.mod_eq_of_lt hi.isLt)
  · exact Mod.only_trans (Mod.only_resp s.m 0 _ (by simp)) (Mod.only_trans (Mod.only_put _ _ _ _ (by simp)) (Mod.only_time _ _ _ (by simp)))

/-- A locked root takes none. -/
theorem Does.todRefused {s : State} {hi : Word} (hw : s.m.wrStatus 0x405C hi.toNat = 0) (hon : s.on) (hroot : s.m.is R.TIM_STAT_ROOT = true)
    (hlocked : s.m.get R.TIM_STAT_STATE = 2) :
    Does (.timTodWrite hi) s fun t => t.m.resp = 1 ∧ t.m.get R.TIM_EVT_TOD_REF = 1 ∧ s.frame [.resp] [R.TIM_EVT_TOD_REF] t := by
  refine ⟨_, exec_timTodWrite hw hon, ?_⟩
  have locked : { s.m with resp := 0 }.todLocked = true := by
    change (s.m.is R.TIM_STAT_ROOT && s.m.get R.TIM_STAT_STATE == 2) = true
    rw [hroot, hlocked]
    rfl
  have refused : { s.m with resp := 0 }.todCommit hi = ({ s.m with resp := 0 }.put R.TIM_EVT_TOD_REF 1).refuse := if_pos locked
  rw [refused]
  refine ⟨rfl, Mod.get_put_same { s.m with resp := 0 } R.TIM_EVT_TOD_REF 1 (by decide), State.frame_of_only ?_⟩
  exact Mod.only_trans (Mod.only_resp s.m 0 _ (by simp)) (Mod.only_trans (Mod.only_put _ _ _ _ (by simp)) (Mod.refuse_frame _ _ (by simp)))

/-! ## LOCKED is entered (R252) -/

/-- The fields that the entry to LOCKED writes. -/
def lockFlds : List Fld := [R.TIM_STAT_STATE, R.TIM_HOLD_AGE, R.TIM_HOLD_ERR_EST] ++ repFlds 4 ++ validFlds

/-- What a module in HOLDOVER or ACQUIRE keeps is dropped. -/
def Mod.lockStarted (m : Mod) : Mod := { m with time.everLocked := true, time.far := false, time.stepDue := none, time.holdUs := 0 }

/-- The lock is shown. -/
def Mod.lockShown (m : Mod) : Mod := m.puts [(R.TIM_STAT_STATE, 2), (R.TIM_HOLD_AGE, 0), (R.TIM_HOLD_ERR_EST, 0)]

/-- The conditions of HOLDOVER and TIME_FAR end, VALID follows. -/
def Mod.lockTold (m : Mod) : Mod := ((m.endTim 2).endTim 3).syncValid

theorem Mod.enterLock_eq (m : Mod) : m.enterLock = m.lockStarted.lockShown.lockTold := rfl

theorem Mod.lockTold_only (m : Mod) : m.only [.flt] (repFlds 4 ++ validFlds) m.lockTold :=
  Mod.only_trans (Mod.only_mono (m.endConds_only 4 [2]) (fun _ h => h) fun _ h => List.mem_append_left _ h)
    (Mod.only_trans (Mod.only_mono (Mod.endConds_only _ 4 [3]) (fun _ h => h) fun _ h => List.mem_append_left _ h)
      (Mod.only_mono (Mod.syncValid_only _) (fun _ h => h) fun _ h => List.mem_append_right _ h))

theorem Mod.enterLock_only (m : Mod) : m.only [.time, .flt] lockFlds m.enterLock := by
  have started : m.only [.time, .flt] lockFlds m.lockStarted := Mod.only_time m _ _ (by simp)
  have shown : m.lockStarted.only [.time, .flt] lockFlds m.lockStarted.lockShown := Mod.only_puts _ _ _ (by simp [lockFlds])
  have told : m.lockStarted.lockShown.only [.time, .flt] lockFlds m.lockStarted.lockShown.lockTold :=
    Mod.only_mono (Mod.lockTold_only _) (by simp) fun f h => by rw [lockFlds, List.append_assoc]; exact List.mem_append_right _ h
  rw [Mod.enterLock_eq]
  exact Mod.only_trans started (Mod.only_trans shown told)

theorem Mod.enterLock_time (m : Mod) : m.enterLock.time = m.lockStarted.time :=
  (m.lockStarted.lockShown.lockTold_only.1 .time (by simp)).trans (Mod.puts_time _ _)

theorem Mod.enterLock_state (m : Mod) : m.enterLock.get R.TIM_STAT_STATE = 2 :=
  (Mod.only_get m.lockStarted.lockShown.lockTold_only _ (Fld.apart_of_clear (by decide))).trans
    (Mod.get_puts_head m.lockStarted 2 _ (by decide) (by simp [Fld.apart]))

/-! ## A step of time passes over stakes (R264) -/

/-- The fields that the expiries of a step write. -/
def stepFlds : List Fld := R.TTB_STAT_MK_PEND :: expireFlds

theorem Mod.expireMarker_only (m : Mod) (n : Nat) : m.only [.ttb, .flt] stepFlds (m.expireMarker n) :=
  Mod.only_trans (Mod.only_ttb m _ _ (by simp)) (Mod.only_trans (Mod.only_puts _ _ _ (by simp [stepFlds, expireFlds]))
    (Mod.only_mono (Mod.expireTold_only _ n) (by simp) fun _ h => List.mem_cons_of_mem _ h))

theorem Mod.stepStakes_only (m : Mod) (old new : Nat) : m.only [.stk, .ttb, .flt] stepFlds (m.stepStakes old new) := by
  refine Mod.only_trans (Mod.only_foldl _ _ (fun q n _ => ?_) m) (Mod.only_foldl _ _ (fun q w _ => ?_) _)
  · split
    · exact Mod.only_refl q _ _
    · split
      · exact Mod.only_mono (q.expireStake_only n) (by simp) fun _ h => List.mem_cons_of_mem _ h
      · exact Mod.only_refl q _ _
  · exact Mod.only_mono (q.expireMarker_only w.stake) (by simp) fun _ h => h

/-! ## A 1 PPS edge at the acting root (R250, R258) -/

/-- The edge that IN_POL names is marked. -/
def Mod.edgeMarked (m : Mod) : Mod := { m with time.ppsTick := m.time.ticks }

/-- The facility inputs are good. -/
def Mod.ppsFound (m : Mod) : Mod := { m with pins.ppsGood := true }

/-- The root's inputs are its time source. -/
def Mod.ppsShown (m : Mod) : Mod := m.puts [(R.TIM_STAT_SRC, 4), (R.TIM_STAT_PPS_OK, 1)]

/-- The seconds written become fleet time. -/
def Mod.todStarted (m : Mod) (n : Nat) : Mod :=
  { m with time.ofs := ((n * tickS : Nat) : Int) - (m.time.ticks : Int), time.todPending := none }

/-- PPS_OK drops with its event (R258). -/
def Mod.ppsDropped (m : Mod) : Mod := ((m.put R.TIM_STAT_PPS_OK 0).raiseLim tickS 4 0 5 4 0).put R.TIM_EVT_PPS 1

/-- The root slews towards an edge that is off by `dev` ns. -/
def Mod.edgeSlewed (m : Mod) (dev : Int) : Mod :=
  (m.ppsFound.ppsShown.putI R.TIM_OFFSET_OFS (clampI (-(2 ^ 31)) (2 ^ 31 - 1) (dev * 64 / 5))).steer dev

/-- The root enters LOCKED on the written seconds. -/
def Mod.edgeLocks (m : Mod) (n : Nat) : Mod := (m.todStarted n).ppsShown.enterLock

/-- The root's first edge, with seconds written. -/
def Mod.edgeFirst (m : Mod) (n : Nat) : Mod := (m.ppsFound.edgeLocks n).stepStakes m.ppsFound.nowNs (m.ppsFound.todStarted n).nowNs

/-- An edge at a locked root. -/
def Mod.edgeLater (m : Mod) (dev : Int) : Mod := if 1000 < dev.natAbs then m.ppsDropped else m.edgeSlewed dev

/-- The edge that IN_POL names is not passed over at a module with ROOT_CAP. -/
theorem Mod.edge_named {m : Mod} (hcap : m.is R.MOD_STRAP_ROOT_CAP = true) :
    ¬ (!m.edgeMarked.is R.MOD_STRAP_ROOT_CAP || m.is R.TIM_PPS_IN_POL != m.edgeMarked.is R.TIM_PPS_IN_POL) = true := by
  change ¬ (!m.is R.MOD_STRAP_ROOT_CAP || m.is R.TIM_PPS_IN_POL != m.is R.TIM_PPS_IN_POL) = true
  simp [hcap]

theorem Mod.edge_root {m : Mod} (hroot : m.is R.TIM_STAT_ROOT = true) : ¬ (!m.edgeMarked.is R.TIM_STAT_ROOT) = true := by
  change ¬ (!m.is R.TIM_STAT_ROOT) = true
  rw [hroot]
  decide

theorem exec_ppsEdge_first {s : State} {dev : Int} {n : Nat} (hon : s.on) (hcap : s.m.is R.MOD_STRAP_ROOT_CAP = true)
    (hroot : s.m.is R.TIM_STAT_ROOT = true) (hstate : s.m.get R.TIM_STAT_STATE ≠ 2) (hnever : s.m.time.everLocked = false)
    (htod : s.m.time.todPending = some n) :
    exec (.ppsEdge dev (s.m.is R.TIM_PPS_IN_POL)) s = .next { s with m := s.m.edgeMarked.edgeFirst n } := by
  have first : (s.m.edgeMarked.get R.TIM_STAT_STATE != 2 && !s.m.edgeMarked.time.everLocked) = true := by
    change (s.m.get R.TIM_STAT_STATE != 2 && !s.m.time.everLocked) = true
    rw [bne_iff_ne.mpr hstate, hnever]; rfl
  rw [show exec (.ppsEdge dev (s.m.is R.TIM_PPS_IN_POL)) s = execPpsEdge dev (s.m.is R.TIM_PPS_IN_POL) s from rfl, execPpsEdge, onMod, if_neg hon]
  rw [if_pos (beq_self_eq_true (s.m.is R.TIM_PPS_IN_POL)), ← Mod.edgeMarked]
  refine congrArg (fun m => Host.Outcome.next { s with m := m }) ?_
  refine (if_neg (Mod.edge_named hcap)).trans ((if_neg (Mod.edge_root hroot)).trans ((if_pos first).trans ?_))
  dsimp only
  split
  next unset => cases htod.symm.trans unset
  next t set =>
    obtain rfl : n = t := Option.some.inj (htod.symm.trans set)
    rfl

theorem exec_ppsEdge_locked {s : State} {dev : Int} (hon : s.on) (hcap : s.m.is R.MOD_STRAP_ROOT_CAP = true)
    (hroot : s.m.is R.TIM_STAT_ROOT = true) (hstate : s.m.get R.TIM_STAT_STATE = 2) :
    exec (.ppsEdge dev (s.m.is R.TIM_PPS_IN_POL)) s =
      .next { s with m := s.m.edgeMarked.edgeLater (dev - s.m.getI R.TIM_PPS_PPS_DLY) } := by
  have later : ¬ (s.m.edgeMarked.get R.TIM_STAT_STATE != 2 && !s.m.edgeMarked.time.everLocked) = true := by
    change ¬ (s.m.get R.TIM_STAT_STATE != 2 && !s.m.time.everLocked) = true
    rw [hstate]
    exact Bool.false_ne_true
  rw [show exec (.ppsEdge dev (s.m.is R.TIM_PPS_IN_POL)) s = execPpsEdge dev (s.m.is R.TIM_PPS_IN_POL) s from rfl, execPpsEdge, onMod, if_neg hon]
  rw [if_pos (beq_self_eq_true (s.m.is R.TIM_PPS_IN_POL)), ← Mod.edgeMarked]
  refine congrArg (fun m => Host.Outcome.next { s with m := m }) ?_
  refine (if_neg (Mod.edge_named hcap)).trans ((if_neg (Mod.edge_root hroot)).trans ((if_neg later).trans ?_))
  rw [Mod.edgeLater]
  refine if_congr Iff.rfl rfl ?_
  have locked : s.m.edgeMarked.ppsFound.ppsShown.get R.TIM_STAT_STATE = 2 := by
    rw [Mod.ppsShown, Mod.only_get (Mod.only_puts (fs := [R.TIM_STAT_SRC, R.TIM_STAT_PPS_OK]) _ _ [] (by simp)) _ (Fld.apart_of_clear (by decide))]
    exact hstate
  exact congrArg (fun m : Mod => Mod.steer (m.putI _ _) _) (if_pos locked)

/-- The root's first edge makes the written seconds fleet time, in LOCKED. -/
theorem Does.todBecomesTime {s : State} {dev : Int} {n : Nat} (hon : s.on) (hcap : s.m.is R.MOD_STRAP_ROOT_CAP = true)
    (hroot : s.m.is R.TIM_STAT_ROOT = true) (hstate : s.m.get R.TIM_STAT_STATE ≠ 2) (hnever : s.m.time.everLocked = false)
    (htod : s.m.time.todPending = some n) :
    Does (.ppsEdge dev (s.m.is R.TIM_PPS_IN_POL)) s fun t => t.m.get R.TIM_STAT_STATE = 2 ∧ t.m.fleetTicks = n * tickS ∧
      t.m.time.todPending = none ∧ t.m.get R.TIM_STAT_PPS_OK = 1 ∧ t.m.get R.TIM_STAT_SRC = 4 ∧ t.m.time.ticks = s.m.time.ticks := by
  refine ⟨_, exec_ppsEdge_first hon hcap hroot hstate hnever htod, ?_⟩
  let started := s.m.edgeMarked.ppsFound.todStarted n
  have locked := started.ppsShown.enterLock_only
  have stepped := (s.m.edgeMarked.ppsFound.edgeLocks n).stepStakes_only s.m.edgeMarked.ppsFound.nowNs started.nowNs
  have time : (s.m.edgeMarked.edgeFirst n).time = started.lockStarted.time := (stepped.1 .time (by simp)).trans (Mod.enterLock_time _)
  have ticks := congrArg TimeS.ticks time
  have kept (g : Fld) (hl : Fld.clear lockFlds g = true) (hs : Fld.clear stepFlds g = true) :
      (s.m.edgeMarked.edgeFirst n).get g = started.ppsShown.get g :=
    (Mod.only_get stepped g (Fld.apart_of_clear hs)).trans (Mod.only_get locked g (Fld.apart_of_clear hl))
  refine ⟨?_, ?_, congrArg TimeS.todPending time, ?_, ?_, ticks⟩
  · exact (Mod.only_get stepped _ (Fld.apart_of_clear (by decide))).trans (Mod.enterLock_state _)
  · change (((s.m.edgeMarked.edgeFirst n).time.ticks : Int) + (s.m.edgeMarked.edgeFirst n).time.ofs).toNat = n * tickS
    rw [time]
    change ((s.m.time.ticks : Int) + (((n * tickS : Nat) : Int) - (s.m.time.ticks : Int))).toNat = n * tickS
    omega
  · exact (kept _ (by decide) (by decide)).trans (Mod.get_put_same _ _ 1 (by decide))
  · exact (kept _ (by decide) (by decide)).trans (Mod.get_puts_head started 4 _ (by decide) (by simp [Fld.apart]))

/-- PPS_OK is 0, the loss has set its event; only the collector changes beside. -/
theorem Mod.ppsDropped_shows (m : Mod) : m.ppsDropped.get R.TIM_STAT_PPS_OK = 0 ∧ m.ppsDropped.get R.TIM_EVT_PPS = 1 := by
  constructor
  · rw [Mod.ppsDropped, Mod.get_put_ne _ _ _ _ (by decide), Mod.only_get (Mod.raiseLim_only _ tickS 4 0 5 4 0) _ (Fld.apart_of_clear (by decide))]
    exact Mod.get_put_same m _ 0 (by decide)
  · exact Mod.get_put_same _ _ 1 (by decide)

theorem Mod.ppsDropped_only (m : Mod) : m.only [.flt] (R.TIM_STAT_PPS_OK :: R.TIM_EVT_PPS :: repFlds 4) m.ppsDropped :=
  Mod.only_trans (Mod.only_put m _ 0 _ (by simp)) (Mod.only_trans
    (Mod.only_mono (Mod.raiseLim_only _ tickS 4 0 5 4 0) (fun _ h => h) fun _ h => by simp [h]) (Mod.only_put _ _ 1 _ (by simp)))

/-- A signed value that a 32-bit field holds reads back. -/
theorem sext_enc {x : Int} (hlo : -(2 ^ 31) ≤ x) (hhi : x < 2 ^ 31) : sext 32 (enc 32 x % 2 ^ 32) = x := by
  unfold sext enc
  split <;> omega

theorem Mod.getI_putI (m : Mod) {f : Fld} {x : Int} (hw : f.w = 32) (hp : f.lo + f.w ≤ 32) (hlo : -(2 ^ 31) ≤ x) (hhi : x < 2 ^ 31) :
    (m.putI f x).getI f = x := by
  rw [Mod.putI_eq, Mod.getI, Mod.get_put_same _ _ _ hp, hw]
  exact sext_enc hlo hhi

theorem clampI_inside {lo hi v : Int} (hlo : lo ≤ v) (hhi : v ≤ hi) : clampI lo hi v = v := by
  rw [clampI, if_neg (by omega), if_neg (by omega)]

/-- SLEW_PPM is held at 200 (Table 08-12). -/
theorem Mod.slewPpm_le (m : Mod) : m.slewPpm ≤ 200 := by
  unfold Mod.slewPpm clampN
  split_ifs <;> omega

/-- The steering stays within SLEW_PPM (R254). -/
theorem Mod.steer_slews (m : Mod) (ofs : Int) : ((m.steer ofs).getI R.CLK_FREQ_PPB).natAbs ≤ m.slewPpm * 1000 := by
  have ppm := m.slewPpm_le
  have size : Config.freeNat m.freeCtr % (m.slewPpm * 1000 + 1) < m.slewPpm * 1000 + 1 := Nat.mod_lt _ (Nat.succ_pos _)
  unfold Mod.steer
  simp only [Mod.fresh_fst, show m.fresh.2.slewPpm = m.slewPpm from rfl]
  rw [Mod.getI_putI _ rfl (by decide) (by split_ifs <;> omega) (by split_ifs <;> omega)]
  split_ifs <;> omega

theorem Mod.steer_only (m : Mod) (ofs : Int) : m.only [.freeCtr] [R.CLK_FREQ_PPB] (m.steer ofs) :=
  Mod.only_trans (Mod.only_freeCtr m _ _ (by simp)) (Mod.only_put _ _ _ _ (by simp))

/-- An edge within 1 µs is slewed towards. -/
theorem Does.edgeSlewed {s : State} {dev : Int} (hon : s.on) (hcap : s.m.is R.MOD_STRAP_ROOT_CAP = true)
    (hroot : s.m.is R.TIM_STAT_ROOT = true) (hstate : s.m.get R.TIM_STAT_STATE = 2) (hnear : (dev - s.m.getI R.TIM_PPS_PPS_DLY).natAbs ≤ 1000) :
    Does (.ppsEdge dev (s.m.is R.TIM_PPS_IN_POL)) s fun t => t.m.get R.TIM_STAT_PPS_OK = 1 ∧ t.m.get R.TIM_STAT_SRC = 4 ∧
      t.m.getI R.TIM_OFFSET_OFS = (dev - s.m.getI R.TIM_PPS_PPS_DLY) * 64 / 5 ∧ t.m.time = { s.m.time with ppsTick := s.m.time.ticks } ∧ t.m.pins.ppsGood = true ∧
      (t.m.getI R.CLK_FREQ_PPB).natAbs ≤ s.m.slewPpm * 1000 ∧
      s.frame [.freeCtr, .pins, .time] [R.TIM_STAT_SRC, R.TIM_STAT_PPS_OK, R.TIM_OFFSET_OFS, R.CLK_FREQ_PPB] t := by
  refine ⟨_, exec_ppsEdge_locked hon hcap hroot hstate, ?_⟩
  generalize dev - s.m.getI R.TIM_PPS_PPS_DLY = d at hnear
  rw [Mod.edgeLater, if_neg (Nat.not_lt.mpr hnear)]
  let found := s.m.edgeMarked.ppsFound
  let measured := found.ppsShown.putI R.TIM_OFFSET_OFS (clampI (-(2 ^ 31)) (2 ^ 31 - 1) (d * 64 / 5))
  have slewed : measured.only [.freeCtr] [R.CLK_FREQ_PPB] (s.m.edgeMarked.edgeSlewed d) := measured.steer_only d
  have written : found.only [] [R.TIM_STAT_SRC, R.TIM_STAT_PPS_OK, R.TIM_OFFSET_OFS, R.CLK_FREQ_PPB] measured :=
    Mod.only_trans (Mod.only_puts _ _ _ (by simp)) (Mod.only_put _ _ _ _ (by simp))
  have ppm : measured.slewPpm = s.m.slewPpm := by
    rw [Mod.slewPpm, Mod.only_get written _ (Fld.apart_of_clear (by decide))]
    rfl
  have offset : measured.getI R.TIM_OFFSET_OFS = d * 64 / 5 := by
    have inside : clampI (-(2 ^ 31)) (2 ^ 31 - 1) (d * 64 / 5) = d * 64 / 5 := clampI_inside (by omega) (by omega)
    change (found.ppsShown.putI _ _).getI _ = _
    rw [inside, Mod.getI_putI _ rfl (by decide) (by omega) (by omega)]
  have kept (g : Fld) (hg : Fld.clear [R.CLK_FREQ_PPB] g = true) : (s.m.edgeMarked.edgeSlewed d).get g = measured.get g :=
    Mod.only_get slewed g (Fld.apart_of_clear hg)
  refine ⟨?_, ?_, ?_, ?_, ?_, ?_, State.frame_of_only ?_⟩
  · rw [kept _ (by decide)]
    exact (Mod.get_put_ne _ _ _ _ (by decide)).trans (Mod.get_put_same _ _ 1 (by decide))
  · rw [kept _ (by decide)]
    exact (Mod.get_put_ne _ _ _ _ (by decide)).trans (Mod.get_puts_head found 4 _ (by decide) (by simp [Fld.apart]))
  · rw [Mod.getI, kept _ (by decide)]
    exact offset
  · exact (slewed.1 .time (by simp)).trans (written.1 .time (by simp))
  · exact congrArg Pins.ppsGood ((slewed.1 .pins (by simp)).trans (written.1 .pins (by simp)))
  · rw [← ppm]
    exact measured.steer_slews d
  · have marked : s.m.only [.freeCtr, .pins, .time] [R.TIM_STAT_SRC, R.TIM_STAT_PPS_OK, R.TIM_OFFSET_OFS, R.CLK_FREQ_PPB] found :=
      Mod.only_trans (Mod.only_time _ _ _ (by simp)) (Mod.only_pins _ _ _ (by simp))
    exact Mod.only_trans marked (Mod.only_trans (Mod.only_mono written (by simp) fun _ h => h) (Mod.only_mono slewed (by simp) (by simp)))

/-- An edge beyond 1 µs is ignored and drops PPS_OK. -/
theorem Does.edgeIgnored {s : State} {dev : Int} (hon : s.on) (hcap : s.m.is R.MOD_STRAP_ROOT_CAP = true)
    (hroot : s.m.is R.TIM_STAT_ROOT = true) (hstate : s.m.get R.TIM_STAT_STATE = 2) (hfar : 1000 < (dev - s.m.getI R.TIM_PPS_PPS_DLY).natAbs) :
    Does (.ppsEdge dev (s.m.is R.TIM_PPS_IN_POL)) s fun t => t.m.get R.TIM_STAT_PPS_OK = 0 ∧ t.m.get R.TIM_EVT_PPS = 1 ∧
      t.m.time = { s.m.time with ppsTick := s.m.time.ticks } ∧ s.m.onlyParts [.flt, .time] t.m := by
  refine ⟨_, exec_ppsEdge_locked hon hcap hroot hstate, ?_⟩
  rw [Mod.edgeLater, if_pos hfar]
  obtain ⟨ok, event⟩ := s.m.edgeMarked.ppsDropped_shows
  have dropped := s.m.edgeMarked.ppsDropped_only
  have marked : s.m.onlyParts [.flt, .time] s.m.edgeMarked := (Mod.only_time _ _ [] (by simp)).1
  exact ⟨ok, event, dropped.1 .time (by simp), Mod.onlyParts_trans marked (Mod.onlyParts_mono dropped.1 (by simp))⟩

/-! ## 1 PPS edges missing (R258) -/

/-- The facility inputs are no longer good. -/
def Mod.ppsGone (m : Mod) : Mod := { m with pins.ppsGood := false }

theorem exec_ppsLost {s : State} (hon : s.on) (hroot : s.m.is R.TIM_STAT_ROOT = true)
    (hdue : s.m.time.ppsTick + 1100 * tickMs ≤ s.m.time.ticks) :
    exec .ppsLost s = .next { s with m := if s.m.ppsGone.ppsDropped.is R.CLK_STAT_FAC_OK then s.m.ppsGone.ppsDropped
      else s.m.ppsGone.ppsDropped.enterHoldover } := by
  have root : s.m.ppsGone.is R.TIM_STAT_ROOT = true := hroot
  rw [show exec .ppsLost s = execPpsLost s from rfl, execPpsLost, onMod, if_neg hon]
  have due : ¬ s.m.time.ticks + 64000 < s.m.time.ppsTick + 1100 * tickMs := by omega
  rw [if_neg due, ← Mod.ppsGone]
  exact congrArg (fun m => Host.Outcome.next { s with m := m }) (if_pos root)

/-- The loss leaves the reference FAC and the time state as they are. -/
theorem Mod.ppsDropped_kept (m : Mod) : m.ppsGone.ppsDropped.get R.CLK_STAT_FAC_OK = m.get R.CLK_STAT_FAC_OK ∧
    m.ppsGone.ppsDropped.get R.TIM_STAT_STATE = m.get R.TIM_STAT_STATE :=
  ⟨Mod.only_get m.ppsGone.ppsDropped_only _ (Fld.apart_of_clear (by decide)), Mod.only_get m.ppsGone.ppsDropped_only _ (Fld.apart_of_clear (by decide))⟩

theorem Does.ppsLost {s : State} (hon : s.on) (hroot : s.m.is R.TIM_STAT_ROOT = true) (hfac : s.m.is R.CLK_STAT_FAC_OK = true)
    (hdue : s.m.time.ppsTick + 1100 * tickMs ≤ s.m.time.ticks) :
    Does .ppsLost s fun t => t.m.get R.TIM_STAT_PPS_OK = 0 ∧ t.m.get R.TIM_EVT_PPS = 1 ∧ t.m.pins.ppsGood = false ∧
      t.m.get R.TIM_STAT_STATE = s.m.get R.TIM_STAT_STATE ∧ s.m.onlyParts [.pins, .flt] t.m := by
  refine ⟨_, exec_ppsLost hon hroot hdue, ?_⟩
  obtain ⟨fac, state⟩ := s.m.ppsDropped_kept
  obtain ⟨ok, event⟩ := s.m.ppsGone.ppsDropped_shows
  have dropped := s.m.ppsGone.ppsDropped_only
  have gone : s.m.onlyParts [.pins, .flt] s.m.ppsGone := (Mod.only_pins _ _ [] (by simp)).1
  rw [if_pos ((Mod.is_congr fac).trans hfac)]
  exact ⟨ok, event, congrArg Pins.ppsGood (dropped.1 .pins (by simp)), state, Mod.onlyParts_trans gone (Mod.onlyParts_mono dropped.1 (by simp))⟩

/-- HOLDOVER is entered from LOCKED. -/
theorem Mod.enterHoldover_state {m : Mod} (h : m.get R.TIM_STAT_STATE = 2) : m.enterHoldover.get R.TIM_STAT_STATE = 3 := by
  rw [Mod.enterHoldover_eq, if_pos h, Mod.only_get (Mod.syncValid_only _) _ (Fld.apart_of_clear (by decide))]
  generalize m.offsetsDropped.holdStarted = d
  have shown : d.holdoverTold.only [] [R.TIM_HOLD_AGE, R.TIM_HOLD_ERR_EST] d.holdoverTold.showHold := Mod.only_puts _ _ _ (by simp)
  have started : (d.puts [(R.TIM_STAT_STATE, 3), (R.TIM_EVT_HOLD, 1)]).get R.TIM_STAT_STATE = 3 :=
    Mod.get_puts_head d 3 _ (by decide) (by simp [Fld.apart])
  rw [Mod.only_get shown _ (Fld.apart_of_clear (by decide)), Mod.holdoverTold,
    Mod.only_get (Mod.condStartLim_frame _ _ 4 0 2 _ fun _ h => h).symm _ (Fld.apart_of_clear (by decide)),
    Mod.only_get (Mod.bump_only _ R.TIM_HOLD_CNT_COUNT (ps := [.flt]) (by simp) fun _ h => h) _ (Fld.apart_of_clear (by decide)), started]

/-- With FAC lost too a locked root enters HOLDOVER. -/
theorem Does.ppsLostHoldover {s : State} (hon : s.on) (hroot : s.m.is R.TIM_STAT_ROOT = true) (hfac : s.m.is R.CLK_STAT_FAC_OK = false)
    (hdue : s.m.time.ppsTick + 1100 * tickMs ≤ s.m.time.ticks) (hstate : s.m.get R.TIM_STAT_STATE = 2) :
    Does .ppsLost s fun t => t.m.get R.TIM_STAT_STATE = 3 ∧ t.m.get R.TIM_STAT_PPS_OK = 0 ∧ t.m.get R.TIM_EVT_PPS = 1 := by
  refine ⟨_, exec_ppsLost hon hroot hdue, ?_⟩
  obtain ⟨fac, state⟩ := s.m.ppsDropped_kept
  obtain ⟨ok, event⟩ := s.m.ppsGone.ppsDropped_shows
  have held := s.m.ppsGone.ppsDropped.enterHoldover_only
  rw [if_neg (by rw [Mod.is_congr fac, hfac]; decide)]
  exact ⟨Mod.enterHoldover_state (state.trans hstate), (Mod.only_get held _ (Fld.apart_of_clear (by decide))).trans ok,
    (Mod.only_get held _ (Fld.apart_of_clear (by decide))).trans event⟩

/-! ## The output and the reading of time (R259, R459) -/

/-- A whole second lies in the frame that starts at `now`. -/
theorem second_in_frame {now k : Nat} (hlo : now ≤ k * 10 ^ 9) (hhi : k * 10 ^ 9 < now + 5000) :
    now ≤ (now + 4999) / 10 ^ 9 * 10 ^ 9 :=
  hlo.trans (Nat.mul_le_mul_right _ ((Nat.le_div_iff_mul_le (Nat.pow_pos (by decide))).mpr (Nat.le_of_lt_succ hhi)))

/-- The output pulses from here for 20 frames. -/
def Mod.pulseStarted (m : Mod) : Mod := { m with pins.ppsOut := true, time.ppsPulse := 20 }

theorem Mod.pulseStarted_only (m : Mod) : m.only [.pins, .time] [] m.pulseStarted :=
  Mod.only_trans (Mod.only_pins m { m.pins with ppsOut := true } _ (by simp)) (Mod.only_time _ _ _ (by simp))

/-- The second's frame raises the output. -/
theorem Does.ppsPulsed {s : State} {k : Nat} (hon : s.on) (hen : s.m.is R.TIM_PPS_OUT_EN = true) (hlo : s.m.nowNs ≤ k * 10 ^ 9)
    (hhi : k * 10 ^ 9 < s.m.nowNs + 5000) :
    Does .ppsOutPulse s fun t => t.m.pins.ppsOut = true ∧ t.m.time.ppsPulse = 20 ∧ s.frame [.pins, .time] [] t := by
  have pulse : exec .ppsOutPulse s = .next { s with m := s.m.pulseStarted } := by
    rw [show exec .ppsOutPulse s = execPpsOutPulse s from rfl, execPpsOutPulse, onMod, if_neg hon,
      if_pos (by rw [hen, Bool.true_and]; exact decide_eq_true (second_in_frame hlo hhi)), Mod.pulseStarted]
  exact ⟨_, pulse, rfl, rfl, State.frame_of_only s.m.pulseStarted_only⟩

/-- The low half of the time is shown, the high half latched. -/
theorem Mod.nowLatch_shows (m : Mod) : m.nowLatch.2.get R.TIM_NOW_LO_NS = m.nowNs % 2 ^ 32 ∧
    m.nowLatch.2.get R.TIM_NOW_HI_NS = m.nowNs / 2 ^ 32 % 2 ^ 32 ∧ m.only [] [R.TIM_NOW_LO_NS, R.TIM_NOW_HI_NS] m.nowLatch.2 := by
  refine ⟨?_, Mod.get_put_same _ R.TIM_NOW_HI_NS _ (by decide), Mod.only_puts m _ _ (by simp)⟩
  exact (Mod.get_puts_head m (m.nowNs % 2 ^ 32) _ (by decide) (by simp [Fld.apart])).trans (Nat.mod_mod _ _)

/-- The word read is the low half. -/
theorem Does.nowLatched {s : State} (hr : s.m.rdStatus 0x4084 = 0) (hon : s.on) :
    Does .timNowRead s fun t => t.m.rdata = s.m.nowNs % 2 ^ 32 ∧ t.m.get R.TIM_NOW_LO_NS = s.m.nowNs % 2 ^ 32 ∧
      t.m.get R.TIM_NOW_HI_NS = s.m.nowNs / 2 ^ 32 % 2 ^ 32 ∧ t.m.resp = 0 ∧ s.frame [.rdata, .resp] [R.TIM_NOW_LO_NS, R.TIM_NOW_HI_NS] t := by
  have read : exec .timNowRead s = .next { s with m := { s.m.nowLatch.2 with rdata := s.m.nowLatch.1 % 2 ^ 32, resp := 0 } } := by
    rw [show exec .timNowRead s = execTimNowRead s from rfl, execTimNowRead, onMod, if_neg hon, Mod.guardedRd_ok _ hr]
  obtain ⟨low, high, only⟩ := s.m.nowLatch_shows
  refine ⟨_, read, Nat.mod_mod _ _, low, high, rfl, State.frame_of_only ?_⟩
  exact Mod.only_trans (Mod.only_mono only (by simp) fun _ h => h) (Mod.only_answer _ _ 0 _ (by simp) (by simp))

/-! ## A standby root takes over (R260) -/

/-- The fields that follow a change of TIM_STAT.ROOT. -/
def followFlds : List Fld := treeFlds ++ refFlds ++ validFlds

/-- The tree, the reference and VALID follow. -/
def Mod.rootFollowed (m : Mod) : Mod := (m.treeChoose.chooseRef 2).syncValid

theorem Mod.rootFollowed_only (m : Mod) : m.only [.lnk, .flt] followFlds m.rootFollowed :=
  Mod.only_trans (Mod.only_mono m.treeChoose_only (fun _ h => h) fun _ h => List.mem_append_left _ (List.mem_append_left _ h))
    (Mod.only_trans (Mod.only_mono (Mod.chooseRef_only _ 2) (by simp) fun _ h => List.mem_append_left _ (List.mem_append_right _ h))
      (Mod.only_mono (Mod.syncValid_only _) (by simp) fun _ h => List.mem_append_right _ h))

/-- GEN and root shown. -/
def Mod.genShown (m : Mod) (gen addr : Nat) : Mod :=
  m.puts [(R.TIM_ROOT_GEN, gen % 65536), (R.TIM_ROOT_ADDR, addr % 16384), (R.TIM_EVT_ROOT, 1)]

theorem Mod.genShown_addr (m : Mod) (gen addr : Nat) : (m.genShown gen addr).get R.TIM_ROOT_ADDR = addr % 16384 := by
  have order : m.genShown gen addr = (m.put R.TIM_ROOT_GEN (gen % 65536)).puts [(R.TIM_ROOT_ADDR, addr % 16384), (R.TIM_EVT_ROOT, 1)] := rfl
  rw [order, Mod.get_puts_head _ _ _ (by decide) (by simp [Fld.apart])]
  exact Nat.mod_mod _ _

/-- The module's own state as acting root. -/
def Mod.rootTaken (m : Mod) : Mod := m.puts [(R.TIM_STAT_ROOT, 1), (R.TIM_STAT_SRC, 4)]

theorem Mod.becomeRoot_eq (m : Mod) (gen : Nat) : m.becomeRoot gen = (m.rootChange gen m.addr).rootTaken.rootFollowed := rfl

theorem Mod.rootChange_get (m : Mod) (gen addr : Nat) {g : Fld} (hg : Fld.clear (repFlds 4) g = true) :
    (m.rootChange gen addr).get g = (m.genShown gen addr).get g :=
  Mod.only_get (Mod.raiseLim_only _ tickS 4 0 4 _ 0) g (Fld.apart_of_clear hg)

/-- The module is the acting root with that GEN, by its own address. -/
theorem Mod.becomeRoot_shows (m : Mod) (gen : Nat) :
    (m.becomeRoot gen).get R.TIM_STAT_ROOT = 1 ∧ (m.becomeRoot gen).get R.TIM_ROOT_GEN = gen % 65536 ∧
      (m.becomeRoot gen).get R.TIM_ROOT_ADDR = m.addr ∧ (m.becomeRoot gen).get R.TIM_STAT_SRC = 4 ∧
      (m.becomeRoot gen).get R.TIM_EVT_ROOT = 1 := by
  rw [Mod.becomeRoot_eq]
  have follow (g : Fld) (hg : Fld.clear followFlds g = true) :
      (m.rootChange gen m.addr).rootTaken.rootFollowed.get g = (m.rootChange gen m.addr).rootTaken.get g :=
    Mod.only_get (Mod.rootFollowed_only _) g (Fld.apart_of_clear hg)
  have told (g : Fld) (hr : Fld.clear [R.TIM_STAT_ROOT, R.TIM_STAT_SRC] g = true) (hg : Fld.clear (repFlds 4) g = true) :
      (m.rootChange gen m.addr).rootTaken.get g = (m.genShown gen m.addr).get g :=
    (Mod.only_get (Mod.only_puts _ _ [] (by simp)) g (Fld.apart_of_clear hr)).trans (m.rootChange_get gen _ hg)
  refine ⟨?_, ?_, ?_, ?_, ?_⟩
  · exact (follow _ (by decide)).trans (Mod.get_puts_head _ 1 _ (by decide) (by simp [Fld.apart]))
  · rw [follow _ (by decide), told _ (by decide) (by decide)]
    exact (Mod.get_puts_head m (gen % 65536) _ (by decide) (by simp [Fld.apart])).trans (Nat.mod_mod _ _)
  · have small : m.addr < 16384 := m.get_lt R.LNK_ADDR_ADDR
    rw [follow _ (by decide), told _ (by decide) (by decide)]
    rw [Mod.genShown_addr, Nat.mod_eq_of_lt small]
  · exact (follow _ (by decide)).trans (Mod.get_put_same _ _ 4 (by decide))
  · rw [follow _ (by decide), told _ (by decide) (by decide)]
    exact Mod.get_put_same _ _ 1 (by decide)

theorem Mod.standby_of {m : Mod} (hact : m.is R.MOD_ROLE_STAT_FLEET_ROOT_ACT = true)
    (hcfg : m.get R.MOD_ROLE_CFG_FLEET_ROOT = 1 ∨ m.get R.MOD_ROLE_CFG_FLEET_ROOT = 2) (hroot : m.is R.TIM_STAT_ROOT = false) : m.standby = true := by
  rcases hcfg with h | h <;> simp [Mod.standby, hact, h, hroot]

theorem exec_rootTimeout {s : State} (hon : s.on) (hstandby : s.m.standby = true)
    (hdue : s.m.time.lastRoot + max 5 (s.m.get R.TIM_ROOT_CFG_ROOT_TMO) * tickMs ≤ s.m.time.ticks) :
    exec .rootTimeout s = .next { s with m := s.m.becomeRoot (s.m.get R.TIM_ROOT_GEN + 1) } := by
  rw [show exec .rootTimeout s = execRootTimeout s from rfl, execRootTimeout, onMod, if_neg hon,
    if_pos (by rw [hstandby, decide_eq_true (hdue.trans (Nat.le_add_right _ _))]; rfl)]

theorem exec_rootHoldoverTimeout {s : State} (hon : s.on) (hstandby : s.m.standby = true) (hhold : 0 < s.m.time.rootHold)
    (hpps : s.m.pins.ppsGood = true) (hfac : s.m.is R.CLK_STAT_FAC_OK = true)
    (hdue : s.m.time.rootHold + max 100 (s.m.get R.TIM_ROOT_CFG_REF_TMO) * tickMs ≤ s.m.time.ticks) :
    exec .rootHoldoverTimeout s = .next { s with m := s.m.becomeRoot (s.m.get R.TIM_ROOT_GEN + 1) } := by
  rw [show exec .rootHoldoverTimeout s = execRootHoldoverTimeout s from rfl, execRootHoldoverTimeout, onMod, if_neg hon,
    if_pos (by rw [hstandby, decide_eq_true hhold, decide_eq_true (hdue.trans (Nat.le_add_right _ _)), hpps, hfac]; rfl)]

/-- The standby root takes the next GEN and keeps its time. -/
theorem Does.rootTakenOver {c : Instr} {s : State} (h : exec c s = .next { s with m := s.m.becomeRoot (s.m.get R.TIM_ROOT_GEN + 1) }) :
    Does c s fun t => t.m.get R.TIM_STAT_ROOT = 1 ∧ t.m.get R.TIM_ROOT_GEN = (s.m.get R.TIM_ROOT_GEN + 1) % 65536 ∧
      t.m.get R.TIM_ROOT_ADDR = s.m.addr ∧ t.m.get R.TIM_STAT_SRC = 4 ∧ t.m.get R.TIM_EVT_ROOT = 1 ∧ t.m.time = s.m.time ∧
      s.m.onlyParts [.flt, .lnk] t.m := by
  obtain ⟨root, gen, addr, src, event⟩ := s.m.becomeRoot_shows (s.m.get R.TIM_ROOT_GEN + 1)
  have parts := (s.m.becomeRoot_only (s.m.get R.TIM_ROOT_GEN + 1)).1
  exact ⟨_, h, root, gen, addr, src, event, parts .time (by simp), Mod.onlyParts_mono parts (by simp)⟩

/-- Settles O31: TIM_TOD, the 1 PPS edges at the acting root and their loss, the output and the latch, the take-over by a standby root. -/
theorem facilityTimeAndRoots : Obligations.FacilityTimeAndRoots := by
  refine ⟨fun _ _ hw hon hopen => Does.todTaken hw hon hopen, fun _ _ hw hon root locked => Does.todRefused hw hon root locked,
    fun _ _ _ hon cap root state never tod => Does.todBecomesTime hon cap root state never tod,
    fun _ _ hon cap root state near => Does.edgeSlewed hon cap root state near, fun _ _ hon cap root state far => Does.edgeIgnored hon cap root state far,
    fun _ hon root fac due => Does.ppsLost hon root fac due, fun _ hon root fac due state => Does.ppsLostHoldover hon root fac due state,
    fun _ _ hon en lo hi => Does.ppsPulsed hon en lo hi, fun _ hr hon => Does.nowLatched hr hon, fun c s hon act cfg root why => ?_⟩
  have standby := Mod.standby_of act cfg root
  rcases why with ⟨rfl, due⟩ | ⟨rfl, hold, pps, fac, due⟩
  · exact Does.rootTakenOver (exec_rootTimeout hon standby due)
  · exact Does.rootTakenOver (exec_rootHoldoverTimeout hon standby hold pps fac due)

end Sys2Proof.Machine
end

section
/-!
PROOFS. A marker that waits with a stake number the module does not have (R91, R261), which refutes the statement StakesArmAndFire.
-/
namespace Sys2Proof.Machine

/-- Time is valid, and a marker due at once waits with stake 8192, where the stakes end with 8191. -/
def markerBeyond : State :=
  { m := { ({} : Mod).puts [(R.TIM_STAT_VALID, 1)] with
      ttb.mks := [⟨{ flags := 0, job := 7, step := 0, kind := 2, edgeT := 0, pos := 0, period := 0, delta := 0, dur := 0 }, 1, 8192, none⟩] } }

/-- Refutes O32: its sixth part says that STK_LAST reads the stake of the marker that fires. The list of waiting markers may name stake 8192, which
no premise excludes, and the thirteen bits of STK_LAST.STAKE cannot. -/
theorem not_stakesArmAndFire : ¬ Obligations.StakesArmAndFire := by
  unfold Obligations.StakesArmAndFire
  rintro ⟨-, -, -, -, -, marker, -⟩
  obtain ⟨t, -, last, -⟩ := marker markerBeyond 8192 0 (by decide) (by decide)
  exact absurd (t.m.get_lt R.STK_LAST_STAKE) (by rw [last]; decide)

end Sys2Proof.Machine
end

section
/-!
PROOFS. Barriers (R265 to R267): arrivals, the release, its cancel, the deadline; the statement Barriers.
-/
namespace Sys2Proof.Machine

/-! ## The waits that name a home (R267) -/

/-- The armed wait stakes that name a home. -/
def Mod.waits (m : Mod) (homeA homeS : Nat) : List Nat :=
  (m.stk.recs.map Prod.fst).filter fun n =>
    stState (m.stake n) == 1 && stMode (m.stake n) == 3 && stHomeAddr (m.stake n) == homeA && stHomeStake (m.stake n) == homeS

theorem Mod.mem_waits (m : Mod) (homeA homeS n : Nat) : n ∈ m.waits homeA homeS ↔
    stState (m.stake n) = 1 ∧ stMode (m.stake n) = 3 ∧ stHomeAddr (m.stake n) = homeA ∧ stHomeStake (m.stake n) = homeS := by
  simp only [Mod.waits, List.mem_filter, Bool.and_eq_true, beq_iff_eq, and_assoc]
  exact ⟨fun h => h.2, fun h => ⟨Mod.mem_recs h.1, h⟩⟩

/-- A list of stakes becomes CANCELLED. -/
def Mod.cancelAll (m : Mod) (l : List Nat) : Mod := l.foldl (fun m n => m.setStState n 4) m

/-- A wait takes its release instant: it fires then, late, or expires when that has passed. -/
def Mod.releaseOne (trel : Nat) (m : Mod) (n : Nat) : Mod :=
  let m := m.setStake n (setBytes (m.stake n) 8 (leBytes 8 trel))
  let r := m.stake n
  if m.stakeNow r ≤ trel then { m with stk.rel := m.stk.rel.filter (fun e => e.1 != n) ++ [(n, trel)] }
  else if stLateOk r then m.fireOrDefer n true else m.expireStake n

theorem Mod.takeRelease_cancel (m : Mod) (homeA homeS trel : Nat) :
    m.takeRelease homeA homeS true trel = m.cancelAll (m.waits homeA homeS) := rfl

theorem Mod.takeRelease_release (m : Mod) (homeA homeS trel : Nat) :
    m.takeRelease homeA homeS false trel = (m.waits homeA homeS).foldl (Mod.releaseOne trel) m := rfl

theorem Mod.cancelAll_only (m : Mod) (l : List Nat) : m.only [.stk] [R.STK_STAT_ARMED] (m.cancelAll l) :=
  Mod.only_foldl _ _ (fun q n _ => q.setStState_only n 4 false false) m

theorem Mod.cancelAll_ne (m : Mod) {l : List Nat} {k : Nat} (h : k ∉ l) : (m.cancelAll l).stake k = m.stake k :=
  List.foldlRecOn (motive := fun q : Mod => q.stake k = m.stake k) l _ rfl fun q hq n hn =>
    (q.setStState_ne 4 false false (by rintro rfl; exact h hn)).trans hq

/-- Every stake of the list is CANCELLED. -/
theorem Mod.cancelAll_state (m : Mod) {l : List Nat} {k : Nat} (h : k ∈ l) : stState ((m.cancelAll l).stake k) = 4 := by
  induction l generalizing m with
  | nil => exact absurd h List.not_mem_nil
  | cons n l ih =>
    by_cases hl : k ∈ l
    · exact ih (m.setStState n 4) hl
    · obtain rfl : k = n := (List.mem_cons.mp h).resolve_right hl
      have rest : (m.cancelAll (k :: l)).stake k = (m.setStState k 4).stake k := Mod.cancelAll_ne (m.setStState k 4) hl
      rw [rest]
      exact m.setStState_state k false false (by decide)

/-! ## A participant's command (R265, R266) -/

theorem exec_stkCmdArrive {s : State} {n : Fin 8192} (hw : s.m.wrStatus 0x50A4 (1 + 2 * n.val) = 0) (hon : s.on) :
    exec (.stkCmdArrive n) s = .next { s with m := { s.m.stkArrive n with resp := 0 } } := by
  rw [show exec (.stkCmdArrive n) s = execStkCmdArrive n s from rfl, execStkCmdArrive, onMod, if_neg hon, Mod.guarded_ok _ hw]

/-- The ARRIVE of a wait stake whose home is another module leaves for it. -/
theorem Does.arriveSent {s : State} {n : Fin 8192} (hw : s.m.wrStatus 0x50A4 (1 + 2 * n.val) = 0) (hon : s.on)
    (hmode : stMode (s.m.stake n) = 3) (hstate : stState (s.m.stake n) = 1) (haway : stHomeAddr (s.m.stake n) ≠ s.m.addr) :
    Does (.stkCmdArrive n) s fun t => t.m.resp = 0 ∧ t.m.stk = s.m.stk ∧
      Sparse.get (fun _ => 0) t.m.lnk.mseq 3 = (Sparse.get (fun _ => 0) s.m.lnk.mseq 3 + 1) % 65536 ∧
      s.m.onlyParts [.lnk, .flt, .resp] t.m := by
  refine ⟨_, exec_stkCmdArrive hw hon, ?_⟩
  obtain ⟨body, sent⟩ : ∃ body, s.m.stkArrive n = s.m.sendUnicast 3 (stHomeAddr (s.m.stake n)) body :=
    ⟨_, by simp only [Mod.stkArrive, Mod.sendArrive, hmode, hstate, if_neg haway]; rfl⟩
  obtain ⟨parts, mseq⟩ := s.m.sendUnicast_parts 3 (stHomeAddr (s.m.stake n)) body
  rw [sent]
  exact ⟨rfl, parts .stk (by simp), mseq,
    Mod.onlyParts_trans (Mod.onlyParts_mono parts (by simp)) (Mod.only_resp _ 0 [] (by simp)).1⟩

/-! ## An ARRIVE reaches its home (R267) -/

theorem exec_arriveReceive {s : State} {b : List Byte} {n : Nat} (hon : s.on) (htype : b.getD 0 0 = 0x41)
    (haddr : le (natBytes b) 2 2 = s.m.addr) (hn : n = le (natBytes b) 4 2 % 8192) :
    exec (.arriveReceive b) s = .next { s with m := (s.m.takeInbox 3 (natBytes b)).arriveAt n } := by
  have h41 : (natBytes b).getD 0 0 = 0x41 := by rw [getD_natBytes, htype]; rfl
  rw [show exec (.arriveReceive b) s = execArriveReceive b s from rfl, execArriveReceive, onMod, if_neg hon, hn]
  simp only
  refine congrArg _ (congrArg _ (if_pos ?_))
  show (decide ((natBytes b).getD 0 0 = 0x41) && le (natBytes b) 2 2 == s.m.addr) = true
  rw [decide_eq_true h41, haddr, Bool.true_and, beq_self_eq_true]

/-- The record of a home that counts an arrival. -/
def arrivedOne (r : List Nat) : List Nat := setBytes r 6 (leBytes 2 (stArrived r + 1))

theorem Mod.arriveAt_ignored {m : Mod} {n : Nat}
    (h : stState (m.stake n) ≠ 1 ∨ stMode (m.stake n) ≠ 2 ∧ stMode (m.stake n) ≠ 4 ∨ m.relOf n ≠ none) :
    m.arriveAt n = m.bump R.STK_ARR_X_CNT_COUNT := by
  refine if_neg fun home => ?_
  simp only [Bool.and_eq_true, Bool.or_eq_true, decide_eq_true_eq, beq_iff_eq, Option.isNone_iff_eq_none] at home
  obtain ⟨⟨armed, mode⟩, open_⟩ := home
  rcases h with h | ⟨h2, h4⟩ | h
  · exact h armed
  · exact mode.elim h2 h4
  · exact h open_

/-- The home has counted an arrival. -/
def Mod.arrivedAt (m : Mod) (n : Nat) : Mod := m.setStake n (arrivedOne (m.stake n))

/-- The release instant of a home whose last arrival has come. -/
def Mod.homeRel (m : Mod) (n : Nat) : Nat := (m.arrivedAt n).nowNs + stPeriod (arrivedOne (m.stake n)) * 1000

/-- That home with its release instant. -/
def Mod.homeDone (m : Mod) (n : Nat) : Mod := { m.arrivedAt n with stk.rel := (m.arrivedAt n).stk.rel ++ [(n, m.homeRel n)] }

theorem Mod.arriveAt_home {m : Mod} {n : Nat} (hstate : stState (m.stake n) = 1) (hmode : stMode (m.stake n) = 2) (hrel : m.relOf n = none) :
    m.arriveAt n = if stCount (arrivedOne (m.stake n)) ≤ stArrived (arrivedOne (m.stake n)) then
        ((m.homeDone n).sendRelease n false (m.homeRel n)).takeRelease (m.homeDone n).addr n false (m.homeRel n)
      else m.arrivedAt n := by
  have home : (decide (stState (m.stake n) = 1) && (stMode (m.stake n) == 2 || stMode (m.stake n) == 4) && (m.relOf n).isNone) = true := by
    rw [hstate, hmode, hrel]; rfl
  exact if_pos home

theorem stArrived_arrivedOne (r : List Nat) : stArrived (arrivedOne r) = (stArrived r + 1) % 65536 := le_setBytes r 6 2 _

theorem stCount_arrivedOne (r : List Nat) : stCount (arrivedOne r) = stCount r := le_setBytes_ne r _ 6 4 2 (.inl (by decide))

theorem stPeriod_arrivedOne (r : List Nat) : stPeriod (arrivedOne r) = stPeriod r :=
  le_setBytes_ne r _ 6 16 4 (.inr (by rw [length_leBytes]; decide))

theorem stState_arrivedOne (r : List Nat) : stState (arrivedOne r) = stState r := congrArg (· % 8) (getD_setBytes_head r _ (by decide))

theorem stMode_arrivedOne (r : List Nat) : stMode (arrivedOne r) = stMode r := congrArg (· % 8) (getD_setBytes_head r _ (by decide))

theorem stScope_arrivedOne (r : List Nat) : stScope (arrivedOne r) = stScope r := getD_setBytes_head r _ (by decide)

/-- Arrivals below COUNT do not overflow their two bytes. -/
theorem stArrived_counts {r : List Nat} (h : stArrived r + 1 ≤ stCount r) : stArrived (arrivedOne r) = stArrived r + 1 := by
  have count : stCount r < 65536 := le_lt r 4 2
  rw [stArrived_arrivedOne, Nat.mod_eq_of_lt (by omega)]

theorem Mod.arrivedAt_stake (m : Mod) (n : Nat) : (m.arrivedAt n).stake n = arrivedOne (m.stake n) := by
  rw [Mod.arrivedAt, Mod.stake_setStake, if_pos rfl]

/-- An arrival short of COUNT is counted, no more. -/
theorem Mod.arriveAt_counts {m : Mod} {n : Nat} (hstate : stState (m.stake n) = 1) (hmode : stMode (m.stake n) = 2) (hrel : m.relOf n = none)
    (hcount : stArrived (m.stake n) + 1 < stCount (m.stake n)) : m.arriveAt n = m.arrivedAt n := by
  rw [Mod.arriveAt_home hstate hmode hrel, stCount_arrivedOne, stArrived_counts hcount.le, if_neg (Nat.not_le.mpr hcount)]

/-- The last arrival completes a home; with SCOPE 0 and no waits about it takes its release instant, no more. -/
theorem Mod.arriveAt_completes {m : Mod} {n : Nat} (hstate : stState (m.stake n) = 1) (hmode : stMode (m.stake n) = 2) (hrel : m.relOf n = none)
    (hscope : stScope (m.stake n) = 0) (hcount : stArrived (m.stake n) + 1 = stCount (m.stake n)) (hwaits : ∀ k, stMode (m.stake k) ≠ 3) :
    m.arriveAt n = m.homeDone n := by
  have scope : stScope ((m.homeDone n).stake n) = 0 :=
    (congrArg stScope (m.arrivedAt_stake n)).trans ((stScope_arrivedOne _).trans hscope)
  have unsent : (m.homeDone n).sendRelease n false (m.homeRel n) = m.homeDone n := by simp [Mod.sendRelease, scope]
  have nobody : (m.homeDone n).waits (m.homeDone n).addr n = [] := by
    refine List.eq_nil_iff_forall_not_mem.mpr fun k hk => ?_
    obtain ⟨-, wait, -⟩ := (Mod.mem_waits _ _ _ _).mp hk
    have mode : stMode ((m.arrivedAt n).stake k) ≠ 3 := by
      rw [Mod.arrivedAt, Mod.stake_setStake]
      split
      next e => rw [stMode_arrivedOne]; exact hwaits n
      · exact hwaits k
    exact mode wait
  rw [Mod.arriveAt_home hstate hmode hrel, stCount_arrivedOne, stArrived_counts hcount.le, if_pos hcount.ge, unsent,
    Mod.takeRelease_release, nobody, List.foldl_nil]

theorem Mod.homeDone_only (m : Mod) (n : Nat) : m.only [.stk] [R.STK_STAT_ARMED] (m.homeDone n) :=
  Mod.only_trans (m.setStake_only n _) (Mod.only_stk _ _ _ (by simp))

theorem Mod.nowNs_only {a b : Mod} {ps : List Part} {fs : List Fld} (h : a.only ps fs b) (hp : Part.time ∉ ps)
    (hf : ∀ f ∈ fs, f.apart R.TIM_STAT_STATE) : b.nowNs = a.nowNs ∧ b.localNs = a.localNs := by
  have time : b.time = a.time := h.1 .time hp
  simp only [Mod.nowNs, Mod.fleetNs, Mod.fleetTicks, Mod.localNs, time, Mod.only_get h _ hf, and_self]

theorem Mod.homeRel_eq (m : Mod) (n : Nat) : m.homeRel n = m.nowNs + stPeriod (m.stake n) * 1000 := by
  obtain ⟨now, -⟩ := Mod.nowNs_only (m.setStake_only n (arrivedOne (m.stake n))) (by simp) (Fld.apart_of_clear (by decide))
  rw [Mod.homeRel, Mod.arrivedAt, now, stPeriod_arrivedOne]

/-- A release instant set down for a stake without one is the one it has. -/
theorem Mod.relOf_append {m : Mod} {n trel : Nat} (h : m.relOf n = none) : { m with stk.rel := m.stk.rel ++ [(n, trel)] }.relOf n = some trel := by
  simp only [Mod.relOf, Option.map_eq_none_iff] at h
  simp [Mod.relOf, List.find?_append, h]

/-! ## What a message taken from the queue leaves -/

theorem Mod.takeInbox_stake (m : Mod) (c : Nat) (b : List Nat) (n : Nat) : (m.takeInbox c b).stake n = m.stake n := rfl

/-- An ARRIVE for a home that is short of COUNT after it. -/
theorem Does.arrivalCounted {s : State} {b : List Byte} {n : Nat} (hon : s.on) (htype : b.getD 0 0 = 0x41)
    (haddr : le (natBytes b) 2 2 = s.m.addr) (hn : n = le (natBytes b) 4 2 % 8192) (hstate : stState (s.m.stake n) = 1)
    (hmode : stMode (s.m.stake n) = 2) (hrel : s.m.relOf n = none) (hcount : stArrived (s.m.stake n) + 1 < stCount (s.m.stake n)) :
    Does (.arriveReceive b) s fun t => stArrived (t.m.stake n) = stArrived (s.m.stake n) + 1 ∧ stState (t.m.stake n) = 1 ∧
      t.m.relOf n = none ∧ s.frame [.stk, .lnk] [R.STK_STAT_ARMED] t := by
  refine ⟨_, exec_arriveReceive hon htype haddr hn, ?_⟩
  rw [Mod.arriveAt_counts (m := s.m.takeInbox 3 (natBytes b)) hstate hmode hrel hcount]
  dsimp only
  rw [Mod.arrivedAt_stake, Mod.takeInbox_stake]
  refine ⟨stArrived_counts hcount.le, (stState_arrivedOne _).trans hstate, hrel, State.frame_of_only ?_⟩
  exact Mod.only_trans (Mod.only_mono (s.m.takeInbox_only 3 _) (by simp) (by simp))
    (Mod.only_mono ((s.m.takeInbox 3 (natBytes b)).setStake_only n _) (by simp) (by simp))

/-- The last ARRIVE for a home of the module alone. -/
theorem Does.homeCompleted {s : State} {b : List Byte} {n : Nat} (hon : s.on) (htype : b.getD 0 0 = 0x41)
    (haddr : le (natBytes b) 2 2 = s.m.addr) (hn : n = le (natBytes b) 4 2 % 8192) (hstate : stState (s.m.stake n) = 1)
    (hmode : stMode (s.m.stake n) = 2) (hrel : s.m.relOf n = none) (hscope : stScope (s.m.stake n) = 0)
    (hcount : stArrived (s.m.stake n) + 1 = stCount (s.m.stake n)) (hwaits : ∀ k, stMode (s.m.stake k) ≠ 3) :
    Does (.arriveReceive b) s fun t => stArrived (t.m.stake n) = stCount (s.m.stake n) ∧
      t.m.relOf n = some (s.m.nowNs + stPeriod (s.m.stake n) * 1000) ∧ s.frame [.stk, .lnk] [R.STK_STAT_ARMED] t := by
  refine ⟨_, exec_arriveReceive hon htype haddr hn, ?_⟩
  have counted : stArrived ((s.m.takeInbox 3 (natBytes b)).arrivedAt n |>.stake n) = stCount (s.m.stake n) := by
    rw [Mod.arrivedAt_stake, Mod.takeInbox_stake, stArrived_counts hcount.le, hcount]
  have released := Mod.relOf_append (m := (s.m.takeInbox 3 (natBytes b)).arrivedAt n) (trel := (s.m.takeInbox 3 (natBytes b)).homeRel n) hrel
  obtain ⟨now, -⟩ := Mod.nowNs_only (s.m.takeInbox_only 3 (natBytes b)) (by simp) (by simp)
  rw [Mod.arriveAt_completes (m := s.m.takeInbox 3 (natBytes b)) hstate hmode hrel hscope hcount hwaits]
  refine ⟨counted, released.trans ?_, State.frame_of_only ?_⟩
  · rw [Mod.homeRel_eq, now, Mod.takeInbox_stake]
  · exact Mod.only_trans (Mod.only_mono (s.m.takeInbox_only 3 _) (by simp) (by simp)) (Mod.only_mono (Mod.homeDone_only _ n) (by simp) (by simp))

/-- An ARRIVE for no armed home only counts. -/
theorem Does.arrivalIgnored {s : State} {b : List Byte} {n : Nat} (hon : s.on) (htype : b.getD 0 0 = 0x41)
    (haddr : le (natBytes b) 2 2 = s.m.addr) (hn : n = le (natBytes b) 4 2 % 8192)
    (h : stState (s.m.stake n) ≠ 1 ∨ stMode (s.m.stake n) ≠ 2 ∧ stMode (s.m.stake n) ≠ 4 ∨ s.m.relOf n ≠ none) :
    Does (.arriveReceive b) s fun t => t.m.stk = s.m.stk ∧
      (t.m.word R.STK_ARR_X_CNT_COUNT.addr).toNat = min ((s.m.word R.STK_ARR_X_CNT_COUNT.addr).toNat + 1) (2 ^ 32 - 1) := by
  refine ⟨_, exec_arriveReceive hon htype haddr hn, ?_⟩
  rw [Mod.arriveAt_ignored (m := s.m.takeInbox 3 (natBytes b)) h]
  have bump := Mod.bump_only (ps := [.flt]) (s.m.takeInbox 3 (natBytes b)) R.STK_ARR_X_CNT_COUNT List.mem_cons_self fun _ h => h
  exact ⟨bump.1 .stk (by simp), Mod.word_bump_min (s.m.takeInbox 3 (natBytes b)) R.STK_ARR_X_CNT_COUNT (Fld.apart_of_clear (by decide))⟩

/-! ## A RELEASE reaches the waits (R266, R267) -/

theorem exec_releaseReceive {s : State} {b : List Byte} (hon : s.on) (htype : b.getD 0 0 = 0x42) :
    exec (.releaseReceive b) s = .next { s with m := ((s.m.takeInbox 3 (natBytes b)).takeRelease
      (le (natBytes b) 2 2 % 16384) (le (natBytes b) 4 2 % 8192) (bit (b.getD 1 0).toNat 0) (le (natBytes b) 16 8)) } := by
  have h42 : (natBytes b).getD 0 0 = 0x42 := by rw [getD_natBytes, htype]; rfl
  rw [show exec (.releaseReceive b) s = execReleaseReceive b s from rfl, execReleaseReceive, onMod, if_neg hon]
  simp only
  rw [if_pos h42, getD_natBytes]

/-- A CANCEL cancels every wait that names the home. -/
theorem Does.waitsCancelled {s : State} {b : List Byte} (hon : s.on) (htype : b.getD 0 0 = 0x42) (hcancel : bit (b.getD 1 0).toNat 0 = true) :
    Does (.releaseReceive b) s fun t => (∀ n, stState (s.m.stake n) = 1 → stMode (s.m.stake n) = 3 →
        stHomeAddr (s.m.stake n) = le (natBytes b) 2 2 % 16384 → stHomeStake (s.m.stake n) = le (natBytes b) 4 2 % 8192 →
        stState (t.m.stake n) = 4) ∧ s.frame [.stk, .lnk] [R.STK_STAT_ARMED] t := by
  refine ⟨_, exec_releaseReceive hon htype, ?_⟩
  rw [hcancel, Mod.takeRelease_cancel]
  refine ⟨fun n armed wait home stake => Mod.cancelAll_state _ ((Mod.mem_waits _ _ _ _).mpr ⟨armed, wait, home, stake⟩),
    State.frame_of_only (Mod.only_trans (Mod.only_mono (s.m.takeInbox_only 3 _) (by simp) (by simp))
      (Mod.only_mono (Mod.cancelAll_only _ _) (by simp) (by simp)))⟩

/-- The record of a wait that has taken its release instant. -/
def releasedAt (r : List Nat) (trel : Nat) : List Nat := setBytes r 8 (leBytes 8 trel)

theorem stT_releasedAt (r : List Nat) {trel : Nat} (h : trel < 256 ^ 8) : stT (releasedAt r trel) = trel :=
  (le_setBytes r 8 8 trel).trans (Nat.mod_eq_of_lt h)

theorem stState_releasedAt (r : List Nat) (trel : Nat) : stState (releasedAt r trel) = stState r :=
  congrArg (· % 8) (getD_setBytes_head r _ (by decide))

theorem stMode_releasedAt (r : List Nat) (trel : Nat) : stMode (releasedAt r trel) = stMode r :=
  congrArg (· % 8) (getD_setBytes_head r _ (by decide))

theorem stLocal_releasedAt (r : List Nat) (trel : Nat) : stLocal (releasedAt r trel) = stLocal r :=
  congrArg (bit · 4) (getD_setBytes_head r _ (by decide))

/-- A wait that takes a release instant still to come. -/
def Mod.waitReleased (m : Mod) (n trel : Nat) : Mod :=
  { m.setStake n (releasedAt (m.stake n) trel) with stk.rel := m.stk.rel.filter (fun e => e.1 != n) ++ [(n, trel)] }

theorem Mod.waitReleased_stake (m : Mod) (n trel : Nat) : (m.waitReleased n trel).stake n = releasedAt (m.stake n) trel :=
  (m.stake_setStake n n _).trans (if_pos rfl)

theorem Mod.waitReleased_relOf (m : Mod) (n trel : Nat) : (m.waitReleased n trel).relOf n = some trel := by
  have earlier : (m.stk.rel.filter (fun e => e.1 != n)).find? (fun e => e.1 == n) = none := by simp
  simp [Mod.relOf, Mod.waitReleased, List.find?_append, earlier]

theorem Mod.waitReleased_only (m : Mod) (n trel : Nat) : m.only [.stk] [R.STK_STAT_ARMED] (m.waitReleased n trel) :=
  Mod.only_trans (m.setStake_only n _) (Mod.only_stk _ _ _ (by simp))

theorem Mod.waitReleased_fireAt {m : Mod} {n : Nat} (trel : Nat) (hstate : stState (m.stake n) = 1) (hmode : stMode (m.stake n) = 3) :
    (m.waitReleased n trel).fireAt n = some trel := by
  simp [Mod.fireAt, Mod.waitReleased_stake, stState_releasedAt, stMode_releasedAt, hstate, hmode, Mod.waitReleased_relOf]

/-- The same stakes count by the same instant in two states whose clocks agree. -/
theorem Mod.stakeNow_only {a b : Mod} (h : a.only [.stk] [R.STK_STAT_ARMED] b) {p q : List Nat} (hl : stLocal q = stLocal p) :
    b.stakeNow q = a.stakeNow p := by
  obtain ⟨fleet, own⟩ := Mod.nowNs_only h (by simp) (Fld.apart_of_clear (by decide))
  rw [Mod.stakeNow, Mod.stakeNow, hl, fleet, own]

theorem Mod.releaseOne_waits {m : Mod} {n trel : Nat} (h : m.stakeNow (m.stake n) ≤ trel) : m.releaseOne trel n = m.waitReleased n trel := by
  refine if_pos ?_
  have set : (m.setStake n (releasedAt (m.stake n) trel)).stake n = releasedAt (m.stake n) trel := m.waitReleased_stake n trel
  change (m.setStake n (releasedAt (m.stake n) trel)).stakeNow ((m.setStake n (releasedAt (m.stake n) trel)).stake n) ≤ trel
  rwa [set, Mod.stakeNow_only (m.setStake_only n _) (stLocal_releasedAt (m.stake n) trel)]

/-- An armed wait whose release at `trel` is still to come, in a state reached from `a` through the stakes alone. -/
structure Mod.WaitsFor (a : Mod) (n trel : Nat) (m : Mod) : Prop where
  frame : a.only [.stk] [R.STK_STAT_ARMED] m
  armed : stState (m.stake n) = 1
  mode : stMode (m.stake n) = 3
  early : m.stakeNow (m.stake n) ≤ trel

theorem Mod.WaitsFor.released {a m : Mod} {n trel : Nat} (h : a.WaitsFor n trel m) : a.WaitsFor n trel (m.waitReleased n trel) where
  frame := Mod.only_trans h.frame (m.waitReleased_only n trel)
  armed := by rw [Mod.waitReleased_stake, stState_releasedAt, h.armed]
  mode := by rw [Mod.waitReleased_stake, stMode_releasedAt, h.mode]
  early := by
    rw [Mod.waitReleased_stake, Mod.stakeNow_only (m.waitReleased_only n trel) (stLocal_releasedAt _ trel)]
    exact h.early

/-- Where one armed wait alone names the home, it takes its instant (its number may stand in the store's list more than once). -/
theorem Mod.takeRelease_one {a : Mod} {homeA homeS n trel : Nat} (alone : ∀ k ∈ a.waits homeA homeS, k = n) (listed : n ∈ a.waits homeA homeS)
    (h : a.WaitsFor n trel a) : ∃ m, a.WaitsFor n trel m ∧ a.takeRelease homeA homeS false trel = m.waitReleased n trel := by
  obtain ⟨c, hc⟩ : ∃ c, a.waits homeA homeS = List.replicate (c + 1) n :=
    ⟨_, (List.eq_replicate_of_mem alone).trans (by rw [Nat.sub_add_cancel (List.length_pos_of_mem listed)])⟩
  have before : a.WaitsFor n trel ((List.replicate c n).foldl (Mod.releaseOne trel) a) :=
    List.foldlRecOn (motive := a.WaitsFor n trel) _ _ h fun q hq k hk => by
      rw [List.eq_of_mem_replicate hk, Mod.releaseOne_waits hq.early]
      exact hq.released
  refine ⟨_, before, ?_⟩
  rw [Mod.takeRelease_release, hc, List.replicate_succ', List.foldl_append]
  exact Mod.releaseOne_waits before.early

/-- A release gives the one wait that names the home its instant. -/
theorem Does.waitReleased {s : State} {b : List Byte} {n : Nat} (hon : s.on) (htype : b.getD 0 0 = 0x42) (hcancel : bit (b.getD 1 0).toNat 0 = false)
    (halone : ∀ k, k ≠ n → stState (s.m.stake k) ≠ 1) (hstate : stState (s.m.stake n) = 1) (hmode : stMode (s.m.stake n) = 3)
    (hhome : stHomeAddr (s.m.stake n) = le (natBytes b) 2 2 % 16384) (hstake : stHomeStake (s.m.stake n) = le (natBytes b) 4 2 % 8192)
    (hearly : s.m.stakeNow (s.m.stake n) ≤ le (natBytes b) 16 8) :
    Does (.releaseReceive b) s fun t => t.m.fireAt n = some (le (natBytes b) 16 8) ∧ stT (t.m.stake n) = le (natBytes b) 16 8 ∧
      s.frame [.stk, .lnk] [R.STK_STAT_ARMED] t := by
  refine ⟨_, exec_releaseReceive hon htype, ?_⟩
  have alone : ∀ k ∈ (s.m.takeInbox 3 (natBytes b)).waits (le (natBytes b) 2 2 % 16384) (le (natBytes b) 4 2 % 8192), k = n := fun k hk =>
    by_contra fun hne => halone k hne ((Mod.mem_waits _ _ _ _).mp hk).1
  obtain ⟨m, waits, taken⟩ := Mod.takeRelease_one alone ((Mod.mem_waits _ _ _ _).mpr ⟨hstate, hmode, hhome, hstake⟩)
    ⟨Mod.only_refl _ _ _, hstate, hmode, hearly⟩
  rw [hcancel, taken]
  dsimp only
  refine ⟨Mod.waitReleased_fireAt _ waits.armed waits.mode, ?_, State.frame_of_only ?_⟩
  · exact (congrArg stT (m.waitReleased_stake n _)).trans (stT_releasedAt _ (le_lt _ 16 8))
  · exact Mod.only_trans (Mod.only_mono (s.m.takeInbox_only 3 _) (by simp) (by simp))
      (Mod.only_mono waits.released.frame (by simp) (by simp))

/-! ## The deadline of a home (R267) -/

theorem exec_barrierDeadline {s : State} {n : Fin 8192} (hon : s.on) (hstate : stState (s.m.stake n) = 1) (hmode : stMode (s.m.stake n) = 4)
    (hrel : s.m.relOf n = none) (hdue : stT (s.m.stake n) < s.m.stakeNow (s.m.stake n) + 5000) : exec (.barrierDeadline n) s =
      .next { s with m := ((s.m.expireStake n).sendRelease n true 0).takeRelease s.m.addr n true 0 } := by
  rw [show exec (.barrierDeadline n) s = execBarrierDeadline n s from rfl, execBarrierDeadline, onMod, if_neg hon]
  simp only
  rw [if_pos (by rw [hstate, hmode, hrel, decide_eq_true hdue]; rfl)]

/-- A home that is not complete at its deadline expires and cancels its waits. -/
theorem Does.homeExpired {s : State} {n : Fin 8192} (hon : s.on) (hstate : stState (s.m.stake n) = 1) (hmode : stMode (s.m.stake n) = 4)
    (hrel : s.m.relOf n = none) (hdue : stT (s.m.stake n) < s.m.stakeNow (s.m.stake n) + 5000) :
    Does (.barrierDeadline n) s fun t => stState (t.m.stake n) = 3 ∧ t.m.get R.STK_EVT_EXPIRE = 1 ∧
      (t.m.word R.STK_EXP_CNT_COUNT.addr).toNat = min ((s.m.word R.STK_EXP_CNT_COUNT.addr).toNat + 1) (2 ^ 32 - 1) ∧
      (∀ k, stState (s.m.stake k) = 1 → stMode (s.m.stake k) = 3 → stHomeAddr (s.m.stake k) = s.m.addr →
        stHomeStake (s.m.stake k) = n.val → stState (t.m.stake k) = 4) ∧ s.m.onlyParts [.stk, .lnk, .flt] t.m := by
  refine ⟨_, exec_barrierDeadline hon hstate hmode hrel hdue, ?_⟩
  obtain ⟨expired, others, event, counted⟩ := s.m.expireStake_shows n
  have sent := (s.m.expireStake n).sendRelease_only n true 0
  have cancels := ((s.m.expireStake n).sendRelease n true 0).cancelAll_only
    (((s.m.expireStake n).sendRelease n true 0).waits s.m.addr n)
  have stakes : ∀ k, ((s.m.expireStake n).sendRelease n true 0).stake k = (s.m.expireStake n).stake k := Mod.stake_congr (sent.1 .stk (by simp))
  have parts := Mod.onlyParts_trans (ps := [.stk, .lnk, .flt]) (Mod.onlyParts_mono (s.m.expireStake_only n).1 (by simp))
    (Mod.onlyParts_trans (Mod.onlyParts_mono sent.1 (by simp)) (Mod.onlyParts_mono cancels.1 (by simp)))
  rw [Mod.takeRelease_cancel]
  dsimp only
  refine ⟨?_, ?_, ?_, fun k armed wait home stake => ?_, ?_⟩
  · have kept := ((s.m.expireStake n).sendRelease n true 0).cancelAll_ne
      (l := ((s.m.expireStake n).sendRelease n true 0).waits s.m.addr n) (k := n) fun hn => by
        have armed := ((Mod.mem_waits _ _ _ _).mp hn).1
        rw [stakes, expired] at armed
        exact absurd armed (by decide)
    rw [kept, stakes, expired]
  · rw [Mod.only_get cancels _ (Fld.apart_of_clear (by decide)), Mod.only_get sent _ (by simp), event]
  · rw [Mod.only_word cancels _ (Fld.apart_of_clear (by decide)), Mod.only_word sent _ (by simp), counted]
  · have other : n.val ≠ k := by rintro rfl; omega
    have listed : k ∈ ((s.m.expireStake n).sendRelease n true 0).waits s.m.addr n := by
      rw [Mod.mem_waits, stakes, others k other]
      exact ⟨armed, wait, home, stake⟩
    exact Mod.cancelAll_state _ listed
  · exact parts

/-- Settles O33: each clause by what its message or instant does, the folds over the waits by a list that holds the one wait's number alone. -/
theorem barriers : Obligations.Barriers :=
  ⟨fun _ _ hw hon mode state away => Does.arriveSent hw hon mode state away,
    fun _ _ _ hon type addr hn state mode rel count => Does.arrivalCounted hon type addr hn state mode rel count,
    fun _ _ _ hon type addr hn state mode rel scope count waits => Does.homeCompleted hon type addr hn state mode rel scope count waits,
    fun _ _ hon type cancel => Does.waitsCancelled hon type cancel,
    fun _ _ _ hon _ type cancel alone state mode home stake early => Does.waitReleased hon type cancel alone state mode home stake early,
    fun _ _ hon state mode rel due => Does.homeExpired hon state mode rel due,
    fun _ _ _ hon type addr hn h => Does.arrivalIgnored hon type addr hn h⟩

end Sys2Proof.Machine
end

section
/-!
PROOFS. An optical measurement within the second after the last report of CLEAN_REQ (R299, R301), which refutes the statement Optics.
-/
namespace Sys2Proof.Machine

/-- Port 0 is up with seven bad return losses in a row behind it; its CLEAN condition has ended, and was last raised in this second. -/
def cleanedLately : State :=
  { m := { ({} : Mod).puts [(R.LNK_PSTAT_STATE 0, 2)] with
      lnk.ports := [{ badLoc := 7 }], flt.lastRaise := [(raiseKey 13 0 0x0C, 0)] } }

/-- The eighth bad return loss starts no condition there: the limit of one report per second holds it back. -/
theorem exec_opticalDiag_cleanedLately :
    ∃ t, exec (.opticalDiag 0 0 0 0 0 0) cleanedLately = .next t ∧ t.m.condOn 13 0 0x0C 0 = false :=
  ⟨_, rfl, by decide +kernel⟩

/-- Refutes O28: its second part says the eighth bad return loss in a row starts CLEAN; within a second of the last such report, which no premise
excludes, the rate limit of R301 lets none start. -/
theorem not_optics : ¬ Obligations.Optics := by
  unfold Obligations.Optics
  rintro ⟨-, eighth, -⟩
  obtain ⟨t, ht, -, -, -, started⟩ :=
    eighth cleanedLately 0 0 0 0 0 (by decide) (by decide) (by decide) (by decide) (by decide +kernel)
  obtain ⟨u, hu, silent⟩ := exec_opticalDiag_cleanedLately
  obtain rfl := Host.Outcome.next.inj (ht.symm.trans hu)
  exact absurd (silent.symm.trans started) (by decide)

end Sys2Proof.Machine
end

section
/-!
PROOFS. Link frames and the buffer pool: what a frame on the fibre changes of its port (R272, R275), what a port that sends keeps (R279, R282),
and the pool and the stops that follow (R278, R280).
-/
namespace Sys2Proof.Machine

/-! ## A frame on the fibre (R272, R275) -/

/-- What a frame on the fibre may change of its port: the last frame, the credits to return, the lane coding. -/
def Port.framed (q x : Port) : Prop :=
  ∃ tx r0 r1 r2 scr turn fibre, x = { q with lastTx := tx, ret0 := r0, ret1 := r1, ret2 := r2, scr := scr, turn := turn, fibre := fibre }

theorem Port.framed_refl (q : Port) : q.framed q := ⟨_, _, _, _, _, _, _, rfl⟩

theorem Port.framed_trans {a b c : Port} (h : a.framed b) (k : b.framed c) : a.framed c := by
  obtain ⟨_, _, _, _, _, _, _, rfl⟩ := h
  obtain ⟨_, _, _, _, _, _, _, rfl⟩ := k
  exact ⟨_, _, _, _, _, _, _, rfl⟩

/-- The lane coding of a frame changes the scramblers, the lane whose turn is next and the blocks on the fibre. -/
theorem Port.stripe_coded (q : Port) (one : Bool) (bs : List Nat) :
    ∃ scr turn fibre, q.stripe one bs = { q with scr := scr, turn := turn, fibre := fibre } := by
  refine List.foldlRecOn (motive := fun x : Port => ∃ scr turn fibre, x = { q with scr := scr, turn := turn, fibre := fibre }) bs _
    ⟨_, _, _, rfl⟩ fun x hx b _ => ?_
  obtain ⟨_, _, _, rfl⟩ := hx
  split
  · exact ⟨_, _, _, rfl⟩
  · exact ⟨_, _, _, rfl⟩

/-- The frame that a port builds (Table 09-4). -/
structure Frame.BuiltBy (f : Frame) (q : Port) (t : FType) (lseq cls : Nat) (body : List Nat) : Prop where
  lh0 : f.lh0 = lseq % 4096 + q.rxSeq % 4096 * 2 ^ 12 + ftypeCode t * 2 ^ 24 + cls % 4 * 2 ^ 28
  body : f.body = body
  crc : f.crc = crc32 (leBytes 4 f.lh0 ++ leBytes 4 f.lh1 ++ f.body)

theorem Frame.BuiltBy.type {f : Frame} {q : Port} {t : FType} {lseq cls : Nat} {body : List Nat} (h : f.BuiltBy q t lseq cls body) :
    bits f.lh0 24 4 = ftypeCode t := by
  have htype : ftypeCode t < 16 := by cases t <;> decide
  rw [h.lh0, bits]
  omega

theorem Frame.BuiltBy.lseq {f : Frame} {q : Port} {t : FType} {lseq cls : Nat} {body : List Nat} (h : f.BuiltBy q t lseq cls body) :
    bits f.lh0 0 12 = lseq % 4096 := by
  rw [h.lh0, bits]
  omega

theorem Frame.BuiltBy.lack {f : Frame} {q : Port} {t : FType} {lseq cls : Nat} {body : List Nat} (h : f.BuiltBy q t lseq cls body) :
    bits f.lh0 12 12 = q.rxSeq % 4096 := by
  rw [h.lh0, bits]
  omega

theorem Mod.sendFrame_only (m : Mod) (p : Nat) (t : FType) (lseq cls : Nat) (body : List Nat) : m.only [.lnk] [] (m.sendFrame p t lseq cls body) :=
  m.setPort_only p _

/-- The port shows the frame it built, and changes as a frame on the fibre changes it. -/
theorem Mod.sendFrame_sent (m : Mod) {p : Nat} (t : FType) (lseq cls : Nat) (body : List Nat) (hp : p < 7) :
    (∃ f, ((m.sendFrame p t lseq cls body).port p).lastTx = some f ∧ f.BuiltBy (m.port p) t lseq cls body) ∧
      (m.port p).framed ((m.sendFrame p t lseq cls body).port p) := by
  unfold Mod.sendFrame
  extract_lets q h0 c0 c1 c2 h1 f one
  rw [Mod.port_setPort _ _ _ _ hp, if_pos rfl]
  obtain ⟨scr, turn, fibre, coded⟩ := Port.stripe_coded
    { m.port p with lastTx := some f, ret0 := (m.port p).ret0 - c0, ret1 := (m.port p).ret1 - c1, ret2 := (m.port p).ret2 - c2 } one
    (blocks8 f.bytes)
  rw [coded]
  exact ⟨⟨f, rfl, rfl, rfl, rfl⟩, _, _, _, _, _, _, _, rfl⟩

theorem Mod.sendFrame_framed (m : Mod) (p : Nat) {r : Nat} (t : FType) (lseq cls : Nat) (body : List Nat) (hr : r < 7) :
    (m.port r).framed ((m.sendFrame p t lseq cls body).port r) := by
  by_cases h : p = r
  · subst h
    exact (m.sendFrame_sent t lseq cls body hr).2
  · unfold Mod.sendFrame
    extract_lets q h0 c0 c1 c2 h1 f one
    rw [Mod.port_setPort _ _ _ _ hr, if_neg h]
    exact Port.framed_refl _

/-! ## What a port that sends keeps (R275, R279) -/

/-- A port keeps its light and the last frame it received, and every message it held waits or is unacknowledged. -/
structure Port.keeps (q x : Port) : Prop where
  light : x.light = q.light
  rxSeq : x.rxSeq = q.rxSeq
  held : ∀ g ∈ q.txq ++ q.retry.map (·.msg), g ∈ x.txq ++ x.retry.map (·.msg)

theorem Port.keeps_refl (q : Port) : q.keeps q := ⟨rfl, rfl, fun _ h => h⟩

theorem Port.keeps_trans {a b c : Port} (h : a.keeps b) (k : b.keeps c) : a.keeps c :=
  ⟨k.light.trans h.light, k.rxSeq.trans h.rxSeq, fun g hg => k.held g (h.held g hg)⟩

theorem Port.keeps_of_framed {q x : Port} (h : q.framed x) : q.keeps x := by
  obtain ⟨_, _, _, _, _, _, _, rfl⟩ := h
  exact ⟨rfl, rfl, fun _ hg => hg⟩

/-- From `m` to `x` the ports alone change, and each keeps what `Port.keeps` says. -/
def Mod.sendsFrom (m x : Mod) : Prop := (∃ l, x = { m with lnk.ports := l }) ∧ ∀ r < 7, (m.port r).keeps (x.port r)

theorem Mod.sendsFrom_refl (m : Mod) : m.sendsFrom m := ⟨⟨_, rfl⟩, fun _ _ => Port.keeps_refl _⟩

theorem Mod.sendsFrom_trans {a b c : Mod} (h : a.sendsFrom b) (k : b.sendsFrom c) : a.sendsFrom c := by
  obtain ⟨⟨l, rfl⟩, hb⟩ := h
  obtain ⟨⟨n, rfl⟩, hc⟩ := k
  exact ⟨⟨n, rfl⟩, fun r hr => Port.keeps_trans (hb r hr) (hc r hr)⟩

theorem Mod.sendsFrom_foldl {α : Type} (f : Mod → α → Mod) (l : List α) (hf : ∀ (q : Mod) a, q.sendsFrom (f q a)) (m : Mod) :
    m.sendsFrom (l.foldl f m) :=
  List.foldlRecOn (motive := fun q => m.sendsFrom q) l f m.sendsFrom_refl fun q hq a _ => Mod.sendsFrom_trans hq (hf q a)

theorem Mod.sendsFrom_only {m x : Mod} (h : m.sendsFrom x) : m.only [.lnk] [] x := by
  obtain ⟨⟨l, rfl⟩, -⟩ := h
  exact Mod.only_lnk m _ [] (by simp)

theorem Mod.sendFrame_sendsFrom (m : Mod) (p : Nat) (t : FType) (lseq cls : Nat) (body : List Nat) : m.sendsFrom (m.sendFrame p t lseq cls body) :=
  ⟨⟨_, rfl⟩, fun _ hr => Port.keeps_of_framed (m.sendFrame_framed p t lseq cls body hr)⟩

/-- A message of the list is the first that fits, or stays when the first that fits is taken out. -/
theorem mem_eraseP_of_find {l : List Msg} {fits : Msg → Bool} {g x : Msg} (h : l.find? fits = some g) (hx : x ∈ l) :
    x = g ∨ x ∈ l.eraseP fits := by
  induction l with
  | nil => exact absurd hx List.not_mem_nil
  | cons a l ih =>
    by_cases ha : fits a = true
    · rw [List.find?_cons_of_pos ha] at h
      rw [List.eraseP_cons_of_pos ha]
      obtain rfl := Option.some.inj h
      exact List.mem_cons.mp hx
    · rw [List.find?_cons_of_neg ha] at h
      rw [List.eraseP_cons_of_neg ha]
      rcases List.mem_cons.mp hx with rfl | hx
      · exact .inr List.mem_cons_self
      · exact (ih h hx).imp_right (List.mem_cons_of_mem _)

/-- A change of one port that keeps what `Port.keeps` says. -/
theorem Mod.setPort_sendsFrom (m : Mod) (p : Nat) {f : Port → Port} (h : (m.port p).keeps (f (m.port p))) : m.sendsFrom (m.setPort p f) := by
  refine ⟨⟨_, rfl⟩, fun r hr => ?_⟩
  rw [Mod.port_setPort _ _ _ _ hr]
  split
  next hpr => exact hpr ▸ h
  next => exact Port.keeps_refl _

theorem Mod.sendOne_sendsFrom (m : Mod) (p c : Nat) : m.sendsFrom (m.sendOne p c) := by
  unfold Mod.sendOne
  extract_lets q
  split
  · exact m.sendsFrom_refl
  next g hg =>
    refine Mod.sendsFrom_trans (m.setPort_sendsFrom p ⟨rfl, rfl, fun x hx => ?_⟩) (Mod.sendFrame_sendsFrom _ p .msg _ _ _)
    simp only [List.map_append, List.map_cons, List.map_nil]
    rcases List.mem_append.mp hx with hx | hx
    · rcases mem_eraseP_of_find hg hx with rfl | hx
      · exact List.mem_append_right _ (by simp)
      · exact List.mem_append_left _ hx
    · exact List.mem_append_right _ (List.mem_append_left _ hx)

theorem Mod.pumpN_sendsFrom (m : Mod) (p n : Nat) : m.sendsFrom (m.pumpN p n) := by
  induction n generalizing m with
  | zero => exact m.sendsFrom_refl
  | succ n ih =>
    unfold Mod.pumpN
    split
    · exact m.sendsFrom_refl
    · exact Mod.sendsFrom_trans (m.sendOne_sendsFrom p _) (ih _)

theorem Mod.pump_sendsFrom (m : Mod) (p : Nat) : m.sendsFrom (m.pump p) := by
  unfold Mod.pump
  split
  · exact m.pumpN_sendsFrom p _
  · exact m.sendsFrom_refl

/-- A port with nothing to send changes nothing. -/
theorem Mod.pump_idle {m : Mod} {p : Nat} (h : (m.port p).txq = []) : m.pump p = m := by
  unfold Mod.pump
  rw [h]
  split <;> rfl

theorem Mod.sendStops_sendsFrom (m : Mod) : m.sendsFrom m.sendStops := by
  refine Mod.sendsFrom_foldl _ _ (fun q p => ?_) m
  split
  · exact q.sendFrame_sendsFrom p _ _ _ _
  · exact q.sendsFrom_refl

/-! ## The pool and the stops follow (R278, R280, R281) -/

/-- From `m` to `x` the messages taken in and the held paths stay, and each port keeps what `Port.keeps` says. -/
structure Mod.linkKeeps (m x : Mod) : Prop where
  inbox : x.lnk.inbox = m.lnk.inbox
  heldq : x.lnk.heldq = m.lnk.heldq
  holds : x.lnk.holds = m.lnk.holds
  ports : ∀ r < 7, (m.port r).keeps (x.port r)

theorem Mod.linkKeeps_trans {a b c : Mod} (h : a.linkKeeps b) (k : b.linkKeeps c) : a.linkKeeps c :=
  ⟨k.inbox.trans h.inbox, k.heldq.trans h.heldq, k.holds.trans h.holds, fun r hr => Port.keeps_trans (h.ports r hr) (k.ports r hr)⟩

theorem Mod.port_congr {a b : Mod} (h : b.lnk = a.lnk) (r : Nat) : b.port r = a.port r := by rw [Mod.port, Mod.port, h]

theorem Mod.linkKeeps_of_lnk {a b : Mod} (h : b.lnk = a.lnk) : a.linkKeeps b := by
  refine ⟨?_, ?_, ?_, fun r _ => ?_⟩
  · rw [h]
  · rw [h]
  · rw [h]
  · rw [Mod.port_congr h]
    exact Port.keeps_refl _

theorem Mod.linkKeeps_of_sends {a b : Mod} (h : a.sendsFrom b) : a.linkKeeps b := by
  obtain ⟨⟨l, rfl⟩, ports⟩ := h
  exact ⟨rfl, rfl, rfl, ports⟩

theorem Mod.linkKeeps_of_only {a b : Mod} {fs : List Fld} (h : a.only [.flt] fs b) : a.linkKeeps b := Mod.linkKeeps_of_lnk (h.1 .lnk (by simp))

/-- The fields that the pool writes. -/
def poolFlds : List Fld :=
  [R.LNK_POOL_FREE, R.LNK_POOL_MIN_FREE, R.LNK_STAT_POOL_LOW, R.LNK_EVT_POOL_LOW] ++ repFlds 13 ++ cntFlds R.LNK_STOP_CNT_COUNT.addr

theorem repFlds_sub_poolFlds {f : Fld} (h : f ∈ repFlds 13) : f ∈ poolFlds := List.mem_append_left _ (List.mem_append_right _ h)

theorem Mod.condStartLim_only (m : Mod) (key blk inst kind addr : Nat) : m.only [.flt] (repFlds blk) (m.condStartLim key blk inst kind addr) :=
  (Mod.condStartLim_frame m key blk inst kind addr fun _ h => h).symm

theorem Mod.endStalls_only (m : Mod) : m.only [.flt] (repFlds 13) m.endStalls :=
  Mod.only_foldl _ _ (fun q c _ => q.condEnd_only 13 c.inst 7 c.addr c.cls) m

/-- The pool's registers and its report. -/
def Mod.poolShown (m : Mod) : Mod :=
  let f := m.poolFree
  let low := decide (f < m.poolLow)
  let m := m.puts [(R.LNK_POOL_FREE, f), (R.LNK_POOL_MIN_FREE, min f (m.get R.LNK_POOL_MIN_FREE)), (R.LNK_STAT_POOL_LOW, b2n low)]
  if low && !m.condOn 13 7 6 0 then (m.put R.LNK_EVT_POOL_LOW 1).condStartLim (raiseKey 13 7 6) 13 7 6 0
  else if low then m else m.condEnd 13 7 6 0 0

theorem Mod.poolShown_only (m : Mod) : m.only [.flt] poolFlds m.poolShown := by
  unfold Mod.poolShown
  extract_lets f low shown
  have hshown : m.only [.flt] poolFlds shown := Mod.only_puts m _ _ (by simp [poolFlds])
  split
  · exact Mod.only_trans hshown (Mod.only_trans (Mod.only_put _ _ 1 _ (by simp [poolFlds]))
      (Mod.only_mono (Mod.condStartLim_only _ _ 13 7 6 0) (fun _ h => h) fun _ => repFlds_sub_poolFlds))
  · split
    · exact hshown
    · exact Mod.only_trans hshown (Mod.only_mono (Mod.condEnd_only _ 13 7 6 0 0) (fun _ h => h) fun _ => repFlds_sub_poolFlds)

/-- The stopped channels and the two classes a full pool stops. -/
def Mod.stopsSet (m : Mod) (l : List (Nat × Nat)) (p3 p2 : Option Nat) : Mod := { m with lnk.stopped := l, lnk.pool3 := p3, lnk.pool2 := p2 }

/-- A change of the stops leaves as STOPMAP. -/
def Mod.stopsTold (m : Mod) (same : Bool) : Mod := if same then m else m.sendStops

/-- New stops count. -/
def Mod.stopsCounted (m : Mod) (n : Nat) : Mod := if n = 0 then m else m.bumpBy R.LNK_STOP_CNT_COUNT.addr n

theorem Mod.syncPool_eq (m : Mod) : ∃ l p3 p2 same n,
    m.syncPool = ((m.poolShown.stopsSet l p3 p2).endStalls.stopsTold same).stopsCounted n := ⟨_, _, _, _, _, rfl⟩

theorem Mod.stopsSet_only (m : Mod) (l : List (Nat × Nat)) (p3 p2 : Option Nat) : m.only [.lnk] [] (m.stopsSet l p3 p2) :=
  Mod.only_lnk m _ [] (by simp)

theorem Mod.stopsTold_sendsFrom (m : Mod) (same : Bool) : m.sendsFrom (m.stopsTold same) := by
  unfold Mod.stopsTold
  split
  · exact m.sendsFrom_refl
  · exact m.sendStops_sendsFrom

theorem Mod.stopsCounted_only (m : Mod) (n : Nat) : m.only [.flt] (cntFlds R.LNK_STOP_CNT_COUNT.addr) (m.stopsCounted n) := by
  unfold Mod.stopsCounted
  split
  · exact Mod.only_refl m _ _
  · exact Mod.bumpBy_frame m _ n (by simp) fun _ h => h

theorem Mod.syncPool_only (m : Mod) : m.only [.lnk, .flt] poolFlds m.syncPool := by
  obtain ⟨l, p3, p2, same, n, eq⟩ := m.syncPool_eq
  rw [eq]
  refine Mod.only_trans (Mod.only_mono m.poolShown_only (by simp) fun _ h => h) (Mod.only_trans
    (Mod.only_mono (Mod.stopsSet_only _ l p3 p2) (by simp) (by simp)) (Mod.only_trans
      (Mod.only_mono (Mod.endStalls_only _) (by simp) fun _ => repFlds_sub_poolFlds) (Mod.only_trans
        (Mod.only_mono (Mod.sendsFrom_only (Mod.stopsTold_sendsFrom _ same)) (by simp) (by simp))
        (Mod.only_mono (Mod.stopsCounted_only _ n) (by simp) fun _ h => List.mem_append_right _ h))))

theorem Mod.syncPool_linkKeeps (m : Mod) : m.linkKeeps m.syncPool := by
  obtain ⟨l, p3, p2, same, n, eq⟩ := m.syncPool_eq
  rw [eq]
  have stops : m.poolShown.linkKeeps (m.poolShown.stopsSet l p3 p2) := ⟨rfl, rfl, rfl, fun _ _ => Port.keeps_refl _⟩
  exact Mod.linkKeeps_trans (Mod.linkKeeps_of_only m.poolShown_only) (Mod.linkKeeps_trans stops
    (Mod.linkKeeps_trans (Mod.linkKeeps_of_only (Mod.endStalls_only _)) (Mod.linkKeeps_trans
      (Mod.linkKeeps_of_sends (Mod.stopsTold_sendsFrom _ same)) (Mod.linkKeeps_of_only (Mod.stopsCounted_only _ n)))))

theorem Mod.pumpAll_sent (m : Mod) : m.sendsFrom ((List.range 7).foldl Mod.pump m) := Mod.sendsFrom_foldl _ _ (fun q p => q.pump_sendsFrom p) m

theorem Mod.pumpAll_only (m : Mod) : m.only [.lnk, .flt] poolFlds m.pumpAll :=
  Mod.only_trans (Mod.only_mono (Mod.sendsFrom_only m.pumpAll_sent) (by simp) (by simp)) (Mod.syncPool_only _)

theorem Mod.pumpAll_linkKeeps (m : Mod) : m.linkKeeps m.pumpAll :=
  Mod.linkKeeps_trans (Mod.linkKeeps_of_sends m.pumpAll_sent) (Mod.syncPool_linkKeeps _)

end Sys2Proof.Machine
end

section
/-!
PROOFS. What a lost port leaves standing: its condition among all reports that follow (R307, R308), and its light, while roles, tree and pool follow
the loss (R26, R274, R286, R296).
-/
namespace Sys2Proof.Machine

/-! ## The list of conditions (R307, R308) -/

theorem Mod.condOn_iff (m : Mod) (b i k a : Nat) : m.condOn b i k a = true ↔ ∃ cls, (⟨b, i, k, a, cls, false⟩ : Cond) ∈ m.flt.conds := by
  simp only [Mod.condOn, List.any_eq_true, Bool.and_eq_true, beq_iff_eq, Bool.not_eq_true']
  constructor
  · rintro ⟨⟨_, _, _, _, cls, _⟩, hmem, ⟨⟨⟨rfl, rfl⟩, rfl⟩, rfl⟩, rfl⟩
    exact ⟨cls, hmem⟩
  · rintro ⟨cls, hmem⟩
    exact ⟨_, hmem, ⟨⟨⟨rfl, rfl⟩, rfl⟩, rfl⟩, rfl⟩

theorem Mod.condOn_congr {a b : Mod} (h : b.flt.conds = a.flt.conds) (blk inst kind addr : Nat) :
    b.condOn blk inst kind addr = a.condOn blk inst kind addr := by rw [Mod.condOn, Mod.condOn, h]

theorem Mod.enterReport_conds (m : Mod) (r : Rep) : (m.enterReport r).flt.conds = m.flt.conds := by
  unfold Mod.enterReport
  simp only
  repeat' split
  all_goals rfl

/-- The condition a report is of. -/
def Rep.cond (r : Rep) : Cond := ⟨r.blk, r.inst, r.kind, r.addr, r.cls, r.forced⟩

/-- A START enters its condition, a CLR takes it out. -/
def Rep.condsAfter (r : Rep) (l : List Cond) : List Cond :=
  match r.ind with
  | .event => l
  | .start => if r.cond ∈ l then l else l ++ [r.cond]
  | .clr => l.erase r.cond

theorem Rep.cond_mem_condsAfter {r : Rep} (h : r.ind = .start) (l : List Cond) : r.cond ∈ r.condsAfter l := by
  simp only [Rep.condsAfter, h]
  by_cases hc : r.cond ∈ l
  · rw [if_pos hc]
    exact hc
  · rw [if_neg hc]
    exact List.mem_append_right _ List.mem_cons_self

theorem Mod.reportLines_conds (m : Mod) (r : Rep) : (m.reportLines r).flt.conds = r.condsAfter m.flt.conds := by
  unfold Mod.reportLines
  extract_lets x shown c old entered
  have hshown : shown.flt = m.flt := by
    unfold shown
    repeat' split
    all_goals rfl
  clear_value shown
  rw [← hshown]
  have hentered : entered.flt.conds = if c ∈ shown.flt.conds then shown.flt.conds else shown.flt.conds ++ [c] := by
    unfold entered
    by_cases hc : c ∈ shown.flt.conds
    · rw [if_pos hc, if_pos hc]
    · rw [if_neg hc, if_neg hc]
  unfold Rep.condsAfter
  generalize r.ind = i
  cases i with
  | event => rfl
  | start => exact hentered
  | clr => rfl

theorem Mod.reportLines_event_conds (m : Mod) {r : Rep} (h : r.ind = .event) : (m.reportLines r).flt.conds = m.flt.conds := by
  rw [m.reportLines_conds r, Rep.condsAfter, h]

/-- A counter leaves the conditions when the report of its saturation does. -/
theorem Mod.countBy_conds (m : Mod) (a n : Nat) {tell : Mod → Rep → Mod}
    (ht : ∀ (q : Mod) r, r.ind = .event → (tell q r).flt.conds = q.flt.conds) : (m.countBy a n tell).flt.conds = m.flt.conds := by
  unfold Mod.countBy
  simp only
  split
  · rfl
  · exact Mod.satMark_keeps (P := fun q => q.flt.conds = m.flt.conds) (fun _ _ h => h) (fun _ _ _ _ h => h)
      (fun q r _ _ he h => (ht q r he).trans h) rfl

theorem Mod.pushReport_conds (m : Mod) (r : Rep) : (m.pushReport r).flt.conds = m.flt.conds := by
  unfold Mod.pushReport
  split
  · refine (Mod.countBy_conds _ _ 1 fun q x he => ?_).trans (m.enterReport_conds r)
    exact (Mod.enterReport_conds _ x).trans (q.reportLines_event_conds he)
  · exact m.enterReport_conds r

theorem Mod.bumpBy_conds (m : Mod) (a n : Nat) : (m.bumpBy a n).flt.conds = m.flt.conds :=
  Mod.countBy_conds m a n fun q x he => (Mod.pushReport_conds _ x).trans (q.reportLines_event_conds he)

/-- A condition stands after every report but its own CLR. -/
theorem Mod.report_condOn {m : Mod} {b i k a : Nat} (r : Rep) (hr : r.ind = .clr → r.blk ≠ b ∨ r.kind ≠ k) (h : m.condOn b i k a = true) :
    (m.report r).condOn b i k a = true := by
  unfold Mod.report
  split
  · exact h
  · obtain ⟨cls, hmem⟩ := (m.condOn_iff b i k a).mp h
    refine (Mod.condOn_iff _ b i k a).mpr ⟨cls, ?_⟩
    rw [Mod.pushReport_conds, Mod.reportLines_conds]
    unfold Rep.condsAfter
    split
    · exact hmem
    · split
      · exact hmem
      · exact List.mem_append_left _ hmem
    next hclr =>
      refine (List.mem_erase_of_ne fun e => ?_).mpr hmem
      rcases hr hclr with hne | hne
      · exact hne (congrArg Cond.blk e).symm
      · exact hne (congrArg Cond.kind e).symm

/-- A condition whose START the collector takes is on. -/
theorem Mod.condStart_on {m : Mod} {b i : Nat} (k a cls : Nat) (h : m.takes b i) : (m.condStart b i k a cls).condOn b i k a = true := by
  obtain ⟨hreset, hpage, -, -⟩ := h
  unfold Mod.condStart
  split
  · assumption
  · have heard : m.silent b i = false := by rw [Mod.silent, hreset, hpage]; rfl
    rw [Mod.report, if_neg (by simp [heard])]
    refine (Mod.condOn_iff _ b i k a).mpr ⟨cls, ?_⟩
    rw [Mod.pushReport_conds, Mod.reportLines_conds]
    exact Rep.cond_mem_condsAfter rfl _

theorem Mod.condStart_condOn {m : Mod} {b i k a : Nat} (blk inst kind addr cls : Nat) (h : m.condOn b i k a = true) :
    (m.condStart blk inst kind addr cls).condOn b i k a = true := by
  unfold Mod.condStart
  split
  · exact h
  · exact Mod.report_condOn _ (by simp) h

theorem Mod.condStartLim_condOn {m : Mod} {b i k a : Nat} (key blk inst kind addr : Nat) (h : m.condOn b i k a = true) :
    (m.condStartLim key blk inst kind addr).condOn b i k a = true := by
  unfold Mod.condStartLim
  split
  · exact h
  · exact (Mod.condOn_congr rfl b i k a).trans (Mod.condStart_condOn blk inst kind addr 0 h)

theorem Mod.condEnd_condOn {m : Mod} {b i k a : Nat} (blk inst kind addr cls : Nat) (hne : blk ≠ b ∨ kind ≠ k) (h : m.condOn b i k a = true) :
    (m.condEnd blk inst kind addr cls).condOn b i k a = true := by
  unfold Mod.condEnd
  split
  · exact Mod.report_condOn _ (fun _ => hne) h
  · exact h

theorem Mod.raiseLim_condOn {m : Mod} {b i k a : Nat} (win blk inst kind addr cls : Nat) (h : m.condOn b i k a = true) :
    (m.raiseLim win blk inst kind addr cls).condOn b i k a = true := by
  unfold Mod.raiseLim
  simp only
  split
  · exact (Mod.condOn_congr rfl b i k a).trans (Mod.report_condOn _ (by simp) h)
  · exact h

theorem Mod.endConds_condOn {m : Mod} {b i k a : Nat} (blk : Nat) (kinds : List Nat) (hne : blk ≠ b) (h : m.condOn b i k a = true) :
    (m.endConds blk kinds).condOn b i k a = true := by
  refine List.foldlRecOn (motive := fun q : Mod => q.condOn b i k a = true) _ _ h fun q hq c hc => ?_
  refine Mod.condEnd_condOn _ _ _ _ _ (.inl ?_) hq
  have hblk := List.of_mem_filter hc
  simp only [Bool.and_eq_true, beq_iff_eq] at hblk
  rw [hblk.1.1]
  exact hne

/-! ## A port that is down stays down (R274) -/

/-- The port has no light, and its PORT_DOWN stands. -/
def Mod.staysDown (m : Mod) (p : Nat) : Prop := (m.port p).light = false ∧ m.condOn 13 p 1 0 = true

section
variable {m : Mod} {p : Nat}

theorem Mod.staysDown_of_sends {x : Mod} (hp : p < 7) (hx : m.sendsFrom x) (h : m.staysDown p) : x.staysDown p := by
  obtain ⟨⟨l, rfl⟩, ports⟩ := hx
  exact ⟨((ports p hp).light).trans h.1, h.2⟩

/-- A report and its registers leave the ports. -/
theorem Mod.staysDown_of_only {x : Mod} {fs : List Fld} (hx : m.only [.flt] fs x) (hc : m.condOn 13 p 1 0 = true → x.condOn 13 p 1 0 = true)
    (h : m.staysDown p) : x.staysDown p :=
  ⟨(congrArg Port.light (Mod.port_congr (hx.1 .lnk (by simp)) p)).trans h.1, hc h.2⟩

theorem Mod.staysDown_puts (l : List (Fld × Nat)) (h : m.staysDown p) : (m.puts l).staysDown p := by
  rw [Mod.puts_regs_only]
  exact h

theorem Mod.staysDown_put (f : Fld) (v : Nat) (h : m.staysDown p) : (m.put f v).staysDown p := ⟨h.1, h.2⟩

theorem Mod.staysDown_condStart (inst kind addr cls : Nat) {blk : Nat} (h : m.staysDown p) : (m.condStart blk inst kind addr cls).staysDown p :=
  Mod.staysDown_of_only (m.condStart_only blk inst kind addr cls) (Mod.condStart_condOn _ _ _ _ _) h

theorem Mod.staysDown_condStartLim (key inst kind addr : Nat) {blk : Nat} (h : m.staysDown p) :
    (m.condStartLim key blk inst kind addr).staysDown p :=
  Mod.staysDown_of_only (m.condStartLim_only key blk inst kind addr) (Mod.condStartLim_condOn _ _ _ _ _) h

theorem Mod.staysDown_condEnd (inst addr cls : Nat) {blk kind : Nat} (hne : blk ≠ 13 ∨ kind ≠ 1) (h : m.staysDown p) :
    (m.condEnd blk inst kind addr cls).staysDown p :=
  Mod.staysDown_of_only (m.condEnd_only blk inst kind addr cls) (Mod.condEnd_condOn _ _ _ _ _ hne) h

theorem Mod.staysDown_raiseLim (win inst kind addr cls : Nat) {blk : Nat} (h : m.staysDown p) :
    (m.raiseLim win blk inst kind addr cls).staysDown p :=
  Mod.staysDown_of_only (m.raiseLim_only win blk inst kind addr cls) (Mod.raiseLim_condOn _ _ _ _ _ _) h

theorem Mod.staysDown_bumpBy (a n : Nat) (h : m.staysDown p) : (m.bumpBy a n).staysDown p :=
  Mod.staysDown_of_only (m.bumpBy_frame a n (by simp) fun _ hf => hf) (fun hc => (Mod.condOn_congr (m.bumpBy_conds a n) _ _ _ _).trans hc) h

/-! ## The pool, the tree and the roles follow -/

theorem Mod.poolShown_staysDown (h : m.staysDown p) : m.poolShown.staysDown p := by
  unfold Mod.poolShown
  extract_lets f low shown
  have hshown : shown.staysDown p := Mod.staysDown_puts _ h
  split
  · exact Mod.staysDown_condStartLim _ 7 6 0 (Mod.staysDown_put _ 1 hshown)
  · split
    · exact hshown
    · exact Mod.staysDown_condEnd 7 0 0 (.inr (by decide)) hshown

theorem Mod.endStalls_staysDown (h : m.staysDown p) : m.endStalls.staysDown p :=
  List.foldlRecOn (motive := fun q : Mod => q.staysDown p) _ _ h fun _ hq c _ => Mod.staysDown_condEnd c.inst c.addr c.cls (.inr (by decide)) hq

theorem Mod.syncPool_staysDown (hp : p < 7) (h : m.staysDown p) : m.syncPool.staysDown p := by
  obtain ⟨l, p3, p2, same, n, eq⟩ := m.syncPool_eq
  rw [eq]
  have shown := Mod.poolShown_staysDown h
  have set : (m.poolShown.stopsSet l p3 p2).staysDown p := ⟨shown.1, shown.2⟩
  have told := Mod.staysDown_of_sends hp (Mod.stopsTold_sendsFrom _ same) (Mod.endStalls_staysDown set)
  unfold Mod.stopsCounted
  split
  · exact told
  · exact Mod.staysDown_bumpBy _ n told

theorem Mod.enqueue_sendsFrom (m : Mod) (p : Nat) (g : Msg) : m.sendsFrom (m.enqueue p g) :=
  m.setPort_sendsFrom p ⟨rfl, rfl, fun x hx => by
    simp only [List.mem_append] at hx ⊢
    tauto⟩

theorem Mod.ringUnicast_sendsFrom (m : Mod) (p : Nat) (g : Msg) : m.sendsFrom (m.ringUnicast p g) := by
  unfold Mod.ringUnicast
  split
  · exact m.sendsFrom_refl
  · exact m.enqueue_sendsFrom _ _

theorem Mod.sendLink_sendsFrom (m : Mod) (l : Nat) (g : Msg) : m.sendsFrom (m.sendLink l g) := by
  unfold Mod.sendLink
  split
  · exact m.enqueue_sendsFrom _ _
  · split
    · exact m.ringUnicast_sendsFrom _ _
    · exact m.sendsFrom_refl

theorem Mod.sendRoute_staysDown (hp : p < 7) (h : m.staysDown p) : m.sendRoute.staysDown p := by
  unfold Mod.sendRoute
  simp only
  split
  · have counted : (m.nextMseq 11).2.staysDown p := ⟨h.1, h.2⟩
    exact Mod.staysDown_of_sends hp (Mod.sendLink_sendsFrom _ _ _) counted
  · exact h

theorem Mod.staysDown_holds (l : List (Nat × Nat)) (h : m.staysDown p) : Mod.staysDown { m with lnk.holds := l } p := ⟨h.1, h.2⟩

theorem Mod.detached_staysDown (b c : Bool) (h : m.staysDown p) :
    Mod.staysDown (if b then m.condEnd 13 7 0x0B 0 1
      else if c then m else (m.put R.LNK_EVT_DETACHED 1).condStart 13 7 0x0B 0 1) p := by
  split
  · exact Mod.staysDown_condEnd 7 0 1 (.inr (by decide)) h
  · split
    · exact h
    · exact Mod.staysDown_condStart 7 0x0B 0 1 (Mod.staysDown_put _ 1 h)

theorem Mod.treeChoose_staysDown (hp : p < 7) (h : m.staysDown p) : m.treeChoose.staysDown p := by
  unfold Mod.treeChoose
  extract_lets off l root up ok upn dep child blk old chosen links held
  split
  · have hoff : off.staysDown p := Mod.staysDown_puts _ h
    exact Mod.staysDown_condEnd 7 0 1 (.inr (by decide)) hoff
  · have hchosen : chosen.staysDown p := Mod.staysDown_puts _ h
    have hheld : held.staysDown p := by
      unfold held
      split
      · exact Mod.sendRoute_staysDown hp (Mod.staysDown_holds _ hchosen)
      · exact hchosen
    exact Mod.detached_staysDown _ _ hheld

theorem Mod.chooseRef_staysDown (src : Nat) (h : m.staysDown p) : (m.chooseRef src).staysDown p := by
  unfold Mod.chooseRef
  extract_lets b counted
  split
  · exact h
  · exact Mod.staysDown_put _ 1 (Mod.staysDown_raiseLim tickS 0 2 src 0 (Mod.staysDown_bumpBy _ 1 (Mod.staysDown_put _ b h)))

theorem Mod.syncValid_staysDown (h : m.staysDown p) : m.syncValid.staysDown p := by
  unfold Mod.syncValid
  extract_lets v lost
  split
  · exact h
  · split
    · exact Mod.staysDown_of_only (Mod.endConds_only _ 4 [1]) (Mod.endConds_condOn 4 [1] (by decide)) (Mod.staysDown_put _ 1 h)
    · exact Mod.staysDown_condStart 0 1 _ 1 (Mod.staysDown_put _ 1 (Mod.staysDown_bumpBy _ 1 (Mod.staysDown_put _ 0 h)))

theorem Mod.rootFollowed_staysDown (hp : p < 7) (h : m.staysDown p) : m.rootFollowed.staysDown p :=
  Mod.syncValid_staysDown (Mod.chooseRef_staysDown 2 (Mod.treeChoose_staysDown hp h))

theorem Mod.becomeRoot_staysDown (hp : p < 7) (gen : Nat) (h : m.staysDown p) : (m.becomeRoot gen).staysDown p := by
  rw [Mod.becomeRoot_eq]
  unfold Mod.rootTaken Mod.rootChange
  exact Mod.rootFollowed_staysDown hp (Mod.staysDown_puts _ (Mod.staysDown_raiseLim tickS 0 4 _ 0 (Mod.staysDown_puts _ h)))

theorem Mod.syncRelays_staysDown (h : m.staysDown p) : m.syncRelays.staysDown p := Mod.staysDown_puts _ h

theorem Mod.leaveRoot_staysDown (hp : p < 7) (h : m.staysDown p) : m.leaveRoot.staysDown p := by
  unfold Mod.leaveRoot
  split
  · exact Mod.rootFollowed_staysDown hp (Mod.staysDown_puts _ h)
  · exact h

theorem Mod.syncRoot_staysDown (hp : p < 7) (h : m.staysDown p) : m.syncRoot.staysDown p := by
  unfold Mod.syncRoot
  extract_lets sel want act shown
  have hshown : shown.staysDown p := Mod.staysDown_puts _ h
  split
  · exact Mod.leaveRoot_staysDown hp hshown
  · split
    · exact Mod.becomeRoot_staysDown hp _ hshown
    · exact hshown

theorem Mod.syncRoles_staysDown (hp : p < 7) (h : m.staysDown p) : m.syncRoles.staysDown p := by
  unfold Mod.syncRoles
  extract_lets shown dep old role n deg rooted c moved links dropped
  have hshown : shown.staysDown p := Mod.staysDown_puts _ h
  clear_value shown
  have hdep : dep.staysDown p := by
    unfold dep
    split
    · exact Mod.staysDown_put _ _ hshown
    · exact hshown
  clear_value dep
  have hrole : role.staysDown p := Mod.staysDown_put _ _ hdep
  clear_value role
  have hdeg : deg.staysDown p := Mod.syncRelays_staysDown (Mod.staysDown_put _ _ hrole)
  clear_value deg
  have hrooted : rooted.staysDown p := Mod.syncRoot_staysDown hp hdeg
  clear_value rooted
  have hdropped : dropped.staysDown p := by
    unfold dropped
    split
    · exact ⟨hrooted.1, hrooted.2⟩
    · exact hrooted
  split
  · exact Mod.treeChoose_staysDown hp hdropped
  · exact hdropped

end

end Sys2Proof.Machine
end

section
/-!
PROOFS. Training, loss and retraining of a link port (R273, R274, R279), the statement PortTraining.
-/
namespace Sys2Proof.Machine

/-! ## The state of a port (Table 09-3) -/

theorem Mod.setPst_pst (m : Mod) {p v : Nat} (hp : p < 7) (hv : v < 8) : (m.setPst p v).pst p = v := by
  refine Eq.trans (Mod.only_get (Mod.only_puts _ _ [] fun _ he => List.mem_map_of_mem he) _ ?_)
    (Eq.trans ?_ ((Mod.get_put_same m (R.LNK_PSTAT_STATE p) v (by simp)).trans (Nat.mod_eq_of_lt hv)))
  · simp only [List.map_cons, List.map_nil]
    exact Fld.apart_of_range (lo := 0xD0A0) (hi := 0xD0C0) (by decide) (by simp) (by simp; omega)
  · split
    · rfl
    · rfl

/-- Beside its fields a port's state changes the tick of the last entry to FAIL only. -/
theorem Mod.setPst_port (m : Mod) (p v : Nat) {r : Nat} (hr : r < 7) : ∃ tick, (m.setPst p v).port r = { m.port r with failTick := tick } := by
  unfold Mod.setPst
  extract_lets shown failed
  rw [Mod.port_congr (failed.puts_lnk _)]
  unfold failed
  split
  · rw [Mod.port_setPort _ _ _ _ hr]
    split
    · exact ⟨_, rfl⟩
    · exact ⟨(m.port r).failTick, rfl⟩
  · exact ⟨(m.port r).failTick, rfl⟩

theorem Mod.setPst_only_fields (m : Mod) (p : Nat) {v : Nat} (hv : v ≠ 4) : m.only [] (portFlds p) (m.setPst p v) := by
  unfold Mod.setPst
  extract_lets shown failed
  have same : failed = shown := if_neg hv
  rw [same]
  exact Mod.only_trans (Mod.only_put m _ v _ (by simp [portFlds])) (Mod.only_puts _ _ _ (by simp [portFlds]))

/-! ## Light (R273) -/

theorem Does.lightSeen {s : State} {p : Fin 7} (hon : s.on) (hen : s.m.portOn p = true) (hst : s.m.pst p ≤ 1) :
    Does (.portLight p) s fun t => t.m.pst p = 1 ∧ (t.m.port p).light = true ∧ s.frame [.lnk] (portFlds p) t := by
  refine Does.ofCond (g := fun m => m.portOn p && decide (m.pst p ≤ 1))
    (f := fun m => (m.setPort p fun q => { q with light := true }).setPst p 1) rfl hon (by simp [hen, hst])
    ⟨Mod.setPst_pst _ p.isLt (by decide), ?_, State.frame_of_only ?_⟩
  · obtain ⟨tick, port⟩ := (s.m.setPort p fun q => { q with light := true }).setPst_port p 1 p.isLt
    rw [port, Mod.port_setPort _ _ _ _ p.isLt, if_pos rfl]
  · exact Mod.only_trans (Mod.only_mono (s.m.setPort_only p _) (fun _ h => h) (by simp)) (Mod.setPst_only _ p 1)

/-! ## A trained port (R273, R275, R279) -/

/-- The port after the HELLO exchange: what the peer has received leaves the retry store, the credits are those of the windows less what is left. -/
def Port.renewed (q : Port) (rxLseq win : Nat) : Port :=
  let got := fun (f : Sent) => decide ((rxLseq + 4096 - f.lseq) % 4096 < 2048)
  let rest := q.retry.filter (fun f => !got f)
  { q with cr0 := 8 - (rest.filter (fun f => f.cls == 0)).length, cr1 := 16 - (rest.filter (fun f => f.cls == 1)).length,
           cr2 := win - (rest.filter (fun f => decide (2 ≤ f.cls))).length, ret0 := 0, ret1 := 0, ret2 := 0,
           retry := rest.map (fun f => { f with tries := 1 }), crcTicks := [], peerStop := [] }

/-- HELLO leaves, and the peer is shown. -/
def Mod.peerShown (m : Mod) (p addr port dly : Nat) : Mod :=
  (m.sendHello p).puts [(R.LNK_PSTAT_PEER_ADDR p, addr), (R.LNK_PSTAT_PEER_PORT p, port), (R.LNK_PDLY_DLY p, dly)]

/-- The pairing is no error, and the port is renewed. -/
def Mod.pairFits (m : Mod) (p rxLseq win : Nat) : Mod := (m.put (R.LNK_PSTAT_ROLE_ERR p) 0).setPort p fun q => q.renewed rxLseq win

/-- The conditions of a port that is up end. -/
def Mod.portHealed (m : Mod) (p : Nat) (oneLane : Bool) : Mod :=
  let m := ((m.condEnd 13 p 1 0 1).condEnd 13 p 5 0 1).condEnd 13 p 4 0 1
  if oneLane then m else m.condEnd 13 p 2 0 0

/-- The oldest frame in the retry store leaves again. -/
def Mod.oldestAgain (m : Mod) (p : Nat) : Mod :=
  match (m.port p).retry with
  | [] => m
  | f :: _ => m.sendFrame p .msg f.lseq f.cls f.msg.bytes

/-- A ring port that comes up with no lead known starts an election (R25). -/
def Mod.leadSought (m : Mod) (p : Nat) : Mod := if decide (p < 2) && m.get R.MOD_ROLE_STAT_LEAD_POS == 15 then m.startElection else m

/-- What follows once the port is up. -/
def Mod.upFollowed (m : Mod) (p : Nat) (oneLane : Bool) : Mod := ((((m.portHealed p oneLane).oldestAgain p).leadSought p).pump p).syncRelays

/-- What a wrong pairing does. -/
def Mod.pairWrong (m : Mod) (p : Nat) : Mod := ((m.setPst p 4).puts [(R.LNK_PSTAT_ROLE_ERR p, 1), (R.LNK_EVT_ROLE, 1)]).condStart 13 p 5 0 1

/-- The port is up, and what depends on it follows. -/
def Mod.madeUp (m : Mod) (p : Nat) (oneLane : Bool) : Mod := (m.setPst p (if oneLane then 3 else 2)).upFollowed p oneLane

/-- The exchange ends in a port that is up. -/
theorem exec_portTrained_fits {s : State} {p : Fin 7} {one : Bool} {a : Fin 16384} {pp : Fin 8} {h : Bool} {r : Fin 4096} {d : Fin 16777216}
    {w : Fin 256} (hon : s.on) (hen : s.m.portOn p = true) (hst : s.m.pst p = 1) (hlight : (s.m.port p).light = true)
    (hlane : one = true → s.m.get R.LNK_CFG_ONE_LANE_OK = 1) (hfits : portFits p pp h = true) :
    exec (.portTrained p one a pp h r d w) s = .next { s with m := ((s.m.peerShown p a pp d).pairFits p r w).madeUp p one } := by
  have lanes : ¬ (one && !s.m.is R.LNK_CFG_ONE_LANE_OK) = true := by
    cases one
    · simp
    · simp [Mod.is, hlane rfl]
  rw [show exec (.portTrained p one a pp h r d w) s = execPortTrained p one a pp h r d w s from rfl, execPortTrained, onMod, if_neg hon,
    if_neg (by simp [hst, hen, hlight]), if_neg lanes, if_neg (by simp [hfits])]
  rfl

/-- The exchange ends in a wrong pairing. -/
theorem exec_portTrained_wrong {s : State} {p : Fin 7} {a : Fin 16384} {pp : Fin 8} {h : Bool} {r : Fin 4096} {d : Fin 16777216}
    {w : Fin 256} (hon : s.on) (hen : s.m.portOn p = true) (hst : s.m.pst p = 1) (hlight : (s.m.port p).light = true)
    (hfits : portFits p pp h = false) :
    exec (.portTrained p false a pp h r d w) s = .next { s with m := (s.m.peerShown p a pp d).pairWrong p } := by
  rw [show exec (.portTrained p false a pp h r d w) s = execPortTrained p false a pp h r d w s from rfl, execPortTrained, onMod, if_neg hon,
    if_neg (by simp [hst, hen, hlight]), if_neg (by simp), if_pos (by simp [hfits])]
  rfl

/-- The fields that may follow once a port is up. -/
def risenFlds : List Fld := repFlds 13 ++ electFlds ++ roleFlds

theorem Mod.portHealed_only (m : Mod) (p : Nat) (oneLane : Bool) : m.only [.flt] (repFlds 13) (m.portHealed p oneLane) := by
  have ended : m.only [.flt] (repFlds 13) (((m.condEnd 13 p 1 0 1).condEnd 13 p 5 0 1).condEnd 13 p 4 0 1) :=
    Mod.only_trans (Mod.only_trans (m.condEnd_only 13 p 1 0 1) (Mod.condEnd_only _ 13 p 5 0 1)) (Mod.condEnd_only _ 13 p 4 0 1)
  unfold Mod.portHealed
  simp only
  split
  · exact ended
  · exact Mod.only_trans ended (Mod.condEnd_only _ 13 p 2 0 0)

theorem Mod.oldestAgain_only (m : Mod) (p : Nat) : m.only [.lnk] [] (m.oldestAgain p) := by
  unfold Mod.oldestAgain
  split
  · exact Mod.only_refl m _ _
  · exact m.sendFrame_only p _ _ _ _

theorem Mod.leadSought_only (m : Mod) (p : Nat) : m.only [] electFlds (m.leadSought p) := by
  unfold Mod.leadSought
  split
  · exact m.startElection_only
  · exact Mod.only_refl m _ _

theorem Mod.pump_only (m : Mod) (p : Nat) : m.only [.lnk] [] (m.pump p) := Mod.sendsFrom_only (m.pump_sendsFrom p)

theorem Mod.upFollowed_only (m : Mod) (p : Nat) (oneLane : Bool) : m.only [.lnk, .flt] risenFlds (m.upFollowed p oneLane) := by
  refine Mod.only_trans (Mod.only_mono (m.portHealed_only p oneLane) (by simp) fun _ h => ?_) (Mod.only_trans
    (Mod.only_mono (Mod.oldestAgain_only _ p) (by simp) (by simp)) (Mod.only_trans (Mod.only_mono (Mod.leadSought_only _ p) (by simp) fun _ h => ?_)
      (Mod.only_trans (Mod.only_mono (Mod.pump_only _ p) (by simp) (by simp)) (Mod.only_mono (Mod.syncRelays_only _) (fun _ h => h) fun _ h => ?_))))
  · exact List.mem_append_left _ (List.mem_append_left _ h)
  · exact List.mem_append_left _ (List.mem_append_right _ h)
  · exact List.mem_append_right _ h

/-- With nothing unacknowledged and nothing to send the links stay. -/
theorem Mod.upFollowed_lnk {m : Mod} {p : Nat} (oneLane : Bool) (hretry : (m.port p).retry = []) (htxq : (m.port p).txq = []) :
    (m.upFollowed p oneLane).lnk = m.lnk := by
  have healed : (m.portHealed p oneLane).lnk = m.lnk := (m.portHealed_only p oneLane).1 .lnk (by simp)
  have again : (m.portHealed p oneLane).oldestAgain p = m.portHealed p oneLane := by
    unfold Mod.oldestAgain
    rw [Mod.port_congr healed, hretry]
  have sought : ((m.portHealed p oneLane).leadSought p).lnk = m.lnk := ((Mod.leadSought_only _ p).1 .lnk (by simp)).trans healed
  unfold Mod.upFollowed
  rw [again, Mod.pump_idle (by rw [Mod.port_congr sought, htxq])]
  exact (Mod.puts_lnk _ _).trans sought

theorem Mod.sendHello_only (m : Mod) (p : Nat) : m.only [.lnk] [] (m.sendHello p) := m.sendFrame_only p _ _ _ _

/-- The fields that show a port's peer. -/
def peerFlds (p : Nat) : List Fld := [R.LNK_PSTAT_PEER_ADDR p, R.LNK_PSTAT_PEER_PORT p, R.LNK_PDLY_DLY p]

theorem Mod.peerShown_only (m : Mod) (p addr port dly : Nat) : m.only [.lnk] (peerFlds p) (m.peerShown p addr port dly) :=
  Mod.only_trans (Mod.only_mono (m.sendHello_only p) (fun _ h => h) (by simp)) (Mod.only_puts _ _ _ (by simp [peerFlds]))

theorem Mod.peerShown_framed (m : Mod) {p : Nat} (addr port dly : Nat) (hp : p < 7) : (m.port p).framed ((m.peerShown p addr port dly).port p) := by
  unfold Mod.peerShown
  rw [Mod.port_congr (Mod.puts_lnk _ _)]
  exact (m.sendFrame_sent _ _ _ _ hp).2

/-- The peer's address, port and delay read as the exchange named them. -/
theorem Mod.peerShown_get (m : Mod) (p : Fin 7) {addr port dly : Nat} (ha : addr < 16384) (hpp : port < 8) (hd : dly < 16777216) :
    (m.peerShown p addr port dly).get (R.LNK_PSTAT_PEER_ADDR p) = addr ∧ (m.peerShown p addr port dly).get (R.LNK_PSTAT_PEER_PORT p) = port ∧
      (m.peerShown p addr port dly).get (R.LNK_PDLY_DLY p) = dly := by
  have clear : ∀ p : Fin 7, Fld.clear [R.LNK_PSTAT_PEER_PORT p, R.LNK_PDLY_DLY p] (R.LNK_PSTAT_PEER_ADDR p) = true ∧
      Fld.clear [R.LNK_PDLY_DLY p] (R.LNK_PSTAT_PEER_PORT p) = true := by decide
  unfold Mod.peerShown
  generalize m.sendHello p = q
  refine ⟨?_, ?_, ?_⟩
  · exact (Mod.get_puts_head q addr [(R.LNK_PSTAT_PEER_PORT p, port), (R.LNK_PDLY_DLY p, dly)] (by simp)
      (Fld.apart_of_clear (clear p).1)).trans (Nat.mod_eq_of_lt ha)
  · rw [Mod.puts_cons]
    exact (Mod.get_puts_head _ port [(R.LNK_PDLY_DLY p, dly)] (by simp) (Fld.apart_of_clear (clear p).2)).trans (Nat.mod_eq_of_lt hpp)
  · rw [Mod.puts_cons, Mod.puts_cons]
    exact (Mod.get_puts_head _ dly [] (by simp) (by simp)).trans (Nat.mod_eq_of_lt hd)

theorem Mod.pairFits_only (m : Mod) (p rxLseq win : Nat) : m.only [.lnk] [R.LNK_PSTAT_ROLE_ERR p] (m.pairFits p rxLseq win) :=
  Mod.only_trans (Mod.only_put m _ 0 _ List.mem_cons_self) (Mod.only_mono (Mod.setPort_only _ p _) (fun _ h => h) (by simp))

theorem Mod.pairFits_port (m : Mod) {p : Nat} (rxLseq win : Nat) (hp : p < 7) :
    (m.pairFits p rxLseq win).port p = (m.port p).renewed rxLseq win := by
  rw [Mod.pairFits, Mod.port_setPort _ _ _ _ hp, if_pos rfl, Mod.port_congr (Mod.put_lnk _ _ _)]

/-- The fields of PSTAT and PDLY of a port stay once it is up. -/
theorem risenFlds_apart {g : Fld} (hlo : 0xD0A0 ≤ g.addr) (hhi : g.addr < 0xD0E0) : ∀ f ∈ risenFlds, f.apart g :=
  Fld.apart_of_range 0xD0A0 0xD0E0 (by decide) hlo hhi

theorem Mod.madeUp_pst (m : Mod) (p : Fin 7) (one : Bool) : (m.madeUp p one).pst p = if one then 3 else 2 := by
  have hpst : (m.setPst p (if one then 3 else 2)).pst p = if one then 3 else 2 := m.setPst_pst p.isLt (by split <;> decide)
  exact (Mod.only_get (Mod.upFollowed_only _ p one) _ (risenFlds_apart (by simp) (by simp; omega))).trans hpst

theorem Mod.madeUp_only (m : Mod) (p : Nat) (one : Bool) : m.only [.lnk, .flt] (portFlds p ++ risenFlds) (m.madeUp p one) :=
  Mod.only_trans (Mod.only_mono (m.setPst_only p _) (by simp) fun _ h => List.mem_append_left _ h)
    (Mod.only_mono (Mod.upFollowed_only _ p one) (fun _ h => h) fun _ h => List.mem_append_right _ h)

/-- Peer, delay and ROLE_ERR stay when the port is made up. -/
theorem Mod.madeUp_get (m : Mod) (p : Fin 7) (one : Bool) : ∀ g ∈ R.LNK_PSTAT_ROLE_ERR p :: peerFlds p, (m.madeUp p one).get g = m.get g := by
  have clear : ∀ p : Fin 7, ∀ g ∈ R.LNK_PSTAT_ROLE_ERR p :: peerFlds p,
      Fld.clear (portFlds p) g = true ∧ 0xD0A0 ≤ g.addr ∧ g.addr < 0xD0E0 := by decide
  intro g hg
  obtain ⟨hclear, hlo, hhi⟩ := clear p g hg
  refine Mod.only_get (m.madeUp_only p one) g fun f hf => ?_
  rcases List.mem_append.mp hf with hf | hf
  · exact Fld.apart_of_clear hclear f hf
  · exact risenFlds_apart hlo hhi f hf

theorem Mod.pairFits_get (m : Mod) (p : Fin 7) (rxLseq win : Nat) :
    (m.pairFits p rxLseq win).get (R.LNK_PSTAT_ROLE_ERR p) = 0 ∧ ∀ g ∈ peerFlds p, (m.pairFits p rxLseq win).get g = m.get g := by
  have clear : ∀ p : Fin 7, ∀ g ∈ peerFlds p, Fld.clear [R.LNK_PSTAT_ROLE_ERR p] g = true := by decide
  exact ⟨Mod.get_put_same m _ 0 (by simp), fun g hg => Mod.only_get (m.pairFits_only p rxLseq win) g (Fld.apart_of_clear (clear p g hg))⟩

/-- A port that faces a fitting peer is up, with its peer and delay shown. -/
theorem Mod.trained_shows (m : Mod) (p : Fin 7) (one : Bool) {addr port dly : Nat} (rxLseq win : Nat) (ha : addr < 16384) (hpp : port < 8)
    (hd : dly < 16777216) {x : Mod} (hx : x = ((m.peerShown p addr port dly).pairFits p rxLseq win).madeUp p one) :
    x.pst p = (if one then 3 else 2) ∧ x.get (R.LNK_PSTAT_PEER_ADDR p) = addr ∧ x.get (R.LNK_PSTAT_PEER_PORT p) = port ∧
      x.get (R.LNK_PDLY_DLY p) = dly ∧ x.get (R.LNK_PSTAT_ROLE_ERR p) = 0 ∧ m.onlyParts [.lnk, .flt] x := by
  obtain ⟨addrShown, portShown, dlyShown⟩ := m.peerShown_get p ha hpp hd
  have shownParts := (m.peerShown_only p addr port dly).1
  generalize m.peerShown p addr port dly = q at *
  obtain ⟨role, fits⟩ := q.pairFits_get p rxLseq win
  have fitsParts := (q.pairFits_only p rxLseq win).1
  generalize q.pairFits p rxLseq win = y at *
  have kept := y.madeUp_get p one
  have up := y.madeUp_pst p one
  have upParts := (y.madeUp_only p one).1
  rw [← hx] at kept up upParts
  have peer {g : Fld} (hg : g ∈ peerFlds p) : x.get g = q.get g := (kept g (List.mem_cons_of_mem _ hg)).trans (fits g hg)
  exact ⟨up, (peer (by simp [peerFlds])).trans addrShown, (peer (by simp [peerFlds])).trans portShown, (peer (by simp [peerFlds])).trans dlyShown,
    (kept _ List.mem_cons_self).trans role, Mod.onlyParts_trans (Mod.onlyParts_mono shownParts (by simp))
      (Mod.onlyParts_trans (Mod.onlyParts_mono fitsParts (by simp)) upParts)⟩

/-- A port that holds no frame keeps its credits while it is made up. -/
theorem Mod.madeUp_credits {m : Mod} {p : Nat} (one : Bool) (hp : p < 7) (hretry : (m.port p).retry = []) (htxq : (m.port p).txq = []) :
    ((m.madeUp p one).port p).cr0 = (m.port p).cr0 ∧ ((m.madeUp p one).port p).cr1 = (m.port p).cr1 ∧
      ((m.madeUp p one).port p).cr2 = (m.port p).cr2 := by
  obtain ⟨tick, state⟩ := m.setPst_port p (if one then 3 else 2) hp
  have lnk : (m.madeUp p one).lnk = (m.setPst p (if one then 3 else 2)).lnk :=
    Mod.upFollowed_lnk one (by rw [state]; exact hretry) (by rw [state]; exact htxq)
  rw [Mod.port_congr lnk, state]
  exact ⟨rfl, rfl, rfl⟩

/-- With nothing unacknowledged the credits are the whole windows. -/
theorem Port.renewed_empty {q : Port} (rxLseq win : Nat) (h : q.retry = []) :
    (q.renewed rxLseq win).retry = [] ∧ (q.renewed rxLseq win).cr0 = 8 ∧ (q.renewed rxLseq win).cr1 = 16 ∧
      (q.renewed rxLseq win).cr2 = win := by
  simp [Port.renewed, h]

/-- A port that holds no frame has the credits of the whole windows. -/
theorem Mod.trained_credits {m : Mod} {p : Fin 7} (one : Bool) (addr port dly rxLseq win : Nat) (hretry : (m.port p).retry = [])
    (htxq : (m.port p).txq = []) {x : Mod} (hx : x = ((m.peerShown p addr port dly).pairFits p rxLseq win).madeUp p one) :
    (x.port p).cr0 = 8 ∧ (x.port p).cr1 = 16 ∧ (x.port p).cr2 = win := by
  have shown : ((m.peerShown p addr port dly).port p).retry = [] ∧ ((m.peerShown p addr port dly).port p).txq = [] := by
    obtain ⟨_, _, _, _, _, _, _, h⟩ := m.peerShown_framed addr port dly p.isLt
    rw [h]
    exact ⟨hretry, htxq⟩
  have fits := (m.peerShown p addr port dly).pairFits_port rxLseq win p.isLt
  generalize (m.peerShown p addr port dly).pairFits p rxLseq win = y at *
  obtain ⟨retry, cr0, cr1, cr2⟩ := Port.renewed_empty rxLseq win shown.1
  obtain ⟨kept0, kept1, kept2⟩ := Mod.madeUp_credits one p.isLt (by rw [fits]; exact retry) (m := y) (by rw [fits]; exact shown.2)
  rw [hx, kept0, kept1, kept2, fits]
  exact ⟨cr0, cr1, cr2⟩

theorem Does.trainedBothLanes {s : State} {p : Fin 7} {a : Fin 16384} {pp : Fin 8} {h : Bool} {r : Fin 4096} {d : Fin 16777216} {w : Fin 256}
    (hon : s.on) (hen : s.m.portOn p = true) (hst : s.m.pst p = 1) (hlight : (s.m.port p).light = true) (hfits : portFits p pp h = true) :
    Does (.portTrained p false a pp h r d w) s fun t => t.m.pst p = 2 ∧ t.m.get (R.LNK_PSTAT_PEER_ADDR p) = a.val ∧
      t.m.get (R.LNK_PSTAT_PEER_PORT p) = pp.val ∧ t.m.get (R.LNK_PDLY_DLY p) = d.val ∧ t.m.get (R.LNK_PSTAT_ROLE_ERR p) = 0 ∧
      ((s.m.port p).retry = [] → (s.m.port p).txq = [] → (t.m.port p).cr0 = 8 ∧ (t.m.port p).cr1 = 16 ∧ (t.m.port p).cr2 = w.val) ∧
      (2 ≤ p.val → s.m.onlyParts [.lnk, .flt] t.m) := by
  refine ⟨_, exec_portTrained_fits hon hen hst hlight (by simp) hfits, ?_⟩
  obtain ⟨state, addr, port, dly, role, parts⟩ := s.m.trained_shows p false r w a.isLt pp.isLt d.isLt rfl
  exact ⟨state, addr, port, dly, role, fun hretry htxq => Mod.trained_credits false a pp d r w hretry htxq rfl, fun _ => parts⟩

theorem Does.trainedOneLane {s : State} {p : Fin 7} {a : Fin 16384} {pp : Fin 8} {h : Bool} {r : Fin 4096} {d : Fin 16777216} {w : Fin 256}
    (hon : s.on) (hen : s.m.portOn p = true) (hst : s.m.pst p = 1) (hlight : (s.m.port p).light = true) (hfits : portFits p pp h = true)
    (hone : s.m.get R.LNK_CFG_ONE_LANE_OK = 1) :
    Does (.portTrained p true a pp h r d w) s fun t => t.m.pst p = 3 ∧ t.m.get (R.LNK_PSTAT_PEER_ADDR p) = a.val ∧
      t.m.get (R.LNK_PDLY_DLY p) = d.val ∧ t.m.get (R.LNK_PSTAT_ROLE_ERR p) = 0 := by
  refine ⟨_, exec_portTrained_fits hon hen hst hlight (fun _ => hone) hfits, ?_⟩
  obtain ⟨state, addr, -, dly, role, -⟩ := s.m.trained_shows p true r w a.isLt pp.isLt d.isLt rfl
  exact ⟨state, addr, dly, role⟩

/-- What a wrong pairing shows. -/
theorem Mod.pairWrong_shows (m : Mod) (p : Fin 7) :
    (m.pairWrong p).pst p = 4 ∧ (m.pairWrong p).get (R.LNK_PSTAT_ROLE_ERR p) = 1 ∧ (m.pairWrong p).get R.LNK_EVT_ROLE = 1 ∧
      m.onlyParts [.lnk, .flt] (m.pairWrong p) := by
  have clear : ∀ p : Fin 7, Fld.clear (repFlds 13) (R.LNK_PSTAT_STATE p) = true ∧ Fld.clear (repFlds 13) (R.LNK_PSTAT_ROLE_ERR p) = true ∧
      Fld.clear [R.LNK_PSTAT_ROLE_ERR p, R.LNK_EVT_ROLE] (R.LNK_PSTAT_STATE p) = true ∧
      Fld.clear [R.LNK_EVT_ROLE] (R.LNK_PSTAT_ROLE_ERR p) = true := by decide
  obtain ⟨repState, repRole, putState, putRole⟩ := clear p
  have told := Mod.condStart_only ((m.setPst p 4).puts [(R.LNK_PSTAT_ROLE_ERR p, 1), (R.LNK_EVT_ROLE, 1)]) 13 p 5 0 1
  refine ⟨?_, ?_, ?_, ?_⟩
  · exact (Mod.only_get told _ (Fld.apart_of_clear repState)).trans ((Mod.only_get (Mod.only_puts (fs := [R.LNK_PSTAT_ROLE_ERR p, R.LNK_EVT_ROLE])
      _ _ [] (by simp)) _ (Fld.apart_of_clear putState)).trans (m.setPst_pst p.isLt (by decide)))
  · exact (Mod.only_get told _ (Fld.apart_of_clear repRole)).trans (Mod.get_puts_head _ 1 _ (by simp) (Fld.apart_of_clear putRole))
  · exact (Mod.only_get told _ (Fld.apart_of_clear (by decide))).trans (Mod.get_put_same _ _ 1 (by decide))
  · exact Mod.onlyParts_trans (Mod.onlyParts_mono (m.setPst_only p 4).1 (by simp)) (Mod.onlyParts_trans (Mod.onlyParts_puts _ _ _)
      (Mod.onlyParts_mono told.1 (by simp)))

/-- A module whose other parts change takes the same reports. -/
theorem Mod.takes_of_only {a b : Mod} {ps : List Part} {fs : List Fld} {blk inst : Nat} (h : a.only ps fs b) (hp : Part.flt ∉ ps)
    (hfs : Fld.clear fs R.PWR_STAT_PG = true) (k : a.takes blk inst) : b.takes blk inst :=
  Mod.takes_of_flt (h.1 .flt hp) (Mod.only_get h _ (Fld.apart_of_clear hfs)) k

theorem portFlds_power : ∀ p : Fin 7, Fld.clear (portFlds p) R.PWR_STAT_PG = true ∧ Fld.clear (peerFlds p) R.PWR_STAT_PG = true ∧
    (R.LNK_PSTAT_ROLE_ERR p).apart R.PWR_STAT_PG := by
  intro p
  refine ⟨by revert p; decide, by revert p; decide, .inl ?_⟩
  simp
  omega

theorem Does.pairRefused {s : State} {p : Fin 7} {one : Bool} {a : Fin 16384} {pp : Fin 8} {h : Bool} {r : Fin 4096} {d : Fin 16777216}
    {w : Fin 256} (hon : s.on) (hen : s.m.portOn p = true) (hst : s.m.pst p = 1) (hlight : (s.m.port p).light = true)
    (hfits : portFits p pp h = false) (hone : one = false) (ht : s.m.takes 13 p) (hc : s.m.condOn 13 p 5 0 = false) :
    Does (.portTrained p one a pp h r d w) s fun t => t.m.pst p = 4 ∧ t.m.get (R.LNK_PSTAT_ROLE_ERR p) = 1 ∧ t.m.get R.LNK_EVT_ROLE = 1 ∧
      t.m.tells { blk := 13, inst := p, kind := 5, addr := 0, cls := 1, ind := .start } ∧ s.m.onlyParts [.lnk, .flt] t.m := by
  subst hone
  refine ⟨_, exec_portTrained_wrong hon hen hst hlight hfits, ?_⟩
  obtain ⟨state, role, event, parts⟩ := (s.m.peerShown p a pp d).pairWrong_shows p
  have shown := s.m.peerShown_only p a pp d
  obtain ⟨power, peerPower, rolePower⟩ := portFlds_power p
  have set := (s.m.peerShown p a pp d).setPst_only p 4
  have flt : ((s.m.peerShown p a pp d).setPst p 4).flt = s.m.flt := (set.1 .flt (by simp)).trans (shown.1 .flt (by simp))
  have takes : ((s.m.peerShown p a pp d).setPst p 4).takes 13 p :=
    Mod.takes_of_only set (by simp) power (Mod.takes_of_only shown (by simp) peerPower ht)
  have told := Mod.showStart_tells [(R.LNK_PSTAT_ROLE_ERR p, 1), (R.LNK_EVT_ROLE, 1)] 13 p 5 0 1
    (List.forall_mem_cons.mpr ⟨rolePower, List.forall_mem_singleton.mpr (.inl (by decide))⟩) takes
    ((Mod.condOn_congr (congrArg FltS.conds flt) 13 p 5 0).trans hc)
  exact ⟨state, role, event, told, Mod.onlyParts_trans (Mod.onlyParts_mono shown.1 (by simp)) parts⟩

/-! ## A port goes down (R274, R286) -/

/-- The port trains again, and its PORT_DOWN starts. -/
def Mod.downTold (m : Mod) (p : Nat) : Mod := ((m.setPst p 1).put R.LNK_EVT_DOWN 1).condStart 13 p 1 0 1

/-- Its messages turn back, and it has no light. -/
def Mod.darkened (m : Mod) (p : Nat) : Mod := (m.turnBack p).setPort p fun q => { q with bDepth := 15, light := false }

/-- The tree follows the loss of a fleet port. -/
def Mod.treeFollows (m : Mod) (p : Nat) : Mod := if 2 ≤ p then m.treeChoose else m

/-- Pool and roles follow. -/
def Mod.lossFollowed (m : Mod) (p : Nat) : Mod := ((m.treeFollows p).pump (onward p)).syncPool.syncRoles

theorem exec_portDown {s : State} {p : Fin 7} (hon : s.on) (hup : s.m.portUp p = true) :
    exec (.portDown p) s = .next { s with m := ((s.m.downTold p).darkened p).lossFollowed p } := by
  rw [show exec (.portDown p) s = execPortDown p s from rfl, execPortDown, onMod, if_neg hon, if_pos hup]
  rfl

theorem Mod.downTold_only (m : Mod) (p : Nat) : m.only [.lnk, .flt] (R.LNK_EVT_DOWN :: portFlds p ++ repFlds 13) (m.downTold p) :=
  Mod.only_trans (Mod.only_trans (Mod.only_mono (m.setPst_only p 1) (by simp) fun _ h => by simp [h])
    (Mod.only_put _ R.LNK_EVT_DOWN 1 _ (by simp))) (Mod.only_mono (Mod.condStart_only _ 13 p 1 0 1) (by simp) fun _ h => by simp [h])

/-- The port that goes down trains, its event bit is set and its condition stands. -/
theorem Mod.downTold_shows {m : Mod} {p : Fin 7} (ht : m.takes 13 p) :
    (m.downTold p).pst p = 1 ∧ (m.downTold p).get R.LNK_EVT_DOWN = 1 ∧ (m.downTold p).condOn 13 p 1 0 = true := by
  have clear : ∀ p : Fin 7, Fld.clear (R.LNK_EVT_DOWN :: repFlds 13) (R.LNK_PSTAT_STATE p) = true := by decide
  have told := Mod.condStart_only ((m.setPst p 1).put R.LNK_EVT_DOWN 1) 13 p 1 0 1
  have takes := Mod.takes_put R.LNK_EVT_DOWN 1 (.inl (by decide)) (Mod.takes_of_only (m.setPst_only p 1) (by simp) (portFlds_power p).1 ht)
  refine ⟨?_, ?_, Mod.condStart_on 1 0 1 takes⟩
  · have apart := List.forall_mem_cons.mp (Fld.apart_of_clear (clear p))
    exact (Mod.only_get told _ apart.2).trans ((Mod.get_put_ne _ _ _ 1 apart.1).trans (m.setPst_pst p.isLt (by decide)))
  · exact (Mod.only_get told _ (Fld.apart_of_clear (by decide))).trans (Mod.get_put_same _ _ 1 (by decide))

theorem Mod.darkened_only (m : Mod) (p : Nat) : m.only [.lnk] [] (m.darkened p) := Mod.only_trans (m.turnBack_only p) (Mod.setPort_only _ p _)

theorem Mod.darkened_staysDown {m : Mod} {p : Nat} (hp : p < 7) (h : m.condOn 13 p 1 0 = true) : (m.darkened p).staysDown p := by
  refine ⟨?_, (Mod.condOn_congr (congrArg FltS.conds ((m.darkened_only p).1 .flt (by simp))) 13 p 1 0).trans h⟩
  rw [Mod.darkened, Mod.port_setPort _ _ _ _ hp, if_pos rfl]

/-- The fields that follow a loss. -/
def lossFlds : List Fld := [R.MOD_ROLE_STAT_PEERS, R.MOD_ROLE_STAT_RING_STATE] ++ poolFlds ++ roleFlds

theorem Mod.treeFollows_only (m : Mod) (p : Nat) : m.only [.lnk, .flt] lossFlds (m.treeFollows p) := by
  unfold Mod.treeFollows
  split
  · exact Mod.only_mono m.treeChoose_roleFlds (fun _ h => h) fun _ h => List.mem_append_right _ h
  · exact Mod.only_refl m _ _

theorem Mod.syncRoles_lossFlds (m : Mod) : m.only [.lnk, .flt] lossFlds m.syncRoles :=
  Mod.only_trans (Mod.only_puts m _ _ (by simp [lossFlds])) (Mod.only_mono m.syncRoles_only (fun _ h => h) fun _ h => List.mem_append_right _ h)

theorem Mod.lossFollowed_only (m : Mod) (p : Nat) : m.only [.lnk, .flt] lossFlds (m.lossFollowed p) :=
  Mod.only_trans (m.treeFollows_only p) (Mod.only_trans (Mod.only_mono (Mod.pump_only _ (onward p)) (by simp) (by simp))
    (Mod.only_trans (Mod.only_mono (Mod.syncPool_only _) (fun _ h => h) fun _ h => List.mem_append_left _ (List.mem_append_right _ h))
      (Mod.syncRoles_lossFlds _)))

theorem Mod.lossFollowed_staysDown {m : Mod} {p : Nat} (hp : p < 7) (h : m.staysDown p) : (m.lossFollowed p).staysDown p := by
  have tree : (m.treeFollows p).staysDown p := by
    unfold Mod.treeFollows
    split
    · exact Mod.treeChoose_staysDown hp h
    · exact h
  exact Mod.syncRoles_staysDown hp (Mod.syncPool_staysDown hp (Mod.staysDown_of_sends hp (Mod.pump_sendsFrom _ (onward p)) tree))

theorem Does.portLost {s : State} {p : Fin 7} (hon : s.on) (hup : s.m.portUp p = true) (ht : s.m.takes 13 p) :
    Does (.portDown p) s fun t => t.m.pst p = 1 ∧ (t.m.port p).light = false ∧ t.m.get R.LNK_EVT_DOWN = 1 ∧ t.m.condOn 13 p 1 0 = true ∧
      s.m.onlyParts [.lnk, .flt] t.m := by
  refine ⟨_, exec_portDown hon hup, ?_⟩
  obtain ⟨state, event, cond⟩ := Mod.downTold_shows ht
  have parts := (s.m.downTold_only p).1
  generalize s.m.downTold p = q at *
  have dark := q.darkened_only p
  have down := Mod.darkened_staysDown p.isLt cond
  generalize q.darkened p = x at *
  have loss := x.lossFollowed_only p
  obtain ⟨light, cond⟩ := Mod.lossFollowed_staysDown p.isLt down
  have kept {g : Fld} (hg : ∀ f ∈ lossFlds, f.apart g) : (x.lossFollowed p).get g = q.get g :=
    (Mod.only_get loss g hg).trans (Mod.only_get dark g (by simp))
  refine ⟨(kept ?_).trans state, light, (kept (Fld.apart_of_clear (by decide))).trans event, cond, ?_⟩
  · exact Fld.apart_of_range 0xD0A0 0xD0C0 (by decide) (by simp) (by simp; omega)
  · exact Mod.onlyParts_trans parts (Mod.onlyParts_trans (Mod.onlyParts_mono dark.1 (by simp)) loss.1)

/-! ## A lane is lost (R274) -/

theorem Mod.mayRaise_congr {a b : Mod} (hflt : b.flt = a.flt) (htime : b.time = a.time) (key win : Nat) :
    b.mayRaise key win = a.mayRaise key win := by
  rw [Mod.mayRaise, Mod.mayRaise, hflt, htime]

theorem Does.laneLost {s : State} {p : Fin 7} (hon : s.on) (hst : s.m.pst p = 2) (hone : s.m.get R.LNK_CFG_ONE_LANE_OK = 1)
    (ht : s.m.takes 13 p) (hc : s.m.condOn 13 p 2 0 = false) (hmay : s.m.mayRaise (raiseKey 13 p 2) tickS = true) :
    Does (.laneLoss p) s fun t => t.m.pst p = 3 ∧ t.m.get R.LNK_EVT_DEGRADED = 1 ∧
      t.m.tells { blk := 13, inst := p, kind := 2, addr := 0, cls := 0, ind := .start } ∧
      s.frame [.flt] (portFlds p ++ R.LNK_EVT_DEGRADED :: repFlds 13) t := by
  have clear : ∀ p : Fin 7, Fld.clear (R.LNK_EVT_DEGRADED :: repFlds 13) (R.LNK_PSTAT_STATE p) = true := by decide
  have set := s.m.setPst_only_fields p (v := 3) (by decide)
  have told := Mod.condStartLim_only ((s.m.setPst p 3).put R.LNK_EVT_DEGRADED 1) (raiseKey 13 p 2) 13 p 2 0
  have flt : ((s.m.setPst p 3).put R.LNK_EVT_DEGRADED 1).flt = s.m.flt :=
    (Mod.put_flt _ _ _).trans (set.1 .flt (by simp))
  have time : ((s.m.setPst p 3).put R.LNK_EVT_DEGRADED 1).time = s.m.time :=
    (Mod.put_time _ _ _).trans (set.1 .time (by simp))
  refine Does.ofCond (g := fun m => m.pst p = 2 && m.is R.LNK_CFG_ONE_LANE_OK)
    (f := fun m => ((m.setPst p 3).put R.LNK_EVT_DEGRADED 1).condStartLim (raiseKey 13 p 2) 13 p 2 0) rfl hon (by simp [hst, Mod.is, hone])
    ⟨?_, ?_, ?_, State.frame_of_only ?_⟩
  · have apart := List.forall_mem_cons.mp (Fld.apart_of_clear (clear p))
    exact (Mod.only_get told _ apart.2).trans ((Mod.get_put_ne _ _ _ 1 apart.1).trans (s.m.setPst_pst p.isLt (by decide)))
  · exact (Mod.only_get told _ (Fld.apart_of_clear (by decide))).trans (Mod.get_put_same _ _ 1 (by decide))
  · refine Mod.condStartLim_tells (Mod.takes_put _ 1 (.inl (by decide)) (Mod.takes_of_only set (by simp) (portFlds_power p).1 ht))
      ((Mod.condOn_congr (congrArg FltS.conds flt) 13 p 2 0).trans hc) ?_
    exact (Mod.mayRaise_congr flt time _ _).trans hmay
  · exact Mod.only_trans (Mod.only_mono set (by simp) fun _ h => List.mem_append_left _ h)
      (Mod.only_trans (Mod.only_put _ _ 1 _ (by simp)) (Mod.only_mono told (fun _ h => h) fun _ h => by simp [h]))

/-! ## A port trains again (R274) -/

/-- The retrainings of the last second, this one among them. -/
def Mod.retrainsNow (m : Mod) (p : Nat) : List Nat := m.time.ticks :: (m.port p).retrains.filter (fun x => decide (m.time.ticks < x + tickS))

/-- A retraining is counted and reported. -/
def Mod.retrainTold (m : Mod) (p : Nat) : Mod :=
  ((m.setPort p fun q => { q with retrains := m.retrainsNow p, crcTicks := [] }).bump (R.LNK_RTR_CNT_COUNT p)).portEvent p 3 R.LNK_EVT_RETRAIN

/-- The third within a second ends in FAIL, any other trains. -/
def Mod.retrainSet (m : Mod) (p n : Nat) : Mod :=
  if 3 ≤ n then ((m.setPst p 4).put R.LNK_EVT_FAIL 1).condStart 13 p 4 0 1 else m.setPst p 1

theorem Mod.retrain_eq (m : Mod) (p : Nat) : m.retrain p = (m.retrainTold p).retrainSet p (m.retrainsNow p).length := rfl

/-- The fields that a retraining writes beside its counter. -/
def retrainFlds (p : Nat) : List Fld := R.LNK_EVT_FAIL :: portFlds p ++ repFlds 13

theorem Mod.retrainSet_only (m : Mod) (p n : Nat) : m.only [.lnk, .flt] (retrainFlds p) (m.retrainSet p n) := by
  have set (v : Nat) : m.only [.lnk, .flt] (retrainFlds p) (m.setPst p v) :=
    Mod.only_mono (m.setPst_only p v) (by simp) fun _ h => by simp [retrainFlds, h]
  unfold Mod.retrainSet
  split
  · exact Mod.only_trans (set 4) (Mod.only_trans (Mod.only_put _ _ 1 _ (by simp [retrainFlds]))
      (Mod.only_mono (Mod.condStart_only _ 13 p 4 0 1) (by simp) fun _ h => by simp [retrainFlds, h]))
  · exact set 1

theorem Mod.retrainSet_pst (m : Mod) (p : Fin 7) (n : Nat) : (m.retrainSet p n).pst p = if 3 ≤ n then 4 else 1 := by
  have clear : ∀ p : Fin 7, Fld.clear (R.LNK_EVT_FAIL :: repFlds 13) (R.LNK_PSTAT_STATE p) = true := by decide
  unfold Mod.retrainSet
  split
  · have apart := List.forall_mem_cons.mp (Fld.apart_of_clear (clear p))
    exact (Mod.only_get (Mod.condStart_only _ 13 p 4 0 1) _ apart.2).trans
      ((Mod.get_put_ne _ _ _ 1 apart.1).trans (m.setPst_pst p.isLt (by decide)))
  · exact m.setPst_pst p.isLt (by decide)

theorem Mod.retrainSet_retrains (m : Mod) (p n : Nat) {r : Nat} (hr : r < 7) : ((m.retrainSet p n).port r).retrains = (m.port r).retrains := by
  have set (v : Nat) : ((m.setPst p v).port r).retrains = (m.port r).retrains := by
    obtain ⟨tick, h⟩ := m.setPst_port p v hr
    rw [h]
  unfold Mod.retrainSet
  split
  · rw [Mod.port_congr ((Mod.condStart_only _ 13 p 4 0 1).1 .lnk (by simp)), Mod.port_congr (Mod.put_lnk _ _ _)]
    exact set 4
  · exact set 1

theorem rtrCnt_clear : ∀ p : Fin 7, Fld.clear (R.BLK_STAT_SAT ((R.LNK_RTR_CNT_COUNT p).addr / 4096) ::
    R.BLK_STAT_SAT_OFF ((R.LNK_RTR_CNT_COUNT p).addr / 4096) :: repFlds 14) ⟨(R.LNK_RTR_CNT_COUNT p).addr, 0, 32⟩ = true := by decide

/-- The retraining is among those of the last second, its counter counts and its event bit is set. -/
theorem Mod.retrainTold_shows (m : Mod) (p : Fin 7) :
    ((m.retrainTold p).port p).retrains = m.retrainsNow p ∧ (m.retrainTold p).get R.LNK_EVT_RETRAIN = 1 ∧
      ((m.retrainTold p).word (R.LNK_RTR_CNT_COUNT p).addr).toNat = min ((m.word (R.LNK_RTR_CNT_COUNT p).addr).toNat + 1) (2 ^ 32 - 1) := by
  unfold Mod.retrainTold Mod.portEvent
  have noted : (m.setPort p fun q => { q with retrains := m.retrainsNow p, crcTicks := [] }).port p =
      { m.port p with retrains := m.retrainsNow p, crcTicks := [] } := by rw [Mod.port_setPort _ _ _ _ p.isLt, if_pos rfl]
  have word : (m.setPort p fun q => { q with retrains := m.retrainsNow p, crcTicks := [] }).word (R.LNK_RTR_CNT_COUNT p).addr =
      m.word (R.LNK_RTR_CNT_COUNT p).addr := rfl
  generalize (m.setPort p fun q => { q with retrains := m.retrainsNow p, crcTicks := [] }) = q at *
  have counted := Mod.bump_only q (R.LNK_RTR_CNT_COUNT p) (ps := [.flt]) (by simp) fun _ h => h
  have count := Mod.word_bump_min q (R.LNK_RTR_CNT_COUNT p) (Fld.apart_of_clear (rtrCnt_clear p))
  generalize q.bump (R.LNK_RTR_CNT_COUNT p) = x at *
  have told := x.raiseLim_only tickS 13 p 3 0 0
  refine ⟨?_, Mod.get_put_same _ _ 1 (by decide), ?_⟩
  · rw [Mod.port_congr (Mod.put_lnk _ _ _), Mod.port_congr (told.1 .lnk (by simp)), Mod.port_congr (counted.1 .lnk (by simp)), noted]
  · rw [Mod.word_put_ne _ _ _ (by simp; omega),
      Mod.only_word told _ (Fld.apart_of_range 0xD120 0xD140 (by decide) (by simp) (by simp; omega)), count, word]

/-- A retraining, and the relays that follow. -/
theorem Mod.retrain_shows (m : Mod) (p : Fin 7) {x : Mod} (hx : x = (m.retrain p).syncRelays) :
    x.pst p = (if 2 ≤ ((m.port p).retrains.filter (fun x => decide (m.time.ticks < x + tickS))).length then 4 else 1) ∧
      (x.port p).retrains = m.time.ticks :: (m.port p).retrains.filter (fun x => decide (m.time.ticks < x + tickS)) ∧
      x.get R.LNK_EVT_RETRAIN = 1 ∧
      (x.word (R.LNK_RTR_CNT_COUNT p).addr).toNat = min ((m.word (R.LNK_RTR_CNT_COUNT p).addr).toNat + 1) (2 ^ 32 - 1) := by
  have clear : ∀ p : Fin 7, Fld.clear (retrainFlds p) R.LNK_EVT_RETRAIN = true ∧
      Fld.clear (retrainFlds p) ⟨(R.LNK_RTR_CNT_COUNT p).addr, 0, 32⟩ = true := by decide
  obtain ⟨retrains, event, count⟩ := m.retrainTold_shows p
  have relays (y : Mod) : y.only [] [R.MOD_ROLE_STAT_HOST_RELAY, R.MOD_ROLE_STAT_FLEET_RELAY] y.syncRelays := Mod.only_puts y _ _ (by simp)
  have hx := hx ▸ relays (m.retrain p)
  have set := (m.retrainTold p).retrainSet_only p (m.retrainsNow p).length
  rw [← Mod.retrain_eq] at set
  refine ⟨?_, ?_, ?_, ?_⟩
  · refine (Mod.only_get hx _ (Fld.apart_of_range 0xD0A0 0xD0C0 (by decide) (by simp) (by simp; omega))).trans ?_
    rw [Mod.retrain_eq]
    refine ((m.retrainTold p).retrainSet_pst p _).trans ?_
    simp only [Mod.retrainsNow, List.length_cons, Nat.reduceLeDiff]
  · rw [Mod.port_congr (hx.1 .lnk (by simp)), Mod.retrain_eq, Mod.retrainSet_retrains _ _ _ p.isLt, retrains]
    rfl
  · exact (Mod.only_get hx _ (Fld.apart_of_clear (by decide))).trans ((Mod.only_get set _ (Fld.apart_of_clear (clear p).1)).trans event)
  · rw [Mod.only_word hx _ (Fld.apart_of_range 0xD120 0xD140 (by decide) (by simp) (by simp; omega)),
      Mod.only_word set _ (Fld.apart_of_clear (clear p).2), count]

theorem Does.retrained {s : State} {p : Fin 7} (hon : s.on) (hup : s.m.portUp p = true)
    (hwhy : 16 < ((s.m.port p).crcTicks.filter (fun x => decide (s.m.time.ticks < x + tickMs))).length ∨
      ∃ f ∈ (s.m.port p).retry, 8 ≤ f.tries) :
    Does (.portRetrain p) s fun t =>
      t.m.pst p = (if 2 ≤ ((s.m.port p).retrains.filter (fun x => decide (s.m.time.ticks < x + tickS))).length then 4 else 1) ∧
      (t.m.port p).retrains = s.m.time.ticks :: (s.m.port p).retrains.filter (fun x => decide (s.m.time.ticks < x + tickS)) ∧
      t.m.get R.LNK_EVT_RETRAIN = 1 ∧
      (t.m.word (R.LNK_RTR_CNT_COUNT p).addr).toNat = min ((s.m.word (R.LNK_RTR_CNT_COUNT p).addr).toNat + 1) (2 ^ 32 - 1) := by
  have why : (decide (16 < ((s.m.port p).crcTicks.filter (fun x => decide (s.m.time.ticks < x + tickMs))).length) ||
      (s.m.port p).retry.any (fun f => decide (8 ≤ f.tries))) = true := by
    simpa using hwhy
  refine ⟨{ s with m := (s.m.retrain p).syncRelays }, ?_, s.m.retrain_shows p rfl⟩
  rw [show exec (.portRetrain p) s = execPortRetrain p s from rfl, execPortRetrain, onMod, if_neg hon]
  simp only
  rw [if_pos (by rw [hup, why]; rfl)]

theorem Does.retrainCommanded {s : State} {p : Fin 7} (hon : s.on) (hup : s.m.portUp p = true) (hw : s.m.wrStatus 0xD0F4 (1 + 4 * p.val) = 0) :
    Does (.lnkCmdRetrain p) s fun t =>
      t.m.pst p = (if 2 ≤ ((s.m.port p).retrains.filter (fun x => decide (s.m.time.ticks < x + tickS))).length then 4 else 1) ∧
      (t.m.port p).retrains = s.m.time.ticks :: (s.m.port p).retrains.filter (fun x => decide (s.m.time.ticks < x + tickS)) ∧
      t.m.get R.LNK_EVT_RETRAIN = 1 ∧ t.m.resp = 0 ∧
      (t.m.word (R.LNK_RTR_CNT_COUNT p).addr).toNat = min ((s.m.word (R.LNK_RTR_CNT_COUNT p).addr).toNat + 1) (2 ^ 32 - 1) := by
  obtain ⟨x, hx⟩ : ∃ x, x = (s.m.retrain p).syncRelays := ⟨_, rfl⟩
  obtain ⟨state, retrains, event, count⟩ := s.m.retrain_shows p hx
  refine ⟨{ s with m := { x with resp := 0 } }, ?_, state, retrains, event, rfl, count⟩
  rw [show exec (.lnkCmdRetrain p) s = execLnkCmdRetrain p s from rfl, execLnkCmdRetrain, onMod, if_neg hon, Mod.guarded_ok _ hw, Mod.lnkRetrain,
    if_pos hup, ← hx]

/-! ## FAIL ends (R274) -/

/-- The port trains, its ROLE_ERR is cleared. -/
def Mod.failLeft (m : Mod) (p : Nat) : Mod := ((m.setPst p 1).put (R.LNK_PSTAT_ROLE_ERR p) 0).setPort p fun q => { q with retrains := [] }

theorem Mod.failLeft_only (m : Mod) (p : Nat) : m.only [.lnk] (R.LNK_PSTAT_ROLE_ERR p :: portFlds p) (m.failLeft p) :=
  Mod.only_trans (Mod.only_mono (m.setPst_only p 1) (fun _ h => h) fun _ h => List.mem_cons_of_mem _ h)
    (Mod.only_trans (Mod.only_put _ _ 0 _ List.mem_cons_self) (Mod.only_mono (Mod.setPort_only _ p _) (fun _ h => h) (by simp)))

theorem Mod.failLeft_shows (m : Mod) (p : Fin 7) :
    (m.failLeft p).pst p = 1 ∧ (m.failLeft p).get (R.LNK_PSTAT_ROLE_ERR p) = 0 ∧ ((m.failLeft p).port p).retrains = [] := by
  have apart : (R.LNK_PSTAT_ROLE_ERR p).apart (R.LNK_PSTAT_STATE p) := .inr (.inl (by simp))
  have get (g : Fld) : (m.failLeft p).get g = ((m.setPst p 1).put (R.LNK_PSTAT_ROLE_ERR p) 0).get g :=
    Mod.only_get (Mod.setPort_only _ p _) g (by simp)
  refine ⟨?_, ?_, ?_⟩
  · rw [Mod.pst, get, Mod.get_put_ne _ _ _ 0 apart]
    exact m.setPst_pst p.isLt (by decide)
  · rw [get]
    exact Mod.get_put_same _ _ 0 (by simp)
  · rw [Mod.failLeft, Mod.port_setPort _ _ _ _ p.isLt, if_pos rfl]

theorem exec_portFailEnd {s : State} {p : Fin 7} (hon : s.on) (hst : s.m.pst p = 4) (hdue : (s.m.port p).failTick + tickS ≤ s.m.time.ticks) :
    exec (.portFailEnd p) s = .next { s with m := ((s.m.failLeft p).condEnd 13 p 4 0 1).condEnd 13 p 5 0 1 } := by
  rw [show exec (.portFailEnd p) s = execPortFailEnd p s from rfl, execPortFailEnd, onMod, if_neg hon,
    if_pos (by rw [hst, decide_eq_true (hdue.trans (Nat.le_add_right _ _))]; rfl)]
  rfl

theorem Does.failEnded {s : State} {p : Fin 7} (hon : s.on) (hst : s.m.pst p = 4) (hdue : (s.m.port p).failTick + tickS ≤ s.m.time.ticks) :
    Does (.portFailEnd p) s fun t => t.m.pst p = 1 ∧ t.m.get (R.LNK_PSTAT_ROLE_ERR p) = 0 ∧ (t.m.port p).retrains = [] ∧
      s.frame [.lnk, .flt] (portFlds p ++ R.LNK_PSTAT_ROLE_ERR p :: repFlds 13) t := by
  have clear : ∀ p : Fin 7, Fld.clear (repFlds 13) (R.LNK_PSTAT_STATE p) = true ∧ Fld.clear (repFlds 13) (R.LNK_PSTAT_ROLE_ERR p) = true := by
    decide
  refine ⟨_, exec_portFailEnd hon hst hdue, ?_⟩
  obtain ⟨state, role, retrains⟩ := s.m.failLeft_shows p
  have left := s.m.failLeft_only p
  generalize s.m.failLeft p = x at *
  have ended : x.only [.flt] (repFlds 13) ((x.condEnd 13 p 4 0 1).condEnd 13 p 5 0 1) :=
    Mod.only_trans (x.condEnd_only 13 p 4 0 1) (Mod.condEnd_only _ 13 p 5 0 1)
  refine ⟨(Mod.only_get ended _ (Fld.apart_of_clear (clear p).1)).trans state, (Mod.only_get ended _ (Fld.apart_of_clear (clear p).2)).trans role,
    (congrArg Port.retrains (Mod.port_congr (ended.1 .lnk (by simp)) p)).trans retrains, State.frame_of_only ?_⟩
  refine Mod.only_trans (Mod.only_mono left (by simp) fun _ h => ?_) (Mod.only_mono ended (by simp) fun _ h => by simp [h])
  rcases List.mem_cons.mp h with rfl | h
  · simp
  · exact List.mem_append_left _ h

/-- Settles O25: each command of a port's bring-up and loss, by the fields that follow it. -/
theorem portTraining : Obligations.PortTraining :=
  ⟨fun _ _ hon hen hst => Does.lightSeen hon hen hst,
    fun _ _ _ _ _ _ _ _ hon hen hst hlight hfits => Does.trainedBothLanes hon hen hst hlight hfits,
    fun _ _ _ _ _ _ _ _ hon hen hst hlight hfits hone => Does.trainedOneLane hon hen hst hlight hfits hone,
    fun _ _ _ _ _ _ _ _ _ hon hen hst hlight hfits hone ht hc => Does.pairRefused hon hen hst hlight hfits hone ht hc,
    fun _ _ hon hup ht => Does.portLost hon hup ht,
    fun _ _ hon hst hone ht hc hmay => Does.laneLost hon hst hone ht hc hmay,
    fun _ _ hon hup hwhy => Does.retrained hon hup hwhy,
    fun _ _ hon hup hw => Does.retrainCommanded hon hup hw,
    fun _ _ hon hst hdue => Does.failEnded hon hst hdue⟩

end Sys2Proof.Machine
end

section
/-!
PROOFS. Link frames that leave and come in (R272, R274 to R276), the stops of channels and aged messages (R280, R281), the statement LinkFrames.
-/
namespace Sys2Proof.Machine

/-! ## IDLE and a bad CRC (R274, R276) -/

theorem Does.idleSent {s : State} {p : Fin 7} (hon : s.on) (hup : s.m.portUp p = true) :
    Does (.idleSend p) s fun t => (∃ f, (t.m.port p).lastTx = some f ∧ f.body = [] ∧ bits f.lh0 24 4 = 2 ∧
      bits f.lh0 12 12 = (s.m.port p).rxSeq % 4096 ∧ f.crc = crc32 (leBytes 4 f.lh0 ++ leBytes 4 f.lh1)) ∧ s.frame [.lnk] [] t := by
  obtain ⟨⟨f, last, built⟩, -⟩ := s.m.sendFrame_sent .idle (s.m.port p).txSeq 0 [] p.isLt
  refine Does.ofCond (g := fun m => m.portUp p) (f := fun m => m.sendFrame p .idle (m.port p).txSeq 0 []) rfl hon hup
    ⟨⟨f, last, built.body, built.type, built.lack, ?_⟩, State.frame_of_only (s.m.sendFrame_only p _ _ _ _)⟩
  rw [built.crc, built.body, List.append_nil]

/-- A frame with a bad CRC is counted and noted for the retrain rule. -/
def Mod.crcBad (m : Mod) (p : Nat) : Mod :=
  (m.bump (R.LNK_CRC_CNT_COUNT p)).setPort p fun q =>
    { q with crcTicks := m.time.ticks :: q.crcTicks.filter (fun t => decide (m.time.ticks < t + tickMs)) }

theorem Mod.bump_lnk (m : Mod) (f : Fld) : (m.bump f).lnk = m.lnk := (m.bump_only f (ps := [.flt]) (by simp) fun _ h => h).1 .lnk (by simp)

theorem Mod.crcBad_port (m : Mod) {p : Nat} (hp : p < 7) :
    ((m.crcBad p).port p).crcTicks.head? = some m.time.ticks ∧ ((m.crcBad p).port p).rxSeq = (m.port p).rxSeq ∧
      (m.crcBad p).lnk.inbox = m.lnk.inbox := by
  have inbox : (m.crcBad p).lnk.inbox = (m.bump (R.LNK_CRC_CNT_COUNT p)).lnk.inbox := rfl
  rw [inbox, m.bump_lnk, Mod.crcBad, Mod.port_setPort _ _ _ _ hp, if_pos rfl, Mod.port_congr (m.bump_lnk _)]
  exact ⟨rfl, rfl, rfl⟩

/-- The fields of a counter's saturation leave its own word. -/
def satFlds (a : Nat) : List Fld := R.BLK_STAT_SAT (a / 4096) :: R.BLK_STAT_SAT_OFF (a / 4096) :: repFlds 14

theorem portCounters_clear : ∀ p : Fin 7, ∀ f ∈ [R.LNK_CRC_CNT_COUNT p, R.LNK_RETX_CNT_COUNT p, R.LNK_LOST_CNT_COUNT p],
    Fld.clear (satFlds f.addr) ⟨f.addr, 0, 32⟩ = true := by decide

theorem Does.badFrameCounted {s : State} {p : Fin 7} {b : List Byte} {bad : Bool} (hon : s.on) (hup : s.m.portUp p = true)
    (hbad : b.length < 12 ∨ crc32 ((natBytes b).take (b.length - 4)) ≠ le (natBytes b) (b.length - 4) 4) :
    Does (.linkFrameReceive p b bad) s fun t =>
      (t.m.word (R.LNK_CRC_CNT_COUNT p).addr).toNat = min ((s.m.word (R.LNK_CRC_CNT_COUNT p).addr).toNat + 1) (2 ^ 32 - 1) ∧
      (t.m.port p).crcTicks.head? = some s.m.time.ticks ∧ (t.m.port p).rxSeq = (s.m.port p).rxSeq ∧ t.m.lnk.inbox = s.m.lnk.inbox ∧
      ((s.m.word (R.LNK_CRC_CNT_COUNT p).addr).toNat < 2 ^ 32 - 1 → s.frame [.lnk] [⟨(R.LNK_CRC_CNT_COUNT p).addr, 0, 32⟩] t) := by
  refine ⟨{ s with m := s.m.crcBad p }, ?_, ?_⟩
  · rw [show exec (.linkFrameReceive p b bad) s = execLinkFrameReceive p b bad s from rfl, execLinkFrameReceive, onMod, if_neg hon]
    simp only [length_natBytes]
    rw [if_neg (by simp [hup]), if_pos hbad]
    rfl
  · have count := Mod.word_bump_min s.m (R.LNK_CRC_CNT_COUNT p) (Fld.apart_of_clear (portCounters_clear p _ List.mem_cons_self))
    obtain ⟨ticks, rxSeq, inbox⟩ := s.m.crcBad_port p.isLt
    exact ⟨count, ticks, rxSeq, inbox, fun hlt =>
      State.frame_of_only (Mod.only_trans (Mod.only_mono (s.m.bump_below _ hlt) (by simp) fun _ h => h)
        (Mod.only_mono (Mod.setPort_only _ p _) (fun _ h => h) (by simp)))⟩

/-! ## A MSG frame in sequence (R275, R279, R291) -/

/-- A unicast for this module is delivered with the tick of its arrival. -/
theorem Mod.acceptMsg_own {m : Mod} {p : Nat} {g : Msg} (hp : p < 2) (hscope : g.scope = .unicast) (hdst : g.dst = m.addr) (hchan : g.chan < 14)
    (hhops : g.hops ≠ 0) (hsrc : g.src ≠ m.addr) (hrelay : g.relay = 0) :
    m.acceptMsg p g = { m with lnk.inbox := m.lnk.inbox ++ [{ g with tick := m.time.ticks }] } := by
  unfold Mod.acceptMsg
  rw [if_neg hhops, if_neg (by omega)]
  simp only
  rw [if_neg (by omega), if_neg (by simp [hsrc]), if_neg (by omega), if_neg (by simp [hrelay])]
  simp only [hscope]
  rw [if_pos hdst, Mod.deliver]
  simp only
  rw [if_pos (by omega)]

/-- The acknowledgement and the credits of a frame. -/
def Mod.ackTaken (m : Mod) (p lack h1 : Nat) : Mod := (m.takeAck p lack).takeCredit p h1

theorem Mod.ackTaken_port (m : Mod) {p : Nat} (lack h1 : Nat) (hp : p < 7) : ((m.ackTaken p lack h1).port p).rxSeq = (m.port p).rxSeq := by
  rw [Mod.ackTaken, Mod.takeCredit, Mod.port_setPort _ _ _ _ hp, if_pos rfl, Mod.takeAck, Mod.port_setPort _ _ _ _ hp, if_pos rfl]

/-- A frame in sequence is the last received, and its window counts. -/
def Mod.seqTaken (m : Mod) (p lseq cls : Nat) : Mod :=
  m.setPort p fun q =>
    { q with rxSeq := lseq, ret0 := if cls = 0 then q.ret0 + 1 else q.ret0, ret1 := if cls = 1 then q.ret1 + 1 else q.ret1,
             ret2 := if 2 ≤ cls then q.ret2 + 1 else q.ret2 }

theorem Mod.takeMsgFrame_inSequence {m : Mod} {p lseq cls : Nat} {body : List Nat} {g : Msg} (hseq : lseq = ((m.port p).rxSeq + 1) % 4096)
    (hparse : parseMsg body = some g) : m.takeMsgFrame p lseq cls body false = (m.seqTaken p lseq cls).acceptMsg p g := by
  unfold Mod.takeMsgFrame
  rw [if_pos hseq]
  simp only [hparse]
  rfl

/-- A MSG frame in sequence, up to its message: acknowledgement, credits, the last frame received. -/
def Mod.frameTaken (m : Mod) (p h0 h1 : Nat) : Mod := (m.ackTaken p (bits h0 12 12) h1).seqTaken p (bits h0 0 12) (bits h0 28 2)

/-- A message stands with those taken in. -/
def Mod.msgTaken (m : Mod) (g : Msg) : Mod := { m with lnk.inbox := m.lnk.inbox ++ [g] }

theorem Mod.frameTaken_rxSeq (m : Mod) {p : Nat} (h0 h1 : Nat) (hp : p < 7) : ((m.frameTaken p h0 h1).port p).rxSeq = bits h0 0 12 := by
  rw [Mod.frameTaken, Mod.seqTaken, Mod.port_setPort _ _ _ _ hp, if_pos rfl]

theorem Mod.frameTaken_only (m : Mod) (p h0 h1 : Nat) : m.only [.lnk] [] (m.frameTaken p h0 h1) :=
  Mod.only_trans (Mod.only_trans (m.setPort_only p _) (Mod.setPort_only _ p _)) (Mod.setPort_only _ p _)

theorem Does.messageTaken {s : State} {p : Fin 2} {b : List Byte} {g : Msg} (hon : s.on) (hup : s.m.portUp p = true) (hlen : 12 ≤ b.length)
    (hcrc : crc32 ((natBytes b).take (b.length - 4)) = le (natBytes b) (b.length - 4) 4) (htype : bits (le (natBytes b) 0 4) 24 4 = 0)
    (hseq : bits (le (natBytes b) 0 4) 0 12 = ((s.m.port p).rxSeq + 1) % 4096)
    (hparse : parseMsg (((natBytes b).drop 8).take (b.length - 12)) = some g) (hscope : g.scope = .unicast) (hdst : g.dst = s.m.addr)
    (hchan : g.chan < 14) (hhops : g.hops ≠ 0) (hsrc : g.src ≠ s.m.addr) (hrelay : g.relay = 0) :
    Does (.linkFrameReceive ⟨p.val, by omega⟩ b false) s fun t => { g with tick := s.m.time.ticks } ∈ t.m.lnk.inbox ∧
      (t.m.port p).rxSeq = ((s.m.port p).rxSeq + 1) % 4096 ∧ s.m.onlyParts [.lnk, .flt] t.m := by
  have hp : p.val < 7 := by omega
  have hseq' : bits (le (natBytes b) 0 4) 0 12 =
      (((s.m.ackTaken p (bits (le (natBytes b) 0 4) 12 12) (le (natBytes b) 4 4)).port p).rxSeq + 1) % 4096 := by rw [hseq, s.m.ackTaken_port _ _ hp]
  have received := (Mod.takeMsgFrame_inSequence (cls := bits (le (natBytes b) 0 4) 28 2) hseq' hparse).trans
    (Mod.acceptMsg_own p.isLt hscope hdst hchan hhops hsrc hrelay)
  refine ⟨{ s with m := Mod.pumpAll ((s.m.frameTaken p (le (natBytes b) 0 4) (le (natBytes b) 4 4)).msgTaken { g with tick := s.m.time.ticks }) },
    ?_, ?_⟩
  · rw [show exec (.linkFrameReceive ⟨p.val, by omega⟩ b false) s = execLinkFrameReceive ⟨p.val, by omega⟩ b false s from rfl,
      execLinkFrameReceive, onMod, if_neg hon]
    simp only [length_natBytes]
    rw [if_neg (by simp [hup]), if_neg (by simp [hcrc, hlen]), htype]
    exact congrArg (fun m => Host.Outcome.next { s with m := m.pumpAll }) received
  · have before := (s.m.frameTaken_only p (le (natBytes b) 0 4) (le (natBytes b) 4 4)).1
    have rxSeq := s.m.frameTaken_rxSeq (le (natBytes b) 0 4) (le (natBytes b) 4 4) hp
    generalize s.m.frameTaken p (le (natBytes b) 0 4) (le (natBytes b) 4 4) = x at *
    have keeps := (x.msgTaken { g with tick := s.m.time.ticks }).pumpAll_linkKeeps
    have parts := (x.msgTaken { g with tick := s.m.time.ticks }).pumpAll_only.1
    refine ⟨?_, ((keeps.ports p hp).rxSeq.trans rxSeq).trans hseq, ?_⟩
    · rw [keeps.inbox]
      exact List.mem_append_right _ List.mem_cons_self
    · exact Mod.onlyParts_trans (Mod.onlyParts_mono before (by simp)) (Mod.onlyParts_trans
        (Mod.onlyParts_mono (Mod.only_lnk x _ [] (ps := [.lnk]) (by simp)).1 (by simp)) parts)

/-! ## Frames sent again (R275, R345) -/

/-- A counter counts up to 2³² − 1 and holds there, by however many. -/
theorem Mod.word_bumpBy_min (m : Mod) (a n : Nat) (hf : ∀ g ∈ satFlds a, g.apart ⟨a, 0, 32⟩) :
    ((m.bumpBy a n).word a).toNat = min ((m.word a).toNat + n) (2 ^ 32 - 1) := by
  by_cases h : (m.word a).toNat + n < 2 ^ 32
  · rw [Mod.word_bumpBy m a n h, Mod.word_setWord_same, BitVec.toNat_ofNat, Nat.mod_eq_of_lt h]
    omega
  · have hrep : ∀ g ∈ repFlds 14, g.apart ⟨a, 0, 32⟩ := fun g hg => hf g (List.mem_cons_of_mem _ (List.mem_cons_of_mem _ hg))
    have full : (m.bumpBy a n).word a = BitVec.ofNat 32 (2 ^ 32 - 1) := by
      unfold Mod.bumpBy Mod.countBy
      simp only [if_neg h]
      refine Mod.satMark_keeps (P := fun q => q.word a = _) (fun _ _ hq => hq) (fun q v g hg hq => ?_) (fun q r hb _ _ hq => ?_)
        (Mod.word_setWord_same _ _ _)
      · have apart : g.apart ⟨a, 0, 32⟩ := hf g (by simp only [satFlds, List.mem_cons, List.not_mem_nil, or_false] at hg ⊢; tauto)
        exact (Mod.only_word (Mod.only_put q g v [] (List.mem_singleton_self g)) _ (List.forall_mem_singleton.mpr apart)).trans hq
      · have told := Mod.only_trans (Mod.reportLines_only q r (ps := [.flt]) (fs := repFlds 14) (by simp) (by simp [hb]))
          (Mod.pushReport_only _ r 14 (by simp) fun _ h => h)
        exact (Mod.only_word told _ hrep).trans hq
    rw [full, BitVec.toNat_ofNat]
    omega

/-- Up to its end a counter changes its word alone. -/
theorem Mod.bumpBy_below (m : Mod) (a n : Nat) (h : (m.word a).toNat + n ≤ 2 ^ 32 - 1) : m.only [] [⟨a, 0, 32⟩] (m.bumpBy a n) := by
  rw [Mod.word_bumpBy m a n (by omega)]
  exact Mod.only_setWord m _ _ _ List.mem_cons_self

/-- One frame of the retry store leaves again. -/
def Mod.again (p : Nat) (m : Mod) (f : Sent) : Mod := m.sendFrame p .msg f.lseq f.cls f.msg.bytes

/-- The frames `l` of the retry store are counted and leave again. -/
def Mod.sentAgain (m : Mod) (p : Nat) (l : List Sent) : Mod :=
  l.foldl (Mod.again p) ((m.bumpBy (R.LNK_RETX_CNT_COUNT p).addr l.length).setPort p fun q =>
    { q with retry := l.map fun f => { f with tries := f.tries + 1 } })

theorem Mod.again_framed (p : Nat) (l : List Sent) (m : Mod) {r : Nat} (hr : r < 7) : (m.port r).framed ((l.foldl (Mod.again p) m).port r) :=
  List.foldlRecOn (motive := fun q : Mod => (m.port r).framed (q.port r)) l _ (Port.framed_refl _) fun q hq f _ =>
    Port.framed_trans hq (q.sendFrame_framed p .msg f.lseq f.cls f.msg.bytes hr)

theorem Mod.again_only (p : Nat) (l : List Sent) (m : Mod) : m.only [.lnk] [] (l.foldl (Mod.again p) m) :=
  Mod.only_foldl _ _ (fun q _ _ => q.sendFrame_only p _ _ _ _) m

/-- The frame that left last is the last of the list. -/
theorem Mod.again_last (m : Mod) {p : Nat} {l : List Sent} {f : Sent} (hp : p < 7) (h : l.getLast? = some f) :
    ∃ x, ((l.foldl (Mod.again p) m).port p).lastTx = some x ∧ x.body = f.msg.bytes ∧ bits x.lh0 0 12 = f.lseq % 4096 := by
  obtain ⟨init, rfl⟩ := List.getLast?_eq_some_iff.mp h
  rw [List.foldl_append]
  obtain ⟨⟨x, last, built⟩, -⟩ := (init.foldl (Mod.again p) m).sendFrame_sent .msg f.lseq f.cls f.msg.bytes hp
  exact ⟨x, last, built.body, built.lseq⟩

theorem Mod.sentAgain_retry (m : Mod) {p : Nat} (l : List Sent) (hp : p < 7) :
    ((m.sentAgain p l).port p).retry = l.map fun g => { g with tries := g.tries + 1 } := by
  obtain ⟨_, _, _, _, _, _, _, framed⟩ := Mod.again_framed p l ((m.bumpBy (R.LNK_RETX_CNT_COUNT p).addr l.length).setPort p fun q =>
    { q with retry := l.map fun f => { f with tries := f.tries + 1 } }) hp
  rw [Mod.sentAgain, framed, Mod.port_setPort _ _ _ _ hp, if_pos rfl]

/-- Beside the links only the counter and what its saturation tells change. -/
theorem Mod.sentAgain_word (m : Mod) (p : Nat) (l : List Sent) (x : Nat) :
    (m.sentAgain p l).word x = (m.bumpBy (R.LNK_RETX_CNT_COUNT p).addr l.length).word x :=
  (Mod.only_word (Mod.again_only p l _) x (by simp)).trans (Mod.only_word (Mod.setPort_only _ p _) x (by simp))

theorem Does.sentAgain {s : State} {p : Fin 7} {f : Sent} (hon : s.on) (hup : s.m.portUp p = true) (hlast : (s.m.port p).retry.getLast? = some f) :
    Does (.retryTimeout p false) s fun t => (t.m.port p).retry = (s.m.port p).retry.map (fun g => { g with tries := g.tries + 1 }) ∧
      (∃ x, (t.m.port p).lastTx = some x ∧ x.body = f.msg.bytes ∧ bits x.lh0 0 12 = f.lseq % 4096) ∧
      (t.m.word (R.LNK_RETX_CNT_COUNT p).addr).toNat =
        min ((s.m.word (R.LNK_RETX_CNT_COUNT p).addr).toNat + (s.m.port p).retry.length) (2 ^ 32 - 1) ∧
      ((s.m.word (R.LNK_RETX_CNT_COUNT p).addr).toNat + (s.m.port p).retry.length ≤ 2 ^ 32 - 1 →
        s.frame [.lnk] [⟨(R.LNK_RETX_CNT_COUNT p).addr, 0, 32⟩] t) := by
  refine ⟨{ s with m := s.m.sentAgain p (s.m.port p).retry }, ?_, s.m.sentAgain_retry _ p.isLt, Mod.again_last _ p.isLt hlast, ?_, fun hle => ?_⟩
  · rw [show exec (.retryTimeout p false) s = execRetryTimeout p false s from rfl, execRetryTimeout, onMod, if_neg hon, if_pos hup]
    cases hl : (s.m.port p).retry with
    | nil => simp [hl] at hlast
    | cons g l => rfl
  · rw [Mod.sentAgain_word]
    exact Mod.word_bumpBy_min _ _ _ (Fld.apart_of_clear (portCounters_clear p (R.LNK_RETX_CNT_COUNT p) (by simp)))
  · exact State.frame_of_only (Mod.only_trans (Mod.only_mono (s.m.bumpBy_below _ _ hle) (by simp) fun _ h => h)
      (Mod.only_trans (Mod.only_mono (Mod.setPort_only _ p _) (fun _ h => h) (by simp))
        (Mod.only_mono (Mod.again_only p _ _) (fun _ h => h) (by simp))))

/-- The fields of an uncorrectable read. -/
def ueFlds : List Fld :=
  [R.MEM_LAST_UE_STORE, R.MEM_LAST_UE_ADDR_ADDR, ⟨0xF0C0, 3, 1⟩] ++ cntFlds R.MEM_UE_CNT_COUNT.addr ++ repFlds 15

theorem Mod.linkUe_only (m : Mod) : m.only [.freeCtr, .flt] ueFlds m.linkUe := by
  have told (q : Mod) (st addr : Nat) : q.only [.freeCtr, .flt] ueFlds (q.singleUe st addr) :=
    Mod.only_trans (Mod.bump_only q R.MEM_UE_CNT_COUNT (by simp) fun _ h => List.mem_append_left _ (List.mem_append_right _ h))
      (Mod.only_trans (Mod.only_puts _ _ _ (by simp [ueFlds])) (Mod.only_trans
        (Mod.only_raise _ 15 st 4 addr 1 (by simp) fun _ h => List.mem_append_right _ h) (Mod.only_put _ _ 1 _ (by simp [ueFlds]))))
  exact Mod.only_trans (Mod.only_freeCtr m _ _ (by simp)) (told _ _ _)

theorem Does.oldestLost {s : State} {p : Fin 7} {f : Sent} {l : List Sent} (hon : s.on) (hup : s.m.portUp p = true)
    (hretry : (s.m.port p).retry = f :: l) :
    Does (.retryTimeout p true) s fun t => (t.m.port p).retry = l.map (fun g => { g with tries := g.tries + 1 }) ∧
      (t.m.word (R.LNK_LOST_CNT_COUNT p).addr).toNat = min ((s.m.word (R.LNK_LOST_CNT_COUNT p).addr).toNat + 1) (2 ^ 32 - 1) := by
  refine ⟨{ s with m := (s.m.linkUe.bump (R.LNK_LOST_CNT_COUNT p)).sentAgain p l }, ?_, Mod.sentAgain_retry _ l p.isLt, ?_⟩
  · rw [show exec (.retryTimeout p true) s = execRetryTimeout p true s from rfl, execRetryTimeout, onMod, if_neg hon, if_pos hup]
    simp only [hretry]
    rfl
  · have retx : ∀ p : Fin 7, Fld.clear (cntFlds (R.LNK_RETX_CNT_COUNT p).addr) ⟨(R.LNK_LOST_CNT_COUNT p).addr, 0, 32⟩ = true := by decide
    have ue : ∀ p : Fin 7, Fld.clear ueFlds ⟨(R.LNK_LOST_CNT_COUNT p).addr, 0, 32⟩ = true := by decide
    rw [Mod.sentAgain_word, Mod.only_word (Mod.bumpBy_frame _ (R.LNK_RETX_CNT_COUNT p).addr l.length (ps := [.flt]) (by simp) fun _ h => h) _
      (Fld.apart_of_clear (retx p)), Mod.word_bump_min _ _ (Fld.apart_of_clear (portCounters_clear p (R.LNK_LOST_CNT_COUNT p) (by simp))),
      Mod.only_word s.m.linkUe_only _ (Fld.apart_of_clear (ue p))]

/-! ## The scrambler and its inverse (R272) -/

theorem scrPart_fst_lt {k s x : Nat} (hx : x < 2 ^ k) : (scrPart k s x).1 < 2 ^ k :=
  Nat.xor_lt_two_pow (Nat.xor_lt_two_pow hx (Nat.mod_lt _ (Nat.two_pow_pos k))) (Nat.mod_lt _ (Nat.two_pow_pos k))

theorem scrPart_snd_lt {k s x : Nat} (hs : s < 2 ^ 58) (hx : x < 2 ^ k) : (scrPart k s x).2 < 2 ^ 58 := by
  have hy := scrPart_fst_lt (s := s) hx
  have sum : s + (scrPart k s x).1 * 2 ^ 58 < 2 ^ 58 * 2 ^ k := by
    calc s + (scrPart k s x).1 * 2 ^ 58 < 2 ^ 58 + (scrPart k s x).1 * 2 ^ 58 := Nat.add_lt_add_right hs _
      _ = 2 ^ 58 * ((scrPart k s x).1 + 1) := by ring
      _ ≤ 2 ^ 58 * 2 ^ k := Nat.mul_le_mul_left _ hy
  exact Nat.div_lt_of_lt_mul (lt_of_lt_of_eq sum (Nat.mul_comm _ _))

/-- The inverse reads back what a part was made of, and follows the same state. -/
theorem unscrPart_scrPart (k s x : Nat) : unscrPart k s (scrPart k s x).1 = (x, (scrPart k s x).2) := by
  have back : ((x ^^^ (s % 2 ^ k)) ^^^ (s / 2 ^ 19 % 2 ^ k)) ^^^ (s % 2 ^ k) ^^^ (s / 2 ^ 19 % 2 ^ k) = x := by
    generalize s % 2 ^ k = a
    generalize s / 2 ^ 19 % 2 ^ k = b
    rw [Nat.xor_assoc x a b, Nat.xor_assoc x (a ^^^ b) a, Nat.xor_assoc x _ b, Nat.xor_comm a b, Nat.xor_assoc b a a, Nat.xor_self, Nat.xor_zero,
      Nat.xor_self, Nat.xor_zero]
  exact Prod.ext back rfl

/-- A payload descrambled is the payload, and both ends keep the same 58 bits. -/
theorem unscramble_scramble {k x : Nat} (hk : k < 2 ^ 58) (hx : x < 2 ^ 64) :
    unscramble k (scramble k x).1 = (x, (scramble k x).2) ∧ (scramble k x).2 < 2 ^ 58 := by
  have ha : (scrPart 39 k (x % 2 ^ 39)).1 < 2 ^ 39 := scrPart_fst_lt (Nat.mod_lt _ (by decide))
  have hb : (scrPart 25 (scrPart 39 k (x % 2 ^ 39)).2 (x / 2 ^ 39 % 2 ^ 25)).1 < 2 ^ 25 := scrPart_fst_lt (Nat.mod_lt _ (by decide))
  have hs : (scrPart 39 k (x % 2 ^ 39)).2 < 2 ^ 58 := scrPart_snd_lt hk (Nat.mod_lt _ (by decide))
  refine ⟨?_, scrPart_snd_lt hs (Nat.mod_lt _ (by decide))⟩
  have low : (scramble k x).1 % 2 ^ 39 = (scrPart 39 k (x % 2 ^ 39)).1 := by
    simp only [scramble]
    omega
  have high : (scramble k x).1 / 2 ^ 39 % 2 ^ 25 = (scrPart 25 (scrPart 39 k (x % 2 ^ 39)).2 (x / 2 ^ 39 % 2 ^ 25)).1 := by
    simp only [scramble]
    omega
  unfold unscramble
  simp only [low, high, unscrPart_scrPart]
  refine Prod.ext ?_ rfl
  simp only
  omega

/-! ## The stops (R280, R281) -/

theorem Mod.sendFrame_port_ne (m : Mod) {p r : Nat} (t : FType) (lseq cls : Nat) (body : List Nat) (hr : r < 7) (h : p ≠ r) :
    (m.sendFrame p t lseq cls body).port r = m.port r := by
  unfold Mod.sendFrame
  extract_lets q h0 c0 c1 c2 h1 f one
  rw [Mod.port_setPort _ _ _ _ hr, if_neg h]

/-- The map of the stopped channels. -/
def Mod.stopMap (m : Mod) : List Nat :=
  (List.range 32).map fun i => ofBits 8 fun j => m.chClass (8 * i + j) != 0 && m.chStopped (8 * i + j)

/-- The map leaves by one port. -/
def sendMap (map : List Nat) (m : Mod) (p : Nat) : Mod := if m.portUp p then m.sendFrame p .stopmap (m.port p).txSeq 0 map else m

theorem Mod.sendStops_eq (m : Mod) : m.sendStops = (List.range 7).foldl (sendMap m.stopMap) m := rfl

theorem sendMap_sendsFrom (map : List Nat) (m : Mod) (p : Nat) : m.sendsFrom (sendMap map m p) := by
  unfold sendMap
  split
  · exact m.sendFrame_sendsFrom p _ _ _ _
  · exact m.sendsFrom_refl

theorem sendMap_port_ne (map : List Nat) (m : Mod) {p r : Nat} (hr : r < 7) (h : p ≠ r) : (sendMap map m p).port r = m.port r := by
  unfold sendMap
  split
  · exact m.sendFrame_port_ne _ _ _ _ hr h
  · rfl

/-- A port that is up shows the map as its last frame. -/
theorem Mod.sendStops_sent {m : Mod} {p : Nat} (hp : p < 7) (hup : m.portUp p = true) :
    ∃ f, (m.sendStops.port p).lastTx = some f ∧ bits f.lh0 24 4 = 5 ∧ f.body = m.stopMap := by
  rw [Mod.sendStops_eq]
  refine foldl_range_at (P := fun q : Mod => q.portUp p = true)
    (Q := fun q : Mod => ∃ f, (q.port p).lastTx = some f ∧ bits f.lh0 24 4 = 5 ∧ f.body = m.stopMap) hp ?_ ?_ ?_ hup
  · intro q j _ _ hq
    exact (Mod.portUp_congr (Mod.only_get (Mod.sendsFrom_only (sendMap_sendsFrom m.stopMap q j)) _ (by simp))).trans hq
  · intro q hq
    obtain ⟨⟨f, last, built⟩, -⟩ := q.sendFrame_sent .stopmap (q.port p).txSeq 0 m.stopMap hp
    rw [sendMap, if_pos hq]
    exact ⟨f, last, built.type, built.body⟩
  · intro q j _ hne hq
    rw [sendMap_port_ne m.stopMap q hp hne]
    exact hq

theorem Mod.bit_stopMap (m : Mod) {c : Nat} (hc : c < 256) : bit (m.stopMap.getD (c / 8) 0) (c % 8) = (m.chClass c != 0 && m.chStopped c) := by
  have hi : c / 8 < 32 := by omega
  have entry : m.stopMap.getD (c / 8) 0 = ofBits 8 fun j => m.chClass (8 * (c / 8) + j) != 0 && m.chStopped (8 * (c / 8) + j) := by
    simp [Mod.stopMap, List.getD_eq_getElem?_getD, hi]
  rw [entry, bit_ofBits _ _ _ (Nat.mod_lt _ (by decide)), Nat.div_add_mod]

/-- Frames that leave change no stop. -/
theorem Mod.stops_of_sends {m x : Mod} (h : m.sendsFrom x) (c : Nat) : x.chClass c = m.chClass c ∧ x.chStopped c = m.chStopped c := by
  obtain ⟨⟨l, rfl⟩, -⟩ := h
  exact ⟨rfl, rfl⟩

theorem Does.stopsSent {s : State} {p : Fin 7} (hon : s.on) (hup : s.m.portUp p = true) :
    Does .stopmapSend s fun t => (∃ f, (t.m.port p).lastTx = some f ∧ bits f.lh0 24 4 = 5 ∧ f.body.length = 32 ∧
        ∀ c < 256, bit (f.body.getD (c / 8) 0) (c % 8) = (t.m.chClass c != 0 && t.m.chStopped c)) ∧
      s.m.onlyParts [.lnk, .flt] t.m := by
  have synced := s.m.syncPool_only
  have up : s.m.syncPool.portUp p = true :=
    (Mod.portUp_congr (Mod.only_get synced _ (Fld.apart_of_range 0xD0A0 0xD0C0 (by decide) (by simp) (by simp; omega)))).trans hup
  obtain ⟨f, last, type, body⟩ := Mod.sendStops_sent p.isLt up
  have sends := s.m.syncPool.sendStops_sendsFrom
  refine Does.ofMod (f := fun m => m.syncPool.sendStops) rfl hon ⟨⟨f, last, type, ?_, fun c hc => ?_⟩, ?_⟩
  · rw [body]
    simp [Mod.stopMap]
  · obtain ⟨cls, stopped⟩ := Mod.stops_of_sends sends c
    rw [body, Mod.bit_stopMap _ hc, cls, stopped]
  · exact Mod.onlyParts_trans synced.1 (Mod.onlyParts_mono (Mod.sendsFrom_only sends).1 (by simp))

theorem Does.stallTold {s : State} {c : Fin 256} (hon : s.on) (hstop : s.m.chStopped c = true) (hcls : s.m.chClass c ≠ 0) (ht : s.m.takes 13 7)
    (hc : s.m.condOn 13 7 7 c = false) (hdue : s.m.stoppedAt c + 10 * tickMs ≤ s.m.time.ticks)
    (hmay : s.m.mayRaise (raiseKey 13 7 7) tickS = true) :
    Does (.chStall c) s fun t => t.m.get R.LNK_EVT_STALL = 1 ∧
      t.m.tells { blk := 13, inst := 7, kind := 7, addr := c.val, cls := 0, ind := .start } ∧
      s.frame [.flt] (R.LNK_EVT_STALL :: repFlds 13) t := by
  have told := Mod.condStartLim_only (s.m.put R.LNK_EVT_STALL 1) (raiseKey 13 7 7) 13 7 7 c
  refine Does.ofCond (g := fun m => m.chStopped c && m.chClass c != 0 && decide (m.stoppedAt c + 10 * tickMs ≤ m.time.ticks + 64000))
    (f := fun m => (m.put R.LNK_EVT_STALL 1).condStartLim (raiseKey 13 7 7) 13 7 7 c) rfl hon ?_ ⟨?_, ?_, State.frame_of_only ?_⟩
  · simp only [hstop, Bool.true_and, Bool.and_eq_true, bne_iff_ne, decide_eq_true_eq]
    exact ⟨hcls, hdue.trans (Nat.le_add_right _ _)⟩
  · exact (Mod.only_get told _ (Fld.apart_of_clear (by decide))).trans (Mod.get_put_same _ _ 1 (by decide))
  · exact Mod.condStartLim_tells (Mod.takes_put _ 1 (.inl (by decide)) ht) hc ((Mod.mayRaise_congr rfl rfl _ _).trans hmay)
  · exact Mod.only_trans (Mod.only_put _ _ 1 _ (by simp)) (Mod.only_mono told (fun _ h => h) fun _ h => by simp [h])

/-! ## A message held too long (R281) -/

theorem Mod.sendStops_framed (m : Mod) {r : Nat} (hr : r < 7) : (m.port r).framed (m.sendStops.port r) := by
  rw [Mod.sendStops_eq]
  refine List.foldlRecOn (motive := fun q : Mod => (m.port r).framed (q.port r)) _ _ (Port.framed_refl _) fun q hq j _ => ?_
  unfold sendMap
  split
  · exact Port.framed_trans hq (q.sendFrame_framed j _ _ _ _ hr)
  · exact hq

/-- While the pool follows, a port sends STOPMAP at most. -/
theorem Mod.syncPool_framed (m : Mod) {r : Nat} (hr : r < 7) : (m.port r).framed (m.syncPool.port r) := by
  obtain ⟨l, p3, p2, same, n, eq⟩ := m.syncPool_eq
  have shown : m.poolShown.port r = m.port r := Mod.port_congr (m.poolShown_only.1 .lnk (by simp)) r
  have set : (m.poolShown.stopsSet l p3 p2).port r = m.port r := shown
  have ended : (m.poolShown.stopsSet l p3 p2).endStalls.port r = m.port r :=
    (Mod.port_congr ((Mod.endStalls_only _).1 .lnk (by simp)) r).trans set
  rw [eq, Mod.port_congr ((Mod.stopsCounted_only _ n).1 .lnk (by simp)), ← ended]
  unfold Mod.stopsTold
  split
  · exact Port.framed_refl _
  · exact Mod.sendStops_framed _ hr

/-- The oldest message that is too old is taken out, counted and reported. -/
def Mod.agedOut (m : Mod) (p c : Nat) (old : Msg → Bool) : Mod :=
  ((((m.setPort p fun q => { q with txq := q.txq.eraseP old }).bump R.LNK_AGED_CNT_COUNT).put R.LNK_EVT_LOST 1).raiseLim tickS 13 p 8 c 0)

/-- Messages of this channel for other modules that have waited for over 100 ms. -/
def Mod.tooOld (m : Mod) (c : Nat) (g : Msg) : Bool := g.chan == c && g.src != m.addr && decide (g.tick + 100 * tickMs ≤ m.time.ticks + 64000)

theorem Mod.agedOut_shows (m : Mod) {p : Nat} (c : Nat) (old : Msg → Bool) (hp : p < 7) :
    ((m.agedOut p c old).port p).txq = (m.port p).txq.eraseP old ∧ (m.agedOut p c old).get R.LNK_EVT_LOST = 1 ∧
      ((m.agedOut p c old).word R.LNK_AGED_CNT_COUNT.addr).toNat = min ((m.word R.LNK_AGED_CNT_COUNT.addr).toNat + 1) (2 ^ 32 - 1) ∧
      m.onlyParts [.lnk, .flt] (m.agedOut p c old) := by
  unfold Mod.agedOut
  have port : ((m.setPort p fun q => { q with txq := q.txq.eraseP old }).port p).txq = (m.port p).txq.eraseP old := by
    rw [Mod.port_setPort _ _ _ _ hp, if_pos rfl]
  have word : (m.setPort p fun q => { q with txq := q.txq.eraseP old }).word R.LNK_AGED_CNT_COUNT.addr = m.word R.LNK_AGED_CNT_COUNT.addr := rfl
  have parts := (m.setPort_only p fun q => { q with txq := q.txq.eraseP old }).1
  generalize (m.setPort p fun q => { q with txq := q.txq.eraseP old }) = x at *
  have count := Mod.word_bump_min x R.LNK_AGED_CNT_COUNT (Fld.apart_of_clear (by decide))
  have counted := Mod.bump_only x R.LNK_AGED_CNT_COUNT (ps := [.flt]) (by simp) fun _ h => h
  generalize x.bump R.LNK_AGED_CNT_COUNT = y at *
  have told := Mod.raiseLim_only (y.put R.LNK_EVT_LOST 1) tickS 13 p 8 c 0
  refine ⟨?_, ?_, ?_, ?_⟩
  · rw [Mod.port_congr (told.1 .lnk (by simp)), Mod.port_congr (Mod.put_lnk _ _ _), Mod.port_congr (counted.1 .lnk (by simp)), port]
  · exact (Mod.only_get told _ (Fld.apart_of_clear (by decide))).trans (Mod.get_put_same _ _ 1 (by decide))
  · rw [Mod.only_word told _ (Fld.apart_of_clear (by decide)), Mod.word_put_ne _ _ _ (by decide), count, word]
  · exact Mod.onlyParts_trans (Mod.onlyParts_mono parts (by simp)) (Mod.onlyParts_trans (Mod.onlyParts_mono counted.1 (by simp))
      (Mod.onlyParts_trans (Mod.onlyParts_put _ _ 1 _) (Mod.onlyParts_mono told.1 (by simp))))

theorem Does.messageAgedOut {s : State} {p : Fin 7} {c : Fin 256} {g : Msg} (hon : s.on) (hcls : 2 ≤ s.m.chClass c) (hg : g ∈ (s.m.port p).txq)
    (hchan : g.chan = c.val) (hsrc : g.src ≠ s.m.addr) (hold : g.tick + 100 * tickMs ≤ s.m.time.ticks) :
    Does (.messageAged p c) s fun t => (t.m.port p).txq.length + 1 = (s.m.port p).txq.length ∧ t.m.get R.LNK_EVT_LOST = 1 ∧
      (t.m.word R.LNK_AGED_CNT_COUNT.addr).toNat = min ((s.m.word R.LNK_AGED_CNT_COUNT.addr).toNat + 1) (2 ^ 32 - 1) ∧
      s.m.onlyParts [.lnk, .flt] t.m := by
  have fits : s.m.tooOld c g = true := by
    simp only [Mod.tooOld, Bool.and_eq_true, beq_iff_eq, bne_iff_ne, decide_eq_true_eq]
    exact ⟨⟨hchan, hsrc⟩, hold.trans (Nat.le_add_right _ _)⟩
  refine ⟨{ s with m := (s.m.agedOut p c (s.m.tooOld c)).syncPool }, ?_, ?_⟩
  · rw [show exec (.messageAged p c) s = execMessageAged p c s from rfl, execMessageAged, onMod, if_neg hon]
    have due : (decide (2 ≤ s.m.chClass c) && (s.m.port p).txq.any (s.m.tooOld c)) = true := by
      simp only [Bool.and_eq_true, decide_eq_true_eq, List.any_eq_true]
      exact ⟨hcls, g, hg, fits⟩
    exact congrArg (fun m => Host.Outcome.next { s with m := m }) (if_pos due)
  · obtain ⟨txq, event, count, parts⟩ := s.m.agedOut_shows c (s.m.tooOld c) p.isLt
    generalize s.m.agedOut p c (s.m.tooOld c) = x at *
    have pool := x.syncPool_only
    obtain ⟨_, _, _, _, _, _, _, framed⟩ := x.syncPool_framed p.isLt
    refine ⟨?_, (Mod.only_get pool _ (Fld.apart_of_clear (by decide))).trans event, ?_, Mod.onlyParts_trans parts pool.1⟩
    · have length := List.length_eraseP_of_mem hg fits
      have pos := List.length_pos_of_mem hg
      rw [framed]
      simp only [txq, length]
      omega
    · rw [Mod.only_word pool _ (Fld.apart_of_clear (by decide)), count]

/-- Settles O26: each frame and each stop, by what the fibre and the pool leave. -/
theorem linkFrames : Obligations.LinkFrames :=
  ⟨fun _ _ hon hup => Does.idleSent hon hup,
    fun _ _ _ _ hon hup hbad => Does.badFrameCounted hon hup hbad,
    fun _ _ _ _ hon hup hlen hcrc htype hseq hparse hscope hdst hchan hhops hsrc hrelay =>
      Does.messageTaken hon hup hlen hcrc htype hseq hparse hscope hdst hchan hhops hsrc hrelay,
    fun _ _ _ hon hup hlast => Does.sentAgain hon hup hlast,
    fun _ _ _ _ hon hup hretry => Does.oldestLost hon hup hretry,
    fun _ _ hk hx => unscramble_scramble hk hx,
    fun _ _ hon hup => Does.stopsSent hon hup,
    fun _ _ hon hstop hcls ht hc hdue hmay => Does.stallTold hon hstop hcls ht hc hdue hmay,
    fun _ _ _ _ hon hcls hg hchan hsrc hold => Does.messageAgedOut hon hcls hg hchan hsrc hold⟩

end Sys2Proof.Machine
end

section
/-!
PROOFS. ROUTE messages, the age of routes, held paths (R285, R286), FAULT messages (R305), the statement RoutesAndFaultMessages.
-/
namespace Sys2Proof.Machine

/-! ## The list of the ring's addresses (R285) -/

/-- The ROUTE message of a lead. -/
def Mod.routeMsg (m : Mod) : Msg :=
  { chan := 11, scope := .unicast, dst := m.linkPeer (m.get R.LNK_TREE_STAT_UP_LINK), src := m.addr, mseq := (m.nextMseq 11).1,
    body := [0x58, m.rackAddrs.length] ++ m.rackAddrs.flatMap (leBytes 2) }

theorem Mod.sendRoute_lead {m : Mod} (hlead : m.isLead = true) (hup : m.get R.LNK_TREE_STAT_UP_LINK < 8) :
    m.sendRoute = (m.nextMseq 11).2.sendLink (m.get R.LNK_TREE_STAT_UP_LINK) m.routeMsg := by
  unfold Mod.sendRoute
  exact if_pos (by rw [hlead, decide_eq_true hup]; rfl)

theorem Does.routeListed {s : State} (hon : s.on) (hlead : s.m.isLead = true) (hup : s.m.get R.LNK_TREE_STAT_UP_LINK < 8) :
    Does .routeSend s fun t => Sparse.get (fun _ => 0) t.m.lnk.mseq 11 = (Sparse.get (fun _ => 0) s.m.lnk.mseq 11 + 1) % 65536 ∧
      s.frame [.lnk] [] t := by
  refine Does.ofMod (f := Mod.sendRoute) rfl hon ⟨?_, State.frame_of_only s.m.sendRoute_only⟩
  rw [Mod.sendRoute_lead hlead hup]
  exact (congrArg (fun x => Sparse.get (fun _ => 0) x 11) (Mod.sendLink_mseq _ _ _)).trans (s.m.mseq_nextMseq 11)

theorem Does.routeLeaves {s : State} (hon : s.on) (hlead : s.m.isLead = true) (hup : s.m.get R.LNK_TREE_STAT_UP_LINK < 4) :
    Does .routeSend s fun t => (∃ g, (t.m.port (2 + s.m.get R.LNK_TREE_STAT_UP_LINK)).txq =
        (s.m.port (2 + s.m.get R.LNK_TREE_STAT_UP_LINK)).txq ++ [g] ∧ g.chan = 11 ∧
        g.body = [0x58, s.m.rackAddrs.length] ++ s.m.rackAddrs.flatMap (leBytes 2)) ∧ s.frame [.lnk] [] t := by
  refine Does.ofMod (f := Mod.sendRoute) rfl hon ⟨⟨s.m.routeMsg, ?_, rfl, rfl⟩, State.frame_of_only s.m.sendRoute_only⟩
  simp only
  rw [Mod.sendRoute_lead hlead (by omega), Mod.sendLink, if_pos hup, Mod.port_enqueue _ _ _ _ (by omega), if_pos rfl]
  rfl

/-! ## Routes set by a ROUTE message (R284 to R286) -/

/-- An address that comes by another link, or is the own rack's, starts ADDR_CONFLICT. -/
def Mod.clashTold (m : Mod) (link a : Nat) : Mod :=
  if (((m.route a).1 < 8 && (m.route a).1 != link) || m.rackAddrs.contains a) && !m.condOn 13 7 0x0A a then
    (m.put R.LNK_EVT_ADDR 1).condStart 13 7 0x0A a 1
  else m

/-- New unicasts by a changed path wait. -/
def Mod.pathHeld (m : Mod) (a : Nat) (same : Bool) : Mod :=
  if same then m else { m with lnk.holds := m.lnk.holds.filter (fun (h : Nat × Nat) => h.1 != a) ++ [(a, m.time.ticks)] }

/-- The entry of an address. -/
def Mod.entered (m : Mod) (a link tick : Nat) : Mod := { m with lnk.routes := Sparse.set routeDflt m.lnk.routes a (link, tick) }

theorem Mod.clashTold_only (m : Mod) (link a : Nat) : m.only [.flt] (R.LNK_EVT_ADDR :: repFlds 13) (m.clashTold link a) := by
  unfold Mod.clashTold
  split
  · exact Mod.only_trans (Mod.only_put m _ 1 _ List.mem_cons_self)
      (Mod.only_mono (Mod.condStart_only _ 13 7 0x0A a 1) (fun _ h => h) fun _ h => List.mem_cons_of_mem _ h)
  · exact Mod.only_refl m _ _

theorem Mod.pathHeld_only (m : Mod) (a : Nat) (same : Bool) : m.only [.lnk] [] (m.pathHeld a same) := by
  unfold Mod.pathHeld
  split
  · exact Mod.only_refl m _ _
  · exact Mod.only_lnk m _ _ (by simp)

theorem Mod.pathHeld_routes (m : Mod) (a : Nat) (same : Bool) : (m.pathHeld a same).lnk.routes = m.lnk.routes := by
  unfold Mod.pathHeld
  split
  · rfl
  · rfl

theorem Mod.setRoute_eq (m : Mod) (link a : Nat) : m.setRoute link a =
    ((m.clashTold link a).pathHeld a (decide ((m.route a).1 = link))).entered a link
      ((m.clashTold link a).pathHeld a (decide ((m.route a).1 = link))).time.ticks := by
  by_cases h : (m.route a).1 = link
  · rw [decide_eq_true h]
    simp only [Mod.setRoute, if_pos h]
    rfl
  · rw [decide_eq_false h]
    simp only [Mod.setRoute, if_neg h]
    rfl

theorem Mod.entered_only (m : Mod) (a link tick : Nat) : m.only [.lnk] [] (m.entered a link tick) := Mod.only_lnk m _ _ (by simp)

theorem Mod.entered_route (m : Mod) (a link tick b : Nat) : (m.entered a link tick).route b = if a = b then (link, tick) else m.route b :=
  Sparse.get_set _ _ _ _ _

theorem Mod.route_congr {a b : Mod} (h : b.lnk.routes = a.lnk.routes) (x : Nat) : b.route x = a.route x := by rw [Mod.route, Mod.route, h]

theorem Mod.setRoute_only (m : Mod) (link a : Nat) : m.only [.lnk, .flt] (R.LNK_EVT_ADDR :: repFlds 13) (m.setRoute link a) := by
  rw [Mod.setRoute_eq]
  exact Mod.only_trans (Mod.only_mono (m.clashTold_only link a) (by simp) fun _ h => h) (Mod.only_trans
    (Mod.only_mono (Mod.pathHeld_only _ a _) (by simp) (by simp)) (Mod.only_mono (Mod.entered_only _ _ _ _) (by simp) (by simp)))

/-- The entry of the address goes to the link, refreshed now; the other entries stay. -/
theorem Mod.setRoute_route (m : Mod) (link a b : Nat) : (m.setRoute link a).route b = if a = b then (link, m.time.ticks) else m.route b := by
  have held := (m.clashTold link a).pathHeld_only a (decide ((m.route a).1 = link))
  have time : ((m.clashTold link a).pathHeld a (decide ((m.route a).1 = link))).time = m.time :=
    (held.1 .time (by simp)).trans ((m.clashTold_only link a).1 .time (by simp))
  have routes : ((m.clashTold link a).pathHeld a (decide ((m.route a).1 = link))).lnk.routes = m.lnk.routes :=
    (Mod.pathHeld_routes _ a _).trans (congrArg LnkS.routes ((m.clashTold_only link a).1 .lnk (by simp)))
  rw [Mod.setRoute_eq, Mod.entered_route, time, Mod.route_congr routes]

/-- The addresses of a ROUTE message. -/
def routeAddr (b : List Nat) (i : Nat) : Nat := le b (2 + 2 * i) 2 % 16384

/-- The entries of the listed addresses go to the link. -/
def Mod.routesSet (m : Mod) (link : Nat) (b : List Nat) (n : Nat) : Mod := (List.range n).foldl (fun m i => m.setRoute link (routeAddr b i)) m

theorem Mod.routesSet_succ (m : Mod) (link : Nat) (b : List Nat) (n : Nat) :
    m.routesSet link b (n + 1) = (m.routesSet link b n).setRoute link (routeAddr b n) := by
  rw [Mod.routesSet, List.range_succ, List.foldl_append]
  rfl

theorem Mod.routesSet_only (m : Mod) (link : Nat) (b : List Nat) (n : Nat) :
    m.only [.lnk, .flt] (R.LNK_EVT_ADDR :: repFlds 13) (m.routesSet link b n) :=
  Mod.only_foldl _ _ (fun q i _ => q.setRoute_only link (routeAddr b i)) m

/-- An address that is listed has its entry set, every other keeps its own. -/
theorem Mod.routesSet_route (m : Mod) (link : Nat) (b : List Nat) (n a : Nat) :
    (m.routesSet link b n).route a = if ∃ i < n, routeAddr b i = a then (link, m.time.ticks) else m.route a := by
  induction n with
  | zero => simp [Mod.routesSet]
  | succ n ih =>
    have time : (m.routesSet link b n).time = m.time := (m.routesSet_only link b n).1 .time (by simp)
    rw [Mod.routesSet_succ, Mod.setRoute_route, time, ih]
    by_cases hlast : routeAddr b n = a
    · rw [if_pos hlast, if_pos ⟨n, by omega, hlast⟩]
    · have listed : (∃ i < n + 1, routeAddr b i = a) ↔ ∃ i < n, routeAddr b i = a := by
        constructor
        · rintro ⟨i, hi, h⟩
          have hne : i ≠ n := fun e => hlast (e ▸ h)
          exact ⟨i, by omega, h⟩
        · rintro ⟨i, hi, h⟩
          exact ⟨i, by omega, h⟩
      rw [if_neg hlast]
      simp only [listed]

/-- The message goes on upward. -/
def Mod.routePassed (m : Mod) (link : Nat) (b : List Nat) : Mod :=
  let u := m.get R.LNK_TREE_STAT_UP_LINK
  if u < 8 && u != link then
    let (q, m) := m.nextMseq 11
    m.sendLink u { chan := 11, scope := .unicast, dst := m.linkPeer u, src := m.addr, mseq := q, body := b }
  else m

theorem Mod.routePassed_only (m : Mod) (link : Nat) (b : List Nat) : m.only [.lnk] [] (m.routePassed link b) := by
  unfold Mod.routePassed
  simp only
  split
  · exact Mod.only_trans (m.nextMseq_only 11) (Mod.sendLink_only _ _ _)
  · exact Mod.only_refl m _ _

theorem Mod.routePassed_routes (m : Mod) (link : Nat) (b : List Nat) : (m.routePassed link b).lnk.routes = m.lnk.routes := by
  unfold Mod.routePassed
  simp only
  split
  · obtain ⟨⟨l, sent⟩, -⟩ := (m.nextMseq 11).2.sendLink_sendsFrom (m.get R.LNK_TREE_STAT_UP_LINK)
      { chan := 11, scope := .unicast, dst := (m.nextMseq 11).2.linkPeer (m.get R.LNK_TREE_STAT_UP_LINK), src := (m.nextMseq 11).2.addr,
        mseq := (m.nextMseq 11).1, body := b }
    exact (congrArg (fun x : Mod => x.lnk.routes) sent).trans rfl
  · rfl

theorem exec_routeReceive {s : State} {l : Fin 8} {b : List Byte} {n : Nat} (hon : s.on) (hlead : s.m.isLead = true) (htype : b.getD 0 0 = 0x58)
    (hn : (b.getD 1 0).toNat = n) (hlo : 1 ≤ n) (hhi : n ≤ 10) :
    exec (.routeReceive l b) s =
      .next { s with m := ((s.m.takeInbox 11 (natBytes b)).routesSet l (natBytes b) n).routePassed l (natBytes b) } := by
  have lead : (s.m.takeInbox 11 (natBytes b)).isLead = true := hlead
  have type : (natBytes b).getD 0 0 = 0x58 := by rw [getD_natBytes, htype]; rfl
  have count : (natBytes b).getD 1 0 = n := by rw [getD_natBytes, hn]
  rw [show exec (.routeReceive l b) s = execRouteReceive l b s from rfl, execRouteReceive, onMod, if_neg hon]
  simp only [lead, type, count]
  rw [if_neg]
  · rfl
  · simp
    omega

theorem Does.routesTaken {s : State} {l : Fin 8} {b : List Byte} {n : Nat} (hon : s.on) (hlead : s.m.isLead = true) (htype : b.getD 0 0 = 0x58)
    (hn : (b.getD 1 0).toNat = n) (hlo : 1 ≤ n) (hhi : n ≤ 10) :
    Does (.routeReceive l b) s fun t => (∀ i < n, t.m.route (le (natBytes b) (2 + 2 * i) 2 % 16384) = (l.val, s.m.time.ticks)) ∧
      (∀ a, (∀ i < n, a ≠ le (natBytes b) (2 + 2 * i) 2 % 16384) → t.m.route a = s.m.route a) ∧ s.m.onlyParts [.lnk, .flt] t.m := by
  refine ⟨_, exec_routeReceive hon hlead htype hn hlo hhi, ?_⟩
  have passed := Mod.routePassed_routes ((s.m.takeInbox 11 (natBytes b)).routesSet l (natBytes b) n) l (natBytes b)
  have route (a : Nat) := (Mod.route_congr passed a).trans
    ((s.m.takeInbox 11 (natBytes b)).routesSet_route l (natBytes b) n a)
  refine ⟨fun i hi => ?_, fun a ha => ?_, ?_⟩
  · exact (route _).trans (if_pos ⟨i, hi, rfl⟩)
  · refine (route a).trans (if_neg ?_)
    rintro ⟨i, hi, h⟩
    exact ha i hi h.symm
  · exact Mod.onlyParts_trans (Mod.onlyParts_mono (s.m.takeInbox_only 11 (natBytes b)).1 (by simp)) (Mod.onlyParts_trans
      (Mod.routesSet_only _ l _ n).1 (Mod.onlyParts_mono (Mod.routePassed_only _ l _).1 (by simp)))

/-- The first ROUTE of an address that no link has and no rack module: its path is held, nothing is reported. -/
theorem Mod.setRoute_new {m : Mod} {link a : Nat} (hlink : link < 8) (hroute : m.route a = (15, 0)) (hown : m.rackAddrs.contains a = false) :
    m.only [.lnk] [] (m.setRoute link a) ∧ (a, m.time.ticks) ∈ (m.setRoute link a).lnk.holds := by
  have quiet : m.clashTold link a = m := by
    unfold Mod.clashTold
    rw [hroute, hown, if_neg (by simp)]
  have changed : decide ((m.route a).1 = link) = false := by
    rw [hroute]
    exact decide_eq_false (by simp only; omega)
  rw [Mod.setRoute_eq, quiet, changed]
  exact ⟨Mod.only_trans (m.pathHeld_only a false) (Mod.entered_only _ _ _ _), List.mem_append_right _ List.mem_cons_self⟩

theorem Does.newRouteTaken {s : State} {l : Fin 8} {x y : Byte} (hon : s.on) (hlead : s.m.isLead = true)
    (hup : s.m.get R.LNK_TREE_STAT_UP_LINK = 15) (hroute : s.m.route ((x.toNat + 256 * y.toNat) % 16384) = (15, 0))
    (hown : s.m.rackAddrs.contains ((x.toNat + 256 * y.toNat) % 16384) = false) :
    Does (.routeReceive l [0x58, 1, x, y]) s fun t => t.m.route ((x.toNat + 256 * y.toNat) % 16384) = (l.val, s.m.time.ticks) ∧
      ((x.toNat + 256 * y.toNat) % 16384, s.m.time.ticks) ∈ t.m.lnk.holds ∧
      (∀ a, a ≠ (x.toNat + 256 * y.toNat) % 16384 → t.m.route a = s.m.route a) ∧ s.frame [.lnk] [] t := by
  have addr : routeAddr (natBytes [0x58, 1, x, y]) 0 = (x.toNat + 256 * y.toNat) % 16384 := congrArg (· % 16384) (le_natBytes_two [0x58, 1, x, y] 2)
  refine ⟨_, exec_routeReceive (n := 1) hon hlead rfl rfl (by decide) (by decide), ?_⟩
  have inbox := s.m.takeInbox_only 11 (natBytes [0x58, 1, x, y])
  have one : (s.m.takeInbox 11 (natBytes [0x58, 1, x, y])).routesSet l (natBytes [0x58, 1, x, y]) 1 =
      (s.m.takeInbox 11 (natBytes [0x58, 1, x, y])).setRoute l ((x.toNat + 256 * y.toNat) % 16384) :=
    congrArg ((s.m.takeInbox 11 (natBytes [0x58, 1, x, y])).setRoute l) addr
  obtain ⟨only, held⟩ := Mod.setRoute_new (m := s.m.takeInbox 11 (natBytes [0x58, 1, x, y])) l.isLt hroute hown
  have upLink : ((s.m.takeInbox 11 (natBytes [0x58, 1, x, y])).setRoute l ((x.toNat + 256 * y.toNat) % 16384)).get R.LNK_TREE_STAT_UP_LINK = 15 :=
    (Mod.only_get only _ (by simp)).trans hup
  have route (a : Nat) := (s.m.takeInbox 11 (natBytes [0x58, 1, x, y])).setRoute_route l ((x.toNat + 256 * y.toNat) % 16384) a
  rw [one, Mod.routePassed]
  simp only [upLink]
  refine ⟨(route _).trans (if_pos rfl), held, fun a ha => (route a).trans (if_neg ha.symm), State.frame_of_only (Mod.only_trans inbox only)⟩

/-! ## A route that is not refreshed (R285) -/

theorem Does.routeAged {s : State} {a : Fin 16384} (hon : s.on) (hlink : (s.m.route a).1 < 8)
    (hdue : (s.m.route a).2 + 350 * tickMs ≤ s.m.time.ticks) :
    Does (.routeAgeOut a) s fun t => t.m.route a = (15, 0) ∧ (∀ b, b ≠ a.val → t.m.route b = s.m.route b) ∧
      s.frame [.lnk, .flt] (repFlds 13) t := by
  refine ⟨{ s with m := ((s.m.pathHeld a false).entered a 15 0).condEnd 13 7 0x0A a 1 }, ?_, ?_⟩
  · rw [show exec (.routeAgeOut a) s = execRouteAgeOut a s from rfl, execRouteAgeOut, onMod, if_neg hon,
      if_pos (by rw [decide_eq_true hlink, decide_eq_true (hdue.trans (Nat.le_add_right _ _))]; rfl)]
    rfl
  · have told := Mod.condEnd_only ((s.m.pathHeld a false).entered a 15 0) 13 7 0x0A a 1
    have route (b : Nat) : (((s.m.pathHeld a false).entered a 15 0).condEnd 13 7 0x0A a 1).route b = if a.val = b then (15, 0) else s.m.route b :=
      (Mod.route_congr (congrArg LnkS.routes (told.1 .lnk (by simp))) b).trans (((s.m.pathHeld a false).entered_route a 15 0 b).trans
        (by rw [Mod.route_congr (s.m.pathHeld_routes a false)]))
    refine ⟨(route a).trans (if_pos rfl), fun b hb => (route b).trans (if_neg hb.symm), State.frame_of_only ?_⟩
    exact Mod.only_trans (Mod.only_mono (s.m.pathHeld_only a false) (by simp) (by simp)) (Mod.only_trans
      (Mod.only_mono (Mod.entered_only _ a 15 0) (by simp) (by simp)) (Mod.only_mono told (by simp) fun _ h => h))

/-! ## A held path is free again (R286) -/

/-- The hold of a destination ends, and the held unicasts are taken up. -/
def Mod.holdEnded (m : Mod) (d : Nat) : Mod := { m with lnk.holds := m.lnk.holds.filter (fun (h : Nat × Nat) => h.1 != d), lnk.heldq := [] }

theorem exec_pathHoldEnd {s : State} {d : Fin 16385} (hon : s.on)
    (hdue : ∀ h ∈ s.m.lnk.holds, h.1 = d.val → h.2 + 50 * tickUs ≤ s.m.time.ticks) :
    exec (.pathHoldEnd d) s = .next { s with m := (s.m.lnk.heldq.foldl Mod.routeUnicast (s.m.holdEnded d)).pumpAll } := by
  rw [show exec (.pathHoldEnd d) s = execPathHoldEnd d s from rfl, execPathHoldEnd, onMod, if_neg hon, if_neg]
  · rfl
  · simp only [List.any_eq_true, Bool.and_eq_true, beq_iff_eq, decide_eq_true_eq, not_exists, not_and, Nat.not_lt]
    exact fun h hh hd => (hdue h hh hd).trans (Nat.le_add_right _ _)

/-- A routed message leaves the holds. -/
theorem Mod.routeUnicast_holds (m : Mod) (g : Msg) : (m.routeUnicast g).lnk.holds = m.lnk.holds := by
  have of_sends {x : Mod} (h : m.sendsFrom x) : x.lnk.holds = m.lnk.holds := (Mod.linkKeeps_of_sends h).holds
  unfold Mod.routeUnicast
  split
  · exact of_sends (m.ringUnicast_sendsFrom _ g)
  · split
    · extract_lets l held
      split
      · rfl
      split
      · exact of_sends (m.sendLink_sendsFrom _ g)
      split
      · exact of_sends (m.sendLink_sendsFrom _ g)
      split
      · exact congrArg LnkS.holds (m.noRoute_parts g.dst .lnk (by simp))
      · rfl
    · exact of_sends (m.ringUnicast_sendsFrom _ g)

theorem Does.holdEnded {s : State} {d : Fin 16385} (hon : s.on)
    (hdue : ∀ h ∈ s.m.lnk.holds, h.1 = d.val → h.2 + 50 * tickUs ≤ s.m.time.ticks) :
    Does (.pathHoldEnd d) s fun t => t.m.lnk.holds = s.m.lnk.holds.filter (fun h => h.1 != d.val) := by
  refine ⟨_, exec_pathHoldEnd hon hdue, (Mod.pumpAll_linkKeeps _).holds.trans ?_⟩
  exact List.foldlRecOn (motive := fun q : Mod => q.lnk.holds = s.m.lnk.holds.filter (fun h => h.1 != d.val)) _ _ rfl fun q hq g _ =>
    (q.routeUnicast_holds g).trans hq

/-- With no path held a unicast leaves by the own fleet port its route names. -/
theorem Mod.routeUnicast_link {m : Mod} {g : Msg} (hpos : m.posOfAddr g.dst = none) (hlead : m.isLead = true) (hholds : m.lnk.holds = [])
    (hlink : (m.route g.dst).1 < 4) : m.routeUnicast g = m.enqueue (2 + (m.route g.dst).1) g := by
  unfold Mod.routeUnicast
  simp only [hpos]
  rw [if_pos hlead, hholds, if_neg (by simp), if_pos (by omega), Mod.sendLink, if_pos hlink]

theorem Does.heldLeaves {s : State} {g : Msg} {x : Nat} (hon : s.on) (hlead : s.m.isLead = true) (hpos : s.m.posOfAddr g.dst = none)
    (hlink : (s.m.route g.dst).1 < 4) (hheld : s.m.lnk.heldq = [g]) (hholds : s.m.lnk.holds = [(g.dst, x)])
    (hdue : x + 50 * tickUs ≤ s.m.time.ticks) {d : Fin 16385} (hd : d.val = g.dst) :
    Does (.pathHoldEnd d) s fun t => t.m.lnk.heldq = [] ∧ t.m.lnk.holds = [] ∧
      g ∈ (t.m.port (2 + (s.m.route g.dst).1)).txq ++ (t.m.port (2 + (s.m.route g.dst).1)).retry.map (·.msg) := by
  refine ⟨_, exec_pathHoldEnd hon (by simp [hholds, hdue]), ?_⟩
  have free : (s.m.holdEnded d).lnk.holds = [] := by simp [Mod.holdEnded, hholds, hd]
  have routed : s.m.lnk.heldq.foldl Mod.routeUnicast (s.m.holdEnded d) = (s.m.holdEnded d).enqueue (2 + (s.m.route g.dst).1) g := by
    rw [hheld]
    exact Mod.routeUnicast_link (m := s.m.holdEnded d) hpos hlead free hlink
  rw [routed]
  have keeps := ((s.m.holdEnded d).enqueue (2 + (s.m.route g.dst).1) g).pumpAll_linkKeeps
  refine ⟨keeps.heldq, keeps.holds.trans free, (keeps.ports _ (by omega)).held g (List.mem_append_left _ ?_)⟩
  rw [Mod.port_enqueue _ _ _ _ (by omega), if_pos rfl]
  exact List.mem_append_right _ List.mem_cons_self

/-! ## FAULT messages (R305) -/

/-- Up to seven records as the body of a FAULT message. -/
def faultBody (l : List FRec) : List Nat := [0x59, (l.take 7).length] ++ zeros 2 ++ (l.take 7).flatMap FRec.bytes

/-- Seven records leave the wait. -/
def Mod.faultsTaken (m : Mod) : Mod := { m with flt.faultTx := m.flt.faultTx.drop 7 }

/-- The FAULT message of a member goes to the lead. -/
def Mod.faultToLead (m : Mod) (body : List Nat) : Mod :=
  match m.peer (m.get R.MOD_ROLE_STAT_LEAD_POS) with
  | none => m
  | some q => m.sendUnicast 6 q.addr body

/-- The FAULT message leaves: the lead's for the host, a member's for the lead. -/
def Mod.faultsOut (m : Mod) : Mod :=
  if m.isLead then m.faultsTaken.sendHost 6 (faultBody m.flt.faultTx) else m.faultsTaken.faultToLead (faultBody m.flt.faultTx)

theorem exec_faultMessageSend {s : State} (hon : s.on) (hne : s.m.flt.faultTx ≠ []) :
    exec .faultMessageSend s = .next { s with m := s.m.faultsOut } := by
  rw [show exec .faultMessageSend s = execFaultMessageSend s from rfl, execFaultMessageSend, onMod, if_neg hon]
  cases hl : s.m.flt.faultTx with
  | nil => exact absurd hl hne
  | cons r l =>
    rw [Mod.faultsOut, Mod.faultsTaken, hl]
    rfl

theorem Mod.sendHost_sendsFrom (m : Mod) (c : Nat) (body : List Nat) : (m.nextMseq c).2.sendsFrom (m.sendHost c body) := by
  unfold Mod.sendHost
  simp only
  split
  · exact Mod.enqueue_sendsFrom _ _ _
  · split
    · exact Mod.ringUnicast_sendsFrom _ _ _
    · exact Mod.sendsFrom_refl _

theorem Mod.sendHost_only (m : Mod) (c : Nat) (body : List Nat) : m.only [.lnk] [] (m.sendHost c body) :=
  Mod.only_trans (m.nextMseq_only c) (Mod.sendsFrom_only (m.sendHost_sendsFrom c body))

theorem Mod.faultsTaken_only (m : Mod) : m.only [.flt] [] m.faultsTaken := Mod.only_flt m _ _ (by simp)

/-- A member's unicast goes onto the ring. -/
theorem Mod.sendUnicast_member {m : Mod} (hlead : m.isLead = false) (c dst : Nat) (body : List Nat) :
    (m.nextMseq c).2.sendsFrom (m.sendUnicast c dst body) := by
  have lead : (m.nextMseq c).2.isLead = false := hlead
  unfold Mod.sendUnicast Mod.routeUnicast
  simp only [lead]
  split
  · exact Mod.ringUnicast_sendsFrom _ _ _
  · exact Mod.ringUnicast_sendsFrom _ _ _

theorem Mod.faultToLead_only {m : Mod} (hlead : m.isLead = false) (body : List Nat) : m.only [.lnk] [] (m.faultToLead body) := by
  unfold Mod.faultToLead
  split
  · exact Mod.only_refl m _ _
  · exact Mod.only_trans (m.nextMseq_only 6) (Mod.sendsFrom_only (Mod.sendUnicast_member hlead 6 _ body))

theorem Does.faultsSent {s : State} (hon : s.on) (hne : s.m.flt.faultTx ≠ []) :
    Does .faultMessageSend s fun t => t.m.flt.faultTx = s.m.flt.faultTx.drop 7 ∧ (s.m.isLead = true → s.frame [.flt, .lnk] [] t) := by
  refine ⟨_, exec_faultMessageSend hon hne, ?_⟩
  cases hlead : s.m.isLead with
  | false =>
    rw [Mod.faultsOut, hlead, if_neg (by simp)]
    exact ⟨congrArg FltS.faultTx ((Mod.faultToLead_only (m := s.m.faultsTaken) hlead (faultBody s.m.flt.faultTx)).1 .flt (by simp)), by simp⟩
  | true =>
    rw [Mod.faultsOut, hlead, if_pos rfl]
    have sent := s.m.faultsTaken.sendHost_only 6 (faultBody s.m.flt.faultTx)
    exact ⟨congrArg FltS.faultTx (sent.1 .flt (by simp)), fun _ => State.frame_of_only
      (Mod.only_trans (Mod.only_mono s.m.faultsTaken_only (by simp) fun _ h => h) (Mod.only_mono sent (by simp) fun _ h => h))⟩

theorem Mod.servesHost_of_lead {m : Mod} (h : m.isLead = true) : m.servesHost = true := by rw [Mod.servesHost, h]; rfl

/-- A message of the lead stands at the end of the HOST port's queue. -/
theorem Mod.sendHost_lead {m : Mod} (c : Nat) (body : List Nat) (hlead : m.isLead = true) (hup : m.portUp 6 = true) :
    ∃ g : Msg, ((m.sendHost c body).port 6).txq = (m.port 6).txq ++ [g] ∧ g.chan = c ∧ g.scope = .host ∧ g.body = body := by
  rw [Mod.sendHost_own c body (Mod.servesHost_of_lead hlead) hup, Mod.port_enqueue _ _ _ _ (by decide), if_pos rfl]
  exact ⟨_, rfl, rfl, rfl, rfl⟩

theorem Does.faultsLeave {s : State} (hon : s.on) (hne : s.m.flt.faultTx ≠ []) (hlead : s.m.isLead = true) (hup : s.m.portUp 6 = true) :
    Does .faultMessageSend s fun t => t.m.flt.faultTx = s.m.flt.faultTx.drop 7 ∧
      (∃ g, (t.m.port 6).txq = (s.m.port 6).txq ++ [g] ∧ g.chan = 6 ∧
        g.body = [0x59, (s.m.flt.faultTx.take 7).length, 0, 0] ++ (s.m.flt.faultTx.take 7).flatMap FRec.bytes) ∧
      s.frame [.flt, .lnk] [] t := by
  obtain ⟨t, ht, faultTx, frame⟩ := Does.faultsSent hon hne
  refine ⟨t, ht, faultTx, ?_, frame hlead⟩
  rw [exec_faultMessageSend hon hne, Mod.faultsOut, if_pos hlead] at ht
  obtain rfl := Host.Outcome.next.inj ht
  obtain ⟨g, txq, chan, -, body⟩ := Mod.sendHost_lead (m := s.m.faultsTaken) 6 (faultBody s.m.flt.faultTx) hlead hup
  exact ⟨g, txq, chan, body⟩

theorem Does.faultForwarded {s : State} {b : List Byte} (hon : s.on) (hlead : s.m.isLead = true) (hup : s.m.portUp 6 = true) :
    Does (.faultMessageReceive b) s fun t =>
      (∃ g, (t.m.port 6).txq = (s.m.port 6).txq ++ [g] ∧ g.chan = 6 ∧ g.scope = .host ∧ g.body = natBytes b) ∧ s.frame [.lnk] [] t := by
  refine ⟨{ s with m := (s.m.takeInbox 6 (natBytes b)).sendHost 6 (natBytes b) }, ?_, ?_, ?_⟩
  · rw [show exec (.faultMessageReceive b) s = execFaultMessageReceive b s from rfl, execFaultMessageReceive, onMod, if_neg hon]
    exact congrArg (fun m => Host.Outcome.next { s with m := m }) (if_pos hlead)
  · exact Mod.sendHost_lead (m := s.m.takeInbox 6 (natBytes b)) 6 (natBytes b) hlead hup
  · exact State.frame_of_only (Mod.only_trans (s.m.takeInbox_only 6 (natBytes b)) (Mod.sendHost_only _ 6 _))

/-- Settles O27: what a ROUTE message sets and holds, what the end of a hold lets leave, and the FAULT messages of lead and member. -/
theorem routesAndFaultMessages : Obligations.RoutesAndFaultMessages :=
  ⟨fun _ hon hlead hup => Does.routeListed hon hlead hup,
    fun _ hon hlead hup => Does.routeLeaves hon hlead hup,
    fun _ _ _ _ hon hlead hup hroute hown => Does.newRouteTaken hon hlead hup hroute hown,
    fun _ _ _ _ hon hlead htype hn hlo hhi => Does.routesTaken hon hlead htype hn hlo hhi,
    fun _ _ hon hlink hdue => Does.routeAged hon hlink hdue,
    fun _ _ _ hon _ hlead hpos hlink hheld hholds hdue _ hd => Does.heldLeaves hon hlead hpos hlink hheld hholds hdue hd,
    fun _ _ hon hdue => Does.holdEnded hon hdue,
    fun _ hon hne hlead hup => Does.faultsLeave hon hne hlead hup,
    fun _ _ hon hlead hup => Does.faultForwarded hon hlead hup,
    fun _ hon hne => Does.faultsSent hon hne⟩

end Sys2Proof.Machine
end

section
/-!
PROOFS. Register words by access type and STATUS (R452, R453, R460), register transactions (R288 to R290), the statement RegisterAccess.
-/
namespace Sys2Proof.Machine

/-! ## Rows and their fields -/

/-- The fields of a row lie within the word and share no bit. -/
def RegRow.tidy (r : RegRow) : Bool :=
  decide (∀ f ∈ r.fields, f.lo + f.w ≤ 32) && decide (r.fields.Pairwise fun f g => f.lo + f.w ≤ g.lo ∨ g.lo + g.w ≤ f.lo)

theorem rows_tidy : ∀ p ∈ [0, 2, 15, 19], (pageRows p).all RegRow.tidy = true := by decide

theorem findRow_mem {o : Nat} {l : List RegRow} {r : RegRow} (h : findRow o l = some r) : r ∈ l := by
  induction l with
  | nil => cases h
  | cons q l ih =>
    rw [findRow] at h
    split at h
    · exact Option.some.inj h ▸ List.mem_cons_self
    · exact List.mem_cons_of_mem _ (ih h)

theorem rowOf_mem {a k : Nat} {r : RegRow} (ho : 0x40 ≤ a % 4096) (h : rowOf a = some (r, k)) : r ∈ pageRows (a / 4096) := by
  unfold rowOf at h
  rw [if_neg (by omega), Option.map_eq_some_iff] at h
  obtain ⟨q, hq, he⟩ := h
  exact (Prod.mk.inj he).1 ▸ findRow_mem hq

/-- Only link channels hold fields that the word's place makes read only. -/
theorem fieldAcc_of_page {a : Nat} (hp : a / 4096 ≠ 13) (f : FieldRow) : fieldAcc a f = f.acc := by
  unfold fieldAcc
  exact if_neg (by omega)

/-! ## What a word makes of a row -/

/-- What a written word makes of the value of a field, by its access type (Table 15-3). -/
def fieldTaken (acc : Acc) (w old new : Nat) : Nat :=
  match acc with
  | .rw | .rl => new
  | .rw1c => old &&& (2 ^ w - 1 - new)
  | .rw1s => old ||| new
  | .ro | .rs | .wo => old

theorem bits_lt (v lo w : Nat) : bits v lo w < 2 ^ w := Nat.mod_lt _ (Nat.two_pow_pos w)

theorem bits_writeField_same (a v : Nat) (x : Word) (f : FieldRow) (h : f.lo + f.w ≤ 32) :
    bits (writeField a v x f).toNat f.lo f.w = fieldTaken (fieldAcc a f) f.w (bits x.toNat f.lo f.w) (bits v f.lo f.w) := by
  have same (n : Nat) (hn : n < 2 ^ f.w) : bits (insertField x ⟨a, f.lo, f.w⟩ n).toNat f.lo f.w = n :=
    (bits_insertField_same x ⟨a, f.lo, f.w⟩ n h).trans (Nat.mod_eq_of_lt hn)
  unfold writeField fieldTaken
  cases fieldAcc a f with
  | ro => rfl
  | rs => rfl
  | wo => rfl
  | rw => exact same _ (bits_lt v _ _)
  | rl => exact same _ (bits_lt v _ _)
  | rw1c => exact same _ (Nat.lt_of_le_of_lt Nat.and_le_left (bits_lt _ _ _))
  | rw1s => exact same _ (Nat.or_lt_two_pow (bits_lt _ _ _) (bits_lt _ _ _))

theorem bits_writeField_ne (a v : Nat) (x : Word) (f : FieldRow) {lo w : Nat} (h : lo + w ≤ f.lo ∨ f.lo + f.w ≤ lo) :
    bits (writeField a v x f).toNat lo w = bits x.toNat lo w := by
  have ne (n : Nat) := bits_insertField_ne x ⟨a, f.lo, f.w⟩ n lo w h
  unfold writeField
  cases fieldAcc a f with
  | ro => rfl
  | rs => rfl
  | wo => rfl
  | rw => exact ne _
  | rl => exact ne _
  | rw1c => exact ne _
  | rw1s => exact ne _

/-- Fields that share no bit with another keep it. -/
theorem bits_writeFields_ne (a v : Nat) (l : List FieldRow) (x : Word) {lo w : Nat} (h : ∀ f ∈ l, lo + w ≤ f.lo ∨ f.lo + f.w ≤ lo) :
    bits (l.foldl (writeField a v) x).toNat lo w = bits x.toNat lo w := by
  induction l generalizing x with
  | nil => rfl
  | cons f l ih =>
    rw [List.foldl_cons, ih _ fun g hg => h g (List.mem_cons_of_mem _ hg)]
    exact bits_writeField_ne a v x f (h f List.mem_cons_self)

/-- Each field of a row takes the word by its own access type. -/
theorem bits_writeFields (a v : Nat) {l : List FieldRow} (hin : ∀ f ∈ l, f.lo + f.w ≤ 32)
    (hdis : l.Pairwise fun f g => f.lo + f.w ≤ g.lo ∨ g.lo + g.w ≤ f.lo) (x : Word) {f : FieldRow} (hf : f ∈ l) :
    bits (l.foldl (writeField a v) x).toNat f.lo f.w = fieldTaken (fieldAcc a f) f.w (bits x.toNat f.lo f.w) (bits v f.lo f.w) := by
  induction l generalizing x with
  | nil => cases hf
  | cons g l ih =>
    obtain ⟨hhead, htail⟩ := List.pairwise_cons.mp hdis
    rw [List.foldl_cons]
    rcases List.mem_cons.mp hf with rfl | hmem
    · rw [bits_writeFields_ne a v l _ (hhead ·), bits_writeField_same a v x f (hin f List.mem_cons_self)]
    · rw [ih (fun q hq => hin q (List.mem_cons_of_mem _ hq)) htail _ hmem, bits_writeField_ne a v x g]
      exact (hhead f hmem).symm

/-! ## A plain write (R452, R453) -/

/-- The row takes the word: it has a writable field, and no locked field would change. -/
def Mod.rowTakes (m : Mod) (a v : Nat) (r : RegRow) : Bool :=
  r.fields.any (fun f => takesWrites f.acc) &&
    !(m.locked (a / 4096) && r.fields.any (fun f => f.acc == .rl && bits (m.word a).toNat f.lo f.w != bits v f.lo f.w))

/-- A plain write is refused, or stores the word by its fields. -/
theorem Mod.plainWrite_eq (m : Mod) {a v k : Nat} {r : RegRow} (hp : a / 4096 ≠ 13) (hrow : rowOf a = some (r, k)) :
    m.plainWrite a v = if m.rowTakes a v r then m.setWord a (r.fields.foldl (writeField a v) (m.word a)) else m.refuse := by
  unfold Mod.plainWrite Mod.rowTakes changesRl
  rw [hrow]
  simp only [fieldAcc_of_page hp]
  cases r.fields.any (fun f => takesWrites f.acc) with
  | false => rfl
  | true =>
    cases m.locked (a / 4096) && r.fields.any (fun f => f.acc == .rl && bits (m.word a).toNat f.lo f.w != bits v f.lo f.w) with
    | false => rfl
    | true => rfl

theorem Mod.only_stored (m : Mod) (a v : Nat) (r : RegRow) :
    m.only [] [⟨a, 0, 32⟩] (m.setWord a (r.fields.foldl (writeField a v) (m.word a))) := m.only_setWord a _ _ List.mem_cons_self

/-- A field of the stored word, by its access type. -/
theorem Mod.stored_get (m : Mod) (a v : Nat) {r : RegRow} (h : r.tidy = true) {f : FieldRow} (hf : f ∈ r.fields) :
    (m.setWord a (r.fields.foldl (writeField a v) (m.word a))).get ⟨a, f.lo, f.w⟩ =
      fieldTaken (fieldAcc a f) f.w (m.get ⟨a, f.lo, f.w⟩) (bits v f.lo f.w) := by
  obtain ⟨hin, hdis⟩ := (Bool.and_eq_true _ _).mp h
  rw [Mod.get, Mod.word_setWord_same]
  exact bits_writeFields a v (of_decide_eq_true hin) (of_decide_eq_true hdis) _ hf

theorem Mod.wordTim_plain (m : Mod) {a : Nat} (h : a / 4096 = 0 ∨ a / 4096 = 2 ∧ a ≠ 0x2044) (v : Nat) :
    m.wordTim a v = m.plainWrite a v := by
  unfold Mod.wordTim
  iterate 3 rw [if_neg (by omega)]
  rw [if_neg (by rw [Bool.and_eq_true, decide_eq_true_eq]; omega)]
  iterate 8 rw [if_neg (by omega)]

theorem Mod.wordSys_plain (m : Mod) {a : Nat} (h : a / 4096 = 15 ∧ a ≠ 0xF0C4 ∨ a / 4096 = 19 ∧ a ≠ 0x130C4) (v : Nat) :
    m.wordSys a v = m.plainWrite a v := by
  unfold Mod.wordSys
  iterate 15 rw [if_neg (by omega)]

/-- The pages DIR, PWR, MEM and TRP have no word with a rule of its own but three. -/
theorem wordEffect_plain {a : Nat} (hp : a / 4096 ∈ [0, 2, 15, 19]) (hne : a ∉ [0x2044, 0xF0C4, 0x130C4]) (ho : 0x40 ≤ a % 4096) (v : Nat)
    (x : Fuses × Mod) : wordEffect a v x = (x.1, x.2.plainWrite a v) := by
  simp only [List.mem_cons, List.not_mem_nil, or_false, not_or] at hp hne
  unfold wordEffect
  simp only
  iterate 7 rw [if_neg (by omega)]
  by_cases low : a / 4096 ≤ 5 ∨ a / 4096 = 7
  · rw [if_pos low, Mod.wordTim_plain _ (by omega)]
  · rw [if_neg low, if_neg (by omega), Mod.wordSys_plain _ (by omega)]

/-! ## STATUS of a word (R460) -/

theorem applyWord_ok {m : Mod} {a v : Nat} (fu : Fuses) (hw : m.wrStatus a v = 0) (hd : ¬ (a = 0x11180 ∨ a = 0x11184 ∨ a = 0x11188)) :
    applyWord false a v (fu, m) = wordEffect a v (fu, { m with resp := 0 }) := by
  unfold applyWord dbgNote
  simp only [hw, if_neg hd]

theorem applyWord_auth {m : Mod} {a v : Nat} (fu : Fuses) (hw : m.wrStatus a v = 3) (hd : ¬ (a = 0x11180 ∨ a = 0x11184 ∨ a = 0x11188)) :
    applyWord false a v (fu, m) = (fu, { m.authRefused with resp := 3 }) := by
  unfold applyWord dbgNote
  simp only [hw, if_neg hd]

theorem applyWord_held {m : Mod} {a v k : Nat} (fu : Fuses) (hw : m.wrStatus a v = k) (h0 : k ≠ 0) (h3 : k ≠ 3) :
    applyWord false a v (fu, m) = (fu, { m with resp := k }) := by
  unfold applyWord
  simp only [hw]

theorem Mod.wrStatus_off {m : Mod} {a : Nat} (h : m.pageOn (a / 4096) = false) (v : Nat) : m.wrStatus a v = 2 := by
  unfold Mod.wrStatus Mod.pageServes
  rw [h]
  rfl

/-- An aligned word acts as one word of the firmware or the host. -/
theorem exec_registerWrite {s : State} {a : Word} (v : Word) (hon : s.on) (ha : a.toNat % 4 = 0) :
    exec (.registerWrite a v) s = .next { s with
      fuses := (applyWord false a.toNat v.toNat (s.fuses, s.m)).1, m := (applyWord false a.toNat v.toNat (s.fuses, s.m)).2 } := by
  rw [show exec (.registerWrite a v) s = execRegisterWrite a v s from rfl, execRegisterWrite, onBoth, if_neg hon, if_neg (by simp [ha])]

theorem Does.unaligned {s : State} {a : Word} (v : Word) (hon : s.on) (ha : a.toNat % 4 ≠ 0) :
    Does (.registerWrite a v) s fun t => t.m.resp = 4 ∧ s.frame [.resp] [] t := by
  refine ⟨{ s with m.resp := 4 }, ?_, rfl, State.frame_of_only (Mod.only_resp _ 4 _ List.mem_cons_self)⟩
  rw [show exec (.registerWrite a v) s = execRegisterWrite a v s from rfl, execRegisterWrite, onBoth, if_neg hon, if_pos ha]

/-- A word that is held off answers its STATUS and changes nothing. -/
theorem Does.wordHeld {s : State} {a v : Word} {k : Nat} (hon : s.on) (ha : a.toNat % 4 = 0) (hw : s.m.wrStatus a.toNat v.toNat = k)
    (h0 : k ≠ 0) (h3 : k ≠ 3) : Does (.registerWrite a v) s fun t => t.m.resp = k ∧ s.frame [.resp] [] t := by
  refine ⟨_, exec_registerWrite v hon ha, ?_⟩
  rw [applyWord_held s.fuses hw h0 h3]
  exact ⟨rfl, State.frame_of_only (Mod.only_resp _ k _ List.mem_cons_self)⟩

/-- A refusal for lack of authorisation counts. -/
theorem Mod.authRefused_count (m : Mod) : (m.authRefused.word R.SEC_AUTH_CNT_COUNT.addr).toNat =
    min ((m.word R.SEC_AUTH_CNT_COUNT.addr).toNat + 1) (2 ^ 32 - 1) := by
  have told := Mod.only_word ((m.bump R.SEC_AUTH_CNT_COUNT).raiseLim_only tickS 18 0 0x06 0 0) R.SEC_AUTH_CNT_COUNT.addr
    (Fld.apart_of_clear (by decide))
  rw [Mod.authRefused, Mod.word_put_ne _ _ _ (by decide), told]
  exact m.word_bump_min R.SEC_AUTH_CNT_COUNT (Fld.apart_of_clear (by decide))

theorem Mod.authRefused_event (m : Mod) : m.authRefused.get R.SEC_EVT_AUTH = 1 := Mod.get_put_same _ _ 1 (by decide)

/-- Below the end of the count a refusal marks no saturation. -/
theorem Mod.authRefused_below {m : Mod} (h : (m.word R.SEC_AUTH_CNT_COUNT.addr).toNat < 2 ^ 32 - 1) :
    m.only [.flt] ([R.SEC_EVT_AUTH, ⟨R.SEC_AUTH_CNT_COUNT.addr, 0, 32⟩] ++ repFlds 18) m.authRefused := by
  refine Mod.only_trans (Mod.only_mono (m.bump_below _ h) (by simp) (by simp)) (Mod.only_trans
    (Mod.only_mono (Mod.raiseLim_only _ tickS 18 0 0x06 0 0) (fun _ h => h) fun _ hf => List.mem_append_right _ hf) ?_)
  exact Mod.only_put _ R.SEC_EVT_AUTH 1 _ List.mem_cons_self

theorem Does.wordUnauthorised {s : State} {a v : Word} (hon : s.on) (ha : a.toNat % 4 = 0) (hw : s.m.wrStatus a.toNat v.toNat = 3)
    (hd : ¬ (0x11180 ≤ a.toNat ∧ a.toNat ≤ 0x11188)) :
    Does (.registerWrite a v) s fun t => t.m.resp = 3 ∧ t.m.get R.SEC_EVT_AUTH = 1 ∧
      (t.m.word R.SEC_AUTH_CNT_COUNT.addr).toNat = min ((s.m.word R.SEC_AUTH_CNT_COUNT.addr).toNat + 1) (2 ^ 32 - 1) ∧
      ((s.m.word R.SEC_AUTH_CNT_COUNT.addr).toNat < 2 ^ 32 - 1 →
        s.frame [.flt, .resp] ([R.SEC_EVT_AUTH, ⟨R.SEC_AUTH_CNT_COUNT.addr, 0, 32⟩] ++ repFlds 18) t) := by
  refine ⟨_, exec_registerWrite v hon ha, ?_⟩
  rw [applyWord_auth s.fuses hw (by omega)]
  exact ⟨rfl, s.m.authRefused_event, s.m.authRefused_count, fun below => State.frame_of_only (Mod.only_trans
    (Mod.only_mono (Mod.authRefused_below below) (by simp) fun _ h => h) (Mod.only_resp _ 3 _ (by simp)))⟩

/-! ## A plain register (R452, R453) -/

/-- A word of the four pages that the access rules let through. -/
theorem applyWord_plain {m : Mod} {a v : Nat} (fu : Fuses) (hw : m.wrStatus a v = 0) (hp : a / 4096 ∈ [0, 2, 15, 19])
    (hne : a ∉ [0x2044, 0xF0C4, 0x130C4]) (ho : 0x40 ≤ a % 4096) :
    applyWord false a v (fu, m) = (fu, ({ m with resp := 0 } : Mod).plainWrite a v) := by
  have page := hp
  simp only [List.mem_cons, List.not_mem_nil, or_false] at page
  rw [applyWord_ok fu hw (by omega), wordEffect_plain hp hne ho]

/-- The word of a row that takes it: stored by the fields' access types. -/
theorem applyWord_taken {m : Mod} {a v k : Nat} {r : RegRow} (fu : Fuses) (hw : m.wrStatus a v = 0) (hp : a / 4096 ∈ [0, 2, 15, 19])
    (hne : a ∉ [0x2044, 0xF0C4, 0x130C4]) (ho : 0x40 ≤ a % 4096) (hrow : rowOf a = some (r, k)) (ht : m.rowTakes a v r = true) :
    applyWord false a v (fu, m) =
      (fu, ({ m with resp := 0 } : Mod).setWord a (r.fields.foldl (writeField a v) (({ m with resp := 0 } : Mod).word a))) := by
  have page : a / 4096 ≠ 13 := by rintro h; rw [h] at hp; exact absurd hp (by decide)
  rw [applyWord_plain fu hw hp hne ho, Mod.plainWrite_eq _ page hrow]
  exact congrArg (Prod.mk fu) (if_pos ht)

theorem rowOf_tidy {a k : Nat} {r : RegRow} (hp : a / 4096 ∈ [0, 2, 15, 19]) (ho : 0x40 ≤ a % 4096) (hrow : rowOf a = some (r, k)) :
    r.tidy = true := List.all_eq_true.mp (rows_tidy _ hp) r (rowOf_mem ho hrow)

theorem Does.wordStored {s : State} {a v : Word} {r : RegRow} {k : Nat} (hon : s.on) (ha : a.toNat % 4 = 0)
    (hw : s.m.wrStatus a.toNat v.toNat = 0) (hp : a.toNat / 4096 ∈ [0, 2, 15, 19]) (hne : a.toNat ∉ [0x2044, 0xF0C4, 0x130C4])
    (ho : 0x40 ≤ a.toNat % 4096) (hrow : rowOf a.toNat = some (r, k)) (ht : s.m.rowTakes a.toNat v.toNat r = true) :
    Does (.registerWrite a v) s (fun t => t.m.resp = 0 ∧
      (∀ f ∈ r.fields, f.acc = .rw ∨ f.acc = .rl → t.m.get ⟨a.toNat, f.lo, f.w⟩ = bits v.toNat f.lo f.w) ∧
      (∀ f ∈ r.fields, f.acc = .rw1c →
        t.m.get ⟨a.toNat, f.lo, f.w⟩ = s.m.get ⟨a.toNat, f.lo, f.w⟩ &&& (2 ^ f.w - 1 - bits v.toNat f.lo f.w)) ∧
      (∀ f ∈ r.fields, f.acc = .ro ∨ f.acc = .wo → t.m.get ⟨a.toNat, f.lo, f.w⟩ = s.m.get ⟨a.toNat, f.lo, f.w⟩) ∧
      s.frame [.resp] [⟨a.toNat, 0, 32⟩] t) := by
  refine ⟨_, exec_registerWrite v hon ha, ?_⟩
  rw [applyWord_taken s.fuses hw hp hne ho hrow ht]
  have page : a.toNat / 4096 ≠ 13 := by rintro h; rw [h] at hp; exact absurd hp (by decide)
  have field (f) (hf : f ∈ r.fields) := ({ s.m with resp := 0 } : Mod).stored_get a.toNat v.toNat (rowOf_tidy hp ho hrow) hf
  simp only [fieldAcc_of_page page] at field
  refine ⟨rfl, fun f hf hacc => (field f hf).trans ?_, fun f hf hacc => (field f hf).trans ?_, fun f hf hacc => (field f hf).trans ?_, ?_⟩
  · rcases hacc with h | h <;> rw [h] <;> rfl
  · rw [hacc]; rfl
  · rcases hacc with h | h <;> rw [h] <;> rfl
  · exact State.frame_of_only (Mod.only_trans (Mod.only_resp s.m 0 _ List.mem_cons_self)
      (Mod.only_mono (Mod.only_stored _ a.toNat v.toNat r) (by simp) fun _ h => h))

theorem Does.wordRefused {s : State} {a v : Word} {r : RegRow} {k : Nat} (hon : s.on) (ha : a.toNat % 4 = 0)
    (hw : s.m.wrStatus a.toNat v.toNat = 0) (hp : a.toNat / 4096 ∈ [0, 2, 15, 19]) (hne : a.toNat ∉ [0x2044, 0xF0C4, 0x130C4])
    (ho : 0x40 ≤ a.toNat % 4096) (hrow : rowOf a.toNat = some (r, k)) (ht : s.m.rowTakes a.toNat v.toNat r = false) :
    Does (.registerWrite a v) s (fun t => t.m.resp = 1 ∧ s.frame [.resp] [] t) := by
  have page : a.toNat / 4096 ≠ 13 := by rintro h; rw [h] at hp; exact absurd hp (by decide)
  have refused : ¬ ({ s.m with resp := 0 } : Mod).rowTakes a.toNat v.toNat r = true := by
    rw [show ({ s.m with resp := 0 } : Mod).rowTakes a.toNat v.toNat r = false from ht]
    exact Bool.false_ne_true
  refine ⟨_, exec_registerWrite v hon ha, ?_⟩
  rw [applyWord_plain s.fuses hw hp hne ho, Mod.plainWrite_eq _ page hrow, if_neg refused]
  exact ⟨rfl, State.frame_of_only (Mod.only_trans (Mod.only_resp s.m 0 _ List.mem_cons_self) (Mod.refuse_frame _ _ List.mem_cons_self))⟩

/-! ## Responses that leave (R290, R291) -/

/-- The fields that a message without a route may change. -/
def lostFlds : List Fld := ⟨0xD0F0, 8, 1⟩ :: (cntFlds R.LNK_NOROUTE_CNT_COUNT.addr ++ repFlds 13)

/-- A message has left or waits: the responses kept stay. -/
def Mod.leaves (m x : Mod) : Prop := m.only [.lnk, .flt] lostFlds x ∧ x.lnk.responses = m.lnk.responses

theorem Mod.leaves_trans {a b c : Mod} (h : a.leaves b) (k : b.leaves c) : a.leaves c := ⟨Mod.only_trans h.1 k.1, k.2.trans h.2⟩

theorem Mod.leaves_refl (m : Mod) : m.leaves m := ⟨Mod.only_refl m _ _, rfl⟩

theorem Mod.leaves_of_sendsFrom {m x : Mod} (h : m.sendsFrom x) : m.leaves x := by
  refine ⟨Mod.only_mono (Mod.sendsFrom_only h) (by simp) (by simp), ?_⟩
  obtain ⟨⟨l, rfl⟩, -⟩ := h
  rfl

theorem Mod.nextMseq_leaves (m : Mod) (c : Nat) : m.leaves (m.nextMseq c).2 := ⟨Mod.only_mono (m.nextMseq_only c) (by simp) (by simp), rfl⟩

/-- A message without a route changes the collector, its count and its event. -/
theorem Mod.noRoute_only (m : Mod) (a : Nat) :
    m.only [.flt] lostFlds (((m.bump R.LNK_NOROUTE_CNT_COUNT).raiseLim tickS 13 7 0x09 a 0).put ⟨0xD0F0, 8, 1⟩ 1) := by
  refine Mod.only_trans (m.bump_only R.LNK_NOROUTE_CNT_COUNT (by simp) fun g hg => List.mem_cons_of_mem _ (List.mem_append_left _ hg))
    (Mod.only_trans (Mod.only_mono (Mod.raiseLim_only _ tickS 13 7 0x09 a 0) (fun _ h => h) fun g hg => ?_)
      (Mod.only_put _ _ 1 _ List.mem_cons_self))
  exact List.mem_cons_of_mem _ (List.mem_append_right _ hg)

theorem Mod.routeUnicast_leaves (m : Mod) (g : Msg) : m.leaves (m.routeUnicast g) := by
  unfold Mod.routeUnicast
  split
  · exact Mod.leaves_of_sendsFrom (m.ringUnicast_sendsFrom _ g)
  · split
    · extract_lets l held
      split
      · exact ⟨Mod.only_lnk m _ _ (by simp), rfl⟩
      split
      · exact Mod.leaves_of_sendsFrom (m.sendLink_sendsFrom _ g)
      split
      · exact Mod.leaves_of_sendsFrom (m.sendLink_sendsFrom _ g)
      split
      · have lost := m.noRoute_only g.dst
        exact ⟨Mod.only_mono lost (by simp) fun _ h => h, congrArg LnkS.responses (lost.1 .lnk (by simp))⟩
      · exact m.leaves_refl
    · exact Mod.leaves_of_sendsFrom (m.ringUnicast_sendsFrom _ g)

theorem Mod.toHost_leaves (m : Mod) (g : Msg) : m.leaves (m.toHost g) := by
  unfold Mod.toHost
  split
  · split
    · exact Mod.leaves_of_sendsFrom (m.enqueue_sendsFrom 6 g)
    · exact m.leaves_refl
  · exact m.routeUnicast_leaves g

theorem Mod.sendResp_leaves (m : Mod) (host : Bool) (src tag : Nat) (body : List Nat) : m.leaves (m.sendResp host src tag body) := by
  unfold Mod.sendResp
  split
  · exact Mod.leaves_trans (m.nextMseq_leaves chReg) (Mod.toHost_leaves _ _)
  · exact Mod.leaves_trans (m.nextMseq_leaves chReg) (Mod.routeUnicast_leaves _ _)

theorem Mod.storedResp_congr {a b : Mod} (h : b.lnk.responses = a.lnk.responses) (host : Bool) (src tag : Nat) :
    b.storedResp host src tag = a.storedResp host src tag := by rw [Mod.storedResp, Mod.storedResp, h]

/-- A response that was kept is the one stored for its request. -/
theorem Mod.storedResp_keepResp (m : Mod) (host : Bool) (src tag : Nat) (body : List Nat) :
    ((m.keepResp host src tag body).storedResp host src tag).map Msg.body = some body := by
  unfold Mod.storedResp Mod.keepResp
  simp only
  rw [List.cons_append, List.find?_cons_of_pos (by simp)]
  rfl

theorem Mod.keepResp_only (m : Mod) (host : Bool) (src tag : Nat) (body : List Nat) : m.only [.lnk] [] (m.keepResp host src tag body) :=
  Mod.only_lnk m _ _ (by simp)

/-- A transaction that ends keeps its response and answers its STATUS; of the registers the lost message's fields may change. -/
theorem Mod.endTx_stored (m : Mod) (host : Bool) (src tag : Nat) (body : List Nat) (st : Nat) :
    ((m.endTx host src tag body st).storedResp host src tag).map Msg.body = some body :=
  (congrArg (Option.map Msg.body) (Mod.storedResp_congr (Mod.sendResp_leaves _ host src tag body).2 host src tag)).trans
    (Mod.storedResp_keepResp _ host src tag body)

theorem Mod.endTx_only (m : Mod) (host : Bool) (src tag : Nat) (body : List Nat) (st : Nat) :
    ({ m with resp := st } : Mod).only [.lnk, .flt] lostFlds (m.endTx host src tag body st) :=
  Mod.only_trans (Mod.only_mono (Mod.keepResp_only _ host src tag body) (by simp) (by simp)) (Mod.sendResp_leaves _ host src tag body).1

theorem Mod.endTx_resp (m : Mod) (host : Bool) (src tag : Nat) (body : List Nat) (st : Nat) :
    (m.endTx host src tag body st).resp = st := (m.endTx_only host src tag body st).1 .resp (by simp)

theorem Mod.endTx_rdata (m : Mod) (host : Bool) (src tag : Nat) (body : List Nat) (st : Nat) :
    (m.endTx host src tag body st).rdata = m.rdata := (m.endTx_only host src tag body st).1 .rdata (by simp)

theorem Mod.endTx_get (m : Mod) (host : Bool) (src tag : Nat) (body : List Nat) (st : Nat) {g : Fld} (h : ∀ f ∈ lostFlds, f.apart g) :
    (m.endTx host src tag body st).get g = m.get g := Mod.only_get (m.endTx_only host src tag body st) g h

/-! ## Transactions (R288 to R290, R460) -/

/-- The inbox gives up the request of a transaction. -/
theorem Mod.takeInbox_storedResp (m : Mod) (b : List Nat) (host : Bool) (src tag : Nat) :
    (m.takeInbox chReg b).storedResp host src tag = m.storedResp host src tag := rfl

section
variable {s : State} {host : Bool} {src : Fin 16384} {tag : Fin 65536} {b : List Byte}

/-- The same request again sends the response that was kept. -/
theorem exec_readAgain {g : Msg} (hon : s.on) (hg : s.m.storedResp host src tag = some g) :
    exec (.regReadRequest host src tag b) s = .next { s with m := (s.m.takeInbox chReg (natBytes b)).sendResp host src tag g.body } := by
  rw [show exec (.regReadRequest host src tag b) s = execRegReadRequest host src tag b s from rfl, execRegReadRequest, onMod, if_neg hon]
  simp only [Mod.takeInbox_storedResp, hg]

theorem exec_writeAgain {g : Msg} (hon : s.on) (hg : s.m.storedResp host src tag = some g) :
    exec (.regWriteRequest host src tag b) s = .next { s with m := (s.m.takeInbox chReg (natBytes b)).sendResp host src tag g.body } := by
  rw [show exec (.regWriteRequest host src tag b) s = execRegWriteRequest host src tag b s from rfl, execRegWriteRequest, onBoth, if_neg hon]
  simp only [Mod.takeInbox_storedResp, hg]

theorem exec_readBad (hon : s.on) (hnone : s.m.storedResp host src tag = none) (hbad : txBad (natBytes b) false = true) :
    exec (.regReadRequest host src tag b) s = .next { s with
      m := (s.m.takeInbox chReg (natBytes b)).endTx host src tag (txResp (natBytes b) 0 4 []) 4 } := by
  have status : (s.m.takeInbox chReg (natBytes b)).txReadStatus (natBytes b) = 4 := if_pos hbad
  rw [show exec (.regReadRequest host src tag b) s = execRegReadRequest host src tag b s from rfl, execRegReadRequest, onMod, if_neg hon]
  simp only [Mod.takeInbox_storedResp, hnone, status]

theorem exec_writeBad (hon : s.on) (hnone : s.m.storedResp host src tag = none) (hbad : txBad (natBytes b) true = true) :
    exec (.regWriteRequest host src tag b) s = .next { s with
      m := (s.m.takeInbox chReg (natBytes b)).endTx host src tag (txResp (natBytes b) 0 4 []) 4 } := by
  have status : (s.m.takeInbox chReg (natBytes b)).txWriteStatus host (natBytes b) = 4 := if_pos hbad
  rw [show exec (.regWriteRequest host src tag b) s = execRegWriteRequest host src tag b s from rfl, execRegWriteRequest, onBoth, if_neg hon]
  simp only [Mod.takeInbox_storedResp, hnone, status]

/-- A malformed READ answers 4 and reads nothing. -/
theorem Does.readMalformed (hon : s.on) (hnone : s.m.storedResp host src tag = none) (hbad : txBad (natBytes b) false = true) :
    Does (.regReadRequest host src tag b) s fun t => t.m.resp = 4 ∧ t.m.rdata = s.m.rdata ∧
      (t.m.storedResp host src tag).map Msg.body = some (txResp (natBytes b) 0 4 []) ∧ t.fuses = s.fuses :=
  ⟨_, exec_readBad hon hnone hbad, Mod.endTx_resp _ _ _ _ _ 4, Mod.endTx_rdata _ _ _ _ _ 4, Mod.endTx_stored _ _ _ _ _ 4, rfl⟩

theorem Does.writeMalformed (hon : s.on) (hnone : s.m.storedResp host src tag = none) (hbad : txBad (natBytes b) true = true) :
    Does (.regWriteRequest host src tag b) s fun t => t.m.resp = 4 ∧
      (t.m.storedResp host src tag).map Msg.body = some (txResp (natBytes b) 0 4 []) ∧ t.fuses = s.fuses :=
  ⟨_, exec_writeBad hon hnone hbad, Mod.endTx_resp _ _ _ _ _ 4, Mod.endTx_stored _ _ _ _ _ 4, rfl⟩

/-- The same request again: the kept response leaves, nothing else is done. -/
theorem responseAgain_keeps {t : State} {g : Msg} (hg : s.m.storedResp host src tag = some g)
    (ht : t = { s with m := (s.m.takeInbox chReg (natBytes b)).sendResp host src tag g.body }) :
    t.m.rdata = s.m.rdata ∧ t.m.resp = s.m.resp ∧ (t.m.storedResp host src tag).map Msg.body = some g.body ∧ t.fuses = s.fuses := by
  obtain ⟨⟨parts, -⟩, responses⟩ := (s.m.takeInbox chReg (natBytes b)).sendResp_leaves host src tag g.body
  subst ht
  refine ⟨parts .rdata (by simp), parts .resp (by simp), ?_, rfl⟩
  exact congrArg (Option.map Msg.body) ((Mod.storedResp_congr responses host src tag).trans hg)

theorem Does.responseAgain {g : Msg} (hon : s.on) (hg : s.m.storedResp host src tag = some g) :
    Does (.regReadRequest host src tag b) s (fun t => t.m.rdata = s.m.rdata ∧ t.m.resp = s.m.resp ∧
      (t.m.storedResp host src tag).map Msg.body = some g.body ∧ t.fuses = s.fuses) ∧
    Does (.regWriteRequest host src tag b) s (fun t => t.m.rdata = s.m.rdata ∧ t.m.resp = s.m.resp ∧
      (t.m.storedResp host src tag).map Msg.body = some g.body ∧ t.fuses = s.fuses) :=
  ⟨⟨_, exec_readAgain hon hg, responseAgain_keeps hg rfl⟩, ⟨_, exec_writeAgain hon hg, responseAgain_keeps hg rfl⟩⟩

end

/-! ## A transaction of one word -/

theorem txReads_one {b : List Nat} (hn : b.getD 2 0 = 1) : txReads b = [le b 4 4] := by
  unfold txReads
  rw [hn]
  simp [List.range_one, txAddr]

theorem txWords_one {b : List Nat} (hn : b.getD 2 0 = 1) : txWords b = [(le b 4 4, le b 8 4)] := by
  unfold txWords
  rw [hn]
  simp [List.range_one, txAddr]

/-- A read of a plain register answers its word. -/
theorem Mod.readWord_plain {m : Mod} {a : Nat} (hp : a / 4096 ∈ [2, 19]) (ho : 0x40 ≤ a % 4096) (hs : m.pageServes (a / 4096) = true) :
    m.rdStatus a = 0 ∧ m.readWord a = { m with rdata := (m.word a).toNat, resp := 0 } := by
  simp only [List.mem_cons, List.not_mem_nil, or_false] at hp
  have status : m.rdStatus a = 0 := by
    unfold Mod.rdStatus
    rw [hs, if_neg (by simp), if_neg (by omega)]
  have value : m.readValue a = ((m.word a).toNat, m) := by
    unfold Mod.readValue
    simp only
    iterate 25 rw [if_neg (by omega)]
  refine ⟨status, ?_⟩
  unfold Mod.readWord dbgNote
  rw [if_neg (by omega), Mod.guardedRd_ok _ status, value, Nat.mod_eq_of_lt (m.word a).isLt]

/-- The fields of a lost message lie on the pages LNK and FLT. -/
theorem lostFlds_apart {a lo w : Nat} (hp : a / 4096 ≠ 13 ∧ a / 4096 ≠ 14) : ∀ f ∈ lostFlds, f.apart ⟨a, lo, w⟩ := by
  have pages : ∀ f ∈ lostFlds, f.addr / 4096 = 13 ∨ f.addr / 4096 = 14 := by decide
  intro f hf
  refine .inl fun h => ?_
  have := pages f hf
  simp only at h
  omega

section
variable {s : State} {host : Bool} {src : Fin 16384} {tag : Fin 65536} {b : List Byte}

theorem exec_readOne {a : Nat} (hon : s.on) (hnone : s.m.storedResp host src tag = none) (hbad : txBad (natBytes b) false = false)
    (hn : (natBytes b).getD 2 0 = 1) (ha : le (natBytes b) 4 4 = a) (hs : s.m.pageServes (a / 4096) = true) (hp : a / 4096 ∈ [2, 19])
    (ho : 0x40 ≤ a % 4096) : exec (.regReadRequest host src tag b) s = .next { s with
      m := ({ s.m.takeInbox chReg (natBytes b) with rdata := (s.m.word a).toNat, resp := 0 } : Mod).endTx host src tag
        (txResp (natBytes b) 1 0 [(s.m.word a).toNat]) 0 } := by
  obtain ⟨rd, read⟩ := Mod.readWord_plain (m := s.m.takeInbox chReg (natBytes b)) hp ho hs
  have status : (s.m.takeInbox chReg (natBytes b)).txReadStatus (natBytes b) = 0 := by
    have serves : (s.m.takeInbox chReg (natBytes b)).pageServes (a / 4096) = true := hs
    unfold Mod.txReadStatus
    rw [hbad, ha, serves, txReads_one hn, ha]
    simp [rd]
  rw [show exec (.regReadRequest host src tag b) s = execRegReadRequest host src tag b s from rfl, execRegReadRequest, onMod, if_neg hon]
  simp only [Mod.takeInbox_storedResp, hnone, status, txReads_one hn, ha, readWords, read, if_true, List.nil_append, List.length_singleton]
  rfl

theorem Does.readOne {a : Nat} (hon : s.on) (hnone : s.m.storedResp host src tag = none) (hbad : txBad (natBytes b) false = false)
    (hn : (natBytes b).getD 2 0 = 1) (ha : le (natBytes b) 4 4 = a) (hs : s.m.pageServes (a / 4096) = true) (hp : a / 4096 ∈ [2, 19])
    (ho : 0x40 ≤ a % 4096) :
    Does (.regReadRequest host src tag b) s fun t => t.m.resp = 0 ∧ t.m.rdata = (s.m.word a).toNat ∧
      (t.m.storedResp host src tag).map Msg.body = some (txResp (natBytes b) 1 0 [(s.m.word a).toNat]) ∧ t.fuses = s.fuses ∧
      t.m.word a = s.m.word a := by
  refine ⟨_, exec_readOne hon hnone hbad hn ha hs hp ho, Mod.endTx_resp _ _ _ _ _ 0, Mod.endTx_rdata _ _ _ _ _ 0,
    Mod.endTx_stored _ _ _ _ _ 0, rfl, ?_⟩
  have page : a / 4096 ≠ 13 ∧ a / 4096 ≠ 14 := by
    simp only [List.mem_cons, List.not_mem_nil, or_false] at hp
    omega
  exact Mod.only_word (Mod.endTx_only _ host src tag (txResp (natBytes b) 1 0 [(s.m.word a).toNat]) 0) a (lostFlds_apart page)

theorem exec_writeUnauthorised (hon : s.on) (hnone : s.m.storedResp false src tag = none) (hbad : txBad (natBytes b) true = false)
    (hs : s.m.pageServes (le (natBytes b) 4 4 / 4096) = true) (hd : txDbg (natBytes b) = 0) :
    exec (.regWriteRequest false src tag b) s = .next { s with
      m := ({ (s.m.takeInbox chReg (natBytes b)).authRefused with resp := 3 } : Mod).endTx false src tag (txResp (natBytes b) 0 3 []) 3 } := by
  have serves : (s.m.takeInbox chReg (natBytes b)).pageServes (le (natBytes b) 4 4 / 4096) = true := hs
  have status : (s.m.takeInbox chReg (natBytes b)).txWriteStatus false (natBytes b) = 3 := by
    unfold Mod.txWriteStatus
    rw [hbad, serves]
    rfl
  rw [show exec (.regWriteRequest false src tag b) s = execRegWriteRequest false src tag b s from rfl, execRegWriteRequest, onBoth,
    if_neg hon]
  simp only [Mod.takeInbox_storedResp, hnone, status, hd]
  rfl

/-- A WRITE of a module is not authorised. -/
theorem Does.writeUnauthorised (hon : s.on) (hnone : s.m.storedResp false src tag = none) (hbad : txBad (natBytes b) true = false)
    (hs : s.m.pageServes (le (natBytes b) 4 4 / 4096) = true) (hd : txDbg (natBytes b) = 0) :
    Does (.regWriteRequest false src tag b) s fun t => t.m.resp = 3 ∧ t.m.get R.SEC_EVT_AUTH = 1 ∧
      (t.m.storedResp false src tag).map Msg.body = some (txResp (natBytes b) 0 3 []) ∧ t.fuses = s.fuses :=
  ⟨_, exec_writeUnauthorised hon hnone hbad hs hd, Mod.endTx_resp _ _ _ _ _ 3,
    (Mod.endTx_get _ _ _ _ _ 3 (lostFlds_apart (by decide))).trans (Mod.authRefused_event _), Mod.endTx_stored _ _ _ _ _ 3, rfl⟩

end

theorem Mod.wrStatus_authorised {m : Mod} {a v : Nat} (h : m.wrStatus a v = 0) : m.unauthWrite a v = false := by
  unfold Mod.wrStatus at h
  cases hu : m.unauthWrite a v with
  | false => rfl
  | true =>
    rw [hu, if_pos rfl] at h
    split at h <;> cases h

section
variable {s : State} {src : Fin 16384} {tag : Fin 65536} {b : List Byte}

/-- A WRITE of the host whose one word stands in a row that takes it. -/
theorem exec_writeOne {a v k : Nat} {r : RegRow} (hon : s.on) (hnone : s.m.storedResp true src tag = none)
    (hbad : txBad (natBytes b) true = false) (hn : (natBytes b).getD 2 0 = 1) (ha : le (natBytes b) 4 4 = a) (hv : le (natBytes b) 8 4 = v)
    (hw : s.m.wrStatus a v = 0) (hp : a / 4096 ∈ [0, 2, 15, 19]) (hne : a ∉ [0x2044, 0xF0C4, 0x130C4]) (ho : 0x40 ≤ a % 4096)
    (hrow : rowOf a = some (r, k)) (ht : s.m.rowTakes a v r = true) :
    exec (.regWriteRequest true src tag b) s = .next { s with
      m := (({ s.m.takeInbox chReg (natBytes b) with resp := 0 } : Mod).setWord a (r.fields.foldl (writeField a v) (s.m.word a))).endTx
        true src tag (txResp (natBytes b) 1 0 []) 0 } := by
  have applied := applyWord_taken (m := s.m.takeInbox chReg (natBytes b)) s.fuses hw hp hne ho hrow ht
  have status : (s.m.takeInbox chReg (natBytes b)).txWriteStatus true (natBytes b) = 0 := by
    have serves : (s.m.takeInbox chReg (natBytes b)).pageServes (a / 4096) = true := Mod.wrStatus_serves hw
    have authorised : (s.m.takeInbox chReg (natBytes b)).unauthWrite a v = false := Mod.wrStatus_authorised hw
    unfold Mod.txWriteStatus
    rw [hbad, txWords_one hn, ha, hv, serves]
    simp [authorised]
  rw [show exec (.regWriteRequest true src tag b) s = execRegWriteRequest true src tag b s from rfl, execRegWriteRequest, onBoth, if_neg hon]
  simp only [Mod.takeInbox_storedResp, hnone, status, txWords_one hn, ha, hv, writeWords, applied]
  rfl

theorem Does.writeOne {a v : Nat} (hon : s.on) (hnone : s.m.storedResp true src tag = none)
    (hbad : txBad (natBytes b) true = false) (hn : (natBytes b).getD 2 0 = 1) (ha : le (natBytes b) 4 4 = a) (hv : le (natBytes b) 8 4 = v)
    (hw : s.m.wrStatus a v = 0) (hp : a / 4096 = 19) (ho : 0x40 ≤ a % 4096) (hne : a ≠ 0x130C4) (hl : s.m.locked 19 = false)
    (hrow : ∃ r k, rowOf a = some (r, k) ∧ r.fields.any (fun f => takesWrites f.acc) = true) :
    Does (.regWriteRequest true src tag b) s fun t => t.m.resp = 0 ∧
      (t.m.storedResp true src tag).map Msg.body = some (txResp (natBytes b) 1 0 []) ∧
      (∀ r k, rowOf a = some (r, k) → ∀ f ∈ r.fields, f.acc = .rw ∨ f.acc = .rl → t.m.get ⟨a, f.lo, f.w⟩ = bits v f.lo f.w) ∧
      t.fuses = s.fuses := by
  obtain ⟨r, k, hr, hany⟩ := hrow
  have page : a / 4096 ∈ [0, 2, 15, 19] := by rw [hp]; decide
  have plain : a ∉ [0x2044, 0xF0C4, 0x130C4] := by
    simp only [List.mem_cons, List.not_mem_nil, or_false, not_or]
    omega
  have taken : s.m.rowTakes a v r = true := by
    unfold Mod.rowTakes
    rw [hany, hp, hl]
    rfl
  refine ⟨_, exec_writeOne hon hnone hbad hn ha hv hw page plain ho hr taken, Mod.endTx_resp _ _ _ _ _ 0, Mod.endTx_stored _ _ _ _ _ 0, ?_, rfl⟩
  intro r' k' hr' f hf hacc
  obtain rfl : r = r' := (Prod.mk.inj (Option.some.inj (hr.symm.trans hr'))).1
  have field := ({ s.m.takeInbox chReg (natBytes b) with resp := 0 } : Mod).stored_get a v (rowOf_tidy page ho hr) hf
  rw [fieldAcc_of_page (by omega)] at field
  refine (Mod.endTx_get _ _ _ _ _ 0 (lostFlds_apart (by omega))).trans (field.trans ?_)
  rcases hacc with h | h <;> rw [h] <;> rfl

end

/-- Settles O56: STATUS of a word, a plain register by its fields' access types, and transactions checked as a whole, kept and sent. -/
theorem registerAccess : Obligations.RegisterAccess := by
  refine ⟨fun _ _ v hon ha => Does.unaligned v hon ha,
    fun _ _ v hon ha hoff => Does.wordHeld hon ha (Mod.wrStatus_off hoff v.toNat) (by decide) (by decide),
    fun _ _ _ hon ha hw => Does.wordHeld hon ha hw (by decide) (by decide),
    fun _ _ _ hon ha hw hd => Does.wordUnauthorised hon ha hw hd,
    fun s a v r k hon ha hw hp hne ho hrow => ⟨fun hany hl => ?_, fun hno => ?_⟩,
    fun _ _ _ _ _ hon hnone hbad => Does.readMalformed hon hnone hbad,
    fun _ _ _ _ _ _ hon hnone hbad hn ha hs hp ho => Does.readOne hon hnone hbad hn ha hs hp ho,
    fun _ _ _ _ _ hon hnone hbad => Does.writeMalformed hon hnone hbad,
    fun _ _ _ _ hon hnone hbad hs hd => Does.writeUnauthorised hon hnone hbad hs hd,
    fun _ _ _ _ _ _ hon hnone hbad hn ha hv hw hp ho hne hl hrow => Does.writeOne hon hnone hbad hn ha hv hw hp ho hne hl hrow,
    fun _ _ _ _ _ _ hon hg => Does.responseAgain hon hg⟩
  · exact Does.wordStored hon ha hw hp hne ho hrow (by rw [Mod.rowTakes, hany, hl]; rfl)
  · refine Does.wordRefused hon ha hw hp hne ho hrow ?_
    unfold Mod.rowTakes
    rcases hno with h | h
    · rw [h, Bool.false_and]
    · rw [h, Bool.not_true, Bool.and_false]

end Sys2Proof.Machine
end

section
/-!
PROOFS. Page locks (R281, R375, R453, R454), the statement Locks.
-/
namespace Sys2Proof.Machine

/-! ## The clamps of a page (R453) -/

/-- No part changes, and of the registers only those of a page. -/
def Mod.within (p : Nat) (m x : Mod) : Prop := m.onlyParts [] x ∧ ∀ g : Fld, g.addr / 4096 ≠ p → x.get g = m.get g

theorem Mod.within_refl (p : Nat) (m : Mod) : m.within p m := ⟨Mod.onlyParts_refl m _, fun _ _ => rfl⟩

theorem Mod.within_trans {p : Nat} {a b c : Mod} (h : a.within p b) (k : b.within p c) : a.within p c :=
  ⟨Mod.onlyParts_trans h.1 k.1, fun g hg => (k.2 g hg).trans (h.2 g hg)⟩

theorem Mod.within_of_only {p : Nat} {m x : Mod} {fs : List Fld} (h : m.only [] fs x) (hf : (fs.all fun f => f.addr / 4096 == p) = true) :
    m.within p x := by
  refine ⟨h.1, fun g hg => Mod.only_get h g fun f hm => .inl fun he => hg ?_⟩
  rw [← he]
  exact eq_of_beq (List.all_eq_true.mp hf f hm)

theorem Mod.within_put {p : Nat} (m : Mod) (f : Fld) (v : Nat) (h : f.addr / 4096 = p) : m.within p (m.put f v) :=
  Mod.within_of_only (Mod.only_put m f v [] (List.mem_singleton_self f)) (by simp [h])

theorem Mod.within_holds {p : Nat} (m : Mod) (l : List (Fld × Nat × Nat)) (h : ((l.map Prod.fst).all fun f => f.addr / 4096 == p) = true) :
    m.within p (m.holds l) := Mod.within_of_only (m.holds_only l) h

/-- A field of each of a row's registers is held to its range. -/
theorem Mod.within_holdRow {p : Nat} (n : Nat) (F : Nat → Fld) (lo hi : Nat) (h : ∀ i < n, (F i).addr / 4096 = p) (m : Mod) :
    m.within p ((List.range n).foldl (fun m i => m.hold (F i) lo hi) m) :=
  List.foldlRecOn (motive := m.within p) _ _ (m.within_refl p)
    fun q hq i hi => Mod.within_trans hq (q.within_put (F i) _ (h i (List.mem_range.mp hi)))

/-- The limits of PHS that follow other fields. -/
theorem Mod.within_phsLimits (m : Mod) (x y z : Nat) :
    m.within 9 (m.holds [(R.PHS_SHED_ADD_PCT, x, 100), (R.PHS_PROT_OC_PCT, y, 200), (R.PHS_PROT_OT_TRIP, z, 255)]) :=
  m.within_holds _ (by simp)

theorem Mod.get_holdRow (n : Nat) (F : Nat → Fld) (lo hi : Nat) {g : Fld} (h : ∀ i < n, (F i).apart g) (m : Mod) :
    ((List.range n).foldl (fun m i => m.hold (F i) lo hi) m).get g = m.get g :=
  List.foldlRecOn (motive := fun x : Mod => x.get g = m.get g) _ _ rfl
    fun q hq i hi => (Mod.get_put_ne q (F i) g _ (h i (List.mem_range.mp hi))).trans hq

/-- The clamps of a page stay on the page. -/
theorem Mod.clampPage_within (m : Mod) (p : Nat) : m.within p (m.clampPage p) := by
  unfold Mod.clampPage
  split
  · exact m.within_put R.PWR_CFG_CHG_W _ rfl
  · exact m.within_holds _ rfl
  · exact m.within_holds _ rfl
  · exact m.within_holds _ rfl
  · exact m.within_holds _ rfl
  · exact Mod.within_trans (m.within_holds _ rfl) (Mod.within_phsLimits _ _ _ _)
  · exact Mod.within_trans (m.within_put R.AFE_CFG_OPEN_N _ rfl)
      (Mod.within_holdRow 160 R.AFE_CAL_GAIN 0x4000 0xFFFF (fun i hi => by simp only; omega) _)
  · exact Mod.within_trans (m.within_holds _ rfl) (Mod.within_put _ R.WCH_BAL_CFG_BAL_T_OFF _ rfl)
  · exact Mod.within_trans (m.within_holds _ rfl)
      (Mod.within_holdRow 256 R.LNK_CHCFG_CH_MAX 2 255 (fun i hi => by simp only; omega) _)
  · exact m.within_holds _ rfl
  · exact m.within_holds _ rfl
  · exact Mod.within_trans (m.within_holds _ rfl) (Mod.within_trans (Mod.within_put _ R.MGT_TLIM_HIGH _ rfl)
      (Mod.within_put _ R.MGT_TLIM_CRIT _ rfl))
  · exact m.within_holds _ rfl
  · exact m.within_refl _

theorem clampN_le {lo hi v : Nat} (h : lo ≤ hi) : clampN lo hi v ≤ hi := by
  unfold clampN
  split
  · exact h
  · split <;> omega

/-- A field held to a range that it can show. -/
theorem Mod.get_hold (m : Mod) {f : Fld} {lo hi : Nat} (hw : f.lo + f.w ≤ 32) (hlo : lo ≤ hi) (hhi : hi < 2 ^ f.w) :
    (m.hold f lo hi).get f = clampN lo hi (m.get f) :=
  (Mod.get_put_same m f _ hw).trans (Nat.mod_eq_of_lt (Nat.lt_of_le_of_lt (clampN_le hlo) hhi))

/-- A field held to a range is left by the clamps that follow, when none touches it. -/
theorem Mod.get_holds_first (m : Mod) {f : Fld} {lo hi : Nat} (l : List (Fld × Nat × Nat)) (hw : f.lo + f.w ≤ 32) (hlo : lo ≤ hi)
    (hhi : hi < 2 ^ f.w) (h : ∀ g ∈ l.map Prod.fst, g.apart f) : (m.holds ((f, lo, hi) :: l)).get f = clampN lo hi (m.get f) :=
  (m.get_holds_head lo hi l hw h).trans (Nat.mod_eq_of_lt (Nat.lt_of_le_of_lt (clampN_le hlo) hhi))

theorem Mod.clampPage_chg (m : Mod) : (m.clampPage 2).get R.PWR_CFG_CHG_W = clampN 2 12 (m.get R.PWR_CFG_CHG_W) :=
  m.get_hold (by decide) (by decide) (by decide)

theorem Mod.clampPage_warn (m : Mod) : (m.clampPage 16).get R.LOG_CFG_WARN_PCT = clampN 50 99 (m.get R.LOG_CFG_WARN_PCT) := by
  have before := m.holds_only [(R.LOG_CFG_BURST, 1, 255), (R.LOG_CFG_RATE_MS, 10, 65535)]
  exact (Mod.get_hold _ (by decide) (by decide) (by decide)).trans
    (congrArg (clampN 50 99) (Mod.only_get before _ (Fld.apart_of_all (by decide))))

theorem Mod.clampPage_high (m : Mod) : (m.clampPage 17).get R.MGT_TLIM_HIGH =
    clampN (clampN 60 120 (m.get R.MGT_TLIM_WARN) + 5) 125 (m.get R.MGT_TLIM_HIGH) := by
  have before := m.holds_only [(R.MGT_FW_CFG_CONFIRM_S, 10, 65535), (R.MGT_WDOG_PERIOD_MS, 10, 10000)]
  have all := m.holds_only [(R.MGT_FW_CFG_CONFIRM_S, 10, 65535), (R.MGT_WDOG_PERIOD_MS, 10, 10000), (R.MGT_TLIM_WARN, 60, 120)]
  have warn : (m.holds [(R.MGT_FW_CFG_CONFIRM_S, 10, 65535), (R.MGT_WDOG_PERIOD_MS, 10, 10000), (R.MGT_TLIM_WARN, 60, 120)]).get
      R.MGT_TLIM_WARN = clampN 60 120 (m.get R.MGT_TLIM_WARN) :=
    (Mod.get_hold _ (by decide) (by decide) (by decide)).trans
      (congrArg (clampN 60 120) (Mod.only_get before _ (Fld.apart_of_all (by decide))))
  have high := Mod.only_get all R.MGT_TLIM_HIGH (Fld.apart_of_all (by decide))
  have low : clampN 60 120 (m.get R.MGT_TLIM_WARN) + 5 ≤ 125 := Nat.add_le_add_right (clampN_le (by decide)) 5
  unfold Mod.clampPage
  simp only
  generalize m.holds [(R.MGT_FW_CFG_CONFIRM_S, 10, 65535), (R.MGT_WDOG_PERIOD_MS, 10, 10000), (R.MGT_TLIM_WARN, 60, 120)] = x at *
  refine (Mod.get_put_ne _ _ _ _ (by decide)).trans ?_
  rw [Mod.get_hold x (by decide) (warn ▸ low) (by decide), warn, high]

/-! ## The bytes that a lock measures (R375) -/

/-- The bytes of a page follow from its RL fields. -/
theorem Mod.rlBytes_congr {a b : Mod} {p : Nat} (h : ∀ x r k, x / 4096 = p → 0x40 ≤ x % 4096 → rowOf x = some (r, k) → ∀ f ∈ r.fields,
    fieldAcc x f = .rl → b.get ⟨x, f.lo, f.w⟩ = a.get ⟨x, f.lo, f.w⟩) : b.rlBytes p = a.rlBytes p := by
  unfold Mod.rlBytes
  refine List.flatMap_congr fun i hi => congrArg (leBytes 4) ?_
  have hi := List.mem_range.mp hi
  have same := h (p * 4096 + 0x40 + 4 * i)
  simp only [Mod.get] at same
  cases hrow : rowOf (p * 4096 + 0x40 + 4 * i) with
  | none => rfl
  | some rk =>
    simp only
    refine List.foldl_ext _ _ 0 fun v f hf => ?_
    by_cases hacc : fieldAcc (p * 4096 + 0x40 + 4 * i) f = .rl
    · rw [if_pos hacc, if_pos hacc, same rk.1 rk.2 (by omega) (by omega) hrow f hf hacc]
    · rw [if_neg hacc, if_neg hacc]

theorem Mod.rlBytes_of_regs {a b : Mod} (h : b.regs = a.regs) (p : Nat) : b.rlBytes p = a.rlBytes p :=
  Mod.rlBytes_congr fun _ _ _ _ _ _ _ _ _ => Mod.get_of_regs _ h

/-! ## A write of BLK_LOCK (R453, R454) -/

/-- REFUSED cleared by its 1, before LOCK acts. -/
def Mod.refusalCleared (m : Mod) (p v : Nat) : Mod := if bit v 1 then m.put (R.BLK_LOCK_REFUSED p) 0 else m

theorem Mod.refusalCleared_only (m : Mod) (p v : Nat) : m.only [] [R.BLK_LOCK_REFUSED p] (m.refusalCleared p v) := by
  unfold Mod.refusalCleared
  split
  · exact Mod.only_put m _ 0 _ List.mem_cons_self
  · exact Mod.only_refl m _ _

theorem Mod.refusalCleared_locked (m : Mod) (p v : Nat) : (m.refusalCleared p v).locked p = m.locked p :=
  Mod.locked_congr (Mod.only_get (m.refusalCleared_only p v) _ (List.forall_mem_singleton.mpr (.inr (.inl (by simp)))))

/-- The module that answers a write of BLK_LOCK, before LOCK acts. -/
def Mod.lockAsked (m : Mod) (p v : Nat) : Mod := ({ m with resp := 0 } : Mod).refusalCleared p v

theorem Mod.lockAsked_only (m : Mod) (p v : Nat) : m.only [.resp] [R.BLK_LOCK_REFUSED p] (m.lockAsked p v) :=
  Mod.only_trans (Mod.only_resp m 0 _ (by simp)) (Mod.only_mono (Mod.refusalCleared_only _ p v) (by simp) fun _ h => h)

theorem Mod.lockAsked_resp (m : Mod) (p v : Nat) : (m.lockAsked p v).resp = 0 :=
  (Mod.refusalCleared_only ({ m with resp := 0 } : Mod) p v).1 .resp (by simp)

theorem Mod.lockAsked_locked (m : Mod) (p v : Nat) : (m.lockAsked p v).locked p = m.locked p := Mod.refusalCleared_locked _ p v

theorem exec_blkLockWrite {s : State} {p : Fin 21} {v : Word} (hw : s.m.wrStatus (p.val * 4096 + 0x1C) v.toNat = 0) (hon : s.on) :
    exec (.blkLockWrite p v) s = .next { s with
      m := if bit v.toNat 0 then (s.m.lockAsked p v.toNat).lockPage p else s.m.lockAsked p v.toNat } := by
  rw [show exec (.blkLockWrite p v) s = execBlkLockWrite p v s from rfl, execBlkLockWrite, onMod, if_neg hon, Mod.guardedR_ok _ hw]
  rfl

theorem exec_blkLockAsked {s : State} {p : Fin 21} {v : Word} (hw : s.m.wrStatus (p.val * 4096 + 0x1C) v.toNat = 0) (hon : s.on)
    (hbit : bit v.toNat 0 = true) : exec (.blkLockWrite p v) s = .next { s with m := (s.m.lockAsked p v.toNat).lockPage p } := by
  rw [exec_blkLockWrite hw hon, if_pos hbit]

/-- A locked page takes the word without effect. -/
theorem Does.lockStands {s : State} {p : Fin 21} {v : Word} (hw : s.m.wrStatus (p.val * 4096 + 0x1C) v.toNat = 0) (hon : s.on)
    (hbit : bit v.toNat 0 = true) (hkeep : bit v.toNat 1 = false) (hl : s.m.locked p = true) :
    Does (.blkLockWrite p v) s fun t => t.m.resp = 0 ∧ s.frame [.resp] [] t := by
  have asked : s.m.lockAsked p v.toNat = { s.m with resp := 0 } := if_neg (by simp [hkeep])
  have stands : (s.m.lockAsked p v.toNat).lockPage p = s.m.lockAsked p v.toNat := if_pos ((s.m.lockAsked_locked p _).trans hl)
  refine ⟨_, exec_blkLockAsked hw hon hbit, ?_⟩
  rw [stands, asked]
  exact ⟨rfl, State.frame_of_only (Mod.only_resp s.m 0 _ List.mem_cons_self)⟩

theorem Does.refusalCleared {s : State} {p : Fin 21} {v : Word} (hw : s.m.wrStatus (p.val * 4096 + 0x1C) v.toNat = 0) (hon : s.on)
    (hbit : bit v.toNat 0 = false) (hclear : bit v.toNat 1 = true) :
    Does (.blkLockWrite p v) s fun t =>
      t.m.get (R.BLK_LOCK_REFUSED p) = 0 ∧ t.m.resp = 0 ∧ s.frame [.resp] [R.BLK_LOCK_REFUSED p] t := by
  have cleared : (s.m.lockAsked p v.toNat).get (R.BLK_LOCK_REFUSED p) = 0 := by
    rw [Mod.lockAsked, Mod.refusalCleared, if_pos hclear]
    exact Mod.get_put_same _ _ 0 (by simp)
  refine ⟨_, exec_blkLockWrite hw hon, ?_⟩
  rw [hbit, if_neg (by simp)]
  exact ⟨cleared, s.m.lockAsked_resp p _, State.frame_of_only (s.m.lockAsked_only p _)⟩

/-! ## A lock that takes place (R375, R454) -/

/-- LOCK and LOCKED of a page. -/
def Mod.pageShown (c : Mod) (p : Nat) : Mod := c.puts [(R.BLK_LOCK_LOCK p, 1), (R.BLK_STAT_LOCKED p, 1)]

theorem Mod.extendM_regs (m : Mod) (i : Nat) (x : List Nat) : (m.extendM i x).regs = m.regs := rfl

theorem Mod.extendM_meas (m : Mod) (i : Nat) (x : List Nat) {j : Nat} (hj : j < 8) : (m.extendM i x).sec.meas.getD j [] =
    if i = j then Config.sha384 (m.sec.meas.getD j [] ++ x) else m.sec.meas.getD j [] := getD_modify_bank 8 _ _ _ _ _ hj

/-- The page as locked, measured in M3. -/
def Mod.pageMeasured (c : Mod) (p : Nat) : Mod :=
  (c.pageShown p).extendM 3 (Config.sha384 (leBytes 2 p ++ (c.pageShown p).rlBytes p))

/-- What follows a lock of MOD: SP_MODE and the roles. -/
def Mod.rackShown (m : Mod) : Mod :=
  (if m.inRun then m else m.put R.CEN_PRG_STAT_SP_MODE (b2n (m.get R.MOD_ROLE_CFG_RACK_SIZE != 1))).syncRoles

section
variable {m : Mod} {p : Nat}

theorem Mod.lockPage_taken (h : m.locked p = false) (hok : (m.clampPage p).lockOk p = true) : m.lockPage p =
    if p = 1 then (((m.clampPage p).pageMeasured p).judgeSrc p).rackShown
    else if p = 13 then (((m.clampPage p).pageMeasured p).judgeSrc p).syncPool else ((m.clampPage p).pageMeasured p).judgeSrc p := by
  unfold Mod.lockPage
  rw [if_neg (by simp [h])]
  exact if_pos hok

theorem Mod.lockPage_refused (h : m.locked p = false) (hok : (m.clampPage p).lockOk p = false) :
    m.lockPage p = ((m.put (R.BLK_LOCK_REFUSED p) 1).lockReport p).refuse := by
  unfold Mod.lockPage
  rw [if_neg (by simp [h])]
  exact if_neg (by simp [hok])

/-- Only BWK and LNK check their fields at a lock. -/
theorem Mod.lockOk_plain (c : Mod) (h6 : p ≠ 6) (h13 : p ≠ 13) : c.lockOk p = true := by rw [Mod.lockOk, if_neg h6, if_neg h13]

theorem Mod.lockPage_plain (h : m.locked p = false) (hp : p ∉ [1, 6, 13]) : m.lockPage p = (m.clampPage p).pageMeasured p := by
  simp only [List.mem_cons, List.not_mem_nil, or_false, not_or] at hp
  obtain ⟨h1, h6, h13⟩ := hp
  rw [Mod.lockPage_taken h (Mod.lockOk_plain _ h6 h13), if_neg h1, if_neg h13, Mod.judgeSrc, if_neg (by simp [h1, h6])]

theorem Mod.pageShown_only (c : Mod) (p : Nat) : c.only [] [R.BLK_LOCK_LOCK p, R.BLK_STAT_LOCKED p] (c.pageShown p) :=
  Mod.only_puts c _ _ (by simp)

theorem Mod.pageMeasured_only (c : Mod) (p : Nat) : c.only [.sec] [R.BLK_LOCK_LOCK p, R.BLK_STAT_LOCKED p] (c.pageMeasured p) :=
  Mod.only_trans (Mod.only_mono (c.pageShown_only p) (by simp) fun _ h => h) (Mod.only_sec _ _ _ (by simp))

theorem Mod.pageMeasured_get (c : Mod) (p : Nat) (g : Fld) : (c.pageMeasured p).get g = (c.pageShown p).get g :=
  Mod.get_of_regs g (Mod.extendM_regs _ _ _)

theorem Mod.pageMeasured_lock (c : Mod) (p : Nat) : (c.pageMeasured p).get (R.BLK_LOCK_LOCK p) = 1 := by
  rw [Mod.pageMeasured_get]
  exact c.get_puts_head 1 [(R.BLK_STAT_LOCKED p, 1)] (by simp) (List.forall_mem_singleton.mpr (.inl (by simp)))

theorem Mod.pageMeasured_shown (c : Mod) (p : Nat) : (c.pageMeasured p).get (R.BLK_STAT_LOCKED p) = 1 := by
  rw [Mod.pageMeasured_get]
  exact Mod.get_put_same (c.put (R.BLK_LOCK_LOCK p) 1) (R.BLK_STAT_LOCKED p) 1 (by simp)

theorem Mod.pageShown_sec (c : Mod) (p : Nat) : (c.pageShown p).sec = c.sec := (c.pageShown_only p).1 .sec (by simp)

/-- M3 takes the page; the other measurements stay. -/
theorem Mod.pageMeasured_meas (c : Mod) (p : Nat) {i : Nat} (hi : i < 8) : (c.pageMeasured p).sec.meas.getD i [] =
    if 3 = i then Config.sha384 (c.sec.meas.getD i [] ++ Config.sha384 (leBytes 2 p ++ (c.pageMeasured p).rlBytes p))
    else c.sec.meas.getD i [] := by
  have bytes : (c.pageShown p).rlBytes p = (c.pageMeasured p).rlBytes p := Mod.rlBytes_of_regs (Mod.extendM_regs _ _ _).symm p
  rw [← bytes, ← c.pageShown_sec p]
  exact Mod.extendM_meas _ 3 _ hi

end

/-- A lock without checks. -/
def Mod.lockedFor (m : Mod) (p v : Nat) : Mod := ((m.lockAsked p v).clampPage p).pageMeasured p

section
variable (m : Mod) (p v : Nat)

theorem Mod.lockedFor_parts : m.onlyParts [.sec, .resp] (m.lockedFor p v) :=
  Mod.onlyParts_trans (Mod.onlyParts_mono (m.lockAsked_only p v).1 (by simp)) (Mod.onlyParts_trans
    (Mod.onlyParts_mono ((m.lockAsked p v).clampPage_within p).1 (by simp)) (Mod.onlyParts_mono (Mod.pageMeasured_only _ p).1 (by simp)))

theorem Mod.lockedFor_get {g : Fld} (hg : g.addr / 4096 ≠ p) : (m.lockedFor p v).get g = m.get g := by
  have apart (o lo w : Nat) (ho : o < 4096) : Fld.apart ⟨p * 4096 + o, lo, w⟩ g := .inl (by simp only; omega)
  refine (Mod.only_get (Mod.pageMeasured_only _ p) g (by simp [apart])).trans ((((m.lockAsked p v).clampPage_within p).2 g hg).trans ?_)
  exact Mod.only_get (m.lockAsked_only p v) g (by simp [apart])

theorem Mod.lockedFor_sec : ((m.lockAsked p v).clampPage p).sec = m.sec :=
  (((m.lockAsked p v).clampPage_within p).1 .sec (by simp)).trans ((m.lockAsked_only p v).1 .sec (by simp))

theorem Mod.lockedFor_resp : (m.lockedFor p v).resp = 0 :=
  ((Mod.pageMeasured_only _ p).1 .resp (by simp)).trans
    ((((m.lockAsked p v).clampPage_within p).1 .resp (by simp)).trans (m.lockAsked_resp p v))

end

theorem Mod.lockedFor_meas {m : Mod} {p v i : Nat} (hi : i < 8) : (m.lockedFor p v).sec.meas.getD i [] =
    if 3 = i then Config.sha384 (m.sec.meas.getD i [] ++ Config.sha384 (leBytes 2 p ++ (m.lockedFor p v).rlBytes p))
    else m.sec.meas.getD i [] := by
  rw [← m.lockedFor_sec p v]
  exact Mod.pageMeasured_meas _ p hi

/-- A field of the page that the lock's own bits leave shows its clamp. -/
theorem Mod.lockedFor_field (m : Mod) (p v : Nat) {g : Fld} (hg : p * 4096 + 0x40 ≤ g.addr) :
    (m.lockedFor p v).get g = ((m.lockAsked p v).clampPage p).get g ∧ (m.lockAsked p v).get g = m.get g := by
  have apart (o lo w : Nat) (ho : o < 0x40) : Fld.apart ⟨p * 4096 + o, lo, w⟩ g := .inl (by simp only; omega)
  exact ⟨Mod.only_get (Mod.pageMeasured_only _ p) g (by simp [apart]), Mod.only_get (m.lockAsked_only p v) g (by simp [apart])⟩

theorem Mod.lockedFor_chg (m : Mod) (v : Nat) : (m.lockedFor 2 v).get R.PWR_CFG_CHG_W = clampN 2 12 (m.get R.PWR_CFG_CHG_W) := by
  obtain ⟨shown, asked⟩ := m.lockedFor_field 2 v (g := R.PWR_CFG_CHG_W) (by decide)
  rw [shown, Mod.clampPage_chg, asked]

theorem Mod.lockedFor_warn (m : Mod) (v : Nat) : (m.lockedFor 16 v).get R.LOG_CFG_WARN_PCT = clampN 50 99 (m.get R.LOG_CFG_WARN_PCT) := by
  obtain ⟨shown, asked⟩ := m.lockedFor_field 16 v (g := R.LOG_CFG_WARN_PCT) (by decide)
  rw [shown, Mod.clampPage_warn, asked]

theorem Mod.lockedFor_high (m : Mod) (v : Nat) : (m.lockedFor 17 v).get R.MGT_TLIM_HIGH =
    clampN (clampN 60 120 (m.get R.MGT_TLIM_WARN) + 5) 125 (m.get R.MGT_TLIM_HIGH) := by
  obtain ⟨shown, high⟩ := m.lockedFor_field 17 v (g := R.MGT_TLIM_HIGH) (by decide)
  obtain ⟨-, warn⟩ := m.lockedFor_field 17 v (g := R.MGT_TLIM_WARN) (by decide)
  rw [shown, Mod.clampPage_high, warn, high]

theorem Does.pageLocked {s : State} {p : Fin 21} {v : Word} (hw : s.m.wrStatus (p.val * 4096 + 0x1C) v.toNat = 0) (hon : s.on)
    (hbit : bit v.toNat 0 = true) (hl : s.m.locked p = false) (hp : p.val ∉ [1, 6, 13]) :
    Does (.blkLockWrite p v) s fun t => t.m.get (R.BLK_LOCK_LOCK p) = 1 ∧ t.m.get (R.BLK_STAT_LOCKED p) = 1 ∧
      t.m.sec.meas.getD 3 [] = Config.sha384 (s.m.sec.meas.getD 3 [] ++ Config.sha384 (leBytes 2 p ++ t.m.rlBytes p)) ∧
      (∀ i < 8, i ≠ 3 → t.m.sec.meas.getD i [] = s.m.sec.meas.getD i []) ∧ t.m.resp = 0 ∧ s.m.onlyParts [.sec, .resp] t.m ∧
      (p.val = 2 → t.m.get R.PWR_CFG_CHG_W = clampN 2 12 (s.m.get R.PWR_CFG_CHG_W)) ∧
      (p.val = 16 → t.m.get R.LOG_CFG_WARN_PCT = clampN 50 99 (s.m.get R.LOG_CFG_WARN_PCT)) ∧
      (p.val = 17 → t.m.get R.MGT_TLIM_HIGH = clampN (clampN 60 120 (s.m.get R.MGT_TLIM_WARN) + 5) 125 (s.m.get R.MGT_TLIM_HIGH)) ∧
      (∀ g : Fld, g.addr / 4096 ≠ p.val → t.m.get g = s.m.get g) := by
  have acts : exec (.blkLockWrite p v) s = .next { s with m := s.m.lockedFor p v.toNat } := by
    rw [exec_blkLockAsked hw hon hbit, Mod.lockPage_plain ((s.m.lockAsked_locked p _).trans hl) hp, Mod.lockedFor]
  refine ⟨_, acts, Mod.pageMeasured_lock _ p, Mod.pageMeasured_shown _ p, (Mod.lockedFor_meas (by decide)).trans (if_pos rfl),
    fun i hi hne => (Mod.lockedFor_meas hi).trans (if_neg (Ne.symm hne)), s.m.lockedFor_resp p _, s.m.lockedFor_parts p _,
    fun h => ?_, fun h => ?_, fun h => ?_, fun g hg => s.m.lockedFor_get p _ hg⟩
  · rw [h]; exact s.m.lockedFor_chg _
  · rw [h]; exact s.m.lockedFor_warn _
  · rw [h]; exact s.m.lockedFor_high _

/-! ## The lock of MOD (R54, R454) -/

/-- The fields that follow a lock of MOD. -/
def rackFlds : List Fld :=
  R.CEN_PRG_STAT_SP_MODE :: R.MOD_ROLE_STAT_PEERS :: R.MOD_ROLE_STAT_RING_STATE :: (roleFlds ++ cfgErrFlds)

theorem Mod.judgeSrc_mod (m : Mod) : m.only [.flt] cfgErrFlds (m.judgeSrc 1) := by
  unfold Mod.judgeSrc
  rw [if_pos (by decide)]
  split
  · exact m.cfgErr_only
  · exact Mod.only_refl m _ _

theorem Mod.rolesShown_only (m : Mod) :
    m.only [.lnk, .flt] (R.MOD_ROLE_STAT_PEERS :: R.MOD_ROLE_STAT_RING_STATE :: roleFlds) m.syncRoles :=
  Mod.only_trans (Mod.only_puts m _ _ (by simp))
    (Mod.only_mono m.syncRoles_only (fun _ h => h) fun _ h => List.mem_cons_of_mem _ (List.mem_cons_of_mem _ h))

theorem Mod.rackShown_only (m : Mod) : m.only [.lnk, .flt] rackFlds m.rackShown := by
  have roles (x : Mod) : x.only [.lnk, .flt] rackFlds x.syncRoles :=
    Mod.only_mono x.rolesShown_only (fun _ h => h) (by simp +contextual [rackFlds])
  unfold Mod.rackShown
  split
  · exact roles m
  · exact Mod.only_trans (Mod.only_put m _ _ _ (by simp [rackFlds])) (roles _)

theorem Mod.rackLocked_only (m : Mod) : m.only [.lnk, .flt] rackFlds (m.judgeSrc 1).rackShown :=
  Mod.only_trans (Mod.only_mono m.judgeSrc_mod (by simp) (by simp +contextual [rackFlds])) (Mod.rackShown_only _)

/-- Outside RUN SP_MODE is 0 for a rack of one module (R54). -/
theorem Mod.rackShown_mode {m : Mod} (h : m.inRun = false) :
    m.rackShown.get R.CEN_PRG_STAT_SP_MODE = 0 ↔ m.rackShown.get R.MOD_ROLE_CFG_RACK_SIZE = 1 := by
  have shown : m.rackShown.get R.CEN_PRG_STAT_SP_MODE = b2n (m.get R.MOD_ROLE_CFG_RACK_SIZE != 1) % 2 := by
    rw [Mod.rackShown, h, if_neg (by simp)]
    exact (Mod.only_get (Mod.rolesShown_only _) _ (Fld.apart_of_all (by decide))).trans (Mod.get_put_same m _ _ (by decide))
  rw [shown, Mod.only_get m.rackShown_only R.MOD_ROLE_CFG_RACK_SIZE (Fld.apart_of_all (by decide))]
  by_cases one : m.get R.MOD_ROLE_CFG_RACK_SIZE = 1
  · simp [one, b2n]
  · simp [one, b2n]

/-- MOD's RL fields stand apart from what follows its lock. -/
theorem rackFlds_rl {x k : Nat} {r : RegRow} (hx : x / 4096 = 1) (ho : 0x40 ≤ x % 4096) (hr : rowOf x = some (r, k)) {f : FieldRow}
    (hf : f ∈ r.fields) (hacc : fieldAcc x f = .rl) : ∀ g ∈ rackFlds, g.apart ⟨x, f.lo, f.w⟩ := by
  have places : ∀ g ∈ rackFlds, g.addr = 0x1108 ∨ g.addr / 4096 ≠ 1 ∨ g.addr % 4096 < 0x40 := by decide
  have noRl : ∀ q ∈ rowOf 0x1108, ∀ f ∈ q.1.fields, f.acc ≠ .rl := by decide
  intro g hg
  refine .inl fun he => ?_
  simp only at he
  rcases places g hg with h | h | h
  · rw [← he, h] at hr
    rw [fieldAcc_of_page (by omega)] at hacc
    exact noRl _ hr f hf hacc
  · omega
  · omega

theorem Mod.rackLocked_rlBytes (m : Mod) : (m.judgeSrc 1).rackShown.rlBytes 1 = m.rlBytes 1 :=
  Mod.rlBytes_congr fun _ _ _ hx ho hr _ hf hacc => Mod.only_get m.rackLocked_only _ (rackFlds_rl hx ho hr hf hacc)

theorem Does.modLocked {s : State} {v : Word} (hw : s.m.wrStatus 0x101C v.toNat = 0) (hon : s.on) (hbit : bit v.toNat 0 = true)
    (hl : s.m.locked 1 = false) :
    Does (.blkLockWrite 1 v) s fun t => t.m.get (R.BLK_LOCK_LOCK 1) = 1 ∧ t.m.get (R.BLK_STAT_LOCKED 1) = 1 ∧
      t.m.sec.meas.getD 3 [] = Config.sha384 (s.m.sec.meas.getD 3 [] ++ Config.sha384 (leBytes 2 1 ++ t.m.rlBytes 1)) ∧ t.m.resp = 0 ∧
      (s.m.inRun = false → (t.m.get R.CEN_PRG_STAT_SP_MODE = 0 ↔ t.m.get R.MOD_ROLE_CFG_RACK_SIZE = 1)) := by
  have acts : exec (.blkLockWrite 1 v) s = .next { s with m := ((s.m.lockedFor 1 v.toNat).judgeSrc 1).rackShown } := by
    rw [exec_blkLockAsked (p := 1) hw hon hbit]
    refine congrArg (fun m => Host.Outcome.next { s with m := m }) ?_
    rw [show ((1 : Fin 21).val) = 1 from rfl, Mod.lockPage_taken ((s.m.lockAsked_locked 1 _).trans hl)
      (Mod.lockOk_plain _ (by decide) (by decide)), if_pos rfl, Mod.lockedFor]
  have meas := Mod.lockedFor_meas (m := s.m) (p := 1) (v := v.toNat) (i := 3) (by decide)
  have resp := s.m.lockedFor_resp 1 v.toNat
  have state := s.m.lockedFor_get 1 v.toNat (g := R.MGT_PSTATE_STATE) (by decide)
  have lock := Mod.pageMeasured_lock ((s.m.lockAsked 1 v.toNat).clampPage 1) 1
  have shown := Mod.pageMeasured_shown ((s.m.lockAsked 1 v.toNat).clampPage 1) 1
  refine ⟨_, acts, ?_⟩
  rw [← Mod.lockedFor] at lock shown
  generalize s.m.lockedFor 1 v.toNat = x at *
  have only := x.rackLocked_only
  refine ⟨(Mod.only_get only _ (Fld.apart_of_all (by decide))).trans lock, (Mod.only_get only _ (Fld.apart_of_all (by decide))).trans shown,
    ?_, (only.1 .resp (by simp)).trans resp, fun hrun => Mod.rackShown_mode ?_⟩
  · rw [x.rackLocked_rlBytes, congrArg SecS.meas (only.1 .sec (by simp)), meas, if_pos rfl]
  · rw [Mod.inRun, Mod.pstate, Mod.only_get x.judgeSrc_mod _ (Fld.apart_of_all (by decide)), state]
    exact hrun

/-! ## Locks that are refused (R281, R454) -/

theorem Mod.clampPage_soc (m : Mod) : (m.clampPage 6).get R.BWK_SOC_CFG_SOC_MIN = m.get R.BWK_SOC_CFG_SOC_MIN ∧
    (m.clampPage 6).get R.BWK_SOC_CFG_SOC_SET = m.get R.BWK_SOC_CFG_SOC_SET ∧
    (m.clampPage 6).get R.BWK_SOC_CFG_SOC_MAX = m.get R.BWK_SOC_CFG_SOC_MAX :=
  ⟨Mod.only_get (m.holds_only _) _ (Fld.apart_of_all (by decide)), Mod.only_get (m.holds_only _) _ (Fld.apart_of_all (by decide)),
    Mod.only_get (m.holds_only _) _ (Fld.apart_of_all (by decide))⟩

/-- SOC limits out of order fail BWK's checks. -/
theorem Mod.lockOk_soc {c : Mod} (h : ¬ (c.get R.BWK_SOC_CFG_SOC_MIN < c.get R.BWK_SOC_CFG_SOC_SET ∧
    c.get R.BWK_SOC_CFG_SOC_SET < c.get R.BWK_SOC_CFG_SOC_MAX)) : c.lockOk 6 = false := by
  rw [Mod.lockOk, if_pos rfl, decide_eq_false h, Bool.and_false]

/-- LOCK's refusal with its report: REFUSED, the page's bit, the report, STATUS 1. -/
def Mod.refusedBy (m : Mod) (p : Nat) (f : Fld) (inst kind : Nat) : Mod :=
  ((m.puts [(R.BLK_LOCK_REFUSED p, 1), (f, 1)]).raise p inst kind 0 0).refuse

/-- What a refused lock leaves, when the page's bit and its report stand apart from LOCK, REFUSED and power-good. -/
theorem Mod.refusedBy_does {m : Mod} {p inst kind v : Nat} {f : Fld} (hw : f.lo + f.w ≤ 32 ∧ f.w = 1)
    (hf : Fld.clear (repFlds p) f = true) (hl : Fld.clear (f :: repFlds p) (R.BLK_LOCK_LOCK p) = true)
    (hr : Fld.clear (f :: repFlds p) (R.BLK_LOCK_REFUSED p) = true) (hpg : Fld.clear [R.BLK_LOCK_REFUSED p, f] R.PWR_STAT_PG = true)
    (ht : m.takes p inst) (h : m.locked p = false) :
    ((m.lockAsked p v).refusedBy p f inst kind).resp = 1 ∧ ((m.lockAsked p v).refusedBy p f inst kind).get (R.BLK_LOCK_REFUSED p) = 1 ∧
      ((m.lockAsked p v).refusedBy p f inst kind).locked p = false ∧ ((m.lockAsked p v).refusedBy p f inst kind).get f = 1 ∧
      ((m.lockAsked p v).refusedBy p f inst kind).tells { blk := p, inst := inst, kind := kind, addr := 0, cls := 0 } ∧
      m.only [.flt, .resp] ([R.BLK_LOCK_REFUSED p, f] ++ repFlds p) ((m.lockAsked p v).refusedBy p f inst kind) := by
  have asked := m.lockAsked_only p v
  have unlocked := (m.lockAsked_locked p v).trans h
  have power : (m.lockAsked p v).get R.PWR_STAT_PG = m.get R.PWR_STAT_PG :=
    Mod.only_get asked _ fun g hg => Fld.apart_of_clear hpg g (List.mem_cons.mpr (.inl (List.mem_singleton.mp hg)))
  have takes := Mod.takes_puts [(R.BLK_LOCK_REFUSED p, 1), (f, 1)] (Fld.apart_of_clear hpg)
    (Mod.takes_of_flt (asked.1 .flt (by simp)) power ht)
  generalize m.lockAsked p v = a at *
  have shown : a.only [] [R.BLK_LOCK_REFUSED p, f] (a.puts [(R.BLK_LOCK_REFUSED p, 1), (f, 1)]) := Mod.only_puts a _ _ (by simp)
  have refused : (a.puts [(R.BLK_LOCK_REFUSED p, 1), (f, 1)]).get (R.BLK_LOCK_REFUSED p) = 1 :=
    a.get_puts_head 1 [(f, 1)] (by simp) fun g hg => Fld.apart_of_clear hr g (List.mem_cons.mpr (.inl (List.mem_singleton.mp hg)))
  have event : (a.puts [(R.BLK_LOCK_REFUSED p, 1), (f, 1)]).get f = 1 := by
    refine (Mod.get_put_same (a.put (R.BLK_LOCK_REFUSED p) 1) f 1 hw.1).trans ?_
    rw [hw.2]
    rfl
  have lock : (a.puts [(R.BLK_LOCK_REFUSED p, 1), (f, 1)]).locked p = false := by
    refine (Mod.locked_congr (Mod.only_get shown _ fun g hg => ?_)).trans unlocked
    rcases List.mem_cons.mp hg with rfl | hg
    · exact .inr (.inl (by simp))
    · exact Fld.apart_of_clear hl g (List.mem_cons.mpr (.inl (List.mem_singleton.mp hg)))
  unfold Mod.refusedBy
  generalize a.puts [(R.BLK_LOCK_REFUSED p, 1), (f, 1)] = b at *
  have raised : b.only [.flt] (repFlds p) (b.raise p inst kind 0 0) := Mod.only_raise b p inst kind 0 0 (by simp) fun _ h => h
  have told := Mod.raise_tells p inst kind 0 0 takes
  generalize b.raise p inst kind 0 0 = c at *
  refine ⟨rfl, (Mod.only_get raised _ fun g hg => Fld.apart_of_clear hr g (List.mem_cons_of_mem _ hg)).trans refused, ?_,
    (Mod.only_get raised _ (Fld.apart_of_clear hf)).trans event, told, ?_⟩
  · exact (Mod.locked_congr (Mod.only_get raised _ fun g hg => Fld.apart_of_clear hl g (List.mem_cons_of_mem _ hg))).trans lock
  · refine Mod.only_trans (Mod.only_mono asked (by simp) (by simp)) (Mod.only_trans (Mod.only_mono shown (by simp) (by simp))
      (Mod.only_trans (Mod.only_mono raised (by simp) (by simp +contextual)) (Mod.refuse_frame c _ (by simp))))

theorem Does.socRefused {s : State} {v : Word} (hw : s.m.wrStatus 0x601C v.toNat = 0) (hon : s.on) (hbit : bit v.toNat 0 = true)
    (hl : s.m.locked 6 = false)
    (hsoc : ¬ (s.m.get R.BWK_SOC_CFG_SOC_MIN < s.m.get R.BWK_SOC_CFG_SOC_SET ∧ s.m.get R.BWK_SOC_CFG_SOC_SET < s.m.get R.BWK_SOC_CFG_SOC_MAX))
    (ht : s.m.takes 6 2) :
    Does (.blkLockWrite 6 v) s fun t => t.m.resp = 1 ∧ t.m.get (R.BLK_LOCK_REFUSED 6) = 1 ∧ t.m.locked 6 = false ∧
      t.m.get R.BWK_DP_STAT_CFG_ERR = 1 ∧ t.m.tells { blk := 6, inst := 2, kind := 8, addr := 0, cls := 0 } ∧
      s.frame [.flt, .resp] ([R.BLK_LOCK_REFUSED 6, R.BWK_DP_STAT_CFG_ERR] ++ repFlds 6) t := by
  have asked (g : Fld) (hg : (R.BLK_LOCK_REFUSED 6).apart g) : (s.m.lockAsked 6 v.toNat).get g = s.m.get g :=
    Mod.only_get (s.m.lockAsked_only 6 _) g (List.forall_mem_singleton.mpr hg)
  obtain ⟨socMin, socSet, socMax⟩ := (s.m.lockAsked 6 v.toNat).clampPage_soc
  have fails : ((s.m.lockAsked 6 v.toNat).clampPage 6).lockOk 6 = false := by
    refine Mod.lockOk_soc ?_
    rw [socMin, socSet, socMax, asked _ (.inl (by decide)), asked _ (.inl (by decide)), asked _ (.inl (by decide))]
    exact hsoc
  have acts : exec (.blkLockWrite 6 v) s = .next { s with m := (s.m.lockAsked 6 v.toNat).refusedBy 6 R.BWK_DP_STAT_CFG_ERR 2 8 } := by
    rw [exec_blkLockAsked (p := 6) hw hon hbit]
    exact congrArg (fun m => Host.Outcome.next { s with m := m }) (Mod.lockPage_refused ((s.m.lockAsked_locked 6 _).trans hl) fails)
  obtain ⟨resp, refused, unlocked, event, told, only⟩ :=
    Mod.refusedBy_does (m := s.m) (p := 6) (inst := 2) (kind := 8) (v := v.toNat) (f := R.BWK_DP_STAT_CFG_ERR) (by decide) (by decide)
      (by decide) (by decide) (by decide) ht hl
  exact ⟨_, acts, resp, refused, unlocked, event, told, State.frame_of_only only⟩

/-- The clamps of the LNK page, beside those of its channels. -/
def linkClamps : List (Fld × Nat × Nat) :=
  [(R.LNK_CFG_POOL_LOW, 0, 3000), (R.LNK_DIAG_CFG_CLEAN_DB, 5, 50), (R.LNK_DIAG_CFG_MARGIN_DB, 5, 60), (R.LNK_DIAG_CFG_REFL_DB, 10, 40),
    (R.LNK_DIAG_CFG_DIAG_S, 1, 255)]

/-- The clamps of the channels leave the page's other fields. -/
theorem Mod.clampPage_link (m : Mod) {g : Fld} (hg : g.addr < 0xD400) :
    (m.clampPage 13).get g = (m.holds ((R.LNK_CFG_PORT_WIN, 16, 255) :: linkClamps)).get g := by
  have row (x : Mod) := Mod.get_holdRow 256 R.LNK_CHCFG_CH_MAX 2 255 (g := g) (fun i _ => .inl (by simp only; omega)) x
  unfold Mod.clampPage linkClamps
  simp only
  exact row _

theorem Mod.holds_cons (m : Mod) (f : Fld) (lo hi : Nat) (l : List (Fld × Nat × Nat)) : m.holds ((f, lo, hi) :: l) = (m.hold f lo hi).holds l :=
  rfl

theorem clampN_low {lo hi v : Nat} (hv : v ≤ hi) : clampN lo hi v = max lo v := by
  unfold clampN
  split
  · omega
  · rw [if_neg (by omega)]
    omega

theorem clampN_high (hi v : Nat) : clampN 0 hi v = min hi v := by
  unfold clampN
  rw [if_neg (by omega)]
  split <;> omega

/-- The pool's low mark is held to 3,000 and a port's window to at least 16 (R281). -/
theorem Mod.clampPage_pool (m : Mod) : (m.clampPage 13).get R.LNK_CFG_PORT_WIN = max 16 (m.get R.LNK_CFG_PORT_WIN) ∧
    (m.clampPage 13).get R.LNK_CFG_POOL_LOW = min 3000 (m.get R.LNK_CFG_POOL_LOW) := by
  have window : m.get R.LNK_CFG_PORT_WIN < 2 ^ 8 := bits_lt _ _ _
  have low : (m.hold R.LNK_CFG_PORT_WIN 16 255).get R.LNK_CFG_POOL_LOW = m.get R.LNK_CFG_POOL_LOW := Mod.get_put_ne m _ _ _ (by decide)
  constructor
  · rw [Mod.clampPage_link m (by decide),
      m.get_holds_first _ (by decide) (by decide) (by decide) (Fld.apart_of_all (by decide)), clampN_low (by omega)]
  · rw [Mod.clampPage_link m (by decide), Mod.holds_cons, linkClamps,
      Mod.get_holds_first _ _ (by decide) (by decide) (by decide) (Fld.apart_of_all (by decide)), low, clampN_high]

theorem Does.poolRefused {s : State} {v : Word} (hw : s.m.wrStatus 0xD01C v.toNat = 0) (hon : s.on) (hbit : bit v.toNat 0 = true)
    (hl : s.m.locked 13 = false)
    (hpool : min 3000 (s.m.get R.LNK_CFG_POOL_LOW) < 7 * max 16 (s.m.get R.LNK_CFG_PORT_WIN) + 64) (ht : s.m.takes 13 7) :
    Does (.blkLockWrite 13 v) s fun t => t.m.resp = 1 ∧ t.m.get (R.BLK_LOCK_REFUSED 13) = 1 ∧ t.m.locked 13 = false ∧
      t.m.tells { blk := 13, inst := 7, kind := 14, addr := 0, cls := 0 } ∧
      s.frame [.flt, .resp] ([R.BLK_LOCK_REFUSED 13, R.LNK_EVT_CFG] ++ repFlds 13) t := by
  have asked (g : Fld) (hg : (R.BLK_LOCK_REFUSED 13).apart g) : (s.m.lockAsked 13 v.toNat).get g = s.m.get g :=
    Mod.only_get (s.m.lockAsked_only 13 _) g (List.forall_mem_singleton.mpr hg)
  obtain ⟨win, low⟩ := (s.m.lockAsked 13 v.toNat).clampPage_pool
  have fails : ((s.m.lockAsked 13 v.toNat).clampPage 13).lockOk 13 = false := by
    rw [Mod.lockOk, if_neg (by decide), if_pos rfl, win, low, asked _ (.inl (by decide)), asked _ (.inl (by decide))]
    exact decide_eq_false (by omega)
  have acts : exec (.blkLockWrite 13 v) s = .next { s with m := (s.m.lockAsked 13 v.toNat).refusedBy 13 R.LNK_EVT_CFG 7 14 } := by
    rw [exec_blkLockAsked (p := 13) hw hon hbit]
    exact congrArg (fun m => Host.Outcome.next { s with m := m }) (Mod.lockPage_refused ((s.m.lockAsked_locked 13 _).trans hl) fails)
  obtain ⟨resp, refused, unlocked, -, told, only⟩ :=
    Mod.refusedBy_does (m := s.m) (p := 13) (inst := 7) (kind := 14) (v := v.toNat) (f := R.LNK_EVT_CFG) (by decide) (by decide)
      (by decide) (by decide) (by decide) ht hl
  exact ⟨_, acts, resp, refused, unlocked, told, State.frame_of_only only⟩

/-- Settles O58: locks that take place, stand, are refused, and the refusal that clears by 1. -/
theorem locks : Obligations.Locks :=
  ⟨fun _ _ _ hw hon hbit hkeep hl => Does.lockStands hw hon hbit hkeep hl,
    fun _ _ _ hw hon hbit hclear => Does.refusalCleared hw hon hbit hclear,
    fun _ _ _ hw hon hbit hl hp => Does.pageLocked hw hon hbit hl hp,
    fun _ _ hw hon hbit hl => Does.modLocked hw hon hbit hl,
    fun _ _ hw hon hbit hl hsoc ht => Does.socRefused hw hon hbit hl hsoc ht,
    fun _ _ hw hon hbit hl hpool ht => Does.poolRefused hw hon hbit hl hpool ht⟩

end Sys2Proof.Machine
end

section
/-!
PROOFS. A trip in RUN whose report finds the fatal lane full (R310, R326, R330), which refutes the statement CliffTrips.
-/
namespace Sys2Proof.Machine

/-- RUN with one free place in the fatal lane, and BUS_SHORE of the positive pole active, entered with fatal class. -/
def crowdedLane : State :=
  { m := { ({} : Mod).puts [(R.PWR_STAT_PG, 0xFFFFF), (R.MGT_PSTATE_STATE, 3)] with
      flt.lane := List.replicate 63 { blk := 8, inst := 0, kind := 1, addr := 0, cls := 2 }, flt.conds := [⟨6, 0, 1, 0, 2, false⟩] } }

/-- The trip takes the module to SAFE HOLD, which ends that condition: its CLR takes the last place, and the trip's START finds none. -/
theorem exec_cliffTrip_crowdedLane : ∃ t, exec (.cliffTrip 0 0 50000) crowdedLane = .next t ∧
    t.m.flt.lane.getLast? = some { blk := 6, inst := 0, kind := 1, addr := 0, cls := 2, ind := .clr } :=
  ⟨_, rfl, by decide +kernel⟩

/-- Refutes O15: its first part says that the START of the trip is the newest report of the fatal lane when the lane had room before. A fatal
condition of the breakwater, which no premise excludes, ends with RUN and fills the lane with its CLR first. -/
theorem not_cliffTrips : ¬ Obligations.CliffTrips := by
  unfold Obligations.CliffTrips
  rintro ⟨trips, -⟩
  obtain ⟨t, ht, -, -, -, -, -, told, -⟩ :=
    trips crowdedLane 0 0 50000 (by decide) (by decide) (by decide) (by decide) (by decide)
  obtain ⟨u, hu, cleared⟩ := exec_cliffTrip_crowdedLane
  obtain rfl := Host.Outcome.next.inj (hu.symm.trans ht)
  have started := told (by decide) (by decide)
  rw [Mod.tells, if_pos rfl, cleared] at started
  exact absurd started (by decide)

end Sys2Proof.Machine
end

section
/-!
PROOFS. The intake of a report that names the frame of its access (R130, R303, Table 10-2), which refutes the statement Intake.
-/
namespace Sys2Proof.Machine

/-- A corrected report that names frame 1 waits in the queue in frame 0. -/
def frameNamed : State := { m := { ({} : Mod) with flt.queue := [{ blk := 2, inst := 0, kind := 3, addr := 9, cls := 0, frame := some 1 }] } }

/-- Its record carries the frame that it names. -/
theorem exec_reportIntake_frameNamed :
    ∃ t, exec (.reportIntake false) frameNamed = .next t ∧ t.m.flt.window.head?.map FRec.frame = some 1 :=
  ⟨_, rfl, by decide +kernel⟩

/-- Refutes O45: its first part says that the record of a corrected report carries the frame of its intake. A report may name the frame of the
failing access (R130), which no premise excludes, and its record carries that one. -/
theorem not_intake : ¬ Obligations.Intake := by
  unfold Obligations.Intake
  rintro ⟨corrected, -⟩
  obtain ⟨t, ht, -, ⟨w, hw, -, -, -, -, -, frame⟩, -⟩ := corrected frameNamed _ [] (by decide) rfl rfl rfl rfl (by decide)
  obtain ⟨u, hu, named⟩ := exec_reportIntake_frameNamed
  obtain rfl := Host.Outcome.next.inj (hu.symm.trans ht)
  rw [Option.mem_def.mp hw, Option.map_some, Option.some_inj, frame] at named
  exact absurd named (by decide)

end Sys2Proof.Machine
end

section
/-!
PROOFS. Words that the access rules let through, the clears of FLT_CLR (R308, R319), the record window (R304, Table 10-17).
-/
namespace Sys2Proof.Machine

/-! ## Words that the access rules let through (R460) -/

/-- A module after a word that answers STATUS 0. -/
def Mod.answered (m : Mod) : Mod := { m with resp := 0 }

@[simp] theorem Mod.answered_resp (m : Mod) : m.answered.resp = 0 := rfl
@[simp] theorem Mod.answered_flt (m : Mod) : m.answered.flt = m.flt := rfl
@[simp] theorem Mod.answered_time (m : Mod) : m.answered.time = m.time := rfl
@[simp] theorem Mod.answered_word (m : Mod) (a : Nat) : m.answered.word a = m.word a := Mod.word_congr a rfl
@[simp] theorem Mod.answered_get (m : Mod) (f : Fld) : m.answered.get f = m.get f := Mod.get_of_regs f rfl

theorem Mod.answered_only (m : Mod) (fs : List Fld) : m.only [.resp] fs m.answered := Mod.only_resp m 0 fs (by simp)

/-- What a word changes, STATUS beside its own effect. -/
theorem Mod.only_answered {m x : Mod} {fs : List Fld} (h : m.only [] fs x) : m.only [.resp] fs x.answered :=
  Mod.only_trans (Mod.only_mono h (by simp) fun _ h => h) (x.answered_only fs)

/-- A guarded word that is let through acts and answers STATUS 0. -/
theorem Does.ofGuarded {c : Instr} {s : State} {P : State → Prop} {a v : Nat} {f : Mod → Mod}
    (h : exec c s = onMod (fun m => m.guarded a v f) s) (hw : s.m.wrStatus a v = 0) (hon : s.on)
    (hp : P { s with m := (f s.m).answered }) : Does c s P :=
  Does.ofMod h hon (by rw [Mod.guarded_ok f hw]; exact hp)

/-- As `Does.ofGuarded`, for a rule that may refuse the word itself. -/
theorem Does.ofGuardedR {c : Instr} {s : State} {P : State → Prop} {a v : Nat} {f : Mod → Mod}
    (h : exec c s = onMod (fun m => m.guardedR a v f) s) (hw : s.m.wrStatus a v = 0) (hon : s.on)
    (hp : P { s with m := f s.m.answered }) : Does c s P :=
  Does.ofMod h hon (by rw [Mod.guardedR_ok f hw]; exact hp)

/-! ## Clears (R308, R319) -/

/-- One block's LATCHED and WORST clear while it has no active condition. -/
def Mod.unlatch (act : Nat) (m : Mod) (b : Nat) : Mod := if bit act b then m else m.puts [(R.BLK_FLT_LATCHED b, 0), (R.BLK_FLT_WORST b, 0)]

theorem Mod.clrLatch_eq (m : Mod) : m.clrLatch = (List.range 21).foldl (Mod.unlatch (m.get R.FLT_ACTIVE_BLK))
    (m.put R.FLT_LATCH_BLK (m.get R.FLT_LATCH_BLK &&& m.get R.FLT_ACTIVE_BLK)) := rfl

theorem Mod.unlatch_only (act : Nat) (m : Mod) (b : Nat) : m.only [] [R.BLK_FLT_LATCHED b, R.BLK_FLT_WORST b] (m.unlatch act b) := by
  unfold Mod.unlatch
  split
  · exact Mod.only_refl m _ _
  · exact Mod.only_puts m _ _ (by simp)

/-- A field outside the BLK_FLT registers keeps its value. -/
theorem Mod.unlatch_get (act : Nat) (m : Mod) (b : Nat) {g : Fld} (h : g.addr ≠ b * 4096 + 0x14) : (m.unlatch act b).get g = m.get g :=
  Mod.only_get (m.unlatch_only act b) g (by simp [Fld.apart, Ne.symm h])

theorem Mod.unlatch_inactive {act : Nat} (m : Mod) {b : Nat} (h : bit act b = false) :
    (m.unlatch act b).get (R.BLK_FLT_LATCHED b) = 0 ∧ (m.unlatch act b).get (R.BLK_FLT_WORST b) = 0 := by
  rw [Mod.unlatch, if_neg (by simp [h])]
  exact ⟨m.get_puts_head 0 [(R.BLK_FLT_WORST b, 0)] (by simp) (by simp [Fld.apart]), Mod.get_put_same _ _ 0 (by simp)⟩

theorem Mod.clrLatch_latch (m : Mod) : m.clrLatch.get R.FLT_LATCH_BLK = m.get R.FLT_LATCH_BLK &&& m.get R.FLT_ACTIVE_BLK := by
  rw [Mod.clrLatch_eq]
  refine List.foldlRecOn (motive := fun q : Mod => q.get R.FLT_LATCH_BLK = _) _ _ ?_
    fun q hq b _ => (q.unlatch_get _ b (by simp only; omega)).trans hq
  exact (Mod.get_put_same m _ _ (by decide)).trans (Nat.mod_eq_of_lt (Nat.lt_of_le_of_lt Nat.and_le_left (m.get_lt _)))

theorem Mod.clrLatch_block (m : Mod) {b : Nat} (hb : b < 21) (h : bit (m.get R.FLT_ACTIVE_BLK) b = false) :
    m.clrLatch.get (R.BLK_FLT_LATCHED b) = 0 ∧ m.clrLatch.get (R.BLK_FLT_WORST b) = 0 := by
  rw [Mod.clrLatch_eq]
  refine foldl_range_at (P := fun _ => True) (Q := fun q : Mod => q.get (R.BLK_FLT_LATCHED b) = 0 ∧ q.get (R.BLK_FLT_WORST b) = 0) hb
    (fun _ _ _ _ _ => trivial) (fun q _ => q.unlatch_inactive h) (fun q j _ hj hq => ?_) trivial
  rw [q.unlatch_get _ j (by simp only; omega), q.unlatch_get _ j (by simp only; omega)]
  exact hq

theorem Mod.clrLatch_parts (m : Mod) : m.onlyParts [] m.clrLatch := by
  rw [Mod.clrLatch_eq]
  exact List.foldlRecOn (motive := m.onlyParts []) _ _ (Mod.onlyParts_put m _ _ _)
    fun q hq b _ => Mod.onlyParts_trans hq (q.unlatch_only _ b).1

theorem Does.latchesCleared {s : State} (hw : s.m.wrStatus 0xE0E0 1 = 0) (hon : s.on) :
    Does .fltClrLatch s fun t => t.m.get R.FLT_LATCH_BLK = s.m.get R.FLT_LATCH_BLK &&& s.m.get R.FLT_ACTIVE_BLK ∧
      (∀ b < 21, bit (s.m.get R.FLT_ACTIVE_BLK) b = false → t.m.get (R.BLK_FLT_LATCHED b) = 0 ∧ t.m.get (R.BLK_FLT_WORST b) = 0) ∧
      t.m.resp = 0 ∧ s.m.onlyParts [.resp] t.m :=
  Does.ofGuarded (f := Mod.clrLatch) rfl hw hon ⟨(Mod.answered_get _ _).trans s.m.clrLatch_latch,
    fun _ hb h => by simpa only [Mod.answered_get] using s.m.clrLatch_block hb h, rfl,
    Mod.onlyParts_trans (Mod.onlyParts_mono s.m.clrLatch_parts (by simp)) (Mod.answered_only _ []).1⟩

/-- The blocks whose FLT_FATAL bit stands with a fatal condition active (R319). -/
def Mod.fatalKept (m : Mod) : Nat := ofBits 21 fun b => bit (m.get R.FLT_FATAL_BLK) b && m.flt.conds.any (fun c => c.blk == b && c.cls == 2)

theorem Mod.clrFatal_eq (m : Mod) : m.clrFatal = m.puts [(R.FLT_FATAL_BLK, m.fatalKept), (R.FLT_STAT_SAFE_REQ, b2n (m.fatalKept != 0))] := rfl

theorem Mod.fatalKept_lt (m : Mod) : m.fatalKept < 2 ^ 21 := ofBits_lt 21 _

theorem Mod.clrFatal_fatal (m : Mod) : m.clrFatal.get R.FLT_FATAL_BLK = m.fatalKept := by
  rw [Mod.clrFatal_eq, Mod.get_puts_head m _ _ (by decide) (Fld.apart_of_all (by simp)), Nat.mod_eq_of_lt m.fatalKept_lt]

theorem Mod.clrFatal_safeReq (m : Mod) : m.clrFatal.get R.FLT_STAT_SAFE_REQ = b2n (m.fatalKept != 0) :=
  (Mod.get_put_same _ R.FLT_STAT_SAFE_REQ _ (by decide)).trans (Nat.mod_eq_of_lt (Nat.lt_succ_of_le (b2n_le _)))

theorem Does.fatalBitsCleared {s : State} (hw : s.m.wrStatus 0xE0E0 2 = 0) (hon : s.on) :
    Does .fltClrFatal s fun t => (∀ b < 21, bit (t.m.get R.FLT_FATAL_BLK) b =
        (bit (s.m.get R.FLT_FATAL_BLK) b && s.m.flt.conds.any (fun c => c.blk == b && c.cls == 2))) ∧
      (t.m.get R.FLT_STAT_SAFE_REQ = 0 ↔ t.m.get R.FLT_FATAL_BLK = 0) ∧ t.m.resp = 0 ∧
      s.frame [.resp] [R.FLT_FATAL_BLK, R.FLT_STAT_SAFE_REQ] t := by
  have fatal := s.m.clrFatal_fatal
  have safeReq := s.m.clrFatal_safeReq
  have only : s.m.only [] [R.FLT_FATAL_BLK, R.FLT_STAT_SAFE_REQ] s.m.clrFatal := Mod.only_puts s.m _ _ (by simp)
  have kept : ∀ b < 21, bit s.m.fatalKept b = (bit (s.m.get R.FLT_FATAL_BLK) b && s.m.flt.conds.any (fun c => c.blk == b && c.cls == 2)) :=
    fun b hb => by rw [Mod.fatalKept, bit_ofBits _ _ _ hb]
  refine Does.ofGuarded (f := Mod.clrFatal) rfl hw hon ?_
  simp only [Mod.answered_get, Mod.answered_resp, fatal, safeReq]
  refine ⟨kept, ?_, trivial, State.frame_of_only (Mod.only_answered only)⟩
  by_cases none : s.m.fatalKept = 0 <;> simp [none, b2n]

theorem Does.firstCleared {s : State} (hw : s.m.wrStatus 0xE0E0 4 = 0) (hon : s.on) :
    Does .fltClrFirst s fun t => t.m.word 0xE090 = 0 ∧ t.m.word 0xE094 = 0 ∧ t.m.word 0xE098 = 0 ∧ t.m.resp = 0 ∧
      s.frame [.resp] [⟨0xE090, 0, 32⟩, ⟨0xE094, 0, 32⟩, ⟨0xE098, 0, 32⟩] t := by
  have lo : s.m.clrFirst.word 0xE090 = 0 := by
    rw [Mod.clrFirst, Mod.word_setWord_ne _ _ (by decide), Mod.word_setWord_ne _ _ (by decide), Mod.word_setWord_same]
  have hi : s.m.clrFirst.word 0xE094 = 0 := by rw [Mod.clrFirst, Mod.word_setWord_ne _ _ (by decide), Mod.word_setWord_same]
  have seq : s.m.clrFirst.word 0xE098 = 0 := Mod.word_setWord_same _ _ _
  have only : s.m.only [] [⟨0xE090, 0, 32⟩, ⟨0xE094, 0, 32⟩, ⟨0xE098, 0, 32⟩] s.m.clrFirst :=
    Mod.only_trans (Mod.only_trans (Mod.only_setWord _ 0xE090 0 _ (by simp)) (Mod.only_setWord _ 0xE094 0 _ (by simp)))
      (Mod.only_setWord _ 0xE098 0 _ (by simp))
  refine Does.ofGuarded (f := Mod.clrFirst) rfl hw hon ?_
  simp only [Mod.answered_word, lo, hi, seq]
  exact ⟨trivial, trivial, trivial, rfl, State.frame_of_only (Mod.only_answered only)⟩

theorem Does.stickyCleared {s : State} (hw : s.m.wrStatus 0xE0E0 8 = 0) (hon : s.on) :
    Does .fltClrStat s fun t => t.m.get R.FLT_STAT_LEVEL = 0 ∧ t.m.get R.FLT_STAT_QUEUE_OVF = 0 ∧ t.m.get R.FLT_STAT_SLACK_FULL = 0 ∧
      t.m.resp = 0 ∧ s.frame [.resp] [R.FLT_STAT_LEVEL, R.FLT_STAT_QUEUE_OVF, R.FLT_STAT_SLACK_FULL] t := by
  have level : s.m.clrStat.get R.FLT_STAT_LEVEL = 0 := by
    rw [Mod.clrStat, Mod.get_puts_head _ _ _ (by decide) (Fld.apart_of_all (by decide)), Nat.zero_mod]
  have ovf : s.m.clrStat.get R.FLT_STAT_QUEUE_OVF = 0 := by
    rw [Mod.clrStat, Mod.puts_cons, Mod.get_puts_head _ _ _ (by decide) (Fld.apart_of_all (by decide)), Nat.zero_mod]
  have full : s.m.clrStat.get R.FLT_STAT_SLACK_FULL = 0 := Mod.get_put_same _ R.FLT_STAT_SLACK_FULL 0 (by decide)
  have only : s.m.only [] [R.FLT_STAT_LEVEL, R.FLT_STAT_QUEUE_OVF, R.FLT_STAT_SLACK_FULL] s.m.clrStat := Mod.only_puts s.m _ _ (by simp)
  refine Does.ofGuarded (f := Mod.clrStat) rfl hw hon ?_
  simp only [Mod.answered_get, level, ovf, full]
  exact ⟨trivial, trivial, trivial, rfl, State.frame_of_only (Mod.only_answered only)⟩

/-! ## The record window (Table 10-17) -/

/-- The bytes that the window shows for a record it may hold. -/
def shownBytes (r : Option FRec) : List Nat := (r.map FRec.bytes).getD (zeros 32)

/-- The eight data words of the window show a record's bytes. -/
def Mod.showRec (b : List Nat) (m : Mod) (i : Nat) : Mod := m.put (R.FLT_REC_DATA_DATA i) (le b (4 * i) 4)

/-- SEQ and HELD of the window. -/
def Mod.recNamed (m : Mod) (seq : Nat) : Mod :=
  m.puts [(R.FLT_REC_SEQ_SEQ, seq), (R.FLT_REC_STAT_HELD, b2n (m.flt.window.find? (fun r => r.seq == seq)).isSome)]

theorem Mod.selectRec_eq (m : Mod) (seq : Nat) :
    m.selectRec seq = (List.range 8).foldl (Mod.showRec (shownBytes (m.flt.window.find? (fun r => r.seq == seq)))) (m.recNamed seq) := by
  unfold Mod.selectRec Mod.recNamed
  cases m.flt.window.find? (fun r => r.seq == seq) <;> rfl

theorem Mod.showRec_get_ne (b : List Nat) (m : Mod) (i : Nat) {g : Fld} (h : g.addr ≠ 0xE108 + 4 * i) : (m.showRec b i).get g = m.get g :=
  Mod.get_put_ne m _ g _ (.inl (Ne.symm h))

/-- Showing the bytes leaves what lies before the data words. -/
theorem Mod.showRecs_get (b : List Nat) (m : Mod) {g : Fld} (h : g.addr < 0xE108) : ((List.range 8).foldl (Mod.showRec b) m).get g = m.get g :=
  List.foldlRecOn (motive := fun q : Mod => q.get g = m.get g) _ _ rfl fun q hq i _ => (q.showRec_get_ne b i (by omega)).trans hq

theorem Mod.showRecs_data (b : List Nat) (m : Mod) {i : Nat} (hi : i < 8) :
    ((List.range 8).foldl (Mod.showRec b) m).get (R.FLT_REC_DATA_DATA i) = le b (4 * i) 4 % 2 ^ 32 :=
  foldl_range_at (P := fun _ => True) (Q := fun q : Mod => q.get (R.FLT_REC_DATA_DATA i) = le b (4 * i) 4 % 2 ^ 32) hi
    (fun _ _ _ _ _ => trivial) (fun q _ => Mod.get_put_same q (R.FLT_REC_DATA_DATA i) _ (by simp))
    (fun q j _ hj hq => (q.showRec_get_ne b j (by simp only; omega)).trans hq) trivial

theorem Mod.recNamed_seq (m : Mod) {seq : Nat} (h : seq < 2 ^ 32) : (m.recNamed seq).get R.FLT_REC_SEQ_SEQ = seq := by
  rw [Mod.recNamed, Mod.get_puts_head m _ _ (by decide) (Fld.apart_of_all (by simp)), Nat.mod_eq_of_lt h]

theorem Mod.recNamed_held (m : Mod) (seq : Nat) :
    (m.recNamed seq).get R.FLT_REC_STAT_HELD = b2n (m.flt.window.find? (fun r => r.seq == seq)).isSome :=
  (Mod.get_put_same _ R.FLT_REC_STAT_HELD _ (by decide)).trans (Nat.mod_eq_of_lt (Nat.lt_succ_of_le (b2n_le _)))

/-- The fields of the record window. -/
def recFlds : List Fld := R.FLT_REC_SEQ_SEQ :: R.FLT_REC_STAT_HELD :: (List.range 8).map R.FLT_REC_DATA_DATA

theorem Mod.selectRec_only (m : Mod) (seq : Nat) : m.only [] recFlds (m.selectRec seq) := by
  rw [Mod.selectRec_eq]
  refine Mod.only_trans (Mod.only_puts m _ _ (by simp [recFlds])) (Mod.only_foldl _ _ (fun q i hi => Mod.only_put q _ _ _ ?_) _)
  exact List.mem_cons_of_mem _ (List.mem_cons_of_mem _ (List.mem_map_of_mem hi))

theorem Does.recordShown {s : State} {v : Word} (hw : s.m.wrStatus 0xE100 v.toNat = 0) (hon : s.on) :
    Does (.fltRecSeqWrite v) s fun t => t.m.get R.FLT_REC_SEQ_SEQ = v.toNat ∧
      t.m.get R.FLT_REC_STAT_HELD = b2n (s.m.flt.window.find? (fun r => r.seq == v.toNat)).isSome ∧
      (∀ r, s.m.flt.window.find? (fun r => r.seq == v.toNat) = some r → ∀ i < 8, t.m.get (R.FLT_REC_DATA_DATA i) = le r.bytes (4 * i) 4 % 2 ^ 32) ∧
      t.m.resp = 0 ∧ s.frame [.resp] (R.FLT_REC_SEQ_SEQ :: R.FLT_REC_STAT_HELD :: (List.range 8).map R.FLT_REC_DATA_DATA) t := by
  have only := s.m.selectRec_only v.toNat
  have seq : (s.m.selectRec v.toNat).get R.FLT_REC_SEQ_SEQ = v.toNat := by
    rw [Mod.selectRec_eq, Mod.showRecs_get _ _ (by decide), Mod.recNamed_seq _ v.isLt]
  have held : (s.m.selectRec v.toNat).get R.FLT_REC_STAT_HELD = b2n (s.m.flt.window.find? (fun r => r.seq == v.toNat)).isSome := by
    rw [Mod.selectRec_eq, Mod.showRecs_get _ _ (by decide), Mod.recNamed_held]
  have data : ∀ r, s.m.flt.window.find? (fun r => r.seq == v.toNat) = some r → ∀ i < 8,
      (s.m.selectRec v.toNat).get (R.FLT_REC_DATA_DATA i) = le r.bytes (4 * i) 4 % 2 ^ 32 := by
    intro r hr i hi
    rw [Mod.selectRec_eq, Mod.showRecs_data _ _ hi, hr]
    rfl
  refine Does.ofGuarded (f := fun m => m.selectRec v.toNat) rfl hw hon ?_
  simp only [Mod.answered_get, seq, held]
  exact ⟨trivial, trivial, data, rfl, State.frame_of_only (Mod.only_answered only)⟩

end Sys2Proof.Machine
end

section
/-!
PROOFS. Force bits (R332, R333), and the statement ClearsAndForces.
-/
namespace Sys2Proof.Machine

/-! ## The word of a force -/

/-- The fields of a BLK_FORCE word below REFUSED: KIND and INST, and from bit 14 on COND, CLEAR, GO and REFUSED. -/
theorem forceWord_bits (k : Fin 256) (i : Fin 64) {d v : Nat} (hv : v = k.val + 256 * i.val + 2 ^ 14 * d) :
    bits v 0 8 = k.val ∧ bits v 8 6 = i.val ∧ ∀ j, bit v (14 + j) = bit d j := by
  have hk := k.isLt
  have hi := i.isLt
  refine ⟨by unfold bits; omega, by unfold bits; omega, fun j => ?_⟩
  have high : v / 2 ^ 14 = d := by omega
  unfold bit
  rw [Nat.pow_add, ← Nat.div_div_eq_div_mul, high]

/-- The registers of BLK_FORCE stand apart from every register at another offset of a page. -/
theorem Fld.apart_force (p lo w : Nat) {g : Fld} (h : g.addr % 4096 ≠ 0x18) : Fld.apart ⟨p * 4096 + 0x18, lo, w⟩ g :=
  .inl (by simp only; omega)

theorem Fld.force_apart {fs : List Fld} (p lo w : Nat) (h : (fs.all fun f => decide (f.addr % 4096 ≠ 0x18)) = true) :
    ∀ f ∈ fs, f.apart ⟨p * 4096 + 0x18, lo, w⟩ := by
  intro f hf
  have := of_decide_eq_true (List.all_eq_true.mp h f hf)
  exact .inl (by simp only; omega)

/-- The fields that a write of BLK_FORCE takes. -/
def forceFlds (p : Nat) : List Fld := [R.BLK_FORCE_KIND p, R.BLK_FORCE_INST p, R.BLK_FORCE_COND p]

/-- KIND, INST and COND of a write of BLK_FORCE, answered with STATUS 0. -/
def Mod.forceShown (m : Mod) (p v : Nat) : Mod :=
  m.answered.puts [(R.BLK_FORCE_KIND p, bits v 0 8), (R.BLK_FORCE_INST p, bits v 8 6), (R.BLK_FORCE_COND p, bits v 14 1)]

theorem Mod.forceShown_only (m : Mod) (p v : Nat) : m.only [.resp] (forceFlds p) (m.forceShown p v) :=
  Mod.only_trans (m.answered_only _) (Mod.only_puts _ _ _ (by simp [forceFlds]))

theorem Mod.forceShown_flt (m : Mod) (p v : Nat) : (m.forceShown p v).flt = m.flt := (m.forceShown_only p v).1 .flt (by simp)

theorem Mod.forceShown_resp (m : Mod) (p v : Nat) : (m.forceShown p v).resp = 0 := Mod.puts_resp _ _

theorem Mod.forceShown_get (m : Mod) (p v : Nat) {g : Fld} (h : g.addr % 4096 ≠ 0x18) : (m.forceShown p v).get g = m.get g := by
  refine Mod.only_get (m.forceShown_only p v) g fun f hf => ?_
  simp only [forceFlds, List.mem_cons, List.not_mem_nil, or_false] at hf
  rcases hf with rfl | rfl | rfl <;> exact Fld.apart_force p _ _ h

theorem Mod.pageOn_congr {a b : Mod} (h : b.get R.PWR_STAT_PG = a.get R.PWR_STAT_PG) (p : Nat) : b.pageOn p = a.pageOn p := by
  rw [Mod.pageOn, Mod.pageOn, Mod.domainOn, Mod.domainOn, h]

theorem Mod.forceShown_pageOn (m : Mod) (p v q : Nat) : (m.forceShown p v).pageOn q = m.pageOn q :=
  Mod.pageOn_congr (m.forceShown_get p v (by decide)) q

theorem Mod.forceShown_takes {m : Mod} {b i : Nat} (p v : Nat) (h : m.takes b i) : (m.forceShown p v).takes b i :=
  Mod.takes_of_flt (m.forceShown_flt p v) (m.forceShown_get p v (by decide)) h

/-- What Table 10-9 permits follows the lifecycle, the debug level and the power state. -/
theorem Mod.forceAllowed_congr {a b : Mod} (hlife : b.get R.SEC_LIFE_LC = a.get R.SEC_LIFE_LC)
    (hdebug : b.get R.SEC_DBG_LEVEL = a.get R.SEC_DBG_LEVEL)
    (hstate : b.get R.MGT_PSTATE_STATE = a.get R.MGT_PSTATE_STATE) (p : Nat) : b.forceAllowed p = a.forceAllowed p := by
  unfold Mod.forceAllowed Mod.capF Mod.capFT Mod.quiet Mod.inRun Mod.pstate Mod.lc Mod.dbgLevel
  rw [hlife, hdebug, hstate]

theorem Mod.forceShown_allowed (m : Mod) (p v q : Nat) : (m.forceShown p v).forceAllowed q = m.forceAllowed q :=
  Mod.forceAllowed_congr (m.forceShown_get p v (by decide)) (m.forceShown_get p v (by decide)) (m.forceShown_get p v (by decide)) q

/-! ## What the word does (R332) -/

theorem Mod.forceWrite_go {m : Mod} {p v : Nat} (h15 : bit v 15 = false) (h16 : bit v 16 = true) (h17 : bit v 17 = false) :
    m.answered.forceWrite p v = (m.forceShown p v).forceWord p v := by
  rw [Mod.forceWrite, ← Mod.forceShown, h15, h16, h17]
  rfl

theorem Mod.forceWrite_clear {m : Mod} {p v : Nat} (h15 : bit v 15 = true) (h16 : bit v 16 = false) (h17 : bit v 17 = false) :
    m.answered.forceWrite p v = (m.forceShown p v).forceEnd p v := by
  rw [Mod.forceWrite, ← Mod.forceShown, h15, h16, h17]
  rfl

theorem Mod.forceWord_refused {m : Mod} {p : Nat} (v : Nat) (h : m.forceAllowed p = false) : m.forceWord p v = (m.forceRefused p).refuse :=
  if_pos (by simp [h])

theorem Mod.forceWord_goes {m : Mod} {p v : Nat} (hon : m.pageOn p = true) (hk : forceKind p (bits v 0 8) = true)
    (hr : m.is (R.BLK_STAT_RESET p) = false) (ha : m.forceAllowed p = true) :
    m.forceWord p v = m.forceGo p (bits v 0 8) (bits v 8 6) (bit v 14) := if_neg (by simp [hon, hk, hr, ha])

/-- Outside the TRP page a force sends its report and does nothing else. -/
theorem Mod.forceGo_report (m : Mod) {p k cl : Nat} (i : Nat) (c : Bool) (hp : p ≠ 19) (hk : kindClass p k = some cl) : m.forceGo p k i c =
    m.report { blk := p, inst := i, kind := k, addr := 0, cls := cl, ind := if c then .start else .event, forced := true } := by
  rw [Mod.forceGo, forceAddr, if_neg (by simp [hp]), if_neg (by simp [hp]), hk]
  rfl

/-- A report that follows the write: it is told, and nothing else changes. -/
theorem Mod.forced_does {m : Mod} {p v : Nat} (r : Rep) (hr : r.blk = p) (ht : m.takes p r.inst) :
    ((m.forceShown p v).report r).tells r ∧ ((m.forceShown p v).report r).resp = 0 ∧
      m.only [.flt, .resp] (forceFlds p ++ repFlds p) ((m.forceShown p v).report r) := by
  have frame := Mod.report_frame (m.forceShown p v) r (fs := repFlds p) fun f hf => by rwa [hr] at hf
  refine ⟨Mod.report_tells r (by rw [hr]; exact Mod.forceShown_takes p v ht), (frame.2 .resp (by simp)).trans (m.forceShown_resp p v),
    Mod.only_trans (Mod.only_mono (m.forceShown_only p v) (by simp) fun _ h => List.mem_append_left _ h)
      ⟨Mod.onlyParts_mono frame.2 (by simp), Mod.onlyFields_mono frame.1 fun _ h => List.mem_append_right _ h⟩⟩

/-- GO's bits, from a word without REFUSED and CLEAR. -/
theorem forceWord_go (k : Fin 256) (i : Fin 64) (c : Bool) {v : Nat} (hv : v = k.val + 256 * i.val + 2 ^ 14 * b2n c + 2 ^ 16) :
    bits v 0 8 = k.val ∧ bits v 8 6 = i.val ∧ bit v 14 = c ∧ bit v 15 = false ∧ bit v 16 = true ∧ bit v 17 = false := by
  obtain ⟨kind, inst, high⟩ := forceWord_bits k i (d := b2n c + 4) (hv.trans (by rw [Nat.mul_add, ← Nat.add_assoc]; rfl))
  refine ⟨kind, inst, (high 0).trans ?_, (high 1).trans ?_, (high 2).trans ?_, (high 3).trans ?_⟩ <;> cases c <;> rfl

theorem forceWord_clear (k : Fin 256) (i : Fin 64) {v : Nat} (hv : v = k.val + 256 * i.val + 2 ^ 15) :
    bits v 0 8 = k.val ∧ bits v 8 6 = i.val ∧ bit v 15 = true ∧ bit v 16 = false ∧ bit v 17 = false := by
  obtain ⟨kind, inst, high⟩ := forceWord_bits k i (d := 2) (v := v) (by omega)
  exact ⟨kind, inst, high 1, high 2, high 3⟩

/-- A BLK_FORCE word that is let through has its page on. -/
theorem Mod.pageOn_of_force {m : Mod} {p v : Nat} (h : m.wrStatus (p * 4096 + 0x18) v = 0) : m.pageOn p = true := by
  have serves := Mod.wrStatus_serves h
  rw [show (p * 4096 + 0x18) / 4096 = p by omega, Mod.pageServes, Bool.and_eq_true] at serves
  exact serves.1

theorem exec_forceInject {s : State} {p : Fin 21} {k : Fin 256} {i : Fin 64} {c : Bool} {v : Nat}
    (hv : v = k.val + 256 * i.val + 2 ^ 14 * b2n c + 2 ^ 16) (hw : s.m.wrStatus (p.val * 4096 + 0x18) v = 0) (hon : s.on) :
    exec (.forceInject p k i c) s = .next { s with m := (s.m.forceShown p v).forceWord p v } := by
  obtain ⟨-, -, -, h15, h16, h17⟩ := forceWord_go k i c hv
  have page := Mod.pageOn_of_force hw
  subst hv
  rw [← Mod.forceWrite_go h15 h16 h17, show exec (.forceInject p k i c) s = execForceInject p k i c s from rfl, execForceInject, onMod,
    if_neg hon]
  simp only [page, Bool.not_true, Bool.false_eq_true, if_false, Mod.guardedR_ok _ hw]
  rfl

/-! ## The commands -/

theorem Does.forceSent {s : State} {p : Fin 21} {k : Fin 256} {i : Fin 64} {c : Bool} {cl : Nat}
    (hw : s.m.wrStatus (p.val * 4096 + 0x18) (k.val + 256 * i.val + 2 ^ 14 * b2n c + 2 ^ 16) = 0) (hon : s.on) (hp : p.val ≠ 19)
    (hk : kindClass p k = some cl) (hself : selfKind p k = false) (hr : s.m.is (R.BLK_STAT_RESET p) = false) (hcap : s.m.capF = true)
    (ht : s.m.takes p i) :
    Does (.forceInject p k i c) s fun t =>
      t.m.tells { blk := p.val, inst := i.val, kind := k.val, addr := 0, cls := cl, ind := if c then .start else .event, forced := true } ∧
        t.m.resp = 0 ∧ s.frame [.flt, .resp] (R.BLK_FORCE_KIND p :: R.BLK_FORCE_INST p :: R.BLK_FORCE_COND p :: repFlds p) t := by
  refine ⟨_, exec_forceInject rfl hw hon, ?_⟩
  obtain ⟨kind, inst, cond, -⟩ := forceWord_go k i c (v := k.val + 256 * i.val + 2 ^ 14 * b2n c + 2 ^ 16) rfl
  generalize k.val + 256 * i.val + 2 ^ 14 * b2n c + 2 ^ 16 = v at *
  have goes : (s.m.forceShown p v).forceWord p v = (s.m.forceShown p v).report
      { blk := p.val, inst := i.val, kind := k.val, addr := 0, cls := cl, ind := if c then .start else .event, forced := true } := by
    rw [Mod.forceWord_goes, kind, inst, cond, Mod.forceGo_report _ _ _ hp hk]
    · exact (s.m.forceShown_pageOn p v p).trans ht.2.1
    · rw [kind, forceKind, hk, hself]
      rfl
    · rw [Mod.is, s.m.forceShown_get p v (by simp only; omega)]
      exact hr
    · rw [Mod.forceShown_allowed, Mod.forceAllowed, if_neg hp, hcap]
  rw [goes]
  obtain ⟨told, resp, only⟩ := Mod.forced_does (m := s.m) (v := v)
    { blk := p.val, inst := i.val, kind := k.val, addr := 0, cls := cl, ind := if c then .start else .event, forced := true } rfl ht
  exact ⟨told, resp, State.frame_of_only only⟩

theorem Does.forceTurnedAway {s : State} {p : Fin 21} {k : Fin 256} {i : Fin 64} {c : Bool}
    (hw : s.m.wrStatus (p.val * 4096 + 0x18) (k.val + 256 * i.val + 2 ^ 14 * b2n c + 2 ^ 16) = 0) (hon : s.on)
    (ha : s.m.forceAllowed p = false) (ht : s.m.takes 14 0) :
    Does (.forceInject p k i c) s fun t => t.m.resp = 1 ∧ t.m.get (R.BLK_FORCE_REFUSED p) = 1 ∧
      t.m.tells { blk := 14, inst := 0, kind := 10, addr := p.val * 4096 + 0x18, cls := 0 } := by
  refine ⟨_, exec_forceInject rfl hw hon, ?_⟩
  rw [Mod.forceWord_refused _ ((s.m.forceShown_allowed p _ p).trans ha)]
  have page := Mod.pageOn_of_force hw
  have takes := Mod.forceShown_takes p (k.val + 256 * i.val + 2 ^ 14 * b2n c + 2 ^ 16) ht
  have shown := (s.m.forceShown_pageOn p (k.val + 256 * i.val + 2 ^ 14 * b2n c + 2 ^ 16) p).trans page
  generalize s.m.forceShown p (k.val + 256 * i.val + 2 ^ 14 * b2n c + 2 ^ 16) = q at *
  rw [Mod.forceRefused, if_pos shown]
  have refused : (q.put (R.BLK_FORCE_REFUSED p) 1).get (R.BLK_FORCE_REFUSED p) = 1 := Mod.get_put_same q (R.BLK_FORCE_REFUSED p) 1 (by simp)
  have told := Mod.raise_tells 14 0 10 (p.val * 4096 + 0x18) 0 (Mod.takes_put (R.BLK_FORCE_REFUSED p) 1 (Fld.apart_force p _ _ (by decide)) takes)
  have raised := Mod.only_raise (q.put (R.BLK_FORCE_REFUSED p) 1) 14 0 10 (p.val * 4096 + 0x18) 0 (ps := [.flt]) (fs := repFlds 14) (by simp)
    fun _ h => h
  exact ⟨rfl, (Mod.only_get raised _ (Fld.force_apart p _ _ (by decide))).trans refused, told⟩

theorem Does.forceOnPageOff {s : State} {p : Fin 21} {k : Fin 256} {i : Fin 64} {c : Bool} (hon : s.on) (hp : s.m.pageOn p = false)
    (ht : s.m.takes 14 0) :
    Does (.forceInject p k i c) s fun t => t.m.resp = 2 ∧
      t.m.tells { blk := 14, inst := 0, kind := 10, addr := p.val * 4096 + 0x18, cls := 0 } ∧ s.frame [.flt, .resp] (repFlds 14) t := by
  have acts : exec (.forceInject p k i c) s = .next { s with m := { s.m.raise 14 0 10 (p.val * 4096 + 0x18) 0 with resp := 2 } } := by
    rw [show exec (.forceInject p k i c) s = execForceInject p k i c s from rfl, execForceInject, onMod, if_neg hon]
    simp only [Mod.forceRefused, hp, Bool.not_false, Bool.false_eq_true, if_true, if_false]
  refine ⟨_, acts, rfl, Mod.raise_tells 14 0 10 _ 0 ht, State.frame_of_only (Mod.only_trans ?_ (Mod.only_resp _ 2 _ (by simp)))⟩
  exact Mod.only_raise s.m 14 0 10 _ 0 (by simp) fun _ h => h

theorem Does.forceEnded {s : State} {p : Fin 21} {k : Fin 256} {i : Fin 64} {c : Cond}
    (hw : s.m.wrStatus (p.val * 4096 + 0x18) (k.val + 256 * i.val + 2 ^ 15) = 0) (hon : s.on)
    (hc : s.m.flt.conds.find? (fun c => c.forced && c.blk == p.val && c.kind == k.val && c.inst == i.val) = some c) (ht : s.m.takes p i) :
    Does (.forceClear p k i) s fun t =>
      t.m.tells { blk := p.val, inst := i.val, kind := k.val, addr := c.addr, cls := c.cls, ind := .clr, forced := true } ∧ t.m.resp = 0 ∧
        s.frame [.flt, .resp] (R.BLK_FORCE_KIND p :: R.BLK_FORCE_INST p :: R.BLK_FORCE_COND p :: repFlds p) t := by
  obtain ⟨kind, inst, h15, h16, h17⟩ := forceWord_clear k i (v := k.val + 256 * i.val + 2 ^ 15) rfl
  refine Does.ofGuardedR (f := fun m => m.forceWrite p (k.val + 256 * i.val + 2 ^ 15)) rfl hw hon ?_
  rw [Mod.forceWrite_clear h15 h16 h17]
  generalize k.val + 256 * i.val + 2 ^ 15 = v at *
  have held : c.inst = i.val := by
    have named := List.find?_some hc
    simp only [Bool.and_eq_true, beq_iff_eq] at named
    exact named.2
  have ends : (s.m.forceShown p v).forceEnd p v = (s.m.forceShown p v).report
      { blk := p.val, inst := i.val, kind := k.val, addr := c.addr, cls := c.cls, ind := .clr, forced := true } := by
    rw [Mod.forceEnd, kind, inst, Mod.forceShown_flt, hc]
    simp only [held]
  rw [ends]
  obtain ⟨told, resp, only⟩ := Mod.forced_does (m := s.m) (v := v)
    { blk := p.val, inst := i.val, kind := k.val, addr := c.addr, cls := c.cls, ind := .clr, forced := true } rfl ht
  exact ⟨told, resp, State.frame_of_only only⟩

/-- Settles O47: each clear by the fields it leaves, the window by the record it names, each force by its report or its refusal. -/
theorem clearsAndForces : Obligations.ClearsAndForces :=
  ⟨fun _ hw hon => Does.latchesCleared hw hon,
    fun _ hw hon => Does.fatalBitsCleared hw hon,
    fun _ hw hon => Does.firstCleared hw hon,
    fun _ hw hon => Does.stickyCleared hw hon,
    fun _ _ hw hon => Does.recordShown hw hon,
    fun _ _ _ _ _ _ hw hon hp hk hself hr hcap ht => Does.forceSent hw hon hp hk hself hr hcap ht,
    fun _ _ _ _ _ hw hon ha ht => Does.forceTurnedAway hw hon ha ht,
    fun _ _ _ _ _ hon hp ht => Does.forceOnPageOff hon hp ht,
    fun _ _ _ _ _ hw hon hc ht => Does.forceEnded hw hon hc ht⟩

end Sys2Proof.Machine
end

section
/-!
PROOFS. What the collector has yet to do: pending windows, resets and the blocks that restart (R313, R320, R322); what counters, reports and
records leave of it, and what a disposition or an expiry makes of a record (R313, R314, R318).
-/
namespace Sys2Proof.Machine

/-! ## The collector's duties -/

/-- What the collector has yet to do: the pending records, the resets with their shadows, the blocks whose next report carries RESTART. -/
def Mod.duties (m : Mod) : List Pend × List Reset × List (Nat × Nat) := (m.flt.pend, m.flt.resets, m.flt.restartDue)

theorem Mod.duties_of_flt {a b : Mod} (h : b.flt = a.flt) : b.duties = a.duties := by rw [Mod.duties, Mod.duties, h]

theorem Mod.puts_duties (m : Mod) (l : List (Fld × Nat)) : (m.puts l).duties = m.duties := Mod.duties_of_flt (m.puts_flt l)

theorem Mod.put_duties (m : Mod) (f : Fld) (v : Nat) : (m.put f v).duties = m.duties := m.puts_duties [(f, v)]

theorem Mod.reportLines_duties (m : Mod) (r : Rep) : (m.reportLines r).duties = m.duties := by
  unfold Mod.reportLines
  simp only
  repeat' split
  all_goals rfl

theorem Mod.enterReport_duties (m : Mod) (r : Rep) : (m.enterReport r).duties = m.duties := by
  unfold Mod.enterReport
  simp only
  repeat' split
  all_goals rfl

theorem Mod.pushReport_duties (m : Mod) (r : Rep) : (m.pushReport r).duties = m.duties := by
  unfold Mod.pushReport
  split
  · exact Mod.countBy_keeps (P := fun q => q.duties = m.duties) _ _ (fun _ _ _ hq => hq) (fun _ _ hq => hq)
      (fun q x _ hq => ((Mod.enterReport_duties _ x).trans (q.reportLines_duties x)).trans hq) (m.enterReport_duties r)
  · exact m.enterReport_duties r

theorem Mod.report_duties (m : Mod) (r : Rep) : (m.report r).duties = m.duties := by
  unfold Mod.report
  split
  · rfl
  · exact (Mod.pushReport_duties _ r).trans (m.reportLines_duties r)

theorem Mod.raiseLim_duties (m : Mod) (win blk inst kind addr cls : Nat) : (m.raiseLim win blk inst kind addr cls).duties = m.duties := by
  unfold Mod.raiseLim
  simp only
  split
  · exact m.report_duties _
  · rfl

theorem Mod.bump_duties (m : Mod) (f : Fld) : (m.bump f).duties = m.duties :=
  Mod.countBy_keeps (P := fun q => q.duties = m.duties) _ _ (fun _ _ _ hq => hq) (fun _ _ hq => hq)
    (fun q x _ hq => ((Mod.pushReport_duties _ x).trans (q.reportLines_duties x)).trans hq) rfl

theorem Mod.pend_of_duties {a b : Mod} (h : b.duties = a.duties) : b.flt.pend = a.flt.pend := congrArg Prod.fst h

theorem Mod.resets_of_duties {a b : Mod} (h : b.duties = a.duties) : b.flt.resets = a.flt.resets := congrArg (fun x => x.2.1) h

theorem Mod.restartDue_of_duties {a b : Mod} (h : b.duties = a.duties) : b.flt.restartDue = a.flt.restartDue := congrArg (fun x => x.2.2) h

theorem Mod.inReset_of_resets {a b : Mod} (h : b.flt.resets = a.flt.resets) (blk inst : Nat) : b.inReset blk inst = a.inReset blk inst := by
  rw [Mod.inReset, Mod.inReset, h]

/-! ## Records that the collector makes itself (Table 10-13) -/

theorem Mod.only_log (m : Mod) (x : LogS) {ps : List Part} (fs : List Fld) (hp : Part.log ∈ ps) :
    m.only ps fs { m with log := x } := Mod.only_of_part .log hp rfl (by rintro ⟨⟩ h <;> trivial)

theorem Mod.only_fltLog (m : Mod) (x : FltS) (y : LogS) (fs : List Fld) : m.only [.flt, .log] fs { m with flt := x, log := y } :=
  Mod.only_trans (Mod.only_flt m x fs (by simp)) (Mod.only_log { m with flt := x } y fs (by simp))

/-- The registers that follow a record of corrected class that the collector makes itself. -/
def Mod.selfCounted (m : Mod) (kind : Nat) : Mod :=
  let q := (m.put R.FLT_SEQ_NEXT (m.get R.FLT_SEQ_NEXT + 1)).bump R.FLT_CORR_CNT_COUNT
  q.puts [(R.BLK_FLT_LAST_KIND 14, kind), (R.BLK_FLT_COUNT 14, min (q.get (R.BLK_FLT_COUNT 14) + 1) 65535)]

/-- Beside those registers such a record enters the window, the FAULT channel and the log. -/
theorem Mod.selfRec_eq (m : Mod) (kind seq : Nat) : ∃ w tx arr, m.selfRec kind 0 seq =
    { m.selfCounted kind with flt.window := w, flt.faultTx := tx, log.arr := arr } := by
  unfold Mod.selfRec Mod.intake
  simp only [Bool.or_true, Bool.true_or, Bool.false_and, if_true, Bool.false_eq_true, if_false]
  exact ⟨_, _, _, rfl⟩

/-- The fields that such a record writes. -/
def selfFlds : List Fld :=
  [R.FLT_SEQ_NEXT, R.BLK_FLT_LAST_KIND 14, R.BLK_FLT_COUNT 14] ++ cntFlds R.FLT_CORR_CNT_COUNT.addr

theorem Mod.selfCounted_only (m : Mod) (kind : Nat) : m.only [.flt] selfFlds (m.selfCounted kind) :=
  Mod.only_trans (Mod.only_trans (Mod.only_put m _ _ _ (by simp [selfFlds]))
    (Mod.bump_only _ _ (by simp) fun _ h => List.mem_append_right _ h)) (Mod.only_puts _ _ _ (by simp [selfFlds]))

theorem Mod.selfRec_only (m : Mod) (kind seq : Nat) : m.only [.flt, .log] selfFlds (m.selfRec kind 0 seq) := by
  obtain ⟨w, tx, arr, h⟩ := m.selfRec_eq kind seq
  rw [h]
  exact Mod.only_trans (Mod.only_mono (m.selfCounted_only kind) (by simp) fun _ h => h)
    (Mod.only_trans (Mod.only_flt _ { (m.selfCounted kind).flt with window := w, faultTx := tx } _ (by simp))
      (Mod.only_log _ _ _ (by simp)))

theorem Mod.recorded_duties (m : Mod) (w tx : List FRec) (arr : List LogArr) :
    ({ m with flt.window := w, flt.faultTx := tx, log.arr := arr } : Mod).duties = m.duties := rfl

theorem Mod.selfRec_duties (m : Mod) (kind seq : Nat) : (m.selfRec kind 0 seq).duties = m.duties := by
  obtain ⟨w, tx, arr, h⟩ := m.selfRec_eq kind seq
  rw [h, Mod.recorded_duties]
  exact (Mod.puts_duties _ _).trans (Mod.bump_duties _ _)

/-! ## A record is edited (R303, R358) -/

theorem Mod.editRec_eq (m : Mod) (seq : Nat) (f : FRec → FRec) : ∃ tx log, m.editRec seq f =
    { m with flt.window := m.flt.window.map (fun r => if r.seq == seq then f r else r), flt.faultTx := tx, log := log } := by
  unfold Mod.editRec
  split
  · exact ⟨_, _, rfl⟩
  · exact ⟨_, _, rfl⟩

theorem Mod.editRec_only (m : Mod) (seq : Nat) (f : FRec → FRec) (fs : List Fld) : m.only [.flt, .log] fs (m.editRec seq f) := by
  obtain ⟨tx, log, h⟩ := m.editRec_eq seq f
  rw [h]
  exact Mod.only_fltLog m _ log fs

theorem Mod.editRec_duties (m : Mod) (seq : Nat) (f : FRec → FRec) : (m.editRec seq f).duties = m.duties := by
  obtain ⟨tx, log, h⟩ := m.editRec_eq seq f
  rw [h]
  rfl

/-- Of the records of the window those with the SEQ are the edited ones. -/
theorem Mod.editRec_mem {m : Mod} {seq : Nat} {f : FRec → FRec} {r : FRec}
    (h : r ∈ (m.editRec seq f).flt.window) (hs : r.seq = seq) : ∃ q ∈ m.flt.window, q.seq = seq ∧ r = f q := by
  obtain ⟨tx, log, he⟩ := m.editRec_eq seq f
  rw [he] at h
  obtain ⟨q, hq, rfl⟩ := List.mem_map.mp h
  by_cases named : q.seq = seq
  · exact ⟨q, hq, named, if_pos (by simp [named])⟩
  · rw [if_neg (by simp [named])] at hs
    exact absurd hs named

/-! ## The list of pending records (R313) -/

/-- The fields that show the pending records. -/
def pendFlds : List Fld := [R.FLT_PEND_COUNT, R.FLT_PEND_LEFT, R.FLT_PEND_SEQ_SEQ]

theorem Mod.syncPend_only (m : Mod) : m.only [] pendFlds m.syncPend := by
  unfold Mod.syncPend
  split
  · exact Mod.only_puts m _ _ (by simp [pendFlds])
  · exact Mod.only_puts m _ _ (by simp [pendFlds])

theorem Mod.syncPend_flt (m : Mod) : m.syncPend.flt = m.flt := m.syncPend_only.1 .flt (by simp)

theorem Mod.dropPend_flt (m : Mod) (seq : Nat) : (m.dropPend seq).flt = { m.flt with pend := m.flt.pend.filter (fun p => p.seq != seq) } :=
  Mod.syncPend_flt _

theorem Mod.dropPend_only (m : Mod) (seq : Nat) : m.only [.flt] pendFlds (m.dropPend seq) :=
  Mod.only_trans (Mod.only_flt m _ _ (by simp)) (Mod.only_mono (Mod.syncPend_only _) (by simp) fun _ h => h)

theorem Mod.dropPend_get (m : Mod) (seq : Nat) (g : Fld) (h : Fld.clear pendFlds g = true) : (m.dropPend seq).get g = m.get g :=
  Mod.only_get (m.dropPend_only seq) g (Fld.apart_of_clear h)

/-- No record with the SEQ is pending. -/
def Mod.closed (m : Mod) (seq : Nat) : Prop := ∀ q ∈ m.flt.pend, q.seq ≠ seq

theorem Mod.dropPend_closed (m : Mod) (seq : Nat) : (m.dropPend seq).closed seq := by
  intro q hq
  rw [Mod.dropPend_flt] at hq
  simpa using List.of_mem_filter hq

theorem Mod.closed_of_duties {a b : Mod} {seq : Nat} (h : b.duties = a.duties) (hc : a.closed seq) : b.closed seq := by
  rw [Mod.closed, Mod.pend_of_duties h]
  exact hc

/-! ## A record's window ends (R313, R318) -/

/-- A record leaves the list of pending ones, edited by what ended its window. -/
def Mod.settleRec (m : Mod) (seq : Nat) (f : FRec → FRec) : Mod := (m.dropPend seq).editRec seq f

theorem Mod.settleRec_closed (m : Mod) (seq : Nat) (f : FRec → FRec) : (m.settleRec seq f).closed seq :=
  Mod.closed_of_duties (Mod.editRec_duties _ seq f) (m.dropPend_closed seq)

theorem Mod.settleRec_only (m : Mod) (seq : Nat) (f : FRec → FRec) : m.only [.flt, .log] pendFlds (m.settleRec seq f) :=
  Mod.only_trans (Mod.only_mono (m.dropPend_only seq) (by simp) fun _ h => h) (Mod.editRec_only _ seq f _)

theorem Mod.l1Allowed_congr {a b : Mod} (h : b.get R.FLT_L1_EN_EN = a.get R.FLT_L1_EN_EN) (blk : Nat) : b.l1Allowed blk = a.l1Allowed blk := by
  rw [Mod.l1Allowed, Mod.l1Allowed, h]

/-- A record of no fatal class for which no level-1 reset is allowed takes no level (R312). -/
theorem Mod.escalate_closed {m : Mod} {blk inst cls : Nat} (seq : Nat) (hc : cls = 1) (hl : m.l1Allowed blk = false) :
    m.escalate blk inst cls seq = m.setAction seq 0 := by
  rw [Mod.escalate, if_neg (by omega), if_neg (by simp [hl])]

end Sys2Proof.Machine
end

section
/-!
PROOFS. Slack windows that end, dispositions, the release of a level-1 reset and the end of its shadow (R312 to R324); the statement Ladder.
-/
namespace Sys2Proof.Machine

/-! ## The end of a window (R313, R318) -/

theorem Mod.settleRec_mem {m : Mod} {seq : Nat} {f : FRec → FRec} {r : FRec} (h : r ∈ (m.settleRec seq f).flt.window) (hs : r.seq = seq) :
    ∃ q, q.seq = seq ∧ r = f q := by
  obtain ⟨q, -, hq, rfl⟩ := Mod.editRec_mem h hs
  exact ⟨q, hq, rfl⟩

theorem exec_slackExpiry {s : State} {p : Pend} (hon : s.on) (hp : firstPend s.m.flt.pend = some p)
    (hd : p.deadline < s.m.time.ticks + 64000) :
    exec .slackExpiry s = .next { s with m := (s.m.dropPend p.seq).escalate p.blk p.inst p.cls p.seq } := by
  rw [show exec .slackExpiry s = execSlackExpiry s from rfl, execSlackExpiry, onMod, if_neg hon]
  simp only [hp, if_pos hd]

theorem Does.windowEndsUnreset {s : State} {p : Pend} (hon : s.on) (hp : firstPend s.m.flt.pend = some p)
    (hd : p.deadline < s.m.time.ticks + 64000) (hc : p.cls = 1) (hl : s.m.l1Allowed p.blk = false) :
    Does .slackExpiry s fun t => (∀ q ∈ t.m.flt.pend, q.seq ≠ p.seq) ∧ (∀ r ∈ t.m.flt.window, r.seq = p.seq → r.action = 0) ∧
      t.m.pstate = s.m.pstate ∧ s.m.onlyParts [.flt, .log] t.m := by
  have escalated : (s.m.dropPend p.seq).escalate p.blk p.inst p.cls p.seq = s.m.settleRec p.seq (fun r => { r with action := 0 }) :=
    Mod.escalate_closed p.seq hc ((Mod.l1Allowed_congr (s.m.dropPend_get _ _ (by decide)) _).trans hl)
  have only := s.m.settleRec_only p.seq (fun r => { r with action := 0 })
  refine ⟨_, exec_slackExpiry hon hp hd, ?_⟩
  rw [escalated]
  refine ⟨Mod.settleRec_closed _ _ _, fun r hr hs => ?_, Mod.only_get only _ (Fld.apart_of_all (by decide)), only.1⟩
  obtain ⟨q, -, rfl⟩ := Mod.settleRec_mem hr hs
  rfl

/-! ## Level 1 (R312, R320, R324) -/

/-- The record and the bits that show level 1. -/
def Mod.level1Shown (m : Mod) (seq : Nat) : Mod :=
  let q := ((m.setAction seq 1).selfRec 1 0 seq).bump R.FLT_L1_CNT_COUNT
  q.puts [(R.FLT_EVT_ESC1, 1), (R.FLT_STAT_LEVEL, max (q.get R.FLT_STAT_LEVEL) 1)]

/-- The fields that level 1 writes. -/
def level1Flds : List Fld := [R.FLT_EVT_ESC1, R.FLT_STAT_LEVEL] ++ selfFlds ++ cntFlds R.FLT_L1_CNT_COUNT.addr

theorem Mod.level1Shown_only (m : Mod) (seq : Nat) : m.only [.flt, .log] level1Flds (m.level1Shown seq) :=
  Mod.only_trans (Mod.only_trans (Mod.only_trans (Mod.editRec_only m seq _ _)
    (Mod.only_mono (Mod.selfRec_only _ 1 seq) (by simp) fun _ h => List.mem_append_left _ (List.mem_append_right _ h)))
    (Mod.bump_only _ _ (by simp) fun _ h => List.mem_append_right _ h)) (Mod.only_puts _ _ _ (by simp [level1Flds]))

theorem Mod.level1Shown_duties (m : Mod) (seq : Nat) : (m.level1Shown seq).duties = m.duties :=
  (Mod.puts_duties _ _).trans ((Mod.bump_duties _ _).trans ((Mod.selfRec_duties _ 1 seq).trans (Mod.editRec_duties m seq _)))

theorem Mod.level1Shown_event (m : Mod) (seq : Nat) : (m.level1Shown seq).get R.FLT_EVT_ESC1 = 1 := by
  rw [Mod.level1Shown, Mod.get_puts_head _ _ _ (by decide) (Fld.apart_of_all (by simp))]
  rfl

/-- A reset that starts: its record, its entry in the list of resets, the bits that show it. -/
def Mod.resetShown (m : Mod) (blk inst seq : Nat) : Mod :=
  let q := m.selfRec 4 0 seq
  ({ q with flt.resets := q.flt.resets ++ [Reset.mk blk (resetInst blk inst) true [] (q.lostPorts blk inst) seq 0],
            flt.rstHist := (blk * 64 + inst, q.time.ticks) :: q.flt.rstHist }).puts [(R.BLK_STAT_RESET blk, 1), (R.FLT_STAT_SHADOW, 1)]

theorem Mod.startReset_eq (m : Mod) (blk inst seq : Nat) : m.startReset blk inst seq = (m.resetShown blk inst seq).resetEffect blk inst := rfl

/-- The weave's reset has no effect on the module's state beyond what shows it (Table 10-5). -/
theorem Mod.resetEffect_weave (m : Mod) (inst : Nat) : m.resetEffect 16 inst = m := rfl

theorem Mod.resetShown_only (m : Mod) (blk inst seq : Nat) :
    m.only [.flt, .log] (R.BLK_STAT_RESET blk :: R.FLT_STAT_SHADOW :: selfFlds) (m.resetShown blk inst seq) :=
  Mod.only_trans (Mod.only_trans (Mod.only_mono (m.selfRec_only 4 seq) (by simp) fun _ h => List.mem_cons_of_mem _ (List.mem_cons_of_mem _ h))
    (Mod.only_flt _ _ _ (by simp))) (Mod.only_puts _ _ _ (by simp))

theorem Mod.resetShown_pend (m : Mod) (blk inst seq : Nat) : (m.resetShown blk inst seq).flt.pend = m.flt.pend := by
  simp only [Mod.resetShown, Mod.puts_flt, Mod.pend_of_duties (m.selfRec_duties 4 seq)]

theorem Mod.resetShown_inReset (m : Mod) {blk : Nat} (inst seq : Nat) (h12 : blk ≠ 12) (h13 : blk ≠ 13) :
    (m.resetShown blk inst seq).inReset blk inst = true := by
  rw [Mod.resetShown, Mod.inReset, Mod.puts_flt]
  simp [h12, h13]

theorem Mod.resetShown_reset (m : Mod) (blk inst seq : Nat) : (m.resetShown blk inst seq).get (R.BLK_STAT_RESET blk) = 1 := by
  rw [Mod.resetShown, Mod.get_puts_head _ _ _ (by simp) (by simp [Fld.apart]; omega)]
  rfl

theorem Mod.resetShown_shadow (m : Mod) (blk inst seq : Nat) : (m.resetShown blk inst seq).get R.FLT_STAT_SHADOW = 1 :=
  Mod.get_put_same _ R.FLT_STAT_SHADOW 1 (by decide)

/-- Level 1 of a target that may be reset in every state, within RST_MAX and not yet held in a reset. -/
theorem Mod.level1_resets {m : Mod} {blk inst : Nat} (seq : Nat) (hs : m.pstate ≠ 1) (hon : m.pageOn blk = true)
    (hr : m.recentResets blk inst < max 1 (m.get R.FLT_REP_CFG_RST_MAX)) (ht : resetTarget blk = 1) (hn : m.inReset blk inst = false) :
    m.level1 blk inst seq = (m.level1Shown seq).startReset blk inst seq := by
  have free : (m.level1Shown seq).inReset blk inst = false :=
    (Mod.inReset_of_resets (Mod.resets_of_duties (m.level1Shown_duties seq)) blk inst).trans hn
  rw [Mod.level1, if_neg hs, if_neg (by simp [hon]), if_neg (by omega)]
  simp only [ht, Nat.reduceBEq, Bool.false_and, Bool.false_eq_true, if_false]
  rw [← Mod.level1Shown, if_neg (by simp [free])]

theorem Mod.dropPend_recentResets (m : Mod) (seq blk inst : Nat) : (m.dropPend seq).recentResets blk inst = m.recentResets blk inst := by
  have time : (m.dropPend seq).time = m.time := (m.dropPend_only seq).1 .time (by simp)
  rw [Mod.recentResets, Mod.recentResets, Mod.dropPend_flt, time, m.dropPend_get seq _ (by decide)]

theorem Mod.dropPend_inReset (m : Mod) (seq blk inst : Nat) : (m.dropPend seq).inReset blk inst = m.inReset blk inst :=
  Mod.inReset_of_resets (by rw [Mod.dropPend_flt]) blk inst

/-- An uncorrected record of the weave, whose level-1 reset is allowed, takes it (R312, Table 10-5). -/
theorem Mod.escalate_weave {m : Mod} {inst : Nat} (seq : Nat) (hl : bit (m.get R.FLT_L1_EN_EN) 16 = true) (hs : m.pstate ≠ 1)
    (hon : m.pageOn 16 = true) (hr : m.recentResets 16 inst < max 1 (m.get R.FLT_REP_CFG_RST_MAX)) (hn : m.inReset 16 inst = false) :
    m.escalate 16 inst 1 seq = (m.level1Shown seq).resetShown 16 inst seq := by
  have allowed : m.l1Allowed 16 = true := by rw [Mod.l1Allowed, hl]; rfl
  rw [Mod.escalate, if_neg (by decide), if_pos allowed, Mod.level1_resets seq hs hon hr rfl hn, Mod.startReset_eq, Mod.resetEffect_weave]

theorem Does.windowEndsInReset {s : State} {p : Pend} (hon : s.on) (hp : firstPend s.m.flt.pend = some p)
    (hd : p.deadline < s.m.time.ticks + 64000) (hc : p.cls = 1) (hb : p.blk = 16) (hl : bit (s.m.get R.FLT_L1_EN_EN) 16 = true)
    (hs : s.m.pstate ≠ 1) (hpage : s.m.pageOn 16 = true)
    (hr : s.m.recentResets 16 p.inst < max 1 (s.m.get R.FLT_REP_CFG_RST_MAX)) (hn : s.m.inReset 16 p.inst = false) :
    Does .slackExpiry s fun t => (∀ q ∈ t.m.flt.pend, q.seq ≠ p.seq) ∧ t.m.inReset 16 p.inst = true ∧ t.m.get (R.BLK_STAT_RESET 16) = 1 ∧
      t.m.get R.FLT_EVT_ESC1 = 1 ∧ t.m.get R.FLT_STAT_SHADOW = 1 ∧ t.m.pstate = s.m.pstate := by
  have dropped := fun g => s.m.dropPend_get p.seq g
  have state : (s.m.dropPend p.seq).pstate = s.m.pstate := dropped R.MGT_PSTATE_STATE (by decide)
  have escalated : (s.m.dropPend p.seq).escalate p.blk p.inst p.cls p.seq =
      ((s.m.dropPend p.seq).level1Shown p.seq).resetShown 16 p.inst p.seq := by
    rw [hb, hc]
    refine Mod.escalate_weave p.seq ?_ ?_ ?_ ?_ ((s.m.dropPend_inReset p.seq 16 p.inst).trans hn)
    · rwa [dropped _ (by decide)]
    · rwa [state]
    · rwa [Mod.pageOn_congr (dropped _ (by decide))]
    · rwa [Mod.dropPend_recentResets, dropped _ (by decide)]
  have closed := s.m.dropPend_closed p.seq
  refine ⟨_, exec_slackExpiry hon hp hd, ?_⟩
  rw [escalated]
  generalize s.m.dropPend p.seq = q at *
  have shown := q.level1Shown_only p.seq
  have event := q.level1Shown_event p.seq
  have duties := Mod.closed_of_duties (q.level1Shown_duties p.seq) closed
  have level : (q.level1Shown p.seq).pstate = q.pstate := Mod.only_get shown R.MGT_PSTATE_STATE (Fld.apart_of_all (by decide))
  generalize q.level1Shown p.seq = x at *
  have reset := x.resetShown_only 16 p.inst p.seq
  refine ⟨?_, x.resetShown_inReset _ _ (by decide) (by decide), x.resetShown_reset _ _ _,
    (Mod.only_get reset _ (Fld.apart_of_all (by decide))).trans event, x.resetShown_shadow _ _ _,
    ((Mod.only_get reset R.MGT_PSTATE_STATE (Fld.apart_of_all (by decide))).trans level).trans state⟩
  rw [Mod.resetShown_pend]
  exact duties

/-! ## Dispositions (R314, Table 10-6) -/

theorem Mod.dispPend_answered (m : Mod) : m.answered.dispPend = m.dispPend := by
  rw [Mod.dispPend, Mod.dispPend, Mod.answered_flt, Mod.answered_get, Mod.answered_time]

theorem Mod.dispHandled_eq {m : Mod} {p : Pend} (hp : m.dispPend = some p) (hc : p.cls = 1) :
    m.dispHandled = m.settleRec p.seq (fun r => { r with action := 0, disp := 1 }) := by
  simp only [Mod.dispHandled, hp, if_pos hc, Mod.settleRec]

theorem Mod.dispHold_eq {m : Mod} {p : Pend} (hp : m.dispPend = some p) (hc : p.cls = 2) :
    m.dispHold = m.settleRec p.seq (fun r => { r with action := 2, disp := 4 }) := by
  simp only [Mod.dispHold, hp, if_pos hc, Mod.settleRec]

theorem Mod.dispEscalate_eq {m : Mod} {p : Pend} (hp : m.dispPend = some p) (hc : p.cls = 1) (hl : m.l1Allowed p.blk = false) :
    m.dispEscalate = (m.settleRec p.seq (fun r => { r with disp := 2 })).setAction p.seq 0 := by
  have only := m.settleRec_only p.seq (fun r => { r with disp := 2 })
  simp only [Mod.dispEscalate, hp]
  exact Mod.escalate_closed p.seq hc ((Mod.l1Allowed_congr (Mod.only_get only _ (Fld.apart_of_all (by decide))) _).trans hl)

/-- What HANDLED, ESCALATE and HOLD leave: the record is pending no more, STATUS 0. -/
theorem Mod.settleRec_answers (m : Mod) (seq : Nat) (f : FRec → FRec) : (m.answered.settleRec seq f).closed seq ∧
    (m.answered.settleRec seq f).resp = 0 ∧ m.only [.flt, .log, .resp] pendFlds (m.answered.settleRec seq f) := by
  have only := m.answered.settleRec_only seq f
  exact ⟨Mod.settleRec_closed _ _ _, only.1 .resp (by simp),
    Mod.only_trans (Mod.only_mono (m.answered_only pendFlds) (by simp) fun _ h => h) (Mod.only_mono only (by simp) fun _ h => h)⟩

/-- A disposition that settles its record with an ACTION and its DISP. -/
theorem Does.settled {c : Instr} {s : State} {p : Pend} {k a d : Nat} {g : Mod → Mod}
    (h : exec c s = onMod (fun m => m.guardedR 0xE0D4 k g) s) (hw : s.m.wrStatus 0xE0D4 k = 0) (hon : s.on) (hp : s.m.dispPend = some p)
    (hg : ∀ m : Mod, m.dispPend = some p → g m = m.settleRec p.seq (fun r => { r with action := a, disp := d })) :
    Does c s fun t => (∀ q ∈ t.m.flt.pend, q.seq ≠ p.seq) ∧
      (∀ r ∈ t.m.flt.window, r.seq = p.seq → r.action = a ∧ r.disp = d) ∧ t.m.resp = 0 ∧ s.m.onlyParts [.flt, .log, .resp] t.m := by
  refine Does.ofGuardedR h hw hon ?_
  rw [hg _ (s.m.dispPend_answered.trans hp)]
  obtain ⟨closed, resp, only⟩ := s.m.settleRec_answers p.seq (fun r => { r with action := a, disp := d })
  refine ⟨closed, fun r hr hs => ?_, resp, only.1⟩
  obtain ⟨q, -, rfl⟩ := Mod.settleRec_mem hr hs
  exact ⟨rfl, rfl⟩

theorem Does.escalated {s : State} {p : Pend} (hw : s.m.wrStatus 0xE0D4 2 = 0) (hon : s.on) (hp : s.m.dispPend = some p) (hc : p.cls = 1)
    (hl : s.m.l1Allowed p.blk = false) :
    Does .dispEscalate s fun t => (∀ q ∈ t.m.flt.pend, q.seq ≠ p.seq) ∧
      (∀ r ∈ t.m.flt.window, r.seq = p.seq → r.action = 0 ∧ r.disp = 2) ∧ t.m.resp = 0 ∧ s.m.onlyParts [.flt, .log, .resp] t.m := by
  refine Does.ofGuardedR (f := Mod.dispEscalate) rfl hw hon ?_
  rw [Mod.dispEscalate_eq (s.m.dispPend_answered.trans hp) hc ((Mod.l1Allowed_congr (Mod.answered_get _ _) _).trans hl)]
  obtain ⟨closed, resp, only⟩ := s.m.settleRec_answers p.seq (fun r => { r with disp := 2 })
  have action := Mod.editRec_only (s.m.answered.settleRec p.seq (fun r => { r with disp := 2 })) p.seq (fun r => { r with action := 0 }) pendFlds
  refine ⟨Mod.closed_of_duties (Mod.editRec_duties _ _ _) closed, fun r hr hs => ?_, (action.1 .resp (by simp)).trans resp,
    Mod.onlyParts_trans only.1 (Mod.onlyParts_mono action.1 (by simp))⟩
  obtain ⟨q, hq, hqs, rfl⟩ := Mod.editRec_mem hr hs
  obtain ⟨o, -, rfl⟩ := Mod.settleRec_mem hq hqs
  exact ⟨rfl, rfl⟩

/-- The pending records once the window of one of them has started again. -/
def Mod.extendedPend (m : Mod) (seq : Nat) : List Pend :=
  m.flt.pend.map fun q => if q.seq == seq then { q with extended := true, deadline := m.time.ticks + m.get R.FLT_CFG_SLACK * tickUs } else q

theorem Mod.extendedPend_answered (m : Mod) (seq : Nat) : m.answered.extendedPend seq = m.extendedPend seq := by
  rw [Mod.extendedPend, Mod.extendedPend, Mod.answered_flt, Mod.answered_get, Mod.answered_time]

theorem Mod.extendedPend_mem {m : Mod} {seq : Nat} {q : Pend} (h : q ∈ m.extendedPend seq) (hs : q.seq = seq) :
    q.extended = true ∧ q.deadline = m.time.ticks + m.get R.FLT_CFG_SLACK * tickUs := by
  obtain ⟨o, -, rfl⟩ := List.mem_map.mp h
  by_cases named : o.seq = seq
  · rw [if_pos (by simp [named])]
    exact ⟨rfl, rfl⟩
  · rw [if_neg (by simp [named])] at hs
    exact absurd hs named

/-- The window of a record starts again. -/
def Mod.extendRec (m : Mod) (seq : Nat) : Mod :=
  (({ m with flt.pend := m.extendedPend seq }).editRec seq (fun r => { r with disp := 3 })).syncPend

theorem Mod.dispExtend_eq {m : Mod} {p : Pend} (hp : m.dispPend = some p) (he : p.extended = false) : m.dispExtend = m.extendRec p.seq := by
  simp only [Mod.dispExtend, hp, he, Bool.false_eq_true, if_false, Mod.extendRec, Mod.extendedPend]

theorem Mod.extendRec_pend (m : Mod) (seq : Nat) : (m.extendRec seq).flt.pend = m.extendedPend seq := by
  rw [Mod.extendRec, Mod.syncPend_flt, Mod.pend_of_duties (Mod.editRec_duties _ _ _)]

theorem Mod.extendRec_disp {m : Mod} {seq : Nat} {r : FRec} (h : r ∈ (m.extendRec seq).flt.window) (hs : r.seq = seq) : r.disp = 3 := by
  rw [Mod.extendRec, Mod.syncPend_flt] at h
  obtain ⟨q, -, -, rfl⟩ := Mod.editRec_mem h hs
  rfl

theorem Mod.extendRec_only (m : Mod) (seq : Nat) : m.only [.flt, .log] pendFlds (m.extendRec seq) :=
  Mod.only_trans (Mod.only_trans (Mod.only_flt m _ _ (by simp)) (Mod.editRec_only _ seq _ _))
    (Mod.only_mono (Mod.syncPend_only _) (by simp) fun _ h => h)

theorem Does.extended {s : State} {p : Pend} (hw : s.m.wrStatus 0xE0D4 3 = 0) (hon : s.on) (hp : s.m.dispPend = some p)
    (he : p.extended = false) :
    Does .dispExtend s fun t => (∀ q ∈ t.m.flt.pend, q.seq = p.seq →
        q.extended = true ∧ q.deadline = s.m.time.ticks + s.m.get R.FLT_CFG_SLACK * tickUs) ∧
      t.m.flt.pend.length = s.m.flt.pend.length ∧ (∀ r ∈ t.m.flt.window, r.seq = p.seq → r.disp = 3) ∧ t.m.resp = 0 ∧
      s.m.onlyParts [.flt, .log, .resp] t.m := by
  refine Does.ofGuardedR (f := Mod.dispExtend) rfl hw hon ?_
  rw [Mod.dispExtend_eq (s.m.dispPend_answered.trans hp) he]
  have only := s.m.answered.extendRec_only p.seq
  have pend := (s.m.answered.extendRec_pend p.seq).trans (s.m.extendedPend_answered p.seq)
  refine ⟨fun q hq hs => Mod.extendedPend_mem (m := s.m) (by rwa [pend] at hq) hs, ?_, fun r hr hs => Mod.extendRec_disp hr hs,
    only.1 .resp (by simp), Mod.onlyParts_trans (Mod.onlyParts_mono (s.m.answered_only []).1 (by simp)) (Mod.onlyParts_mono only.1 (by simp))⟩
  rw [pend, Mod.extendedPend, List.length_map]

/-- A disposition that finds no pending record is refused. -/
theorem Does.dispositionRefused {c : Instr} {k : Nat} {s : State} {f : Mod → Mod}
    (h : exec c s = onMod (fun m => m.guardedR 0xE0D4 k f) s) (hf : s.m.answered.dispPend = none → f s.m.answered = s.m.answered.dispRefused)
    (hw : s.m.wrStatus 0xE0D4 k = 0) (hon : s.on) (hp : s.m.dispPend = none) :
    Does c s fun t => t.m.resp = 1 ∧ t.m.get R.FLT_EVT_DISP_REF = 1 ∧ s.frame [.resp] [R.FLT_EVT_DISP_REF] t := by
  refine Does.ofGuardedR h hw hon ?_
  rw [hf (s.m.dispPend_answered.trans hp), Mod.dispRefused]
  have event : (s.m.answered.put R.FLT_EVT_DISP_REF 1).get R.FLT_EVT_DISP_REF = 1 := Mod.get_put_same _ R.FLT_EVT_DISP_REF 1 (by decide)
  have only : s.m.only [.resp] [R.FLT_EVT_DISP_REF] (s.m.answered.put R.FLT_EVT_DISP_REF 1) :=
    Mod.only_trans (s.m.answered_only _) (Mod.only_put _ _ _ _ (by simp))
  generalize s.m.answered.put R.FLT_EVT_DISP_REF 1 = q at *
  exact ⟨rfl, event, State.frame_of_only (Mod.only_trans only (Mod.only_resp q 1 _ (by simp)))⟩

theorem Does.dispositionOfNone {c : Instr} {k : Nat} {s : State}
    (hc : (c, k) ∈ [(Instr.dispHandled, 1), (.dispEscalate, 2), (.dispExtend, 3), (.dispHold, 4)]) (hw : s.m.wrStatus 0xE0D4 k = 0)
    (hon : s.on) (hp : s.m.dispPend = none) :
    Does c s fun t => t.m.resp = 1 ∧ t.m.get R.FLT_EVT_DISP_REF = 1 ∧ s.frame [.resp] [R.FLT_EVT_DISP_REF] t := by
  simp only [List.mem_cons, List.not_mem_nil, or_false, Prod.mk.injEq] at hc
  rcases hc with ⟨rfl, rfl⟩ | ⟨rfl, rfl⟩ | ⟨rfl, rfl⟩ | ⟨rfl, rfl⟩
  · exact Does.dispositionRefused (f := Mod.dispHandled) rfl (fun h => by simp only [Mod.dispHandled, h]) hw hon hp
  · exact Does.dispositionRefused (f := Mod.dispEscalate) rfl (fun h => by simp only [Mod.dispEscalate, h]) hw hon hp
  · exact Does.dispositionRefused (f := Mod.dispExtend) rfl (fun h => by simp only [Mod.dispExtend, h]) hw hon hp
  · exact Does.dispositionRefused (f := Mod.dispHold) rfl (fun h => by simp only [Mod.dispHold, h]) hw hon hp

/-! ## The release (R322, R324) -/

/-- The reset as released at tick `t`. -/
def Reset.freed (r : Reset) (t : Nat) : Reset := { r with held := false, relTick := t }

/-- The source whose first report carries RESTART: 64 stands for the whole block. -/
def Reset.source (r : Reset) : Nat × Nat := (r.blk, if r.blk = 12 ∨ (r.blk = 13 ∧ r.inst ≠ 7) then r.inst else 64)

/-- A reset's target is released and its first report is due to carry RESTART. -/
def Mod.freeReset (m : Mod) (r : Reset) : Mod :=
  { m with flt.resets := m.flt.resets.map (fun u => if u == r then u.freed m.time.ticks else u), flt.restartDue := m.flt.restartDue ++ [r.source] }

/-- The report of the frames a port lost with its retry store (R287). -/
def Mod.reportLost (lost : Nat) (m : Mod) (p : Nat) : Mod := if bit lost p then (m.raiseLim tickS 13 p 8 0 0).put R.LNK_EVT_LOST 1 else m

/-- The release as a whole. -/
def Mod.resetDone (m : Mod) (r : Reset) : Mod :=
  let q := (m.selfRec 5 0 r.seq).freeReset r
  (List.range 7).foldl (Mod.reportLost r.lost) (q.flag (R.BLK_STAT_RESET r.blk) (q.flt.resets.any (fun u => u.held && u.blk == r.blk)))

theorem exec_level1ResetDone {s : State} {b : Fin 21} {i : Fin 64} {r : Reset} (hon : s.on)
    (hr : s.m.flt.resets.find? (fun t => t.held && t.blk == b.val && t.inst == i.val) = some r) :
    exec (.level1ResetDone b i) s = .next { s with m := s.m.resetDone r } := by
  rw [show exec (.level1ResetDone b i) s = execLevel1ResetDone b i s from rfl, execLevel1ResetDone, onMod, if_neg hon]
  simp only [hr]
  rfl

/-- Beside the collector and the log the release shows itself in these fields. -/
def doneFlds (r : Reset) : List Fld := [R.BLK_STAT_RESET r.blk, R.LNK_EVT_LOST] ++ selfFlds ++ repFlds 13

theorem Mod.reportLost_only (r : Reset) (m : Mod) (p : Nat) : m.only [.flt] (doneFlds r) (m.reportLost r.lost p) := by
  unfold Mod.reportLost
  split
  · exact Mod.only_trans (Mod.only_mono (m.raiseLim_only _ 13 p 8 0 0) (by simp) fun _ h => List.mem_append_right _ h)
      (Mod.only_put _ _ _ _ (by simp [doneFlds]))
  · exact Mod.only_refl m _ _

theorem Mod.reportLost_duties (lost : Nat) (m : Mod) (p : Nat) : (m.reportLost lost p).duties = m.duties := by
  unfold Mod.reportLost
  split
  · exact (Mod.put_duties _ _ _).trans (m.raiseLim_duties _ _ _ _ _ _)
  · rfl

theorem Mod.resetDone_only (m : Mod) (r : Reset) : m.only [.flt, .log] (doneFlds r) (m.resetDone r) :=
  Mod.only_trans (Mod.only_trans (Mod.only_trans (Mod.only_mono (m.selfRec_only 5 r.seq) (by simp)
    fun _ h => List.mem_append_left _ (List.mem_append_right _ h)) (Mod.only_flt _ _ _ (by simp))) (Mod.only_put _ _ _ _ (by simp [doneFlds])))
    (Mod.only_foldl _ _ (fun q p _ => Mod.only_mono (q.reportLost_only r p) (by simp) fun _ h => h) _)

theorem Mod.resetDone_duties (m : Mod) (r : Reset) : (m.resetDone r).duties = ((m.selfRec 5 0 r.seq).freeReset r).duties := by
  rw [Mod.resetDone]
  exact List.foldlRecOn (motive := fun q : Mod => q.duties = ((m.selfRec 5 0 r.seq).freeReset r).duties) _ _ (Mod.put_duties _ _ _)
    fun q hq p _ => (q.reportLost_duties _ p).trans hq

theorem Mod.resetDone_resets (m : Mod) (r : Reset) :
    (m.resetDone r).flt.resets = m.flt.resets.map (fun u => if u == r then u.freed m.time.ticks else u) := by
  have time : (m.selfRec 5 0 r.seq).time = m.time := (m.selfRec_only 5 r.seq).1 .time (by simp)
  rw [Mod.resets_of_duties (m.resetDone_duties r), Mod.freeReset, Mod.resets_of_duties (m.selfRec_duties 5 r.seq), time]

theorem Mod.resetDone_restartDue (m : Mod) (r : Reset) : (m.resetDone r).flt.restartDue = m.flt.restartDue ++ [r.source] := by
  rw [Mod.restartDue_of_duties (m.resetDone_duties r), Mod.freeReset, Mod.restartDue_of_duties (m.selfRec_duties 5 r.seq)]

/-- A held reset that is released stands in the list as released, and no more as held. -/
theorem freed_of_map {l : List Reset} {r : Reset} (h : r ∈ l) (held : r.held = true) (t : Nat) :
    r ∉ l.map (fun u => if u == r then u.freed t else u) ∧ r.freed t ∈ l.map (fun u => if u == r then u.freed t else u) := by
  refine ⟨fun hm => ?_, List.mem_map.mpr ⟨r, h, if_pos (by simp)⟩⟩
  obtain ⟨u, -, hu⟩ := List.mem_map.mp hm
  by_cases same : u = r
  · rw [if_pos (by simp [same])] at hu
    have free : r.held = false := (congrArg Reset.held hu).symm
    exact Bool.noConfusion (free.symm.trans held)
  · rw [if_neg (by simp [same])] at hu
    exact same hu

theorem Does.released {s : State} {b : Fin 21} {i : Fin 64} {r : Reset} (hon : s.on)
    (hr : s.m.flt.resets.find? (fun t => t.held && t.blk == b.val && t.inst == i.val) = some r) :
    Does (.level1ResetDone b i) s fun t => r ∉ t.m.flt.resets ∧ { r with held := false, relTick := s.m.time.ticks } ∈ t.m.flt.resets ∧
      (b.val, if b.val = 12 ∨ (b.val = 13 ∧ i.val ≠ 7) then i.val else 64) ∈ t.m.flt.restartDue ∧ s.m.onlyParts [.flt, .log, .cap] t.m := by
  have found := List.find?_some hr
  simp only [Bool.and_eq_true, beq_iff_eq] at found
  obtain ⟨⟨held, blk⟩, inst⟩ := found
  obtain ⟨gone, free⟩ := freed_of_map (List.mem_of_find?_eq_some hr) held s.m.time.ticks
  have resets := s.m.resetDone_resets r
  have due := s.m.resetDone_restartDue r
  have only := s.m.resetDone_only r
  refine ⟨_, exec_level1ResetDone hon hr, ?_⟩
  generalize s.m.resetDone r = q at *
  rw [← blk, ← inst]
  refine ⟨by rwa [resets], by rw [resets]; exact free, ?_, Mod.onlyParts_mono only.1 (by simp)⟩
  rw [due]
  exact List.mem_append_right _ (List.mem_singleton_self _)

/-! ## The end of a shadow (R320, R321) -/

/-- A shadowed condition that is still active is raised again with PERSIST. -/
def Mod.reportPersist (m : Mod) (c : Cond) : Mod :=
  m.report { blk := c.blk, inst := c.inst, kind := c.kind, addr := c.addr, cls := c.cls, ind := .start, forced := c.forced, persist := true }

theorem Mod.reportPersist_only (m : Mod) (c : Cond) : m.only [.flt] (repFlds c.blk) (m.reportPersist c) := (m.report_frame _ fun _ h => h).symm

theorem Mod.reportPersist_duties (m : Mod) (c : Cond) : (m.reportPersist c).duties = m.duties := m.report_duties _

/-- The reset leaves the list, and the bits that show shadows follow. -/
def Mod.shadowLifted (m : Mod) (r : Reset) : Mod :=
  (({ m with flt.resets := m.flt.resets.erase r }).flag R.FLT_STAT_SHADOW (!(m.flt.resets.erase r).isEmpty)).put R.FLT_EVT_SHADOW_END 1

/-- The end of a shadow as a whole. -/
def Mod.endShadow (m : Mod) (r : Reset) : Mod := (m.persisting r).foldl Mod.reportPersist ((m.shadowLifted r).selfRec 6 0 r.seq)

theorem exec_shadowEnd {s : State} {b : Fin 21} {i : Fin 64} {r : Reset} (hon : s.on)
    (hr : s.m.flt.resets.find? (fun t => !t.held && s.m.shadowOver t && t.blk == b.val && t.inst == i.val) = some r) :
    exec (.shadowEnd b i) s =
      .next { s with m := s.m.endShadow r } := by
  rw [show exec (.shadowEnd b i) s = execShadowEnd b i s from rfl, execShadowEnd, onMod, if_neg hon]
  simp only [hr]
  rfl

/-- The collector's own register at `g` keeps its value at every report, where it stands apart from those of the reports of FLT. -/
theorem repFlds_apart {g : Fld} (b : Nat) (hf : Fld.clear (repFlds 14) g = true) (ha : g.addr % 4096 ≠ 0x14) : ∀ f ∈ repFlds b, f.apart g := by
  have own : ∀ lo w, Fld.apart ⟨b * 4096 + 0x14, lo, w⟩ g := fun _ _ => .inl (by simp only; omega)
  have apart := Fld.apart_of_clear hf
  simp only [repFlds, List.forall_mem_cons] at apart ⊢
  obtain ⟨latch, fatal, safeReq, active, -, -, rest⟩ := apart
  exact ⟨latch, fatal, safeReq, active, own _ _, own _ _, rest⟩

theorem Mod.endShadow_get (m : Mod) (r : Reset) {g : Fld} (hf : Fld.clear (selfFlds ++ repFlds 14) g = true) (ha : g.addr % 4096 ≠ 0x14) :
    (m.endShadow r).get g = (m.shadowLifted r).get g := by
  have apart := Fld.apart_of_clear hf
  have reports : Fld.clear (repFlds 14) g = true := by
    rw [Fld.clear, List.all_append, Bool.and_eq_true] at hf
    exact hf.2
  rw [Mod.endShadow]
  refine List.foldlRecOn (motive := fun q : Mod => q.get g = (m.shadowLifted r).get g) _ _ ?_ fun q hq c _ => ?_
  · exact Mod.only_get (Mod.selfRec_only _ 6 r.seq) g fun f h => apart f (List.mem_append_left _ h)
  · exact (Mod.only_get (q.reportPersist_only c) g (repFlds_apart c.blk reports ha)).trans hq

theorem Mod.endShadow_duties (m : Mod) (r : Reset) : (m.endShadow r).duties = (m.shadowLifted r).duties := by
  rw [Mod.endShadow]
  exact List.foldlRecOn (motive := fun q : Mod => q.duties = (m.shadowLifted r).duties) _ _ (Mod.selfRec_duties _ 6 r.seq)
    fun q hq c _ => (q.reportPersist_duties c).trans hq

theorem Mod.shadowLifted_resets (m : Mod) (r : Reset) : (m.shadowLifted r).flt.resets = m.flt.resets.erase r :=
  congrArg FltS.resets ((Mod.put_flt _ _ _).trans (Mod.put_flt _ _ _))

theorem Mod.shadowLifted_event (m : Mod) (r : Reset) : (m.shadowLifted r).get R.FLT_EVT_SHADOW_END = 1 :=
  Mod.get_put_same _ R.FLT_EVT_SHADOW_END 1 (by decide)

theorem Mod.shadowLifted_shadow (m : Mod) (r : Reset) : (m.shadowLifted r).get R.FLT_STAT_SHADOW = b2n (!(m.flt.resets.erase r).isEmpty) := by
  rw [Mod.shadowLifted, Mod.get_put_ne _ _ _ _ (.inl (by decide)), Mod.flag_eq, Mod.get_put_same _ R.FLT_STAT_SHADOW _ (by decide)]
  exact Nat.mod_eq_of_lt (Nat.lt_succ_of_le (b2n_le _))

theorem Mod.endShadow_parts (m : Mod) (r : Reset) : m.onlyParts [.flt, .log] (m.endShadow r) := by
  have lifted : m.onlyParts [.flt, .log] (m.shadowLifted r) :=
    Mod.onlyParts_trans (Mod.onlyParts_trans (Mod.only_flt m _ [] (by simp)).1 (Mod.onlyParts_put _ _ _ _)) (Mod.onlyParts_put _ _ _ _)
  rw [Mod.endShadow]
  exact List.foldlRecOn (motive := m.onlyParts [.flt, .log]) _ _ (Mod.onlyParts_trans lifted (Mod.selfRec_only _ 6 r.seq).1)
    fun q hq c _ => Mod.onlyParts_trans hq (Mod.onlyParts_mono (q.reportPersist_only c).1 (by simp))

theorem Does.shadowEnded {s : State} {b : Fin 21} {i : Fin 64} {r : Reset} (hon : s.on)
    (hr : s.m.flt.resets.find? (fun t => !t.held && s.m.shadowOver t && t.blk == b.val && t.inst == i.val) = some r) :
    Does (.shadowEnd b i) s fun t => t.m.flt.resets = s.m.flt.resets.erase r ∧ t.m.get R.FLT_EVT_SHADOW_END = 1 ∧
      t.m.get R.FLT_STAT_SHADOW = b2n (!(s.m.flt.resets.erase r).isEmpty) ∧ s.m.onlyParts [.flt, .log, .cap] t.m :=
  ⟨_, exec_shadowEnd hon hr, (Mod.resets_of_duties (s.m.endShadow_duties r)).trans (s.m.shadowLifted_resets r),
    (s.m.endShadow_get r (by decide) (by decide)).trans (s.m.shadowLifted_event r),
    (s.m.endShadow_get r (by decide) (by decide)).trans (s.m.shadowLifted_shadow r),
    Mod.onlyParts_mono (s.m.endShadow_parts r) (by simp)⟩

/-- Settles O46: each window's end by what it makes of its record, each disposition by the record it settles, releases and shadow ends by the
list of resets. -/
theorem ladder : Obligations.Ladder :=
  ⟨fun _ _ hon hp hd hc hl => Does.windowEndsUnreset hon hp hd hc hl,
    fun _ _ hon hp hd hc hb hl hs hpage hr hn => Does.windowEndsInReset hon hp hd hc hb hl hs hpage hr hn,
    fun _ _ hw hon hp hc => Does.settled (g := Mod.dispHandled) rfl hw hon hp fun _ h => Mod.dispHandled_eq h hc,
    fun _ _ hw hon hp hc hl => Does.escalated hw hon hp hc hl,
    fun _ _ hw hon hp he => Does.extended hw hon hp he,
    fun _ _ hw hon hp hc => Does.settled (g := Mod.dispHold) rfl hw hon hp fun _ h => Mod.dispHold_eq h hc,
    fun _ _ _ hc hw hon hp => Does.dispositionOfNone hc hw hon hp,
    fun _ _ _ _ hon hr => Does.released hon hr,
    fun _ _ _ _ hon hr => Does.shadowEnded hon hr⟩

end Sys2Proof.Machine
end
